-- ==== Sys2Proof/Word.lean ====
section
/-! DEFINITION. The word types of the BV-1 (R6: registers are 32 bits wide) and the node, tile and tenant index types. -/

namespace Sys2Proof

/-- A register word (R6). -/
abbrev Word := BitVec 32

/-- One byte of a memory, descriptor, image or plan. -/
abbrev Byte := BitVec 8

/-- A node of the 12 × 8 grid, N(column,row) with n = row × 12 + column ("Nodes", Table 1.1). -/
abbrev Node := Fin 96

/-- A compute tile site, tile index ty × 8 + tx (Table 1.1). -/
abbrev Tile := Fin 64

/-- A tenant ID, 0 to 63. -/
abbrev Tenant := Fin 64

/-- A torus port L0 to L5 (R19). -/
abbrev Port := Fin 6

/-- A steward core S0 to S4. -/
abbrev Core := Fin 5

end Sys2Proof
end

