-- ==== Sys2Proof/Operand.lean ====
section
/-! DEFINITION. What the outside world hands the block with a command: access paths, devices, findings and quantities measured
outside the digital die. -/

namespace Sys2Proof

/-- The issuers of register accesses (Table 5.1). -/
inductive Path where
  | pf
  | vf (t : Tenant)
  | steward (k : Core)
  | debug
  deriving DecidableEq, Repr

/-- The supervised PLLs (R49). -/
inductive PllId where
  | root
  | phy (p : Port)
  | hbm (s : Fin 6)
  | pcie
  deriving DecidableEq, Repr

/-- A port with a port reset (R78): a torus port or a tile port. -/
inductive PortId where
  | torus (p : Port)
  | tile (i : Tile)
  deriving DecidableEq, Repr

/-- What an NVM device answers to the probe (R103): its JEDEC ID, and from SFDP the modes of Table 3.3 it advertises (bit m − 1
for mode m), its greatest SCK in kHz and its size in bytes; no SFDP where the tables are absent or malformed (R106). -/
structure NvmDevice where
  jedec : BitVec 24
  sfdp : Option (BitVec 5 × BitVec 32 × BitVec 32)
  deriving DecidableEq, Repr

/-- The four CPL registers (R210). -/
inductive CplReg where
  | reset | lock | budget | fuse
  deriving DecidableEq, Repr

/-- A mesh link of network `net` (0 B, 1 C, 2 S) at a node, direction 0 −X, 1 +X, 2 −Y, 3 +Y (Table 3.2). -/
structure LinkRef where
  net : Fin 3
  node : Node
  dir : Fin 4
  deriving DecidableEq, Repr

/-- What BIST finds (Table 3.2): failed routers, mesh links down, mesh links with a spare wire in use, unrepairable slab pages
(die page numbers), failed stewards, an unrepairable shared SRAM, failed pseudo-channel pairs, failed tile sites. -/
structure BistFindings where
  routers : List Node
  linksDown : List LinkRef
  linksRepaired : List LinkRef
  pages : List (Fin 4096)
  stewards : BitVec 5
  sram : Bool
  pairs : BitVec 96
  tiles : BitVec 64
  deriving DecidableEq, Repr

/-- What a mesh receiver's error codes report on a word (R239, R279 to R281, R335): nothing, a corrected error, an uncorrectable
payload error, an uncorrectable tag error, an uncorrectable error in the K group; or an uncorrectable error in the route table or the control
state of the router itself (Table 16.2, ROUTER). -/
inductive MeshErr where
  | ok | corrected | payload | tag | credit | router
  deriving DecidableEq, Repr

/-- What the check bits or the parity of a lane show on an item from a tile (R452, R453). -/
inductive PadErr where
  | ok | corrected | uncorrectable
  deriving DecidableEq, Repr

/-- The header fields of a command word beside its opcode and len (Table 11.4), and what the check bits show on its words. -/
structure CmdHdr where
  ack : Bool
  rsv : BitVec 3
  tag : BitVec 16
  layer : BitVec 16
  oper : BitVec 16
  err : PadErr
  deriving DecidableEq, Repr

/-- The credit-controlled lanes toward the die (R463). -/
inductive Lane where
  | slabRead | slabWrite | fabricIn | command
  deriving DecidableEq, Repr

/-- What a receiver measures of a torus lane over a bar or a training: the sum of squared decision errors and its samples, the sum of path
metric margins (each at most 255) and its trellis steps, the sum of the magnitudes of the samples decided as outer levels and their number (R575 to
R577), the frequency offset in 0.1 ppm, the CTLE code that a sweep finds best, and the taps after adaptation (R571). -/
structure LaneMeas where
  port : Port
  lane : Fin 18
  errSq : Nat
  samples : Nat
  pmmSum : Nat
  steps : Nat
  magSum : Nat
  magCount : Nat
  freq : BitVec 16
  ctle : BitVec 4
  ffe : List (BitVec 8)
  dfe : List (BitVec 7)
  deriving DecidableEq, Repr

/-- The errors of Table 15.5, in its order. -/
inductive AerError where
  | receiver | badTlp | badDllp | replayRollover | replayTimeout
  | poisonedWrite | poisonedCompletion | completionTimeout
  | ecrc | malformed | receiverOverflow | unexpectedCompletion | unsupportedRequest
  deriving DecidableEq, Repr

/-- An error that a receiver on a packet's way sees: the receiving node, the direction it arrives from (0 −X to 3 +Y), and what
the codes report (R287). -/
structure CErr where
  node : Nat
  dir : Nat
  err : MeshErr
  deriving DecidableEq, Repr

/-- Errors in a fold unit while it combines: none, its adder's data, a context's state (Table 9.11). -/
inductive FoldErr where
  | ok | data | state
  deriving DecidableEq, Repr

end Sys2Proof
end

