-- ==== Sys2Proof/Syntax.lean ====
section
/-! DEFINITION. The commands of the block: one constructor of `Instr` for each row of spec/opcode_table.json, with the operands that
the outside world supplies: an access path, an address, a value, a place, a quantity measured outside the digital die. -/

namespace Sys2Proof

/-- The commands with operands, then those without, each group in the table's order. -/
inductive Instr where
  /-- PLL_LOCK (R49): A PLL locks after REFCLK becomes valid, and its lock bit in CLK_STATUS sets. -/
  | pllLock (w : PllId)
  /-- PHY_PLL_UNLOCK (R53): The PHY PLL of a torus port loses lock, and the port undergoes a port reset unless it is off or down. -/
  | phyPllUnlock (p : Port)
  /-- HBM_PLL_UNLOCK (R54): The PLL of an HBM stack loses lock: the die raises F0 and maps out the stack's memory nodes. Of stack k. -/
  | hbmPllUnlock (k : Fin 6)
  /-- PORT_RESET (R78): A torus port or a tile port is reset, which clears that port's state as Table 2.3 gives. The port reset accepted through
  ANC_RESET_CTL begins. -/
  | portReset (p : PortId)
  /-- PARTITION_RESET (R77): A partition reset runs the restart sequence for one tenant. -/
  | partitionReset (t : Tenant)
  /-- CPL_VALUE_WRITE (R210): A value write to a CPL register creates a pending value for its path and opens a 64-cycle guard window. Path p
  writes v. -/
  | cplValueWrite (p : Path) (c : CplReg) (v : Word)
  /-- CPL_GUARD_EXPIRED (R212): A guard window expires without a guard write, so the pending value is discarded and misuse cause 0x07 is logged. -/
  | cplGuardExpired (c : CplReg)
  /-- RESET_REQ_WARM (R85): An accepted ANC_RESET_CTL guard with kind 1 requests a warm reset, which begins in the next RCLK cycle. Path p writes
  the guard of the pending request with its complement. -/
  | resetReqWarm (p : Path)
  /-- RESET_REQ_COLD (R85): An accepted ANC_RESET_CTL guard with kind 2 requests a cold reset. Path p writes the guard of the pending request with
  its complement. -/
  | resetReqCold (p : Path)
  /-- RESET_REQ_PARTITION (R77): An accepted ANC_RESET_CTL guard with kind 3 requests a partition reset of the target tenant, logged as F1 with
  cause requested. Path p writes the guard of the pending request with its complement. -/
  | resetReqPartition (p : Path)
  /-- RESET_REQ_TORUS_PORT (R78): An accepted ANC_RESET_CTL guard with kind 4 requests a port reset of a torus port. Path p writes the guard of
  the pending request with its complement. -/
  | resetReqTorusPort (p : Path)
  /-- RESET_REQ_TILE_PORT (R78): An accepted ANC_RESET_CTL guard with kind 5 requests a port reset of a tile port. Path p writes the guard of the
  pending request with its complement. -/
  | resetReqTilePort (p : Path)
  /-- LOCK_SET (R207): An accepted ANC_LOCK guard ORs the value into the lock bits, which makes the governed fields read-only. Path p writes the
  guard with the complement of the pending value. -/
  | lockSet (p : Path)
  /-- BUDGET_SET (R759): An accepted PWA_BUDGET guard sets the budget and the thermal budget, which take effect at the window after next. Path p
  writes the guard with the complement of the pending value. -/
  | budgetSet (p : Path)
  /-- FUSE_BURN (R234): An accepted FUS_PROG_CTL guard with go set burns the requested row in SAFE_HOLD, or sets denied or err. Path p writes the
  guard with the complement of the pending value. -/
  | fuseBurn (p : Path)
  /-- FUSE_BURN_DONE (R236): A fuse burn completes its read-back, so busy clears, done sets, and err sets on a mismatch. `differs`: the read-back
  does not match. -/
  | fuseBurnDone (differs : Bool)
  /-- FUSE_LOAD_DONE (R93): FUSE_LOAD completes: the shadows, privilege map and debug permission apply and the PCIe endpoint is released, or an
  ECC error sends the die to SAFE_HOLD. `ue`: an ECC error that cannot be corrected; `corrected` errors that were. -/
  | fuseLoadDone (ue : Bool) (corrected : BitVec 8)
  /-- BIST_DONE (R97): BIST completes all its tests and applies its repairs, and the die either enters BOOT or enters SAFE_HOLD with a die code.
  With what the tests found. -/
  | bistDone (f : BistFindings)
  /-- NVM_PROBE (R103): The NVM controller resets the device, reads the JEDEC ID and SFDP, and selects the mode and SCK. `d` is what the device
  answers. -/
  | nvmProbe (d : NvmDevice)
  /-- NVM_COMMAND_TIMEOUT (R107): A single NVM command does not complete within 1 ms, which fails the current slot or slot-table copy. `copy` is
  the slot-table copy that is being read, if one is. -/
  | nvmCommandTimeout (copy : Fin 2)
  /-- SLOT_ATTEMPT (R118): The loader reads one slot and makes the checks of Tables 3.5 and 3.6 in order, recording the first failure code. Wrong
  bits of the read, by offset, in the probed mode and in the re-read of R108. -/
  | slotAttempt (errs : List (Nat × Byte)) (again : List (Nat × Byte))
  /-- PROG_READ (R135): Programmer command 1 reads 256 NVM bytes into BOOT_PROG_BUF. Path p writes BOOT_PROG_CTL; `d` is what the device answers a
  probe. -/
  | progRead (p : Path) (d : NvmDevice)
  /-- PROG_PROGRAM (R135): Programmer command 2 programs 256 bytes from BOOT_PROG_BUF. Path p writes BOOT_PROG_CTL; `d` is what the device answers
  a probe. -/
  | progProgram (p : Path) (d : NvmDevice)
  /-- PROG_ERASE_SECTOR (R135): Programmer command 3 erases a 4 KiB sector. Path p writes BOOT_PROG_CTL; `d` is what the device answers a probe. -/
  | progEraseSector (p : Path) (d : NvmDevice)
  /-- PROG_ERASE_BLOCK (R135): Programmer command 4 erases a 64 KiB block. Path p writes BOOT_PROG_CTL; `d` is what the device answers a probe. -/
  | progEraseBlock (p : Path) (d : NvmDevice)
  /-- PROG_UNKNOWN_COMMAND (R135): A programmer write with an unknown command sets err without touching the NVM, or sets denied outside SAFE_HOLD.
  Path p writes v to BOOT_PROG_CTL. -/
  | progUnknownCommand (p : Path) (v : Word) (d : NvmDevice)
  /-- PROG_COMMAND_DONE (R135): A programmer command ends: busy clears, done sets, and err sets on a timeout. -/
  | progCommandDone (timeout : Bool)
  /-- BAR_BOUNDARY (R56): A bar of 4,096 FCLK cycles ends and the bar counter inserts 0–3 rest cycles before the next bar. TCLK counts of the bar
  by tile, what the receiving lanes measured, and the rest cycle in which the command stops (0: the first cycle of the next bar). -/
  | barBoundary (tclk : List (Tile × BitVec 13)) (lanes : List LaneMeas) (rest : Fin 4)
  /-- TCLK_OUT_OF_RANGE (R73): The TCLK count is out of range for two consecutive bars, which sets tclk_range, resets the tile port and raises F1. -/
  | tclkOutOfRange (tile : Tile)
  /-- REGISTER_WRITE (R196): A write to a register without a row of its own changes its writable fields after the size, address, privilege and
  lock checks, or it is logged as a misuse. A write request of path p in its own view; `enables`: every byte enable is set. A device matters
  to the programmer only. -/
  | registerWrite (p : Path) (addr : BitVec 28) (data : List Word) (enables : Bool) (d : NvmDevice)
  /-- ALIAS_SET (R197): A write through the SET view ORs its value into the target's RW fields. -/
  | aliasSet (p : Path) (addr : BitVec 26) (v : Word)
  /-- ALIAS_CLR (R197): A write through the CLR view clears the target's RW bits that are 1 in the value. -/
  | aliasClr (p : Path) (addr : BitVec 26) (v : Word)
  /-- ALIAS_TGL (R197): A write through the TGL view inverts the target's RW bits that are 1 in the value. -/
  | aliasTgl (p : Path) (addr : BitVec 26) (v : Word)
  /-- EVT_READ (R194): A read of an _EVT register returns all its fields and clears the whole register. A read request of path p in its own view,
  `len` bytes; it also names registers that a read leaves as they are. -/
  | evtRead (p : Path) (addr : BitVec 28) (len : BitVec 7) (enables : Bool)
  /-- MISUSE_EVT_READ (R223): A read of ANC_MISUSE_EVT returns and clears it, and latches the reported misuse address for the reading path. -/
  | misuseEvtRead (p : Path)
  /-- LOW_WORD_READ (R202): A read of the low word of a 64-bit register latches the high word into the path's holding register. -/
  | lowWordRead (p : Path) (addr : BitVec 28)
  /-- CLK_BAR_LO_READ (R87): A read of CLK_BAR_LO latches bar number [47:32] into the path's CLK_BAR_HI. -/
  | clkBarLoRead (p : Path)
  /-- HIGH_WORD_WRITE (R203): A write to the high word of a 64-bit RW register loads the path's holding register only. -/
  | highWordWrite (p : Path) (addr : BitVec 28) (v : Word)
  /-- LOW_WORD_WRITE (R203): A write to the low word of a 64-bit RW register writes both words, taking the high word from the holding register. -/
  | lowWordWrite (p : Path) (addr : BitVec 28) (v : Word)
  /-- SNAPSHOT (R204): A write of take to ANC_SNAPSHOT copies every counter into its holding bank in one FCLK cycle and advances seq. -/
  | snapshot (p : Path)
  /-- IDX_DATA_READ (R218): A read of IDX_DATA is checked and held until the far register's value returns. -/
  | idxDataRead (p : Path)
  /-- IDX_DATA_WRITE (R218): A write to IDX_DATA is checked and posted to the far register, and busy sets. -/
  | idxDataWrite (p : Path) (v : Word)
  /-- IDX_FAR_WRITE_DONE (R218): A posted far write is performed and IDX_STATUS.busy clears. -/
  | idxFarWriteDone (p : Path)
  /-- IDX_FAR_TIMEOUT (R221): A far access has not completed within 1 µs, so it is abandoned and IDX_EVT.timeout sets. -/
  | idxFarTimeout (p : Path)
  /-- FLIT_INJECT (R267): A flit is granted a token at its source slot and injected with its deadline and seq stamped. Node n grants one token. -/
  | flitInject (n : Node)
  /-- FLIT_HOP (R252): A router takes a flit from an input, checks its tag and forwards it to its output ports, replicating multicast copies.
  Through output `out` of node n (1 −X, 2 +X, 3 −Y, 4 +Y); the receiver reports `err`. -/
  | flitHop (n : Node) (out : Fin 5) (err : MeshErr)
  /-- FLIT_SINK_DELIVERY (R265): A sink checks a flit in order and delivers it at the receive cursor, or drops it with a cause. `ue`: an
  uncorrectable word of the slab is read. -/
  | flitSinkDelivery (n : Node) (ue : Bool)
  /-- FLIT_LATE (R270): A flit reaches its deadline in a queue or at a sink and is dropped as late, raising the flow's lateness fault once per
  generation. At the head of input `port` and VC `sel`, or of the ring stream of flow `sel` (port 5). -/
  | flitLate (n : Node) (port : Fin 6) (sel : BitVec 13)
  /-- BNET_CREDIT_RETURN (R243): A receiver returns a VC credit on the K group after a flit leaves its buffer. Of the buffer of VC vc at input
  `port` of node n. -/
  | bnetCreditReturn (n : Node) (port : Fin 5) (vc : Fin 8)
  /-- PHASE_TARGET_WRITE (R261): A write of a phase-table target starts a switch with a gap bar. Path p writes v to entry e of BN_PHASE. -/
  | phaseTargetWrite (p : Path) (e : BitVec 12) (v : Word)
  /-- PHASE_SWITCH (R261): At the end of the gap bar the phase-table entry takes its target as the active phase. -/
  | phaseSwitch (e : BitVec 12)
  /-- FLOW_SLOT_ENABLE (R278): Setting BN_FLOW_CFG.valid makes the slot live, resets its seq and makes its fields read-only. Path p writes v to
  BN_FLOW_CFG of slot k of node n. -/
  | flowSlotEnable (p : Path) (n : Node) (k : BitVec 9) (v : Word)
  /-- CHANNEL_SEND (R302): A send on a channel is checked and accepted with a credit; without a credit a blocking send stalls and a posting send
  fails with CH_FULL. The agent of endpoint k of node n sends on channel c. -/
  | channelSend (n : Node) (k : BitVec 4) (c : BitVec 12) (data : BitVec 512)
  /-- CHANNEL_CREDIT_ARRIVAL (R304): A credit packet reaches the source and is counted, which lets a stalled blocking send be accepted. `errs` are
  what the receivers on the way report; `crossed`: the packet came across a crossing that found it damaged. -/
  | channelCreditArrival (c : BitVec 12) (errs : List CErr) (crossed : Bool)
  /-- CHANNEL_MSG_ARRIVAL (R319): A message reaches its destination and is checked, then enqueued or dropped. As for the credit. -/
  | channelMsgArrival (c : BitVec 12) (errs : List CErr) (crossed : Bool)
  /-- CHANNEL_DEQUEUE (R302): A dequeue takes the oldest message, frees its slot and returns a credit, or reports empty. `merge`: the credit joins
  one that has not left yet (R303). -/
  | channelDequeue (n : Node) (k : BitVec 4) (c : BitVec 12) (merge : Bool)
  /-- CHANNEL_ENABLE (R323): A CH_CFG write with valid = 1 validates the destination, then the source, and loads the credits, unless the rank
  check refuses it. Path p writes CH_CFG of channel c: v with valid = 1. -/
  | channelEnable (p : Path) (c : BitVec 12) (v : Word)
  /-- CHANNEL_DISABLE (R324): A CH_CFG write with valid = 0 clears the channel, discards stalled sends and messages, and releases the slots. Path
  p writes CH_CFG of channel c: v with valid = 0. -/
  | channelDisable (p : Path) (c : BitVec 12) (v : Word)
  /-- NODE_BELL_CLEAR (R313): A W1C write to NODE_BELL clears bells, and a bell sets again if its channels still hold messages above bell_level. -/
  | nodeBellClear (p : Path) (n : Node) (v : Word)
  /-- BELL_RING (R314): A steward write to NODE_BELL_RING sets die bells. -/
  | bellRing (p : Path) (n : Node) (v : Word)
  /-- REG_REQUEST (R316): A register request packet reaches its target block, is performed, and is answered with a REG_RSP packet. A read, or a
  write of a word, of path p as a packet. -/
  | regRequest (p : Path) (addr : BitVec 28) (write : Option Word) (errs : List CErr) (crossed : Bool)
  /-- REG_RESPONSE (R317): A register response reaches the entry node and completes the path's access. -/
  | regResponse (p : Path) (errs : List CErr) (crossed : Bool)
  /-- SYNC_CONTRIBUTE (R339): A tile node builds an UP packet from a member's contribution and injects it. Sync ID k. -/
  | syncContribute (tile : Tile) (k : BitVec 9)
  /-- SNET_UP_COMBINE (R341): A router or the anchor combines the UP packets of a round once every joined input has arrived, and forwards the
  result. Node n, sync ID k; the parent's receiver reports `err`. -/
  | snetUpCombine (n : Node) (k : BitVec 9) (err : MeshErr)
  /-- SNET_DOWN_DELIVER (R343): A member tile node receives the DOWN packet and delivers the release or result. `ueAt`: the unit of a tail's
  source that holds an uncorrectable word, if the count exchange starts its data. -/
  | snetDownDeliver (n : Node) (k : BitVec 9) (ueAt : Option Nat)
  /-- RING_PARTIAL_ARRIVAL (R351): A ring partial of a torus round arrives at a link node and is added in ring order. -/
  | ringPartialArrival (q : Port)
  /-- SYNC_CFG_DISABLE (R378): A write of valid = 0 to a barrier or Rimshot configuration discards every packet of that ID. Path p writes the
  configuration of sync ID k: v with valid = 0. -/
  | syncCfgDisable (p : Path) (k : BitVec 9) (v : Word)
  /-- GONG_FREEZE_REQ (R362): SN_GONG_CTL with go and op FREEZE sends a FREEZE targeting the bar that lies lead bars ahead. Path p writes
  SN_GONG_CTL: v with go and the op. -/
  | gongFreezeReq (p : Path) (v : Word)
  /-- GONG_THAW_REQ (R362): SN_GONG_CTL with go and op THAW sends a THAW targeting a later bar. Path p writes SN_GONG_CTL: v with go and the op. -/
  | gongThawReq (p : Path) (v : Word)
  /-- GONG_FAULT_REQ (R363): SN_GONG_CTL with go and op FAULT makes the anchor build a FAULT notice of cause FIRMWARE or FW_DIE. Path p writes
  SN_GONG_CTL: v with go and the op. -/
  | gongFaultReq (p : Path) (v : Word)
  /-- GONG_NOTICE_ARRIVAL (R369): A FREEZE or THAW notice arrives and is held pending, replacing any older notice of the same op. From this
  module's own nodes, or through torus port q. -/
  | gongNoticeArrival (q : Option Port)
  /-- REMOTE_FAULT_NOTICE (R366): A FAULT notice from another module raises F1 with cause REMOTE for the local partitions it concerns. -/
  | remoteFaultNotice (q : Port)
  /-- BEAT_ARRIVAL (R372): A BEAT reaches a follower's anchor, which computes the alignment error e for the bar counter. Through torus port q;
  `hold` is the time in this die, in eighths of a cycle. -/
  | beatArrival (q : Port) (hold : BitVec 24) (hops : BitVec 5)
  /-- FOLD_CONTRIBUTION_ARRIVAL (R403): A fold stream's contribution reaches its context and is classified by its cid to be accepted, discarded,
  held or treated as a fault. The head of input `port` and VC `sel` of node n, or of the torus stream of flow `sel` (port 0). -/
  | foldContributionArrival (n : Node) (port : Fin 5) (sel : BitVec 13)
  /-- FOLD_COMBINE (R389): A context combines block k once every input has it, presents or converts the result, and advances op after the last
  block. Context k of node n. -/
  | foldCombine (n : Node) (k : BitVec 6) (err : FoldErr)
  /-- FOLD_CONTEXT_ENABLE (R401): A steward write of FLD_CFG.valid = 1 arms a context with operation number 0. Path p writes FLD_CFG: v with valid
  = 1. -/
  | foldContextEnable (p : Path) (n : Node) (k : BitVec 6) (v : Word)
  /-- FOLD_CONTEXT_CLEAR (R413): A write of FLD_CFG.valid = 0 clears the context, and its queued flits are later discarded with NO_CONTEXT. Path p
  writes FLD_CFG: v with valid = 0. -/
  | foldContextClear (p : Path) (n : Node) (k : BitVec 6) (v : Word)
  /-- CCX (R414): Tile command CCX is accepted and its tail is held, or it is answered at once with QUEUE_FULL or BAD_GROUP. Header fields and
  body words of the command. -/
  | ccx (tile : Tile) (x : CmdHdr) (body : List (BitVec 64))
  /-- TAIL_START (R417): A held tail starts once its compute-done is accepted and the earlier tails of its group have completed, and it runs its
  checks. `ueAt`: the unit of the source that holds an uncorrectable word. -/
  | tailStart (tile : Tile) (tag : BitVec 16) (ueAt : Option Nat)
  /-- TAIL_COMPLETE (R447): A tail reaches its completing event and sends its CCX completion. -/
  | tailComplete (tile : Tile) (tag : BitVec 16)
  /-- SEQ_REPORT (R432): A member tile node's report of a tail start or completion reaches the group's sequencer. The oldest report on its way to
  the sequencer of node q. -/
  | seqReport (q : Node)
  /-- SEQ_ARM (R433): The sequencer arms the group's ring entries for an operation. Group j of the sequencer of node q. -/
  | seqArm (q : Node) (j : BitVec 6)
  /-- RING_RELAY (R431): An armed relay ring entry injects an arriving flit onto its out_flow, and it disarms after last. Entry k of node n takes
  the head of an input, named as for a fold contribution. -/
  | ringRelay (n : Node) (k : BitVec 5) (port : Fin 5) (sel : BitVec 13)
  /-- PORT_RELEASE (R458): After a launch the die deasserts TP_RST_N at a bar boundary and grants the initial credits. -/
  | portRelease (tile : Tile)
  /-- TCLK_START_TIMEOUT (R459): TCLK is not in range within 4 bars of a launch, so F1 TCLK is raised and the port stays in RESET. -/
  | tclkStartTimeout (tile : Tile)
  /-- SLAB_READ (R470): A slab-lane read request is checked against the lease map and queued. A 256-byte line; `err` is what the check bits of the
  request show, `ce` a corrected word of the slab. -/
  | slabRead (tile : Tile) (line : BitVec 14) (err : PadErr) (ce : Bool)
  /-- SLAB_READ_RETURN (R471): Slab read data returns on SL_RD with its status. -/
  | slabReadReturn (tile : Tile) (ue : Bool)
  /-- SLAB_WRITE (R469): A slab-lane write of 128 bytes is checked and performed under its byte enables. A 128-byte unit with its byte enables. -/
  | slabWrite (tile : Tile) (unit : BitVec 15) (en : BitVec 128) (data : BitVec 1024) (err : PadErr) (ce : Bool)
  /-- FABRIC_IN_FLIT (R476): A flit on FI is translated through TP_FMAP and queued for injection. Of plan-local flow `flow`. -/
  | fabricInFlit (tile : Tile) (flow : BitVec 13) (last : Bool) (poison : Bool) (data : BitVec 1024) (err : PadErr)
  /-- TILE_CREDIT (R464): The tile returns an FO or CO credit, and excess credits count CREDIT. k credits of CO, or of FO. -/
  | tileCredit (tile : Tile) (co : Bool) (k : BitVec 7)
  /-- LANE_OVERRUN (R463): An item arrives without a credit and is discarded, counting OVERRUN. On a lane; opcode and tag of the command that
  loses a word, on the command lane. -/
  | laneOverrun (tile : Tile) (lane : Lane) (cmd : Option (BitVec 8 × BitVec 16))
  /-- MALFORMED (R467): A framing error on the command lane ends a command with BAD_ARG or discards words, counting MALFORMED. Opcode and tag of
  the command that ends early, or a run of words without a header. -/
  | malformed (tile : Tile) (cmd : Option (BitVec 8 × BitVec 16))
  /-- NOP (R482): Command NOP completes at acceptance. Header fields and body words of the command. -/
  | nop (tile : Tile) (x : CmdHdr) (body : List (BitVec 64))
  /-- SEND (R485): Command SEND reads bytes from src and injects them on its flow. `ueAt`: the unit of the source that holds an uncorrectable
  word. -/
  | send (tile : Tile) (x : CmdHdr) (body : List (BitVec 64)) (ueAt : Option Nat)
  /-- SEND_DONE (R485): A SEND's last flit is granted injection and the SEND completes. -/
  | sendDone (tile : Tile) (tag : BitVec 16)
  /-- RECV (R485): Command RECV becomes the receive cursor of its flow after the earlier RECVs have completed. Header fields and body words of the
  command. -/
  | recv (tile : Tile) (x : CmdHdr) (body : List (BitVec 64))
  /-- RECV_DONE (R485): A RECV consumes its flit with last = 1 and completes, with TRUNCATED if bytes beyond cap were dropped. -/
  | recvDone (tile : Tile) (tag : BitVec 16)
  /-- MOVE (R486): Command MOVE copies bytes from src to dst through the mover. Header fields and body words of the command. -/
  | move (tile : Tile) (x : CmdHdr) (body : List (BitVec 64))
  /-- MOVE_DONE (R482): A MOVE's last unit is written and it completes. -/
  | moveDone (tile : Tile) (tag : BitVec 16)
  /-- MSG_SEND (R484): Command MSG_SEND sends a 64-byte message on a channel that this node sources. Header fields and body words of the command. -/
  | msgSend (tile : Tile) (x : CmdHdr) (body : List (BitVec 64))
  /-- MSG_DEQ (R484): Command MSG_DEQ dequeues a message from a channel into its completion, or returns EMPTY. `merge`: the credit joins one that
  has not left yet (R303). -/
  | msgDeq (tile : Tile) (x : CmdHdr) (body : List (BitVec 64)) (merge : Bool)
  /-- SYNC (R488): Command SYNC contributes to a barrier or Rimshot round, or is refused with SYNC_BUSY. Header fields and body words of the
  command. -/
  | sync (tile : Tile) (x : CmdHdr) (body : List (BitVec 64))
  /-- PHASE (R490): Command PHASE writes the target of a phase-table entry. Header fields and body words of the command. -/
  | phase (tile : Tile) (x : CmdHdr) (body : List (BitVec 64))
  /-- COMPUTE_DONE (R489): Command COMPUTE_DONE releases the held CCX tail of its tag. Header fields and body words of the command. -/
  | computeDone (tile : Tile) (x : CmdHdr) (body : List (BitVec 64))
  /-- LEASE_ALLOC (R531): Command LEASE_ALLOC leases the lowest free run of slab pages or HBM slots, or completes with NO_SPACE. Header fields and
  body words of the command. -/
  | leaseAlloc (tile : Tile) (x : CmdHdr) (body : List (BitVec 64))
  /-- LEASE_ALLOC_DONE (R533): A LEASE_ALLOC that selected a page still being zeroed completes when the zeroing has finished. -/
  | leaseAllocDone (tile : Tile) (tag : BitVec 16)
  /-- LEASE_FREE (R535): Command LEASE_FREE releases a unit that the tenant holds, or is refused with FREE_NOT_OWNER or FREE_NOT_HELD. Header
  fields and body words of the command. -/
  | leaseFree (tile : Tile) (x : CmdHdr) (body : List (BitVec 64))
  /-- BELL_CLEAR (R491): Command BELL_CLEAR writes its mask to NODE_BELL. Header fields and body words of the command. -/
  | bellClear (tile : Tile) (x : CmdHdr) (body : List (BitVec 64))
  /-- CNT_REPORT (R828): Command CNT_REPORT writes tile counters TC within the counter-report window, or is answered with NO_WINDOW. Header fields
  and body words of the command. -/
  | cntReport (tile : Tile) (x : CmdHdr) (body : List (BitVec 64))
  /-- JOB_DONE (R483): Command JOB_DONE records that the tile has finished its part in the current generation. Header fields and body words of the
  command. -/
  | jobDone (tile : Tile) (x : CmdHdr) (body : List (BitVec 64))
  /-- UNKNOWN_OPCODE (R482): A command with an undefined opcode is answered with BAD_OPCODE. An opcode that Table 11.6 does not define. -/
  | unknownOpcode (tile : Tile) (op : BitVec 8) (x : CmdHdr) (body : List (BitVec 64))
  /-- COMPLETION_DELIVER (R492): A completion is delivered on CO, which frees its tag. -/
  | completionDeliver (tile : Tile)
  /-- VIOL_LEAK (R512): Every leak_bars bars, TP_VIOL_CNT falls by 1. -/
  | violLeak (tile : Tile)
  /-- DRAIN_REQUEST (R500): The die raises SB_DRAIN_REQ and the port enters DRAINING. -/
  | drainRequest (tile : Tile)
  /-- DRAIN_ACK (R501): The tile raises SB_DRAIN_ACK and the port enters DRAINED. The tile's acknowledge takes a level. -/
  | drainAck (tile : Tile) (level : Bool)
  /-- DRAIN_TIMEOUT (R501): The port has not drained after drain_bars bars, so it enters DRAINED and counts DRAIN_LATE. -/
  | drainTimeout (tile : Tile)
  /-- DRAIN_RELEASE (R503): The die lowers SB_DRAIN_REQ, and the port returns to ACTIVE once the tile has lowered its acknowledge. -/
  | drainRelease (tile : Tile)
  /-- TILE_FAULT (R504): The tile raises SB_FAULT with a code, and F1 TILE is raised for the partition. `early`: the tile releases its request
  before the acknowledge. -/
  | tileFault (tile : Tile) (code : BitVec 8) (early : Bool)
  /-- HANDSHAKE_VIOLATION (R498): A tile request released early, or a stray tile acknowledge, counts HANDSHAKE. -/
  | handshakeViolation (tile : Tile)
  /-- CNT_WINDOW_CLOSE (R505): SB_CNT_WIN falls after cnt_win_bars bars. -/
  | cntWindowClose (tile : Tile)
  /-- POWER_REQUEST (R507): A tile sends a power request with its demand and its reported draw. `early`: the tile releases its request before the
  acknowledge. -/
  | powerRequest (tile : Tile) (demand : BitVec 9) (draw : BitVec 9) (early : Bool)
  /-- POWER_GRANT_ACK (R509): The tile acknowledges a grant, and pending grants and increases that fit are sent. -/
  | powerGrantAck (tile : Tile)
  /-- GRANT_ACK_LATE (R509): A grant is not acknowledged within 1 bar, which counts PWR_LATE. -/
  | grantAckLate (tile : Tile)
  /-- SITE_RETIRE (R516): A steward write of TP_CFG.retire marks the site to enter MASKED at its next port reset. Path p writes TP_CFG: v with
  retire = 1. -/
  | siteRetire (p : Path) (tile : Tile) (v : Word)
  /-- PATROL_SCRUB (R521): Every 1,024 cycles the patrol reads a slab line and corrects it, retiring an unheld page or raising F1 on an
  uncorrectable error. `ce` words of the line were corrected, `ue` one was not. -/
  | patrolScrub (tile : Tile) (ce : BitVec 5) (ue : Bool)
  /-- PAGE_ZERO_DONE (R533): The zeroing of a freed slab page finishes. Slab page g of the die. -/
  | pageZeroDone (g : Fin 4096)
  /-- GRANULE_ZERO (R533): The background engine zeroes a set HBM granule and clears its zero-map bit. At memory node m. -/
  | granuleZero (m : Fin 12)
  /-- MEMORY_PATH_ACCESS (R539): A tile node's access to HBM or a host window travels the memory path and is lease-checked when it is performed.
  The access `id`; `data` what host memory holds, `repeats` commands repeated for parity, `ok` the PCIe request's success, `ce` and `ue`
  errors of the read, `dead` a pair still in error after 4 repeats. -/
  | memoryPathAccess (id : Nat) (data : List Byte) (repeats : BitVec 3) (ok : Bool) (ce : Bool) (ue : Bool) (dead : Bool)
  /-- HBM_PAIR_FAIL (R546): An HBM pair fails in RUN and is mapped out, which raises F0. Pair q: stack × 16 + pair of the stack. -/
  | hbmPairFail (q : Fin 96)
  /-- LEASE_WRITE (R549): A steward write to SLB_LEASE or SLB_HLEASE performs a lease operation. Path p writes SLB_HLEASE or SLB_LEASE of unit or
  page u. -/
  | leaseWrite (p : Path) (hbm : Bool) (u : BitVec 16) (v : Word)
  /-- TRAIN_CAL_DONE (R580): A port finishes receiver calibration and enters SB_ACQ. -/
  | trainCalDone (p : Port)
  /-- TRAINING_UNIT_RX (R581): A training unit with a good check arrives from the peer and updates the training state. -/
  | trainingUnitRx (p : Port) (u : BitVec 64)
  /-- SB_ACQ_DONE (R582): The port has received the peer's units with seen = 1 and enters DATA_EQ. What the lanes measured. -/
  | sbAcqDone (p : Port) (ms : List LaneMeas)
  /-- DATA_EQ_DONE (R582): Every lane has adapted, or the time bound has passed, and the port enters SELECT. What the lanes measured. -/
  | dataEqDone (p : Port) (ms : List LaneMeas)
  /-- LANE_SELECT (R583): Each end derives the lane set of each direction, or sends the port to WAIT on failure. -/
  | laneSelect (p : Port)
  /-- PORT_ACTIVE (R584): Both ends report SELECT with seen = 1, so the port enters ACTIVE and starts bursts. -/
  | portActive (p : Port)
  /-- TRAIN_WAIT_EXPIRY (R579): 16 ms in WAIT have passed and the port re-enters CAL. -/
  | trainWaitExpiry (p : Port)
  /-- PREAMBLE_DETECT (R564): A waiting lane detects a preamble and searches its window for the sync word, starting the burst or setting
  sync_fail. The signs of the preamble's symbols on lane k, and the window that follows. -/
  | preambleDetect (p : Port) (k : Fin 18) (signs : List Bool) (win : List Bool)
  /-- BURST_END (R566): Two marker words end a burst and the lane enters its receive sleep state. Two words of lane k. -/
  | burstEnd (p : Port) (k : Fin 18) (w1 : BitVec 64) (w2 : BitVec 64)
  /-- LANE_LOS (R566): A lane's signal disappears without a marker, which sets los and counts an error frame. -/
  | laneLos (p : Port) (k : Fin 18)
  /-- SIDEBAND_LOST (R587): The sideband receiver loses signal and sees no preamble within 1 µs, so the port starts a warm training. -/
  | sidebandLost (p : Port)
  /-- LANE_ISOLATE (R589): The receiving end isolates a lane and sends ISOLATE, and the port goes DOWN if too few lanes remain. -/
  | laneIsolate (p : Port) (k : Fin 18)
  /-- ISOLATE (R590): Lane command ISOLATE at the transmitter stops the lane, or moves the sideband to the spare, and substitutes a standby spare.
  The lane command at the front. -/
  | isolate (p : Port)
  /-- REWAKE (R594): Lane command REWAKE makes the transmitter restart the lane's burst with a fresh preamble and sync word. The lane command at
  the front. -/
  | rewake (p : Port)
  /-- BAD_LANE_COMMAND (R588): A lane command with an unknown op or lane is ignored and sets bad_cmd. The lane command at the front. -/
  | badLaneCommand (p : Port)
  /-- DIRECTION_SLEEP (R598): At a bar start a quiet direction puts its data lanes to sleep. -/
  | directionSleep (p : Port)
  /-- DIRECTION_WAKE (R599): A sleeping direction wakes for planned tokens or at a link-layer request. -/
  | directionWake (p : Port)
  /-- FRAME_TRANSMIT (R609): A free lane starts the next frame: an SBF, a replay or a new DATA frame. Lane k is free. -/
  | frameTransmit (p : Port) (k : Fin 18)
  /-- FRAME_RECEIVE (R612): A frame arrives and is checked, stored, discarded as a duplicate or counted as a violation, and its ack and lane_prev
  are processed. The bytes of a frame on lane k. -/
  | frameReceive (p : Port) (k : Fin 18) (b : List Byte)
  /-- CONTROL_WORD_RX (R607): A control word arrives, carrying ack, credits and a possible NAK. The bytes of a control word on lane k. -/
  | controlWordRx (p : Port) (k : Fin 18) (b : List Byte)
  /-- FRAME_DELIVER (R624): A stored frame is delivered in seq order, and each flit is checked and handed to the receiving flow. -/
  | frameDeliver (p : Port)
  /-- FRAME_RELEASE (R620): A frame's flits have all left the receive buffer, so a credit is released. -/
  | frameRelease (p : Port)
  /-- NAK_RECEIVE (R616): A NAK names a frame and the transmitter replays it. -/
  | nakReceive (p : Port) (seq : BitVec 16)
  /-- REPLAY_TIMEOUT (R616): replay_rtt passes without an ack and the oldest unacknowledged frame is replayed; a ninth replay resets the port. -/
  | replayTimeout (p : Port)
  /-- SIDEBAND_UNIT_RX (R629): A sideband unit arrives and is accepted in useq order, or discarded with a NAK. On lane k, `part` eighths of a
  cycle after the cycle began. -/
  | sidebandUnitRx (p : Port) (k : Fin 18) (part : Fin 8) (u : BitVec 64)
  /-- SIDEBAND_TIMEOUT (R629): sb_timeout passes without uack advancing and the sideband resends from its oldest unit. -/
  | sidebandTimeout (p : Port)
  /-- IDENT_RECEIVE (R635): The peer's IDENT units are checked, and the port enters UP or goes DOWN with cause IDENT. `rtt` is the round trip that
  the test frame measured. -/
  | identReceive (p : Port) (rtt : BitVec 16)
  /-- ECHO (R633): An ECHO is answered with ECHO_REPLY after 64 cycles, and the reply measures the sideband delay. -/
  | echo (p : Port)
  /-- PORT_DECLARED_DOWN (R636): A port is declared down, sends PORT_DOWN, starts any detour and raises the faults of R638. -/
  | portDeclaredDown (p : Port)
  /-- PORT_RETURN_TIMEOUT (R636): A port does not return to UP within 1 ms or 4 ms of a port reset and is declared down. -/
  | portReturnTimeout (p : Port)
  /-- DTR_RECEIVE (R645): A detour frame is relayed over the bridge or taken by the down port's receive state in orig_seq order. -/
  | dtrReceive (p : Port)
  /-- PEER_VIOL_LEAK (R654): Every leak_bars bars, LNK_VIOL_CNT falls by 1. -/
  | peerViolLeak (p : Port)
  /-- LAUNCH_DOORBELL (R677): A write of 1 to HST_LAUNCH_DB copies the descriptor and starts a launch, or is ignored while busy. VF t + 1 writes
  it. -/
  | launchDoorbell (t : Tenant)
  /-- PLAN_READ_DONE (R679): The plan read from host memory completes or fails with PLAN_READ. The bytes that host memory gave, if the read
  succeeds. -/
  | planReadDone (t : Tenant) (bytes : List Byte) (ok : Bool)
  /-- ADMISSION (R180): A steward checks a plan in the order of Table 4.24 and posts the launch result. -/
  | admission (t : Tenant)
  /-- GEN_WAIT_EXPIRY (R698): The 16 ms reuse guard of a generation value expires and the held admission continues. -/
  | genWaitExpiry (t : Tenant)
  /-- JOB_STOP (R683): A write of HST_JOB_CTL.stop raises F1 requested for a running job, or is held while admitting. VF t + 1 writes it. -/
  | jobStop (t : Tenant)
  /-- RELAUNCH (R682): After a fault restart is ready, the steward re-admits its plan copy while relaunches remain. -/
  | relaunch (t : Tenant)
  /-- BAR2_READ (R667): A host read through VF BAR2 is lease-checked and answered, with zeros when refused. `len` bytes at an offset of the BAR;
  `err` is what the memory's check bits show. -/
  | bar2Read (t : Tenant) (off : BitVec 40) (len : BitVec 13) (err : PadErr)
  /-- BAR2_WRITE (R667): A host write through VF BAR2 is lease-checked and performed, or discarded. Bytes from an offset of the BAR, none where
  the byte enable is 0. -/
  | bar2Write (t : Tenant) (off : BitVec 40) (data : List (Option Byte))
  /-- MSIX_SEND (R673): A vector request is sent as an MSI-X message, or held pending while the vector is masked. Vector v of function fn (0 the
  PF). -/
  | msixSend (fn : Fin 65) (v : Fin 32)
  /-- AER_ERROR (R675): A PCIe error of Table 15.5 is reported through AER. The function addressed or requesting. -/
  | aerError (e : AerError) (fn : Fin 65)
  /-- VF_FLR (R692): A VF function-level reset resets the VF's state and runs the partition reset. -/
  | vfFlr (t : Tenant)
  /-- VF_DISABLE (R662): Clearing VF Enable or lowering NumVFs acts as a VF function-level reset on each VF that disappears. The VFs that
  disappear. -/
  | vfDisable (vfs : List Tenant)
  /-- WINDOW_WITHDRAW (R686): A write that changes an in-use host window withdraws it from the running job. Path p writes the base (low, high) or
  the size of window w of tenant t. -/
  | windowWithdraw (p : Path) (t : Tenant) (w : Fin 16) (part : Fin 3) (v : Word)
  /-- RELAY_SEND (R688): HST_RELAY_TX_CTL with go sends a message on an H-sourced channel. A path writes HST_RELAY_TX_CTL with go and a channel;
  none: the request that stands there is carried out. -/
  | relaySend (w : Option (Path × BitVec 12))
  /-- RELAY_DEQUEUE (R688): HST_RELAY_RX_CTL with go dequeues a message from an H-destined channel. A path writes HST_RELAY_RX_CTL with go and a
  channel; none: the request that stands there is carried out. -/
  | relayDequeue (w : Option (Path × BitVec 12)) (merge : Bool)
  /-- RESTART_DRAIN_DONE (R720): Every tile port of the restarting partition is DRAINED, so the sweep invalidates the tenant's state. -/
  | restartDrainDone (t : Tenant)
  /-- RESTART_SWEEP_DONE (R721): The sweep completes and quiesce is complete, so the scrub of R543 starts. -/
  | restartSweepDone (t : Tenant)
  /-- RESTART_READY (R720): The scrub completes, the state becomes IDLE or ADMITTING, and ready sets. -/
  | restartReady (t : Tenant)
  /-- JOB_END_COMPLETE (R702): A write of TNT_CTL.end while RUNNING ends the job with end_cause 1. Path p writes TNT_CTL.end. -/
  | jobEndComplete (p : Path) (t : Tenant)
  /-- START_ROUND_JOIN (R706): A write of TNT_CTL.start contributes the module to round 0 of the start barrier. Path p writes TNT_CTL.start. -/
  | startRoundJoin (p : Path) (t : Tenant)
  /-- START_BELL (R708): The start round completes or no round is needed, so the start bells ring and the state becomes RUNNING. -/
  | startBell (t : Tenant)
  /-- START_TIMEOUT (R709): The start round has not completed after start_bars bars, so F1 START_TIMEOUT is raised. -/
  | startTimeout (t : Tenant)
  /-- POWER_WINDOW_COMPUTE (R753): At each power window start the arbiter computes allocations and grants and sends the decreases. What each
  sensor reports (mean, peak, valid), and the temperature. -/
  | powerWindowCompute (sensors : List (BitVec 12 × BitVec 12 × Bool)) (temp : BitVec 8)
  /-- START_GRANT (R762): At the bar boundary after a partition enters STARTING, its tiles receive start grants. -/
  | startGrant (t : Tenant)
  /-- DROOP_TRIP (R764): A rail falls below its threshold, so its detector gates injection at the fed tile nodes. Detector k. -/
  | droopTrip (k : BitVec 4)
  /-- THERM_N_CHANGE (R864): THERM_N settles at a new level after four agreeing samples. -/
  | thermNChange (level : Bool)
  /-- HEARTBEAT_WRITE (R778): Core k writes STW_HEARTBEATk, which resets its age. -/
  | heartbeatWrite (k : Core) (v : Word)
  /-- STEWARD_HEARTBEAT_FAIL (R779): An active core's heartbeat age reaches 4, so the core fails and its duty passes to S4 or under R730. -/
  | stewardHeartbeatFail (k : Core)
  /-- STEWARD_CORE_UE (R774): An uncorrectable error in a core fails that core, or in the shared SRAM raises F0. In a core, or in the shared
  memory, found at node n. -/
  | stewardCoreUe (core : Option Core) (n : Node)
  /-- MTIME_INTERRUPT (R775): STW_MTIME reaches a core's compare value and raises its timer interrupt. -/
  | mtimeInterrupt (k : Core)
  /-- MBOX_DOORBELL (R789): A write of STW_MBOX_DB.go sets busy and raises the mailbox source of the duty-0 holder. -/
  | mboxDoorbell (p : Path)
  /-- MBOX_DONE (R790): A steward write of STW_MBOX_DONE clears busy, sets done and rings the PF vector. -/
  | mboxDone (p : Path)
  /-- INFO (R793): Service INFO returns firmware version, image ID, duty and status. A request in the mailbox, or in a relay channel whose
  response goes to the other. -/
  | info (via : Option (BitVec 12 × BitVec 12))
  /-- NVM_READ (R794): Service NVM_READ copies NVM bytes to host memory. A request in the mailbox, or in a relay channel whose response goes to
  the other. `ok`: the host takes the data; `timeout`: an NVM command times out. -/
  | nvmRead (via : Option (BitVec 12 × BitVec 12)) (ok : Bool) (timeout : Bool)
  /-- NVM_WRITE (R795): Service NVM_WRITE programs NVM from host memory unless it overlaps the loaded slot without force. A request in the
  mailbox, or in a relay channel whose response goes to the other. `data` is what host memory holds; `stop` the pages programmed before a host
  request fails (true) or an NVM command times out. -/
  | nvmWrite (via : Option (BitVec 12 × BitVec 12)) (data : List Byte) (stop : Option (Nat × Bool))
  /-- NVM_ERASE (R795): Service NVM_ERASE erases an NVM range unless it overlaps the loaded slot without force. A request in the mailbox, or in a
  relay channel whose response goes to the other. `stop`: the erase commands that end before one times out. -/
  | nvmErase (via : Option (BitVec 12 × BitVec 12)) (stop : Option Nat)
  /-- RETIRE_SITE (R793): Service RETIRE_SITE retires a tile site. A request in the mailbox, or in a relay channel whose response goes to the
  other. -/
  | retireSite (via : Option (BitVec 12 × BitVec 12))
  /-- COUNTER_DUMP (R845): Service COUNTER_DUMP writes a counter dump to host memory. A request in the mailbox, or in a relay channel whose
  response goes to the other. `ok`: the host takes the data. -/
  | counterDump (via : Option (BitVec 12 × BitVec 12)) (ok : Bool)
  /-- HANG_REPORT (R845): Service HANG_REPORT writes a kept wait-for report to host memory. A request in the mailbox, or in a relay channel whose
  response goes to the other. `ok`: the host takes the data. -/
  | hangReport (via : Option (BitVec 12 × BitVec 12)) (ok : Bool)
  /-- BAD_SERVICE (R793): A request with an unknown service code is answered with BAD_SERVICE. A request in the mailbox, or in a relay channel
  whose response goes to the other. -/
  | badService (via : Option (BitVec 12 × BitVec 12))
  /-- VF_IRQ (R797): A steward write to STW_VF_IRQ sends vector 4–31 of a tenant's VF. -/
  | vfIrq (p : Path) (v : Word)
  /-- CORE_HALT (R805): A core enters debug mode and the partitions it affects enter HALTED and drain. -/
  | coreHalt (k : Core)
  /-- CORE_RESUME (R806): No affecting core remains halted, so the partition returns to RUNNING and the drain is released. -/
  | coreResume (k : Core)
  /-- BREAK_SCOPE_WRITE (R804): A write to STW_BREAK_CTL changes the drain scope at once, halting or releasing partitions. -/
  | breakScopeWrite (p : Path) (v : Word)
  /-- SAMPLE_PRELOAD (R808): TAP instruction SAMPLE/PRELOAD samples and loads the boundary register. Levels and drive of the NVM pins as the
  controller has them, and what the device drives. `load` is shifted in. -/
  | samplePreload (nvm : BitVec 12) (nvmOn : Bool) (dq : BitVec 9) (load : BitVec 28)
  /-- EXTEST (R808): TAP instruction EXTEST drives pins from the boundary register and blocks the NVM. Levels and drive of the NVM pins as the
  controller has them, and what the device drives. `load` is shifted in, if a scan loads the register. -/
  | extest (nvm : BitVec 12) (nvmOn : Bool) (dq : BitVec 9) (load : Option (BitVec 28))
  /-- DMI (R802): A DMI access through the JTAG debug transport reaches the RISC-V debug module. A read, or a write of a word. -/
  | dmi (a : BitVec 7) (write : Option Word)
  /-- DEBUG_SYSBUS_ACCESS (R232): A debug system-bus access reaches the register space under the debug privilege codes. A read, or a write of a
  word. -/
  | debugSysbusAccess (addr : BitVec 28) (write : Option Word)
  /-- PMC_FREEZE (R830): PMC_FREEZE_REQ with go and op FREEZE sends a Gong FREEZE. Path p writes PMC_FREEZE_REQ: v with go and the op. -/
  | pmcFreeze (p : Path) (v : Word)
  /-- PMC_THAW (R830): PMC_FREEZE_REQ with go and op THAW sends a Gong THAW. Path p writes PMC_FREEZE_REQ: v with go and the op. -/
  | pmcThaw (p : Path) (v : Word)
  /-- HANG_WATCHDOG_TRIP (R834): At a bar end a tenant's wait record reaches its limit, so F1 HANG is raised. On the record of engine e of node n. -/
  | hangWatchdogTrip (n : Node) (e : Fin 12)
  /-- DIE_WAIT_LIMIT (R835): A generation-0 wait reaches the limit, setting die_waits and starting a capture. On the record of engine e of node n. -/
  | dieWaitLimit (n : Node) (e : Fin 12)
  /-- HANG_RELEASE (R838): A steward write to PMC_HANG_REL clears held. -/
  | hangRelease (p : Path)
  /-- BIN_FREE (R825): A write of valid = 0 to a tag bin's cmds frees and clears the bin. Path p writes 0 to the cmds word of bin b of node n. -/
  | binFree (p : Path) (n : Node) (b : BitVec 5)
  /-- IDX_FAR_READ_DONE (R218): The far register's value of a held IDX_DATA read returns across the crossing and completes the path's read. -/
  | idxFarReadDone (p : Path)
  /-- PCIE_LINK_UP (R657): The PCIe link reaches L0 and HST_LINK_STATUS reports speed, width and degraded. Speed as PCIe numbers it, width in
  lanes, and ARI Capable Hierarchy as the host sets it. -/
  | pcieLinkUp (speed : BitVec 4) (width : BitVec 6) (ari : Bool)
  /-- MSIX_VECTOR_UNMASK (R673): The host unmasks an MSI-X vector whose pending bit is set, and one message is sent. -/
  | msixVectorUnmask (fn : Fin 65) (v : Fin 32)
  /-- VF_BUS_MASTER_CLEAR (R691): The host clears Bus Master on a VF, so an incomplete plan read fails the launch with PLAN_READ and host-window
  accesses fail. -/
  | vfBusMasterClear (t : Tenant)
  /-- PWR_GOOD_LOW (R75): PWR_GOOD goes low, so the die starts a cold reset and clears ANC_RESET_CAUSE. -/
  | pwrGoodLow
  /-- RST_N_LOW (R75): RST_N has been low for 8 consecutive REFCLK cycles, so the die starts a cold reset; shorter pulses are ignored. -/
  | rstNLow
  /-- REFCLK_LOSS (R50): The supervisor sees no REFCLK edge for 1 µs and starts a cold reset, which lasts until REFCLK has run for 100 µs without
  a gap. -/
  | refclkLoss
  /-- COLD_RESET (R80): A cold reset clears or reloads state as Table 2.3 gives, and the die enters COLD_RESET. The cold reset accepted through
  ANC_RESET_CTL begins. -/
  | coldReset
  /-- COLD_RESET_END (R83): The cold-reset cause ends and the root PLL is locked, so the die enters FUSE_LOAD within 60 µs. -/
  | coldResetEnd
  /-- PERST_N_ASSERT (R76): A falling edge of PERST_N holds the PCIe endpoint in reset and starts a warm reset, unless a wider reset absorbs it. -/
  | perstNAssert
  /-- PF_FLR (R76): A function-level reset of the physical function starts a warm reset. -/
  | pfFlr
  /-- WARM_RESET (R89): A warm reset clears state as Table 2.3 gives, keeps the fuses and the BIST repairs, and enters BOOT within 20 µs. The warm
  reset accepted through ANC_RESET_CTL begins. -/
  | warmReset
  /-- ROOT_PLL_UNLOCK (R51): The root PLL loses lock outside COLD_RESET: the die enters CLOCK_LOST, moves the register bus onto REFCLK and records
  F0. -/
  | rootPllUnlock
  /-- ROOT_PLL_RELOCK (R51): The root PLL regains lock in CLOCK_LOST and the die performs a warm reset, unless lock_loss_hold is 1. -/
  | rootPllRelock
  /-- PCIE_PLL_UNLOCK (R55): The PCIe PLL loses lock, so the PCIe link goes down while the die keeps running. -/
  | pciePllUnlock
  /-- PCIE_TRAINING_START (R94): The PCIe endpoint starts link training once FUSE_LOAD has ended and PERST_N is high. PERST_N is then high. -/
  | pcieTrainingStart
  /-- BOOT_START (R892): BOOT begins: BOOT_ERR is cleared, the bar counter starts, and hold_next or a sticky fatal code sends the die to
  SAFE_HOLD. -/
  | bootStart
  /-- SLOT_TABLE_SELECT (R113): The loader validates both slot-table copies and chooses the newer valid one. -/
  | slotTableSelect
  /-- IMAGE_APPLY (R124): The loader programs the checked image in order and sets the lock bits. -/
  | imageApply
  /-- APPLY_FAULT (R127): An uncorrectable error during apply fails the attempt, clears what was applied, and the loader tries the next slot. -/
  | applyFault
  /-- WARM_SCRUB_DONE (R101): The slab scrub of a warm reset finishes within 1.5 ms. -/
  | warmScrubDone
  /-- RUN_ENTRY (R124): The stewards are released at the entry point and ANC_STATE becomes RUN, after the apply and the scrub have finished. -/
  | runEntry
  /-- FW_READY (R129): Steward firmware sets BOOT_STATUS.fw_ready when it accepts launches. -/
  | fwReady
  /-- FREEZE_TAKE_EFFECT (R367): At the first cycle of its target bar a FREEZE stops every counter, optionally with a snapshot. -/
  | freezeTakeEffect
  /-- THAW_TAKE_EFFECT (R367): At the first cycle of its target bar a THAW restarts counting. -/
  | thawTakeEffect
  /-- FAULT_NOTICE (R361): A FAULT notice from a recording node reaches the anchor, which forwards only the first for that tenant and generation. -/
  | faultNotice
  /-- BEAT_SEND (R370): The downbeat source sends a BEAT packet at phase 0 of every fourth bar. -/
  | beatSend
  /-- DOWNBEAT_LOST (R374): A follower receives no BEAT for 64 bars, so it sets lost, logs F2 and inserts one rest per bar. -/
  | downbeatLost
  /-- PCIE_LINK_DOWN (R675): A surprise link-down leaves the die running and resets the configuration spaces at retrain. -/
  | pcieLinkDown
  /-- PF_D3HOT (R658): A PF transition to D3hot stops memory responses and bus mastering without stopping partitions. -/
  | pfD3hot
  /-- FAULT_ACCEPT (R714): The anchor accepts an F1 notice for a running tenant, records it and starts the restart with the fence. -/
  | faultAccept
  /-- F0_ACCEPT (R715): The anchor accepts an F0, records it and starts the restart of every active partition. -/
  | f0Accept
  /-- F0_REAPPLY (R726): After every sweep of an F0 restart, the anchor re-applies the image's die resources. -/
  | f0Reapply
  /-- POWER_ADAPT (R755): Every adapt_windows windows the arbiter adjusts each partition's adaptive share. -/
  | powerAdapt
  /-- DROOP_GATE_END (R766): A droop gate ends at the first cycle of bar b + n + 1. -/
  | droopGateEnd
  /-- TAP_RESET (R800): Five TCK cycles with TMS high, or a cold reset, reset the TAP and select IDCODE. -/
  | tapReset
  /-- IDCODE (R801): TAP instruction IDCODE shifts out 0x00B0_15AF. -/
  | idcode
  /-- CLAMP (R808): TAP instruction CLAMP drives the boundary outputs while bypassing. -/
  | clamp
  /-- HIGHZ (R808): TAP instruction HIGHZ disables every governed output. -/
  | highz
  /-- BYPASS (R800): TAP instruction BYPASS, or a disabled or unlisted one, selects the bypass register. -/
  | bypass
  /-- HANG_REPORT_ASSEMBLE (R843): The reference firmware builds the wait-for graph report of a capture and sends vector 4. -/
  | hangReportAssemble
  /-- PF_D0_RETURN (R658): The PF returns from D3hot to D0 and restores the configuration it held before. -/
  | pfD0Return
  deriving DecidableEq, Repr

end Sys2Proof
end

