-- ==== Sys2Proof/Machine/Bits.lean ====
section
/-! DEFINITION. Bit fields, byte order (R6) and two's complement, as every register and record of the manual uses them. -/

namespace Sys2Proof.Machine

/-- Field [lo+len-1:lo] of a word, as a number. -/
def fld (w : BitVec n) (lo len : Nat) : Nat := w.toNat / 2 ^ lo % 2 ^ len

/-- Bit i of a word. -/
def bit (w : BitVec n) (i : Nat) : Bool := w.getLsbD i

/-- The word with field [lo+len-1:lo] replaced by v modulo 2^len. -/
def setFld (w : BitVec n) (lo len v : Nat) : BitVec n :=
  (w &&& ~~~ (BitVec.ofNat n ((2 ^ len - 1) * 2 ^ lo))) ||| BitVec.ofNat n (v % 2 ^ len * 2 ^ lo)

/-- The word with bit i set to b. -/
def setBit (w : BitVec n) (i : Nat) (b : Bool) : BitVec n := setFld w i 1 (if b then 1 else 0)

/-- One bit as a number. -/
def b2n (b : Bool) : Nat := if b then 1 else 0

/-- A word whose fields are given as (low bit, length, value). -/
def mkWord (fs : List (Nat × Nat × Nat)) : Word :=
  fs.foldl (fun w f => setFld w f.1 f.2.1 f.2.2) 0#32

/-- x + d, saturating at all ones of a field of len bits (R194). -/
def satAdd (len x d : Nat) : Nat := Nat.min (2 ^ len - 1) (x + d)

/-- Add d to a saturating field of a word. -/
def bumpFld (w : Word) (lo len d : Nat) : Word := setFld w lo len (satAdd len (fld w lo len) d)

/-- The old bits of w outside the mask, the bits of v inside it. -/
def merge (mask old new : Word) : Word := (old &&& ~~~ mask) ||| (new &&& mask)

/-- A number of len bits read as two's complement. -/
def toSigned (len x : Nat) : Int := if x % 2 ^ len < 2 ^ (len - 1) then (x % 2 ^ len : Int) else (x % 2 ^ len : Int) - 2 ^ len

/-- An integer as len bits of two's complement. -/
def ofSigned (len : Nat) (x : Int) : Nat := (x % (2 ^ len : Int)).toNat

/-- Bytes to a number, little-endian (R6). -/
def leNat : List Byte → Nat
  | [] => 0
  | b :: bs => b.toNat + 256 * leNat bs

/-- The k low bytes of a number, little-endian (R6). -/
def natLe : Nat → Nat → List Byte
  | 0, _ => []
  | k + 1, v => BitVec.ofNat 8 v :: natLe k (v / 256)

/-- Byte k of a byte string; 0 past its end. -/
def byteAt (bs : List Byte) (k : Nat) : Byte := bs.getD k 0#8

/-- The little-endian number of len bytes at offset off of a byte string. -/
def leAt (bs : List Byte) (off len : Nat) : Nat := leNat ((bs.drop off).take len)

/-- Every byte of a byte string is zero. -/
def allZero (bs : List Byte) : Bool := bs.all (fun b => b == 0#8)

/-- The bits set in a number among the first n, ascending. -/
def bitsOf (n v : Nat) : List Nat := (List.range n).filter (fun i => v.testBit i)

/-- The number of bits set among the first n. -/
def popCount (n v : Nat) : Nat := (bitsOf n v).length

/-- The least k with 2^k ≥ x, for x up to 2^64. -/
def log2Ceil (x : Nat) : Nat := ((List.range 65).find? (fun k => x ≤ 2 ^ k)).getD 65

/-- Ceiling division. -/
def cdiv (a b : Nat) : Nat := (a + b - 1) / b

end Sys2Proof.Machine
end

