-- ==== Sys2Proof/Machine/Sparse.lean ====
section
/-! DEFINITION. Sparse stores: an association list in one canonical form. The keys rise strictly under an order `lt`, and no
entry holds the value that an unlisted key reads as, so that equal stores are equal lists. -/

namespace Sys2Proof.Machine

/-- The value at a key: that of its first entry, or the given default. -/
def sget {κ α : Type} [DecidableEq κ] (m : List (κ × α)) (k : κ) (d : α) : α :=
  match m with
  | [] => d
  | e :: rest => if e.1 = k then e.2 else sget rest k d

/-- Put an entry before the first entry whose key is not below it. -/
def sinsert {κ α : Type} (lt : κ → κ → Bool) (m : List (κ × α)) (k : κ) (v : α) : List (κ × α) :=
  match m with
  | [] => [(k, v)]
  | e :: rest => if lt e.1 k then e :: sinsert lt rest k v else (k, v) :: e :: rest

/-- The store without the entries at a key. -/
def serase {κ α : Type} [DecidableEq κ] (m : List (κ × α)) (k : κ) : List (κ × α) :=
  m.filter (fun e => ¬ e.1 = k)

/-- Write a key; writing the default removes the entry. -/
def sset {κ α : Type} [DecidableEq κ] [DecidableEq α] (lt : κ → κ → Bool) (m : List (κ × α)) (k : κ) (v d : α) :
    List (κ × α) :=
  if v = d then serase m k else sinsert lt (serase m k) k v

/-- The canonical form over a default for each key. -/
def swf {κ α : Type} [DecidableEq α] (lt : κ → κ → Bool) (d : κ → α) : List (κ × α) → Bool
  | [] => true
  | e :: rest => (match rest with | [] => true | e' :: _ => lt e.1 e'.1) && decide (¬ e.2 = d e.1) && swf lt d rest

/-- The order of natural-number keys. -/
def nlt (a b : Nat) : Bool := decide (a < b)

/-- Read a store keyed by numbers. -/
def nget {α : Type} (m : List (Nat × α)) (k : Nat) (d : α) : α := sget m k d

/-- Write a store keyed by numbers. -/
def nset {α : Type} [DecidableEq α] (m : List (Nat × α)) (k : Nat) (v d : α) : List (Nat × α) := sset nlt m k v d

end Sys2Proof.Machine
end

