-- ==== Sys2Proof/Machine/Memory.lean ====
section
/-! DEFINITION. Byte memories: canonical lists of cells (Host.Cell) over a default byte. -/

namespace Sys2Proof.Machine

/-- The byte at an address. -/
def memByte (d : Byte) (m : List Host.Cell) (a : Nat) : Byte := nget m a d

/-- len bytes from an address. -/
def memRead (d : Byte) (m : List Host.Cell) (a len : Nat) : List Byte := (List.range len).map (fun k => memByte d m (a + k))

/-- Write one byte. -/
def memSet (d : Byte) (m : List Host.Cell) (a : Nat) (b : Byte) : List Host.Cell := nset m a b d

/-- Write a byte string from an address. -/
def memWrite (d : Byte) : List Host.Cell → Nat → List Byte → List Host.Cell
  | m, _, [] => m
  | m, a, b :: bs => memWrite d (memSet d m a b) (a + 1) bs

/-- Every byte of [a, a + len) reads as the default. -/
def memClear (m : List Host.Cell) (a len : Nat) : List Host.Cell := m.filter (fun e => !(a ≤ e.1 && e.1 < a + len))

/-- The canonical form of a memory: addresses strictly rising, no entry equal to the default byte. -/
abbrev Memory.wf (d : Byte) (m : List Host.Cell) : Bool := swf nlt (fun _ => d) m

end Sys2Proof.Machine
end

