-- ==== Sys2Proof/Config.lean ====
section
/-! DEFINITION. The values the spec leaves open, as constants without a body: nothing can be proved of what they are. -/

namespace Sys2Proof

/-- A free value: any 64 bits, a fresh one for each number the machine applies it to. DESIGN CHOICE (log entry 5). -/
opaque Config.freeWord : Nat → BitVec 64

/-- What the HBM PHY reports of its environment (Table 20.6: repeated commands, repaired lanes, error scrub counts, temperature): any word
for each register and time. DESIGN CHOICE (log entry 14). -/
opaque Config.hbmPhy : Nat → Nat → Word

end Sys2Proof
end

