-- ==== Sys2Proof/Machine/Grid.lean ====
section
/-! DEFINITION. The grid of nodes (Tables 1.1 and 1.2), its mesh links (R20) and the walks over it. -/

namespace Sys2Proof.Machine

/-- Node classes by code (Table 1.2): 0 T, 1 M, 2 L, 3 S, 4 Q, 5 H, 6 A, 7 N, 8 D. -/
def edgeNodes : List (Nat × Nat × Nat) :=
  [(0, 1, 0), (1, 2, 4), (10, 2, 5), (11, 1, 6), (12, 1, 1), (13, 3, 0), (22, 3, 2), (23, 1, 7), (24, 1, 2), (25, 3, 1),
   (34, 3, 3), (35, 1, 8), (36, 1, 3), (37, 4, 0), (46, 3, 4), (47, 1, 9), (48, 1, 4), (49, 4, 1), (58, 4, 2), (59, 1, 10),
   (60, 1, 5), (61, 5, 0), (70, 4, 3), (71, 1, 11), (72, 2, 0), (73, 8, 0), (82, 6, 0), (83, 2, 2), (84, 2, 1), (85, 7, 0),
   (94, 8, 1), (95, 2, 3)]

/-- Column of a node ("Nodes": n = row × 12 + column). -/
def nodeCol (n : Nat) : Nat := n % 12

/-- Row of a node. -/
def nodeRow (n : Nat) : Nat := n / 12

/-- Class code of a node: columns 2 to 9 are tiles, the rest as Table 1.1 gives. -/
def nodeClass (n : Nat) : Nat :=
  if 2 ≤ nodeCol n ∧ nodeCol n ≤ 9 then 0 else ((edgeNodes.find? (fun e => e.1 == n)).map (·.2.1)).getD 9

/-- Class instance of a node: the tile index for class T (Table 1.10). -/
def nodeInst (n : Nat) : Nat :=
  if 2 ≤ nodeCol n ∧ nodeCol n ≤ 9 then nodeRow n * 8 + (nodeCol n - 2)
  else ((edgeNodes.find? (fun e => e.1 == n)).map (·.2.2)).getD 0

/-- The node of an instance of a class; 96 where there is none. -/
def nodeOf (cls inst : Nat) : Nat :=
  if cls = 0 then inst / 8 * 12 + inst % 8 + 2
  else ((edgeNodes.find? (fun e => e.2.1 == cls && e.2.2 == inst)).map (·.1)).getD 96

/-- The node of a tile index. -/
def tileNode (i : Nat) : Nat := nodeOf 0 i

/-- The anchor, the H node and D0. -/
def anchorNode : Nat := 82
def hostNode : Nat := 61

/-- The node of torus port p (R19). -/
def portNode (p : Nat) : Nat := nodeOf 2 p

/-- A node of class T, S or H, which has C-net endpoints (Table 7.5). -/
def hasEndpoints (n : Nat) : Bool := nodeClass n == 0 || nodeClass n == 3 || nodeClass n == 5

/-- The neighbour of a node through mesh port 1 −X, 2 +X, 3 −Y, 4 +Y (R145, R20). -/
def neighbour (n port : Nat) : Option Nat :=
  match port with
  | 1 => if nodeCol n = 0 then none else some (n - 1)
  | 2 => if nodeCol n = 11 then none else some (n + 1)
  | 3 => if nodeRow n = 0 then none else some (n - 12)
  | 4 => if nodeRow n = 7 then none else some (n + 12)
  | _ => none

/-- The port that faces a mesh port. -/
def facing (port : Nat) : Nat :=
  match port with
  | 1 => 2 | 2 => 1 | 3 => 4 | 4 => 3 | p => p

/-- BN_LINK_STATUS.exists: the mesh ports that lead to a neighbour (Table 6.6). -/
def linkExists (n : Nat) : Nat :=
  b2n (neighbour n 1).isSome + 2 * b2n (neighbour n 2).isSome + 4 * b2n (neighbour n 3).isSome + 8 * b2n (neighbour n 4).isSome

/-- NODE_ID of a node, given whether fuses mask it (Table 1.10). -/
def nodeIdWord (n : Nat) (masked : Bool) : Word :=
  mkWord [(31, 1, b2n masked), (24, 6, nodeInst n), (16, 4, nodeClass n), (12, 3, nodeRow n), (8, 4, nodeCol n), (0, 7, n)]

/-- The mesh port that X-then-Y routing takes at node n for destination d; 0 at d itself (R253). -/
def xyPort (n d : Nat) : Nat :=
  if nodeCol d < nodeCol n then 1 else if nodeCol n < nodeCol d then 2
  else if nodeRow d < nodeRow n then 3 else if nodeRow n < nodeRow d then 4 else 0

/-- The links (node, port) of the X-then-Y route from n to d. -/
def xyLinks : Nat → Nat → Nat → List (Nat × Nat)
  | 0, _, _ => []
  | k + 1, n, d =>
    match xyPort n d with
    | 0 => []
    | p => (n, p) :: (match neighbour n p with | some m => xyLinks k m d | none => [])

/-- The default route from n to d. -/
def defaultLinks (n d : Nat) : List (Nat × Nat) := xyLinks 20 n d

/-- Hops between two nodes. -/
def hops (a b : Nat) : Nat :=
  (nodeCol a - nodeCol b) + (nodeCol b - nodeCol a) + (nodeRow a - nodeRow b) + (nodeRow b - nodeRow a)

/-- The tile indices of a rectangle, in ascending order of index. -/
def rectTiles (tx0 ty0 w h : Nat) : List Nat :=
  (List.range 64).filter (fun i => tx0 ≤ i % 8 && i % 8 < tx0 + w && ty0 ≤ i / 8 && i / 8 < ty0 + h)

/-- The axis (0 X, 1 Y, 2 Z) and direction (0 −, 1 +) of a torus port (R19). -/
def portAxis (p : Nat) : Nat := p / 2
def portPlus (p : Nat) : Nat := p % 2

end Sys2Proof.Machine
end

