-- ==== Sys2Proof/Machine/Records.lean ====
section
/-! DEFINITION. The records of images and plans (Tables 4.3 to 4.23): their fields, how they are read from bytes, which of
their bits are reserved and which values their fields may take. -/

namespace Sys2Proof.Machine

/-- A directory entry (Table 4.4). -/
structure DirEntry where
  type : Nat
  flags : Nat
  offset : Nat
  length : Nat
  crc : Nat
  deriving DecidableEq, Repr

/-- The torus, this module's place in it, and its ports (Table 4.13). -/
structure Topology where
  xs : Nat
  ys : Nat
  zs : Nat
  x : Nat
  y : Nat
  z : Nat
  dbx : Nat
  dby : Nat
  dbz : Nat
  sysTenant : Nat
  portEnable : Nat
  clusterId : Nat
  replayRtt : List Nat
  deriving DecidableEq, Repr

/-- A tile rectangle (Table 4.13, shape byte; R34). -/
structure Rect where
  tx0 : Nat
  ty0 : Nat
  log2w : Nat
  log2h : Nat
  deriving DecidableEq, Repr

/-- A box of modules (R166). -/
structure Box where
  bx0 : Nat
  by0 : Nat
  bz0 : Nat
  bsx : Nat
  bsy : Nat
  bsz : Nat
  deriving DecidableEq, Repr

/-- A partition record (Table 4.14). -/
structure PartRec where
  tenant : Nat
  rect : Rect
  box : Box
  envelope : Nat
  deriving DecidableEq, Repr

/-- An envelope record (Table 4.15). -/
structure Envelope where
  flowEntries : Nat
  channels : Nat
  slabPages : Nat
  hbmUnits : Nat
  spillHbmUnits : Nat
  internalRate : Nat
  vcMask : Nat
  resvFirst : Nat
  resvCount : Nat
  memMask : Nat
  spillRate : Nat
  spillVc : Nat
  spillBound : Nat
  foldUnits : Nat
  groups : Nat
  sync : Nat
  rankLo : Nat
  rankHi : Nat
  deriving DecidableEq, Repr

/-- A reservation record (Table 4.16). -/
structure Reservation where
  route : Nat
  src : Nat
  dst : Nat
  rate : Nat
  vc : Nat
  deriving DecidableEq, Repr

/-- A route record (Table 4.6); a segment is a direction (0 −X, 1 +X, 2 −Y, 3 +Y) and a hop count. -/
structure RouteRec where
  src : Nat
  dst : Nat
  segs : List (Nat × Nat)
  deriving DecidableEq, Repr

/-- A flow record (Table 4.7). -/
structure FlowRec where
  flow : Nat
  src : Nat
  dst : Nat
  route : Nat
  branches : Nat
  vc : Nat
  rate : Nat
  phaseSet : Nat
  phase : Nat
  bound : Nat
  kind : Nat
  detourOk : Bool
  foldTree : Nat
  rx : Nat
  ry : Nat
  rz : Nat
  remoteFlow : Nat
  deriving DecidableEq, Repr

/-- An endpoint record (Table 4.8). -/
structure EndpointRec where
  node : Nat
  index : Nat
  rank : Nat
  deriving DecidableEq, Repr

/-- A channel record (Table 4.9). -/
structure ChannelRec where
  channel : Nat
  src : Nat
  dst : Nat
  log2Depth : Nat
  blocking : Bool
  deriving DecidableEq, Repr

/-- One fold unit of one tree (Table 4.10). -/
structure FoldRec where
  tree : Nat
  node : Nat
  outPort : Nat
  inMask : Nat
  inFmt : Nat
  carrier : Nat
  dstFmt : Nat
  saturate : Bool
  outFlow : Nat
  deriving DecidableEq, Repr

/-- A collective group (Table 4.11). -/
structure GroupRec where
  group : Nat
  scope : Nat
  sequencer : Nat
  rect : Rect
  axes : Nat
  box : Box
  rootTile : Nat
  rootx : Nat
  rooty : Nat
  rootz : Nat
  foldTree : Nat
  bcastFlow : Nat
  bcastEsz : Nat
  deriving DecidableEq, Repr

/-- A sync record (Table 4.12). -/
structure SyncRec where
  id : Nat
  kind : Nat
  bytes : Nat
  group : Nat
  fmt : Nat
  deriving DecidableEq, Repr

/-- The power policy (Table 4.17). -/
structure PowerPolicy where
  packageBudget : Nat
  dieReserve : Nat
  droopGateBars : Nat
  adaptWindows : Nat
  adaptStep : Nat
  tileDefaultMax : Nat
  deriving DecidableEq, Repr

/-- A power share (Table 4.18). -/
structure PowerShare where
  tenant : Nat
  weight : Nat
  floor : Nat
  ceiling : Nat
  tileMax : Nat
  deriving DecidableEq, Repr

/-- A detour (Table 4.19). -/
structure DetourRec where
  downPort : Nat
  viaPort : Nat
  deriving DecidableEq, Repr

/-- The steward record (Table 4.20). -/
structure StewardRec where
  entry : Nat
  fwVersion : Nat
  takeover : List Nat
  deriving DecidableEq, Repr

/-- The records of an image or a plan, section type by section type, in section order. -/
structure Doc where
  topology : List Topology := []
  partitions : List PartRec := []
  envelopes : List Envelope := []
  reservations : List Reservation := []
  routes : List RouteRec := []
  flows : List FlowRec := []
  endpoints : List EndpointRec := []
  channels : List ChannelRec := []
  folds : List FoldRec := []
  groups : List GroupRec := []
  policy : List PowerPolicy := []
  shares : List PowerShare := []
  detours : List DetourRec := []
  steward : List StewardRec := []
  syncs : List SyncRec := []
  windows : List Nat := []
  deriving DecidableEq, Repr

/-- A byte as a number. -/
def u8 (b : List Byte) (o : Nat) : Nat := leAt b o 1
/-- Two bytes as a number (R142). -/
def u16 (b : List Byte) (o : Nat) : Nat := leAt b o 2
/-- Four bytes as a number (R142). -/
def u32 (b : List Byte) (o : Nat) : Nat := leAt b o 4

/-- The records of a section: its bytes cut into pieces of the record size. -/
def chop (size : Nat) : Nat → List Byte → List (List Byte)
  | 0, _ => []
  | n + 1, b => if b.isEmpty then [] else b.take size :: chop size n (b.drop size)

/-- The shape byte (Table 4.13) with an origin. -/
def parseRect (tx0 ty0 shape : Nat) : Rect := ⟨tx0, ty0, shape % 4, shape / 16 % 4⟩

def parseDir (b : List Byte) : DirEntry := ⟨u16 b 0, u8 b 2, u32 b 4, u32 b 8, u32 b 12⟩
def parseTopology (b : List Byte) : Topology :=
  ⟨u8 b 0, u8 b 1, u8 b 2, u8 b 3, u8 b 4, u8 b 5, u8 b 6, u8 b 7, u8 b 8, u8 b 9, u8 b 10, u32 b 12,
    (List.range 6).map (fun p => u16 b (0x10 + 2 * p))⟩
def parsePart (b : List Byte) : PartRec :=
  ⟨u8 b 0, parseRect (u8 b 1) (u8 b 2) (u8 b 3), ⟨u8 b 4, u8 b 5, u8 b 6, u8 b 8, u8 b 9, u8 b 10⟩, u16 b 12⟩
def parseEnvelope (b : List Byte) : Envelope :=
  ⟨u16 b 0, u16 b 2, u16 b 4, u16 b 6, u16 b 8, u16 b 10, u8 b 12, u16 b 14, u16 b 16, u16 b 18, u16 b 20, u8 b 22,
    u32 b 24, u16 b 28, u8 b 30, u8 b 31, u8 b 32, u8 b 33⟩
def parseReservation (b : List Byte) : Reservation := ⟨u16 b 0, u8 b 2, u8 b 3, u16 b 4, u8 b 6⟩
def parseRoute (b : List Byte) : RouteRec :=
  ⟨u8 b 0, u8 b 1, if 28 < u8 b 2 then [] else (List.range (u8 b 2)).map (fun k => (u8 b (4 + k) / 64, u8 b (4 + k) % 64))⟩
def parseFlow (b : List Byte) : FlowRec :=
  ⟨u16 b 0, u8 b 2, u8 b 3, u16 b 4, u8 b 6, u8 b 7, u16 b 8, u8 b 10, u8 b 11, u32 b 12, u8 b 16, (u8 b 17) % 2 == 1,
    u16 b 18, u8 b 20, u8 b 21, u8 b 22, u16 b 24⟩
def parseEndpoint (b : List Byte) : EndpointRec := ⟨u8 b 0, u8 b 1, u8 b 2⟩
def parseChannel (b : List Byte) : ChannelRec := ⟨u16 b 0, u16 b 2, u16 b 4, u8 b 6, u8 b 7 % 2 == 1⟩
def parseFold (b : List Byte) : FoldRec :=
  ⟨u16 b 0, u8 b 2, u8 b 3, u8 b 4 % 32, u8 b 5, u8 b 6, u8 b 7, u8 b 8 % 2 == 1, u16 b 10⟩
def parseGroup (b : List Byte) : GroupRec :=
  ⟨u16 b 0, u8 b 2, u8 b 3, parseRect (u8 b 4) (u8 b 5) (u8 b 6), u8 b 7, ⟨u8 b 8, u8 b 9, u8 b 10, u8 b 12, u8 b 13, u8 b 14⟩,
    u8 b 15, u8 b 16, u8 b 17, u8 b 18, u16 b 20, u16 b 22, u8 b 24⟩
def parseSync (b : List Byte) : SyncRec := ⟨u16 b 0, u8 b 2, u8 b 3, u16 b 4, u8 b 6⟩
def parsePolicy (b : List Byte) : PowerPolicy := ⟨u16 b 0, u16 b 2, u8 b 4, u8 b 5, u16 b 6, u16 b 8⟩
def parseShare (b : List Byte) : PowerShare := ⟨u8 b 0, u8 b 1, u16 b 2, u16 b 4, u16 b 6⟩
def parseDetour (b : List Byte) : DetourRec := ⟨u8 b 0, u8 b 1⟩
def parseSteward (b : List Byte) : StewardRec := ⟨u32 b 0, u32 b 4, (List.range 4).map (fun d => u8 b (8 + d))⟩

/-- One row of Table 4.5: record size, least and greatest record count, in images (1 required, 0 optional, 2 not allowed)
and in plans. -/
structure SectType where
  type : Nat
  size : Nat
  minRec : Nat
  maxRec : Nat
  inImage : Nat
  inPlan : Nat
  deriving DecidableEq, Repr

/-- Table 4.5. FIRMWARE has one-byte records. -/
def sectTypes : List SectType :=
  [⟨1, 32, 1, 1, 1, 2⟩, ⟨2, 16, 0, 64, 1, 2⟩, ⟨3, 64, 0, 64, 0, 2⟩, ⟨4, 16, 0, 4096, 0, 2⟩, ⟨5, 32, 0, 4096, 0, 0⟩,
   ⟨6, 32, 0, 8192, 0, 0⟩, ⟨7, 8, 0, 2048, 0, 0⟩, ⟨8, 16, 0, 4096, 0, 0⟩, ⟨9, 16, 0, 4096, 0, 0⟩, ⟨10, 32, 0, 256, 0, 0⟩,
   ⟨11, 32, 1, 1, 1, 2⟩, ⟨12, 8, 0, 64, 0, 2⟩, ⟨13, 8, 0, 6, 0, 2⟩, ⟨14, 64, 1, 1, 1, 2⟩,
   ⟨15, 1, 4096, 6 * 1024 * 1024, 1, 2⟩, ⟨16, 16, 0, 512, 0, 0⟩, ⟨17, 8, 0, 64, 2, 0⟩]

/-- The row of a section type that images (plans) may hold; R155, R175: HOST_WINDOWS is unknown in an image. -/
def sectType (plan : Bool) (t : Nat) : Option SectType :=
  sectTypes.find? (fun r => r.type == t && (if plan then r.inPlan else r.inImage) != 2)

/-- The reserved bytes and bits of a record of a section type read 0 (Tables 4.6 to 4.20, 4.23). Segments of a route beyond
seg_count count as reserved. -/
def reservedZero (t : Nat) (b : List Byte) : Bool :=
  let z (o n : Nat) : Bool := leAt b o n == 0
  match t with
  | 1 => z 11 1 && z 0x1c 4 && u8 b 10 / 64 == 0
  | 2 => z 7 1 && z 11 1 && z 14 2 && (u8 b 3 &&& 0xcc) == 0
  | 3 => z 13 1 && z 0x17 1 && z 0x22 30 && u16 b 18 / 4096 == 0
  | 4 => z 7 9
  | 5 => z 3 1 && z (4 + Nat.min (u8 b 2) 28) (28 - Nat.min (u8 b 2) 28)
  | 6 => z 0x17 1 && z 0x1a 6 && u8 b 17 / 2 == 0
  | 7 => z 3 5
  | 8 => z 8 8 && u8 b 7 / 2 == 0
  | 9 => z 9 1 && z 12 4 && u8 b 4 / 32 == 0 && u8 b 8 / 2 == 0
  | 10 => z 11 1 && z 0x13 1 && z 0x19 7 && (u8 b 6 &&& 0xcc) == 0 && u8 b 7 / 8 == 0
  | 11 => z 10 22
  | 13 => z 2 6
  | 14 => z 12 52
  | 16 => z 7 9
  | 17 => z 2 6
  | _ => true

/-- The raw records of one document: every section's type and record byte strings, in directory order. -/
abbrev RawSects := List (Nat × List (List Byte))

/-- The records of one section type. -/
def rawOf (s : RawSects) (t : Nat) : List (List Byte) := ((s.find? (fun e => e.1 == t)).map (·.2)).getD []

/-- Read a document's records from its raw sections. -/
def parseDoc (s : RawSects) : Doc :=
  { topology := (rawOf s 1).map parseTopology
    partitions := (rawOf s 2).map parsePart
    envelopes := (rawOf s 3).map parseEnvelope
    reservations := (rawOf s 4).map parseReservation
    routes := (rawOf s 5).map parseRoute
    flows := (rawOf s 6).map parseFlow
    endpoints := (rawOf s 7).map parseEndpoint
    channels := (rawOf s 8).map parseChannel
    folds := (rawOf s 9).map parseFold
    groups := (rawOf s 10).map parseGroup
    policy := (rawOf s 11).map parsePolicy
    shares := (rawOf s 12).map parseShare
    detours := (rawOf s 13).map parseDetour
    steward := (rawOf s 14).map parseSteward
    syncs := (rawOf s 16).map parseSync
    windows := (rawOf s 17).map (fun b => u16 b 0) }

/-- A node number, or 0xFF where the table allows none (R143). -/
def nodeOk (n : Nat) (none : Bool := false) : Bool := n < 96 || (none && n == 0xff)

/-- A route index of the document, or the default route (R143). -/
def routeOk (d : Doc) (r : Nat) : Bool := r == 0xffff || r < d.routes.length

/-- A box size or origin in the ranges of Table 4.14. -/
def boxSizesOk (b : Box) : Bool := [b.bsx, b.bsy, b.bsz].all (fun s => 1 ≤ s && s ≤ 16)

/-- The fields of record i of a section type lie in their ranges (step 17 of Table 3.5, step 13 of Table 4.24): R143, R161
(one endpoint declared twice), R170, R345, R685 and R898 (an identifier declared twice) included. An endpoint lies at a node that Table 7.5 allows in a plan or in an image, and an H endpoint is
no source of a blocking channel (R295); a sequencer that is none of Q0 to Q3, a carrier as dst_fmt, a via_port of another axis and a
missing remote_flow fail the later steps that name them (R164, R382, R172, R640). -/
def rangeOk (d : Doc) (plan : Bool) (fwLen : Nat) (t i : Nat) : Bool :=
  match t with
  | 1 => (d.topology[i]?).all fun r =>
      [r.xs, r.ys, r.zs].all (fun s => 1 ≤ s && s ≤ 16) && r.x < r.xs && r.y < r.ys && r.z < r.zs && r.sysTenant < 64 &&
      (List.range 6).all (fun p => let v := r.replayRtt.getD p 0
        if r.portEnable.testBit p then 1 ≤ v else v == 0)
  | 2 => (d.partitions[i]?).all fun r =>
      r.tenant < 64 && r.rect.tx0 < 8 && r.rect.ty0 < 8 && boxSizesOk r.box && r.envelope < d.envelopes.length
  | 3 => (d.envelopes[i]?).all fun r =>
      let part := d.partitions.find? (fun p => p.envelope == i)
      part.isSome && r.slabPages ≤ 64 * (part.map (fun p => 2 ^ p.rect.log2w * 2 ^ p.rect.log2h)).getD 0 &&
      r.resvFirst + r.resvCount ≤ d.reservations.length && r.spillVc < 8 &&
      (r.spillRate == 0 || (64 ≤ r.spillBound && r.spillBound ≤ 16777215)) && r.rankLo ≤ r.rankHi
  | 4 => (d.reservations[i]?).all fun r =>
      routeOk d r.route && nodeOk r.src && nodeOk r.dst && 1 ≤ r.rate && r.rate ≤ 4096 && r.vc < 8 &&
      d.envelopes.all (fun e => !(e.resvFirst ≤ i && i < e.resvFirst + e.resvCount) || e.vcMask.testBit r.vc)
  | 5 => (d.routes[i]?).all fun r =>
      nodeOk r.src && nodeOk r.dst && 1 ≤ r.segs.length && r.segs.all (fun s => 1 ≤ s.2 && s.2 ≤ 11)
  | 6 => (d.flows[i]?).all fun r =>
      r.flow < 8192 && nodeOk r.src && nodeOk r.dst (none := true) && routeOk d r.route &&
      (if r.dst == 0xff then 2 ≤ r.branches && r.branches ≤ 64 else r.branches == 1) &&
      (r.route == 0xffff || r.route + r.branches ≤ d.routes.length) && r.vc < 8 && 1 ≤ r.rate && r.rate ≤ 4096 &&
      (r.phaseSet != 0 || r.phase == 0) && 64 ≤ r.bound && r.bound ≤ 16777215 && r.kind ≤ 2 &&
      (if r.kind == 1 then d.folds.any (fun f => f.tree == r.foldTree) else r.foldTree == 0xffff) &&
      ((r.rx == 0xff && r.ry == 0xff && r.rz == 0xff && r.remoteFlow == 0xffff) ||
        (r.dst < 96 && nodeClass r.dst == 2 && r.rx < 16 && r.ry < 16 && r.rz < 16 &&
          (r.remoteFlow < 8192 || r.remoteFlow == 0xffff))) &&
      (d.flows.take i).all (fun q => q.flow != r.flow)
  | 7 => (d.endpoints[i]?).all fun r =>
      nodeOk r.node && r.index < 16 && (if plan then nodeClass r.node == 0 else nodeClass r.node == 3 || nodeClass r.node == 5) && (d.endpoints.take i).all (fun q => !(q.node == r.node && q.index == r.index))
  | 8 => (d.channels[i]?).all fun r =>
      r.channel < 4096 && r.src < d.endpoints.length && r.dst < d.endpoints.length && 2 ≤ r.log2Depth && r.log2Depth ≤ 8 &&
      !(d.endpoints[r.src]?).any (fun e => nodeClass e.node == 5 && r.blocking) &&
      (d.channels.take i).all (fun q => q.channel != r.channel)
  | 9 => (d.folds[i]?).all fun r =>
      r.tree < 4096 && nodeOk r.node && ((1 ≤ r.outPort && r.outPort ≤ 4) || r.outPort == 0xff) && 1 ≤ r.inFmt && r.inFmt ≤ 7 &&
      9 ≤ r.carrier && r.carrier ≤ 11 && (if r.outPort == 0xff then r.dstFmt ≤ 11 && r.dstFmt != 8 else r.dstFmt == 0) &&
      (r.outPort == 0xff || !r.saturate) && d.flows.any (fun f => f.flow == r.outFlow)
  | 10 => (d.groups[i]?).all fun r =>
      r.group < 256 && r.scope ≤ 1 && r.rect.tx0 < 8 && r.rect.ty0 < 8 &&
      boxSizesOk r.box && r.rootTile < 64 &&
      (r.scope == 1 || (r.axes == 0 && r.box == ⟨0, 0, 0, 1, 1, 1⟩ && r.rootx == 0 && r.rooty == 0 && r.rootz == 0)) &&
      (r.foldTree == 0xffff || d.folds.any (fun f => f.tree == r.foldTree)) &&
      (r.bcastFlow == 0xffff || d.flows.any (fun f => f.flow == r.bcastFlow)) &&
      r.bcastEsz ≤ 3 && (r.bcastFlow != 0xffff || r.bcastEsz == 0) && (d.groups.take i).all (fun q => q.group != r.group)
  | 11 => (d.policy[i]?).all fun r =>
      480 ≤ r.packageBudget && r.packageBudget ≤ 2800 && r.dieReserve ≤ 480 && 1 ≤ r.droopGateBars && r.droopGateBars ≤ 8 &&
      1 ≤ r.adaptWindows && 1 ≤ r.adaptStep && r.adaptStep ≤ 400 && 1 ≤ r.tileDefaultMax && r.tileDefaultMax ≤ 400
  | 12 => (d.shares[i]?).all fun r => r.tenant < 64 && 1 ≤ r.weight
  | 13 => (d.detours[i]?).all fun r => r.downPort < 6
  | 14 => (d.steward[i]?).all fun r =>
      r.entry % 4 == 0 && r.entry < fwLen && (List.range 4).all (fun k => let v := r.takeover.getD k 0; v < 4 && v != k)
  | 16 => (d.syncs[i]?).all fun r =>
      r.id < 256 && r.kind ≤ 1 &&
      (if r.kind == 0 then r.bytes == 0 && r.fmt == 0
        else 1 ≤ r.bytes && r.bytes ≤ 32 && r.bytes % (if r.fmt == 9 then 8 else 4) == 0 && [2, 7, 9].contains r.fmt) &&
      r.group < d.groups.length && (d.syncs.take i).all (fun q => !(q.kind == r.kind && q.id == r.id))
  | 17 => (d.windows[i]?).all fun w => w < 16
  | _ => true

end Sys2Proof.Machine
end

