-- ==== Sys2Proof/Machine/Registers.lean ====
section
/-! DEFINITION. Every register of the index (Table 20.9), with its address, access code, reset value, writable bits and the
node classes whose windows hold it, as the register tables of chapters 1 to 20 give them. -/

namespace Sys2Proof.Machine

/-- The registers of the index (R860). A 64-bit register is its low and its high word. -/
inductive RegId where
  | ancId  -- ANC_ID, Table 1.7
  | ancStepping  -- ANC_STEPPING, Table 1.7
  | nodeId  -- NODE_ID, Table 1.7
  | ancState  -- ANC_STATE, Table 2.4
  | ancResetCtl  -- ANC_RESET_CTL, Table 2.4
  | ancResetGuard  -- ANC_RESET_GUARD, Table 2.4
  | ancResetCause  -- ANC_RESET_CAUSE, Table 2.4
  | clkRootCfg  -- CLK_ROOT_CFG, Table 2.4
  | clkStatus  -- CLK_STATUS, Table 2.4
  | clkEvt  -- CLK_EVT, Table 2.4
  | clkBarLo  -- CLK_BAR_LO, Table 2.4
  | clkBarHi  -- CLK_BAR_HI, Table 2.4
  | clkBarPhase  -- CLK_BAR_PHASE, Table 2.4
  | clkBarErr  -- CLK_BAR_ERR, Table 2.4
  | nodeTclkMeas  -- NODE_TCLK_MEAS, Table 2.4
  | bootStatus  -- BOOT_STATUS, Table 3.8
  | bootErr  -- BOOT_ERR, Table 3.8
  | bootErrInfoA  -- BOOT_ERR_INFO_A, Table 3.8
  | bootErrInfoB  -- BOOT_ERR_INFO_B, Table 3.8
  | bootErrInfoR  -- BOOT_ERR_INFO_R, Table 3.8
  | bootSlot  -- BOOT_SLOT, Table 3.8
  | bootImageId  -- BOOT_IMAGE_ID, Table 3.8
  | bootTime  -- BOOT_TIME, Table 3.8
  | bootRepair  -- BOOT_REPAIR, Table 3.8
  | bootTileFail  -- BOOT_TILE_FAIL0-1, Table 3.8
  | bootProgCtl  -- BOOT_PROG_CTL, Table 3.8
  | bootProgAddr  -- BOOT_PROG_ADDR, Table 3.8
  | bootProgStatus  -- BOOT_PROG_STATUS, Table 3.8
  | bootProgBuf  -- BOOT_PROG_BUF, Table 3.8
  | ancLock  -- ANC_LOCK, Table 5.9
  | ancLockGuard  -- ANC_LOCK_GUARD, Table 5.9
  | ancSnapshot  -- ANC_SNAPSHOT, Table 5.9
  | ancSnapStatus  -- ANC_SNAP_STATUS, Table 5.9
  | ancSnapBar  -- ANC_SNAP_BAR, Table 5.9
  | ancMisuseEvt  -- ANC_MISUSE_EVT, Table 5.9
  | ancMisuseAddr  -- ANC_MISUSE_ADDR, Table 5.9
  | idxAddr  -- IDX_ADDR, Table 5.9
  | idxCtl  -- IDX_CTL, Table 5.9
  | idxData  -- IDX_DATA, Table 5.9
  | idxStatus  -- IDX_STATUS, Table 5.9
  | idxEvt  -- IDX_EVT, Table 5.9
  | fusSecPolicy  -- FUS_SEC_POLICY, Table 5.9
  | fusTenantMax  -- FUS_TENANT_MAX, Table 5.9
  | fusDebug  -- FUS_DEBUG, Table 5.9
  | fusStatus  -- FUS_STATUS, Table 5.9
  | fusNodeMask  -- FUS_NODE_MASK0-2, Table 5.9
  | fusLaneRepair  -- FUS_LANE_REPAIR0-5, Table 5.9
  | fusKeyhash  -- FUS_KEYHASH0-11, Table 5.9
  | fusPrivMap  -- FUS_PRIV_MAP0-7, Table 5.9
  | fusProgCtl  -- FUS_PROG_CTL, Table 5.9
  | fusProgData  -- FUS_PROG_DATA, Table 5.9
  | fusProgGuard  -- FUS_PROG_GUARD, Table 5.9
  | fusProgStatus  -- FUS_PROG_STATUS, Table 5.9
  | bnVcCfg  -- BN_VC_CFG, Table 6.5
  | bnLinkStatus  -- BN_LINK_STATUS, Table 6.5
  | bnLinkEc  -- BN_LINK_EC, Table 6.5
  | bnEccEvt  -- BN_ECC_EVT, Table 6.5
  | bnLateEvt  -- BN_LATE_EVT, Table 6.5
  | bnDropEvt  -- BN_DROP_EVT, Table 6.5
  | bnRouteTbl  -- BN_ROUTE_TBL0-1023, Table 6.5
  | bnFlowCfg  -- BN_FLOW_CFG, Table 6.5
  | bnFlowRate  -- BN_FLOW_RATE, Table 6.5
  | bnFlowBound  -- BN_FLOW_BOUND, Table 6.5
  | bnFlowPhase  -- BN_FLOW_PHASE, Table 6.5
  | bnFlowState  -- BN_FLOW_STATE, Table 6.5
  | bnPhase  -- BN_PHASE0-4095, Table 6.5
  | chCfg  -- CH_CFG, Table 7.8
  | chEp  -- CH_EP, Table 7.8
  | chStatus  -- CH_STATUS, Table 7.8
  | chEvt  -- CH_EVT, Table 7.8
  | chMsgCntLo  -- CH_MSG_CNT (low word), Table 7.8
  | chMsgCntHi  -- CH_MSG_CNT (high word), Table 7.8
  | chStallCntLo  -- CH_STALL_CNT (low word), Table 7.8
  | chStallCntHi  -- CH_STALL_CNT (high word), Table 7.8
  | chSeq  -- CH_SEQ, Table 7.8
  | chEpt  -- CH_EPT0-15, Table 7.8
  | chDropEvt  -- CH_DROP_EVT, Table 7.8
  | chLinkEc  -- CH_LINK_EC, Table 7.8
  | chStore  -- CH_STORE, Table 7.8
  | nodeBell  -- NODE_BELL, Table 7.8
  | nodeBellRing  -- NODE_BELL_RING, Table 7.8
  | snLinkEc  -- SN_LINK_EC, Table 8.6
  | snEccEvt  -- SN_ECC_EVT, Table 8.6
  | snDropEvt  -- SN_DROP_EVT, Table 8.6
  | snJoin  -- SN_JOIN0-127, Table 8.6
  | snRing  -- SN_RING0-127, Table 8.6
  | snGongCtl  -- SN_GONG_CTL, Table 8.6
  | snGongStatus  -- SN_GONG_STATUS, Table 8.6
  | snGongEvt  -- SN_GONG_EVT, Table 8.6
  | snGongLast  -- SN_GONG_LAST0-1, Table 8.6
  | snDbStatus  -- SN_DB_STATUS, Table 8.6
  | snBarrierCfg  -- SN_BARRIER_CFG0-255, Table 8.6
  | snBarrierStatus  -- SN_BARRIER_STATUS0-255, Table 8.6
  | snRimshotCfg  -- SN_RIMSHOT_CFG0-255, Table 8.6
  | snRimshotStatus  -- SN_RIMSHOT_STATUS0-255, Table 8.6
  | fldCap  -- FLD_CAP, Table 9.9
  | fldEvt  -- FLD_EVT, Table 9.9
  | fldDupEvt  -- FLD_DUP_EVT, Table 9.9
  | fldCfg  -- FLD_CFG, Table 9.9
  | fldFmt  -- FLD_FMT, Table 9.9
  | fldLink  -- FLD_LINK, Table 9.9
  | fldStatus  -- FLD_STATUS, Table 9.9
  | fldBlocks  -- FLD_BLOCKS, Table 9.9
  | cqGroupCfg  -- CQ_GROUP_CFG0-15, Table 10.10
  | cqGroupFlow  -- CQ_GROUP_FLOW0-15, Table 10.10
  | cqStatus  -- CQ_STATUS0-15, Table 10.10
  | cqRingCfg  -- CQ_RING_CFG0-31, Table 10.10
  | cqRingFlow  -- CQ_RING_FLOW0-31, Table 10.10
  | cqRingStatus  -- CQ_RING_STATUS0-31, Table 10.10
  | cqSeqCfg  -- CQ_SEQ_CFG0-63, Table 10.10
  | cqSeqScope  -- CQ_SEQ_SCOPE0-63, Table 10.10
  | cqSeqStatus  -- CQ_SEQ_STATUS0-63, Table 10.10
  | cqTailEvt  -- CQ_TAIL_EVT, Table 10.10
  | tpCfg  -- TP_CFG, Table 11.9
  | tpCond  -- TP_COND, Table 11.9
  | tpViolEvt  -- TP_VIOL_EVT, Table 11.9
  | tpViolLog  -- TP_VIOL_LOG, Table 11.9
  | tpViolBar  -- TP_VIOL_BAR, Table 11.9
  | tpViolLimit  -- TP_VIOL_LIMIT, Table 11.9
  | tpViolCnt  -- TP_VIOL_CNT, Table 11.9
  | tpErrEvt  -- TP_ERR_EVT, Table 11.9
  | tpPage  -- TP_PAGE0-1, Table 11.9
  | tpOut  -- TP_OUT, Table 11.9
  | tpFmap  -- TP_FMAP0-511, Table 11.9
  | tpCmap  -- TP_CMAP0-255, Table 11.9
  | tpSmap  -- TP_SMAP0-63, Table 11.9
  | tpPmap  -- TP_PMAP0-15, Table 11.9
  | tpGmap  -- TP_GMAP0-15, Table 11.9
  | tpfState  -- TPF_STATE, Table 11.9
  | tpfLines  -- TPF_LINES, Table 11.9
  | tpfCredits  -- TPF_CREDITS, Table 11.9
  | tpfEcc  -- TPF_ECC0-3, Table 11.9
  | slbLease  -- SLB_LEASE0-4095, Table 12.5
  | slbHlease  -- SLB_HLEASE0-49151, Table 12.5
  | slbHmap  -- SLB_HMAP0-49151, Table 12.5
  | slbHzero  -- SLB_HZERO0-49151, Table 12.5
  | slbHbase  -- SLB_HBASE0-63, Table 12.5
  | slbFreeErrEvt  -- SLB_FREE_ERR_EVT0-63, Table 12.5
  | slbUse  -- SLB_USE0-63, Table 12.5
  | memSpillCfg  -- MEM_SPILL_CFG0-63, Table 12.5
  | slbEccEvt  -- SLB_ECC_EVT, Table 12.5
  | slbScrub  -- SLB_SCRUB, Table 12.5
  | slbRetired  -- SLB_RETIRED0-1, Table 12.5
  | memPcStatus  -- MEM_PC_STATUS, Table 12.5
  | memEccEvt  -- MEM_ECC_EVT, Table 12.5
  | memZeroStatus  -- MEM_ZERO_STATUS, Table 12.5
  | phyLaneStatus  -- PHY_LANE_STATUS, Table 13.10
  | phyEqCfg  -- PHY_EQ_CFG, Table 13.10
  | phyGainCfg  -- PHY_GAIN_CFG, Table 13.10
  | phyEvm  -- PHY_EVM, Table 13.10
  | phyQual  -- PHY_QUAL, Table 13.10
  | phyFreq  -- PHY_FREQ, Table 13.10
  | phyLaneEvt  -- PHY_LANE_EVT, Table 13.10
  | phyFfe  -- PHY_FFE0-11, Table 13.10
  | phyDfe  -- PHY_DFE0-3, Table 13.10
  | phyPortStatus  -- PHY_PORT_STATUS, Table 13.10
  | phyPortCfg  -- PHY_PORT_CFG, Table 13.10
  | phyTxLanes  -- PHY_TX_LANES, Table 13.10
  | phyRxLanes  -- PHY_RX_LANES, Table 13.10
  | phyRxIsol  -- PHY_RX_ISOL, Table 13.10
  | phyTxIsol  -- PHY_TX_ISOL, Table 13.10
  | phyPeerFuse  -- PHY_PEER_FUSE, Table 13.10
  | phySyncCfg  -- PHY_SYNC_CFG, Table 13.10
  | phyPreambleCfg  -- PHY_PREAMBLE_CFG, Table 13.10
  | phyRampCfg  -- PHY_RAMP_CFG, Table 13.10
  | phyPortEvt  -- PHY_PORT_EVT, Table 13.10
  | phySleepBars  -- PHY_SLEEP_BARS, Table 13.10
  | phyTrainTime  -- PHY_TRAIN_TIME, Table 13.10
  | lnkPortCfg  -- LNK_PORT_CFG, Table 14.9
  | lnkPortStatus  -- LNK_PORT_STATUS, Table 14.9
  | lnkPortEvt  -- LNK_PORT_EVT, Table 14.9
  | lnkRetryCfg  -- LNK_RETRY_CFG, Table 14.9
  | lnkSeqStatus  -- LNK_SEQ_STATUS, Table 14.9
  | lnkSeqRx  -- LNK_SEQ_RX, Table 14.9
  | lnkCredit  -- LNK_CREDIT, Table 14.9
  | lnkRtt  -- LNK_RTT, Table 14.9
  | lnkPeer  -- LNK_PEER, Table 14.9
  | lnkRxEvt  -- LNK_RX_EVT, Table 14.9
  | lnkViolEvt  -- LNK_VIOL_EVT, Table 14.9
  | lnkViolCnt  -- LNK_VIOL_CNT, Table 14.9
  | lnkLaneEc  -- LNK_LANE_EC0-17, Table 14.9
  | lnkLqi  -- LNK_LQI0-17, Table 14.9
  | hstLinkStatus  -- HST_LINK_STATUS, Table 15.9
  | hstRelayTxCtl  -- HST_RELAY_TX_CTL, Table 15.9
  | hstRelayRxCtl  -- HST_RELAY_RX_CTL, Table 15.9
  | hstRelayStatus  -- HST_RELAY_STATUS, Table 15.9
  | hstRelayTx  -- HST_RELAY_TX0-15, Table 15.9
  | hstRelayRx  -- HST_RELAY_RX0-15, Table 15.9
  | hstVfCfg  -- HST_VF_CFG0-63, Table 15.9
  | hstPfEvt  -- HST_PF_EVT, Table 15.9
  | hstLaunchDesc  -- HST_LAUNCH_DESC0-7, Table 15.9
  | hstLaunchDb  -- HST_LAUNCH_DB, Table 15.9
  | hstLaunchStatus  -- HST_LAUNCH_STATUS, Table 15.9
  | hstLaunchCookie  -- HST_LAUNCH_COOKIE, Table 15.9
  | hstJobStatus  -- HST_JOB_STATUS, Table 15.9
  | hstJobCtl  -- HST_JOB_CTL, Table 15.9
  | hstVfEvt  -- HST_VF_EVT, Table 15.9
  | hstViewSel  -- HST_VIEW_SEL, Table 15.9
  | hstWinBaseLo  -- HST_WIN_BASE (low word), Table 15.9
  | hstWinBaseHi  -- HST_WIN_BASE (high word), Table 15.9
  | hstWinSize  -- HST_WIN_SIZE, Table 15.9
  | hstWinStatus  -- HST_WIN_STATUS, Table 15.9
  | tntPartCfgLo  -- TNT_PART_CFG (low word), Table 16.7
  | tntPartCfgHi  -- TNT_PART_CFG (high word), Table 16.7
  | tntState  -- TNT_STATE, Table 16.7
  | tntGen  -- TNT_GEN, Table 16.7
  | tntFaultEvt  -- TNT_FAULT_EVT, Table 16.7
  | tntStaleCnt  -- TNT_STALE_CNT, Table 16.7
  | tntFaultRec  -- TNT_FAULT_REC0-2, Table 16.7
  | tntRestartTime  -- TNT_RESTART_TIME, Table 16.7
  | tntCfg  -- TNT_CFG, Table 16.7
  | tntCtl  -- TNT_CTL, Table 16.7
  | ancFaultEvt  -- ANC_FAULT_EVT, Table 16.7
  | ancFaultCond  -- ANC_FAULT_COND, Table 16.7
  | ancFaultLog  -- ANC_FAULT_LOG, Table 16.7
  | pwaBudget  -- PWA_BUDGET, Table 17.3
  | pwaBudgetGuard  -- PWA_BUDGET_GUARD, Table 17.3
  | pwaWindow  -- PWA_WINDOW, Table 17.3
  | pwaDroopCfg  -- PWA_DROOP_CFG, Table 17.3
  | pwaStatus  -- PWA_STATUS, Table 17.3
  | pwaMeas  -- PWA_MEAS, Table 17.3
  | pwaGrantEvt  -- PWA_GRANT_EVT, Table 17.3
  | pwaGate  -- PWA_GATE, Table 17.3
  | pwaTemp  -- PWA_TEMP, Table 17.3
  | pwaSensor  -- PWA_SENSOR0-31, Table 17.3
  | pwaShareLo  -- PWA_SHARE0-63 (low word), Table 17.3
  | pwaShareHi  -- PWA_SHARE0-63 (high word), Table 17.3
  | pwaAlloc  -- PWA_ALLOC0-63, Table 17.3
  | pwaTile  -- PWA_TILE0-63, Table 17.3
  | stwStatus  -- STW_STATUS, Table 18.11
  | stwDuty  -- STW_DUTY, Table 18.11
  | stwHeartbeat  -- STW_HEARTBEAT0-4, Table 18.11
  | stwBreakCtl  -- STW_BREAK_CTL, Table 18.11
  | stwDrainStatus  -- STW_DRAIN_STATUS, Table 18.11
  | stwVfIrq  -- STW_VF_IRQ, Table 18.11
  | stwMtimeLo  -- STW_MTIME (low word), Table 18.11
  | stwMtimeHi  -- STW_MTIME (high word), Table 18.11
  | stwMtimecmpLo  -- STW_MTIMECMP0-4 (low word), Table 18.11
  | stwMtimecmpHi  -- STW_MTIMECMP0-4 (high word), Table 18.11
  | stwCause  -- STW_CAUSE0-4, Table 18.11
  | stwIrqEn  -- STW_IRQ_EN0-4, Table 18.11
  | stwLaunchPend  -- STW_LAUNCH_PEND0-1, Table 18.11
  | stwMbox  -- STW_MBOX0-15, Table 18.11
  | stwMboxDb  -- STW_MBOX_DB, Table 18.11
  | stwMboxStatus  -- STW_MBOX_STATUS, Table 18.11
  | stwMboxDone  -- STW_MBOX_DONE, Table 18.11
  | stwMboxRsp  -- STW_MBOX_RSP0-15, Table 18.11
  | pmcCtl  -- PMC_CTL, Table 19.14
  | pmcTagMode  -- PMC_TAG_MODE, Table 19.14
  | pmcReasonSel  -- PMC_REASON_SEL, Table 19.14
  | pmcFreezeReq  -- PMC_FREEZE_REQ, Table 19.14
  | pmcStatus  -- PMC_STATUS, Table 19.14
  | pmcHangCfg  -- PMC_HANG_CFG, Table 19.14
  | pmcHangStatus  -- PMC_HANG_STATUS, Table 19.14
  | pmcHangTime  -- PMC_HANG_TIME, Table 19.14
  | pmcHangRel  -- PMC_HANG_REL, Table 19.14
  | pmcHangEvt  -- PMC_HANG_EVT, Table 19.14
  | pmcTntCtl  -- PMC_TNT_CTL, Table 19.14
  | pmcTntHang  -- PMC_TNT_HANG, Table 19.14
  | pmcTntStatus  -- PMC_TNT_STATUS, Table 19.14
  | pmcWait  -- PMC_WAIT0-11, Table 19.14
  | pmcWcap  -- PMC_WCAP0-11, Table 19.14
  | pmcEngineBusyLo  -- PMC_ENGINE_BUSY (low word), Table 19.4
  | pmcEngineBusyHi  -- PMC_ENGINE_BUSY (high word), Table 19.4
  | pmcEngineStallLo  -- PMC_ENGINE_STALL (low word), Table 19.4
  | pmcEngineStallHi  -- PMC_ENGINE_STALL (high word), Table 19.4
  | pmcEngineIdleLo  -- PMC_ENGINE_IDLE (low word), Table 19.4
  | pmcEngineIdleHi  -- PMC_ENGINE_IDLE (high word), Table 19.4
  | pmcEngineSelLo  -- PMC_ENGINE_SEL (low word), Table 19.4
  | pmcEngineSelHi  -- PMC_ENGINE_SEL (high word), Table 19.4
  | pmcStallReason  -- PMC_STALL_REASON, Table 19.4
  | pmcRecHead  -- PMC_REC_HEAD, Tables 19.3, 19.6 and 19.7
  | pmcBinStatus  -- PMC_BIN_STATUS, Tables 19.3, 19.6 and 19.7
  | pmcTcStatus  -- PMC_TC_STATUS, Tables 19.3, 19.6 and 19.7
  | pmcTcLo  -- PMC_TC0-15 (low word), Tables 19.3, 19.6 and 19.7
  | pmcTcHi  -- PMC_TC0-15 (high word), Tables 19.3, 19.6 and 19.7
  | pmcBinKey  -- PMC_BIN0-31 key, Tables 19.3, 19.6 and 19.7
  | pmcBinCmds  -- PMC_BIN0-31 cmds, Tables 19.3, 19.6 and 19.7
  | pmcBinBusyLo  -- PMC_BIN0-31 busy (low word), Tables 19.3, 19.6 and 19.7
  | pmcBinBusyHi  -- PMC_BIN0-31 busy (high word), Tables 19.3, 19.6 and 19.7
  | pmcBinStallLo  -- PMC_BIN0-31 stall (low word), Tables 19.3, 19.6 and 19.7
  | pmcBinStallHi  -- PMC_BIN0-31 stall (high word), Tables 19.3, 19.6 and 19.7
  | pmcBinBytesLo  -- PMC_BIN0-31 bytes (low word), Tables 19.3, 19.6 and 19.7
  | pmcBinBytesHi  -- PMC_BIN0-31 bytes (high word), Tables 19.3, 19.6 and 19.7
  | pmcRecId  -- PMC_REC0-31 id, Tables 19.3, 19.6 and 19.7
  | pmcRecLength  -- PMC_REC0-31 length, Tables 19.3, 19.6 and 19.7
  | pmcRecSrcLo  -- PMC_REC0-31 src (low word), Tables 19.3, 19.6 and 19.7
  | pmcRecSrcHi  -- PMC_REC0-31 src (high word), Tables 19.3, 19.6 and 19.7
  | pmcRecDstLo  -- PMC_REC0-31 dst (low word), Tables 19.3, 19.6 and 19.7
  | pmcRecDstHi  -- PMC_REC0-31 dst (high word), Tables 19.3, 19.6 and 19.7
  | pmcRecStart  -- PMC_REC0-31 start, Tables 19.3, 19.6 and 19.7
  | pmcRecEnd  -- PMC_REC0-31 end, Tables 19.3, 19.6 and 19.7
  | irqPfPend  -- IRQ_PF_PEND, R853
  | irqVfPend  -- IRQ_VF_PEND0-63, R853
  | memPhyPair  -- MEM_PHY_PAIR, Table 20.6
  | memPhyStack  -- MEM_PHY_STACK, Table 20.6
  deriving DecidableEq, Repr

/-- Access codes (Table 0.2). `grd` is the guard register of a CPL register (R214). -/
inductive Access where
  | ro | rw | rc | w1c | wo | rwl | cpl | grd
  deriving DecidableEq, Repr

/-- Which paths may write a register beyond the privilege map (Table 20.7). -/
inductive Writers where
  | any | steward | ownCore | pfOnly | pfSteward | vfOnly | vfPfSteward
  deriving DecidableEq, Repr

/-- Which half of a 64-bit register a word is (R202, R203). -/
inductive Half where
  | whole | lo | hi
  deriving DecidableEq, Repr

/-- One row of the register tables: the word at base + i × s1 + j × s2, i < n1, j < n2. `classes` has a bit for each node
class of Table 1.2 whose windows hold the register; 0 for a register outside node windows and banks. `counter`: it counts (R812). An indirect register (R217, Table 20.5) has the
ports port0 .. port0 + ports - 1 and the lanes lane0 .. lane0 + lanes - 1; its `base` is the byte offset and its index i is
port × 256 + lane. A register of PF BAR0 has ports = 0. -/
structure RegDesc where
  base : Nat
  n1 : Nat
  s1 : Nat
  n2 : Nat
  s2 : Nat
  access : Access
  reset : Word
  wmask : Word
  classes : Nat
  half : Half
  writers : Writers
  counter : Bool
  port0 : Nat
  ports : Nat
  lane0 : Nat
  lanes : Nat
  deriving DecidableEq, Repr


/-- The register tables, row by row. -/
def RegId.desc : RegId → RegDesc
  | .ancId => ⟨0x0, 1, 0x0, 1, 0x0, .ro, 0xB015A3D#32, 0x0#32, 0, .whole, .any, false, 0, 0, 0, 0⟩
  | .ancStepping => ⟨0x4, 1, 0x0, 1, 0x0, .ro, 0x4100#32, 0x0#32, 0, .whole, .any, false, 0, 0, 0, 0⟩
  | .nodeId => ⟨0x100000, 96, 0x10000, 1, 0x0, .ro, 0x0#32, 0x0#32, 511, .whole, .any, false, 0, 0, 0, 0⟩
  | .ancState => ⟨0x10, 1, 0x0, 1, 0x0, .ro, 0x0#32, 0x0#32, 0, .whole, .any, false, 0, 0, 0, 0⟩
  | .ancResetCtl => ⟨0x18, 1, 0x0, 1, 0x0, .cpl, 0x0#32, 0xFF07#32, 0, .whole, .any, false, 0, 0, 0, 0⟩
  | .ancResetGuard => ⟨0x20, 1, 0x0, 1, 0x0, .grd, 0x0#32, 0x0#32, 0, .whole, .any, false, 0, 0, 0, 0⟩
  | .ancResetCause => ⟨0x28, 1, 0x0, 1, 0x0, .ro, 0x1#32, 0x0#32, 0, .whole, .any, false, 0, 0, 0, 0⟩
  | .clkRootCfg => ⟨0x1000, 1, 0x0, 1, 0x0, .rwl, 0x130#32, 0x10000#32, 0, .whole, .any, false, 0, 0, 0, 0⟩
  | .clkStatus => ⟨0x1004, 1, 0x0, 1, 0x0, .ro, 0x0#32, 0x0#32, 0, .whole, .any, false, 0, 0, 0, 0⟩
  | .clkEvt => ⟨0x1008, 1, 0x0, 1, 0x0, .rc, 0x0#32, 0x0#32, 0, .whole, .any, false, 0, 0, 0, 0⟩
  | .clkBarLo => ⟨0x1010, 1, 0x0, 1, 0x0, .ro, 0x0#32, 0x0#32, 0, .whole, .any, false, 0, 0, 0, 0⟩
  | .clkBarHi => ⟨0x1014, 1, 0x0, 1, 0x0, .ro, 0x0#32, 0x0#32, 0, .whole, .any, false, 0, 0, 0, 0⟩
  | .clkBarPhase => ⟨0x1018, 1, 0x0, 1, 0x0, .ro, 0x0#32, 0x0#32, 0, .whole, .any, false, 0, 0, 0, 0⟩
  | .clkBarErr => ⟨0x101C, 1, 0x0, 1, 0x0, .ro, 0x0#32, 0x0#32, 0, .whole, .any, false, 0, 0, 0, 0⟩
  | .nodeTclkMeas => ⟨0x100010, 96, 0x10000, 1, 0x0, .ro, 0x0#32, 0x0#32, 1, .whole, .any, false, 0, 0, 0, 0⟩
  | .bootStatus => ⟨0x3000, 1, 0x0, 1, 0x0, .ro, 0x0#32, 0x0#32, 0, .whole, .any, false, 0, 0, 0, 0⟩
  | .bootErr => ⟨0x3004, 1, 0x0, 1, 0x0, .ro, 0x0#32, 0x0#32, 0, .whole, .any, false, 0, 0, 0, 0⟩
  | .bootErrInfoA => ⟨0x3008, 1, 0x0, 1, 0x0, .ro, 0x0#32, 0x0#32, 0, .whole, .any, false, 0, 0, 0, 0⟩
  | .bootErrInfoB => ⟨0x300C, 1, 0x0, 1, 0x0, .ro, 0x0#32, 0x0#32, 0, .whole, .any, false, 0, 0, 0, 0⟩
  | .bootErrInfoR => ⟨0x3010, 1, 0x0, 1, 0x0, .ro, 0x0#32, 0x0#32, 0, .whole, .any, false, 0, 0, 0, 0⟩
  | .bootSlot => ⟨0x3014, 1, 0x0, 1, 0x0, .rw, 0x0#32, 0x7#32, 0, .whole, .pfOnly, false, 0, 0, 0, 0⟩
  | .bootImageId => ⟨0x3018, 1, 0x0, 1, 0x0, .ro, 0x0#32, 0x0#32, 0, .whole, .any, false, 0, 0, 0, 0⟩
  | .bootTime => ⟨0x301C, 1, 0x0, 1, 0x0, .ro, 0x0#32, 0x0#32, 0, .whole, .any, false, 0, 0, 0, 0⟩
  | .bootRepair => ⟨0x3020, 1, 0x0, 1, 0x0, .ro, 0x0#32, 0x0#32, 0, .whole, .any, false, 0, 0, 0, 0⟩
  | .bootTileFail => ⟨0x3024, 2, 0x4, 1, 0x0, .ro, 0x0#32, 0x0#32, 0, .whole, .any, false, 0, 0, 0, 0⟩
  | .bootProgCtl => ⟨0x3040, 1, 0x0, 1, 0x0, .wo, 0x0#32, 0x7#32, 0, .whole, .pfOnly, false, 0, 0, 0, 0⟩
  | .bootProgAddr => ⟨0x3044, 1, 0x0, 1, 0x0, .rw, 0x0#32, 0xFFFFFFF#32, 0, .whole, .pfOnly, false, 0, 0, 0, 0⟩
  | .bootProgStatus => ⟨0x3048, 1, 0x0, 1, 0x0, .ro, 0x0#32, 0x0#32, 0, .whole, .any, false, 0, 0, 0, 0⟩
  | .bootProgBuf => ⟨0x3100, 64, 0x4, 1, 0x0, .rw, 0x0#32, 0xFFFFFFFF#32, 0, .whole, .pfOnly, false, 0, 0, 0, 0⟩
  | .ancLock => ⟨0x30, 1, 0x0, 1, 0x0, .cpl, 0x0#32, 0x7F#32, 0, .whole, .any, false, 0, 0, 0, 0⟩
  | .ancLockGuard => ⟨0x38, 1, 0x0, 1, 0x0, .grd, 0x0#32, 0x0#32, 0, .whole, .any, false, 0, 0, 0, 0⟩
  | .ancSnapshot => ⟨0x40, 1, 0x0, 1, 0x0, .wo, 0x0#32, 0x1#32, 0, .whole, .any, false, 0, 0, 0, 0⟩
  | .ancSnapStatus => ⟨0x44, 1, 0x0, 1, 0x0, .ro, 0x0#32, 0x0#32, 0, .whole, .any, false, 0, 0, 0, 0⟩
  | .ancSnapBar => ⟨0x48, 1, 0x0, 1, 0x0, .ro, 0x0#32, 0x0#32, 0, .whole, .any, false, 0, 0, 0, 0⟩
  | .ancMisuseEvt => ⟨0x60, 1, 0x0, 1, 0x0, .rc, 0x0#32, 0x0#32, 0, .whole, .any, false, 0, 0, 0, 0⟩
  | .ancMisuseAddr => ⟨0x64, 1, 0x0, 1, 0x0, .ro, 0x0#32, 0x0#32, 0, .whole, .any, false, 0, 0, 0, 0⟩
  | .idxAddr => ⟨0x4000, 1, 0x0, 1, 0x0, .rw, 0x0#32, 0xFFFFFF#32, 0, .whole, .any, false, 0, 0, 0, 0⟩
  | .idxCtl => ⟨0x4004, 1, 0x0, 1, 0x0, .rw, 0x0#32, 0x3#32, 0, .whole, .any, false, 0, 0, 0, 0⟩
  | .idxData => ⟨0x4008, 1, 0x0, 1, 0x0, .rw, 0x0#32, 0xFFFFFFFF#32, 0, .whole, .any, false, 0, 0, 0, 0⟩
  | .idxStatus => ⟨0x400C, 1, 0x0, 1, 0x0, .ro, 0x0#32, 0x0#32, 0, .whole, .any, false, 0, 0, 0, 0⟩
  | .idxEvt => ⟨0x4010, 1, 0x0, 1, 0x0, .rc, 0x0#32, 0x0#32, 0, .whole, .any, false, 0, 0, 0, 0⟩
  | .fusSecPolicy => ⟨0x2000, 1, 0x0, 1, 0x0, .ro, 0x0#32, 0x0#32, 0, .whole, .any, false, 0, 0, 0, 0⟩
  | .fusTenantMax => ⟨0x2004, 1, 0x0, 1, 0x0, .ro, 0x0#32, 0x0#32, 0, .whole, .any, false, 0, 0, 0, 0⟩
  | .fusDebug => ⟨0x2008, 1, 0x0, 1, 0x0, .ro, 0x0#32, 0x0#32, 0, .whole, .any, false, 0, 0, 0, 0⟩
  | .fusStatus => ⟨0x200C, 1, 0x0, 1, 0x0, .ro, 0x0#32, 0x0#32, 0, .whole, .any, false, 0, 0, 0, 0⟩
  | .fusNodeMask => ⟨0x2010, 3, 0x4, 1, 0x0, .ro, 0x0#32, 0x0#32, 0, .whole, .any, false, 0, 0, 0, 0⟩
  | .fusLaneRepair => ⟨0x2020, 6, 0x4, 1, 0x0, .ro, 0x0#32, 0x0#32, 0, .whole, .any, false, 0, 0, 0, 0⟩
  | .fusKeyhash => ⟨0x2040, 12, 0x4, 1, 0x0, .ro, 0x0#32, 0x0#32, 0, .whole, .any, false, 0, 0, 0, 0⟩
  | .fusPrivMap => ⟨0x2080, 8, 0x4, 1, 0x0, .ro, 0x0#32, 0x0#32, 0, .whole, .any, false, 0, 0, 0, 0⟩
  | .fusProgCtl => ⟨0x20C0, 1, 0x0, 1, 0x0, .cpl, 0x0#32, 0x1FF#32, 0, .whole, .any, false, 0, 0, 0, 0⟩
  | .fusProgData => ⟨0x20C4, 1, 0x0, 1, 0x0, .rw, 0x0#32, 0xFFFFFFFF#32, 0, .whole, .any, false, 0, 0, 0, 0⟩
  | .fusProgGuard => ⟨0x20C8, 1, 0x0, 1, 0x0, .grd, 0x0#32, 0x0#32, 0, .whole, .any, false, 0, 0, 0, 0⟩
  | .fusProgStatus => ⟨0x20CC, 1, 0x0, 1, 0x0, .ro, 0x0#32, 0x0#32, 0, .whole, .any, false, 0, 0, 0, 0⟩
  | .bnVcCfg => ⟨0x100100, 96, 0x10000, 1, 0x0, .ro, 0x608FF#32, 0x0#32, 511, .whole, .any, false, 0, 0, 0, 0⟩
  | .bnLinkStatus => ⟨0x100104, 96, 0x10000, 1, 0x0, .ro, 0x0#32, 0x0#32, 511, .whole, .any, false, 0, 0, 0, 0⟩
  | .bnLinkEc => ⟨0x100108, 96, 0x10000, 1, 0x0, .ro, 0x0#32, 0x0#32, 511, .whole, .any, false, 0, 0, 0, 0⟩
  | .bnEccEvt => ⟨0x10010C, 96, 0x10000, 1, 0x0, .rc, 0x0#32, 0x0#32, 511, .whole, .any, false, 0, 0, 0, 0⟩
  | .bnLateEvt => ⟨0x100110, 96, 0x10000, 1, 0x0, .rc, 0x0#32, 0x0#32, 511, .whole, .any, false, 0, 0, 0, 0⟩
  | .bnDropEvt => ⟨0x100114, 96, 0x10000, 1, 0x0, .rc, 0x0#32, 0x0#32, 511, .whole, .any, false, 0, 0, 0, 0⟩
  | .bnRouteTbl => ⟨0x102000, 96, 0x10000, 1024, 0x4, .rw, 0x0#32, 0x1F1F1F1F#32, 511, .whole, .any, false, 0, 0, 0, 0⟩
  | .bnFlowCfg => ⟨0x104000, 96, 0x10000, 512, 0x20, .rw, 0x0#32, 0xFFFFFFFF#32, 511, .whole, .any, false, 0, 0, 0, 0⟩
  | .bnFlowRate => ⟨0x104004, 96, 0x10000, 512, 0x20, .rw, 0x0#32, 0x1FFFFFFF#32, 511, .whole, .any, false, 0, 0, 0, 0⟩
  | .bnFlowBound => ⟨0x104008, 96, 0x10000, 512, 0x20, .rw, 0x0#32, 0xFFFFFF#32, 511, .whole, .any, false, 0, 0, 0, 0⟩
  | .bnFlowPhase => ⟨0x10400C, 96, 0x10000, 512, 0x20, .rw, 0x0#32, 0xFF0FFF#32, 511, .whole, .any, false, 0, 0, 0, 0⟩
  | .bnFlowState => ⟨0x104010, 96, 0x10000, 512, 0x20, .ro, 0x0#32, 0x0#32, 511, .whole, .any, false, 0, 0, 0, 0⟩
  | .bnPhase => ⟨0x108000, 96, 0x10000, 4096, 0x4, .rw, 0x0#32, 0xBF0000FF#32, 64, .whole, .steward, false, 0, 0, 0, 0⟩
  | .chCfg => ⟨0x800000, 4096, 0x40, 1, 0x0, .rw, 0x0#32, 0xFFFFEFFF#32, 0, .whole, .steward, false, 0, 0, 0, 0⟩
  | .chEp => ⟨0x800004, 4096, 0x40, 1, 0x0, .rw, 0x0#32, 0xF7F0F7F#32, 0, .whole, .steward, false, 0, 0, 0, 0⟩
  | .chStatus => ⟨0x800008, 4096, 0x40, 1, 0x0, .ro, 0x8000000#32, 0x0#32, 0, .whole, .any, false, 0, 0, 0, 0⟩
  | .chEvt => ⟨0x80000C, 4096, 0x40, 1, 0x0, .rc, 0x0#32, 0x0#32, 0, .whole, .any, false, 0, 0, 0, 0⟩
  | .chMsgCntLo => ⟨0x800010, 4096, 0x40, 1, 0x0, .rw, 0x0#32, 0xFFFFFFFF#32, 0, .lo, .any, true, 0, 0, 0, 0⟩
  | .chMsgCntHi => ⟨0x800014, 4096, 0x40, 1, 0x0, .rw, 0x0#32, 0xFFFFFFFF#32, 0, .hi, .any, true, 0, 0, 0, 0⟩
  | .chStallCntLo => ⟨0x800018, 4096, 0x40, 1, 0x0, .rw, 0x0#32, 0xFFFFFFFF#32, 0, .lo, .any, true, 0, 0, 0, 0⟩
  | .chStallCntHi => ⟨0x80001C, 4096, 0x40, 1, 0x0, .rw, 0x0#32, 0xFFFFFFFF#32, 0, .hi, .any, true, 0, 0, 0, 0⟩
  | .chSeq => ⟨0x800020, 4096, 0x40, 1, 0x0, .ro, 0x0#32, 0x0#32, 0, .whole, .any, false, 0, 0, 0, 0⟩
  | .chEpt => ⟨0x100200, 96, 0x10000, 16, 0x4, .rw, 0x0#32, 0xBFFF#32, 41, .whole, .steward, false, 0, 0, 0, 0⟩
  | .chDropEvt => ⟨0x100240, 96, 0x10000, 1, 0x0, .rc, 0x0#32, 0x0#32, 511, .whole, .any, false, 0, 0, 0, 0⟩
  | .chLinkEc => ⟨0x100244, 96, 0x10000, 1, 0x0, .ro, 0x0#32, 0x0#32, 511, .whole, .any, false, 0, 0, 0, 0⟩
  | .chStore => ⟨0x100248, 96, 0x10000, 1, 0x0, .ro, 0x0#32, 0x0#32, 41, .whole, .any, false, 0, 0, 0, 0⟩
  | .nodeBell => ⟨0x100250, 96, 0x10000, 1, 0x0, .w1c, 0x0#32, 0xFFFFFF#32, 41, .whole, .any, false, 0, 0, 0, 0⟩
  | .nodeBellRing => ⟨0x100254, 96, 0x10000, 1, 0x0, .wo, 0x0#32, 0xFF0000#32, 41, .whole, .steward, false, 0, 0, 0, 0⟩
  | .snLinkEc => ⟨0x100300, 96, 0x10000, 1, 0x0, .ro, 0x0#32, 0x0#32, 511, .whole, .any, false, 0, 0, 0, 0⟩
  | .snEccEvt => ⟨0x100304, 96, 0x10000, 1, 0x0, .rc, 0x0#32, 0x0#32, 511, .whole, .any, false, 0, 0, 0, 0⟩
  | .snDropEvt => ⟨0x100308, 96, 0x10000, 1, 0x0, .rc, 0x0#32, 0x0#32, 511, .whole, .any, false, 0, 0, 0, 0⟩
  | .snJoin => ⟨0x10C000, 96, 0x10000, 128, 0x4, .rw, 0x0#32, 0x1F1F1F1F#32, 511, .whole, .any, false, 0, 0, 0, 0⟩
  | .snRing => ⟨0x10C200, 96, 0x10000, 128, 0x4, .rw, 0x0#32, 0x7070707#32, 4, .whole, .any, false, 0, 0, 0, 0⟩
  | .snGongCtl => ⟨0x100310, 96, 0x10000, 1, 0x0, .rw, 0x500#32, 0x803F1F13#32, 64, .whole, .any, false, 0, 0, 0, 0⟩
  | .snGongStatus => ⟨0x100314, 96, 0x10000, 1, 0x0, .ro, 0x0#32, 0x0#32, 64, .whole, .any, false, 0, 0, 0, 0⟩
  | .snGongEvt => ⟨0x100318, 96, 0x10000, 1, 0x0, .rc, 0x0#32, 0x0#32, 64, .whole, .any, false, 0, 0, 0, 0⟩
  | .snGongLast => ⟨0x10031C, 96, 0x10000, 2, 0x4, .ro, 0x0#32, 0x0#32, 64, .whole, .any, false, 0, 0, 0, 0⟩
  | .snDbStatus => ⟨0x100330, 96, 0x10000, 1, 0x0, .ro, 0x0#32, 0x0#32, 64, .whole, .any, false, 0, 0, 0, 0⟩
  | .snBarrierCfg => ⟨0x10D000, 96, 0x10000, 256, 0x8, .rw, 0x0#32, 0xFFFFC0FF#32, 64, .whole, .any, false, 0, 0, 0, 0⟩
  | .snBarrierStatus => ⟨0x10D004, 96, 0x10000, 256, 0x8, .ro, 0x0#32, 0x0#32, 64, .whole, .any, false, 0, 0, 0, 0⟩
  | .snRimshotCfg => ⟨0x10D800, 96, 0x10000, 256, 0x8, .rw, 0x0#32, 0xFFFFFFFF#32, 64, .whole, .any, false, 0, 0, 0, 0⟩
  | .snRimshotStatus => ⟨0x10D804, 96, 0x10000, 256, 0x8, .ro, 0x0#32, 0x0#32, 64, .whole, .any, false, 0, 0, 0, 0⟩
  | .fldCap => ⟨0x100400, 96, 0x10000, 1, 0x0, .ro, 0x40#32, 0x0#32, 511, .whole, .any, false, 0, 0, 0, 0⟩
  | .fldEvt => ⟨0x100404, 96, 0x10000, 1, 0x0, .rc, 0x0#32, 0x0#32, 511, .whole, .any, false, 0, 0, 0, 0⟩
  | .fldDupEvt => ⟨0x100408, 96, 0x10000, 1, 0x0, .rc, 0x0#32, 0x0#32, 511, .whole, .any, false, 0, 0, 0, 0⟩
  | .fldCfg => ⟨0x10E000, 96, 0x10000, 64, 0x20, .rw, 0x0#32, 0xFFFF8FFF#32, 511, .whole, .steward, false, 0, 0, 0, 0⟩
  | .fldFmt => ⟨0x10E004, 96, 0x10000, 64, 0x20, .rw, 0x0#32, 0x71F1FFF#32, 511, .whole, .steward, false, 0, 0, 0, 0⟩
  | .fldLink => ⟨0x10E008, 96, 0x10000, 64, 0x20, .rw, 0x0#32, 0xF31FFF#32, 511, .whole, .steward, false, 0, 0, 0, 0⟩
  | .fldStatus => ⟨0x10E00C, 96, 0x10000, 64, 0x20, .ro, 0x0#32, 0x0#32, 511, .whole, .any, false, 0, 0, 0, 0⟩
  | .fldBlocks => ⟨0x10E010, 96, 0x10000, 64, 0x20, .ro, 0x0#32, 0x0#32, 511, .whole, .any, false, 0, 0, 0, 0⟩
  | .cqGroupCfg => ⟨0x103000, 96, 0x10000, 16, 0x10, .rw, 0x0#32, 0xFFFFEFFF#32, 1, .whole, .steward, false, 0, 0, 0, 0⟩
  | .cqGroupFlow => ⟨0x103004, 96, 0x10000, 16, 0x10, .rw, 0x0#32, 0x9FFF8FFF#32, 1, .whole, .steward, false, 0, 0, 0, 0⟩
  | .cqStatus => ⟨0x103008, 96, 0x10000, 16, 0x10, .ro, 0x0#32, 0x0#32, 1, .whole, .any, false, 0, 0, 0, 0⟩
  | .cqRingCfg => ⟨0x103200, 96, 0x10000, 32, 0x10, .rw, 0x0#32, 0xFFFFC0FF#32, 4, .whole, .steward, false, 0, 0, 0, 0⟩
  | .cqRingFlow => ⟨0x103204, 96, 0x10000, 32, 0x10, .rw, 0x0#32, 0x1FFF1FFF#32, 4, .whole, .steward, false, 0, 0, 0, 0⟩
  | .cqRingStatus => ⟨0x103208, 96, 0x10000, 32, 0x10, .ro, 0x0#32, 0x0#32, 4, .whole, .any, false, 0, 0, 0, 0⟩
  | .cqSeqCfg => ⟨0x103000, 96, 0x10000, 64, 0x10, .rw, 0x0#32, 0xFFFF80FF#32, 16, .whole, .steward, false, 0, 0, 0, 0⟩
  | .cqSeqScope => ⟨0x103004, 96, 0x10000, 64, 0x10, .rw, 0x0#32, 0x7F003F#32, 16, .whole, .steward, false, 0, 0, 0, 0⟩
  | .cqSeqStatus => ⟨0x103008, 96, 0x10000, 64, 0x10, .ro, 0x0#32, 0x0#32, 16, .whole, .any, false, 0, 0, 0, 0⟩
  | .cqTailEvt => ⟨0x103100, 96, 0x10000, 1, 0x0, .rc, 0x0#32, 0x0#32, 1, .whole, .any, false, 0, 0, 0, 0⟩
  | .tpCfg => ⟨0x100500, 96, 0x10000, 1, 0x0, .rw, 0x21000#32, 0x800F1F00#32, 1, .whole, .steward, false, 0, 0, 0, 0⟩
  | .tpCond => ⟨0x100504, 96, 0x10000, 1, 0x0, .ro, 0x0#32, 0x0#32, 1, .whole, .any, false, 0, 0, 0, 0⟩
  | .tpViolEvt => ⟨0x100508, 96, 0x10000, 1, 0x0, .rc, 0x0#32, 0x0#32, 1, .whole, .any, false, 0, 0, 0, 0⟩
  | .tpViolLog => ⟨0x10050C, 96, 0x10000, 1, 0x0, .ro, 0x0#32, 0x0#32, 1, .whole, .any, false, 0, 0, 0, 0⟩
  | .tpViolBar => ⟨0x100510, 96, 0x10000, 1, 0x0, .ro, 0x0#32, 0x0#32, 1, .whole, .any, false, 0, 0, 0, 0⟩
  | .tpViolLimit => ⟨0x100514, 96, 0x10000, 1, 0x0, .rw, 0x100040#32, 0xFFFFFF#32, 1, .whole, .steward, false, 0, 0, 0, 0⟩
  | .tpViolCnt => ⟨0x100518, 96, 0x10000, 1, 0x0, .ro, 0x0#32, 0x0#32, 1, .whole, .any, false, 0, 0, 0, 0⟩
  | .tpErrEvt => ⟨0x10051C, 96, 0x10000, 1, 0x0, .rc, 0x0#32, 0x0#32, 1, .whole, .any, false, 0, 0, 0, 0⟩
  | .tpPage => ⟨0x100520, 96, 0x10000, 2, 0x4, .ro, 0x0#32, 0x0#32, 1, .whole, .any, false, 0, 0, 0, 0⟩
  | .tpOut => ⟨0x100528, 96, 0x10000, 1, 0x0, .ro, 0x0#32, 0x0#32, 1, .whole, .any, false, 0, 0, 0, 0⟩
  | .tpFmap => ⟨0x108000, 96, 0x10000, 512, 0x4, .rw, 0x0#32, 0x9FFF1FFF#32, 1, .whole, .steward, false, 0, 0, 0, 0⟩
  | .tpCmap => ⟨0x108800, 96, 0x10000, 256, 0x4, .rw, 0x0#32, 0x8FFF0FFF#32, 1, .whole, .steward, false, 0, 0, 0, 0⟩
  | .tpSmap => ⟨0x108C00, 96, 0x10000, 64, 0x4, .rw, 0x0#32, 0x80FF01FF#32, 1, .whole, .steward, false, 0, 0, 0, 0⟩
  | .tpPmap => ⟨0x108D00, 96, 0x10000, 16, 0x4, .rw, 0x0#32, 0x80FF0FFF#32, 1, .whole, .steward, false, 0, 0, 0, 0⟩
  | .tpGmap => ⟨0x108D40, 96, 0x10000, 16, 0x4, .rw, 0x0#32, 0x800000FF#32, 1, .whole, .steward, false, 0, 0, 0, 0⟩
  | .tpfState => ⟨0x0, 2048, 0x0, 1, 0x0, .ro, 0x0#32, 0x0#32, 0, .whole, .any, false, 6, 1, 0, 64⟩
  | .tpfLines => ⟨0x4, 2048, 0x0, 1, 0x0, .ro, 0x0#32, 0x0#32, 0, .whole, .any, false, 6, 1, 0, 64⟩
  | .tpfCredits => ⟨0x8, 2048, 0x0, 1, 0x0, .ro, 0x0#32, 0x0#32, 0, .whole, .any, false, 6, 1, 0, 64⟩
  | .tpfEcc => ⟨0x40, 2048, 0x0, 4, 0x4, .ro, 0x0#32, 0x0#32, 0, .whole, .any, false, 6, 1, 0, 64⟩
  | .slbLease => ⟨0x1000000, 4096, 0x4, 1, 0x0, .rw, 0x0#32, 0xFFFF8000#32, 0, .whole, .steward, false, 0, 0, 0, 0⟩
  | .slbHlease => ⟨0x1010000, 49152, 0x4, 1, 0x0, .rw, 0x0#32, 0xFFFF8000#32, 0, .whole, .steward, false, 0, 0, 0, 0⟩
  | .slbHmap => ⟨0x1040000, 49152, 0x4, 1, 0x0, .ro, 0x0#32, 0x0#32, 0, .whole, .any, false, 0, 0, 0, 0⟩
  | .slbHzero => ⟨0x1070000, 49152, 0x4, 1, 0x0, .ro, 0x0#32, 0x0#32, 0, .whole, .any, false, 0, 0, 0, 0⟩
  | .slbHbase => ⟨0x10A0000, 64, 0x10, 1, 0x0, .ro, 0x0#32, 0x0#32, 0, .whole, .any, false, 0, 0, 0, 0⟩
  | .slbFreeErrEvt => ⟨0x10A0004, 64, 0x10, 1, 0x0, .rc, 0x0#32, 0x0#32, 0, .whole, .any, false, 0, 0, 0, 0⟩
  | .slbUse => ⟨0x10A0008, 64, 0x10, 1, 0x0, .ro, 0x0#32, 0x0#32, 0, .whole, .any, false, 0, 0, 0, 0⟩
  | .memSpillCfg => ⟨0x10100, 64, 0x400, 1, 0x0, .rw, 0x0#32, 0xFFFFFFFF#32, 0, .whole, .steward, false, 0, 0, 0, 0⟩
  | .slbEccEvt => ⟨0x100600, 96, 0x10000, 1, 0x0, .rc, 0x0#32, 0x0#32, 1, .whole, .any, false, 0, 0, 0, 0⟩
  | .slbScrub => ⟨0x100604, 96, 0x10000, 1, 0x0, .ro, 0x0#32, 0x0#32, 1, .whole, .any, false, 0, 0, 0, 0⟩
  | .slbRetired => ⟨0x100608, 96, 0x10000, 2, 0x4, .ro, 0x0#32, 0x0#32, 1, .whole, .any, false, 0, 0, 0, 0⟩
  | .memPcStatus => ⟨0x100600, 96, 0x10000, 1, 0x0, .ro, 0x0#32, 0x0#32, 2, .whole, .any, false, 0, 0, 0, 0⟩
  | .memEccEvt => ⟨0x100604, 96, 0x10000, 1, 0x0, .rc, 0x0#32, 0x0#32, 2, .whole, .any, false, 0, 0, 0, 0⟩
  | .memZeroStatus => ⟨0x100608, 96, 0x10000, 1, 0x0, .ro, 0x0#32, 0x0#32, 2, .whole, .any, false, 0, 0, 0, 0⟩
  | .phyLaneStatus => ⟨0x0, 2048, 0x0, 1, 0x0, .ro, 0x0#32, 0x0#32, 0, .whole, .any, false, 0, 6, 0, 18⟩
  | .phyEqCfg => ⟨0x4, 2048, 0x0, 1, 0x0, .rw, 0x40#32, 0xFF3#32, 0, .whole, .any, false, 0, 6, 0, 18⟩
  | .phyGainCfg => ⟨0x8, 2048, 0x0, 1, 0x0, .rw, 0x6001#32, 0xFFF1#32, 0, .whole, .any, false, 0, 6, 0, 18⟩
  | .phyEvm => ⟨0xC, 2048, 0x0, 1, 0x0, .ro, 0x0#32, 0x0#32, 0, .whole, .any, false, 0, 6, 0, 18⟩
  | .phyQual => ⟨0x10, 2048, 0x0, 1, 0x0, .ro, 0x0#32, 0x0#32, 0, .whole, .any, false, 0, 6, 0, 18⟩
  | .phyFreq => ⟨0x14, 2048, 0x0, 1, 0x0, .ro, 0x0#32, 0x0#32, 0, .whole, .any, false, 0, 6, 0, 18⟩
  | .phyLaneEvt => ⟨0x18, 2048, 0x0, 1, 0x0, .rc, 0x0#32, 0x0#32, 0, .whole, .any, false, 0, 6, 0, 18⟩
  | .phyFfe => ⟨0x40, 2048, 0x0, 12, 0x4, .rw, 0x0#32, 0xFF#32, 0, .whole, .any, false, 0, 6, 0, 18⟩
  | .phyDfe => ⟨0x70, 2048, 0x0, 4, 0x4, .rw, 0x0#32, 0x7F#32, 0, .whole, .any, false, 0, 6, 0, 18⟩
  | .phyPortStatus => ⟨0x0, 2048, 0x0, 1, 0x0, .ro, 0x0#32, 0x0#32, 0, .whole, .any, false, 0, 6, 255, 1⟩
  | .phyPortCfg => ⟨0x4, 2048, 0x0, 1, 0x0, .rw, 0x600C#32, 0xFF1F#32, 0, .whole, .any, false, 0, 6, 255, 1⟩
  | .phyTxLanes => ⟨0x8, 2048, 0x0, 1, 0x0, .ro, 0x0#32, 0x0#32, 0, .whole, .any, false, 0, 6, 255, 1⟩
  | .phyRxLanes => ⟨0xC, 2048, 0x0, 1, 0x0, .ro, 0x0#32, 0x0#32, 0, .whole, .any, false, 0, 6, 255, 1⟩
  | .phyRxIsol => ⟨0x10, 2048, 0x0, 1, 0x0, .ro, 0x0#32, 0x0#32, 0, .whole, .any, false, 0, 6, 255, 1⟩
  | .phyTxIsol => ⟨0x14, 2048, 0x0, 1, 0x0, .ro, 0x0#32, 0x0#32, 0, .whole, .any, false, 0, 6, 255, 1⟩
  | .phyPeerFuse => ⟨0x18, 2048, 0x0, 1, 0x0, .ro, 0x0#32, 0x0#32, 0, .whole, .any, false, 0, 6, 255, 1⟩
  | .phySyncCfg => ⟨0x20, 2048, 0x0, 1, 0x0, .rw, 0x804#32, 0xF0F#32, 0, .whole, .any, false, 0, 6, 255, 1⟩
  | .phyPreambleCfg => ⟨0x24, 2048, 0x0, 1, 0x0, .rw, 0x60#32, 0xFF#32, 0, .whole, .any, false, 0, 6, 255, 1⟩
  | .phyRampCfg => ⟨0x28, 2048, 0x0, 1, 0x0, .rw, 0x303#32, 0x10F#32, 0, .whole, .any, false, 0, 6, 255, 1⟩
  | .phyPortEvt => ⟨0x2C, 2048, 0x0, 1, 0x0, .rc, 0x0#32, 0x0#32, 0, .whole, .any, false, 0, 6, 255, 1⟩
  | .phySleepBars => ⟨0x30, 2048, 0x0, 1, 0x0, .rw, 0x0#32, 0xFFFFFFFF#32, 0, .whole, .any, false, 0, 6, 255, 1⟩
  | .phyTrainTime => ⟨0x34, 2048, 0x0, 1, 0x0, .ro, 0x0#32, 0x0#32, 0, .whole, .any, false, 0, 6, 255, 1⟩
  | .lnkPortCfg => ⟨0xC00000, 6, 0x10000, 1, 0x0, .rw, 0x41020#32, 0xFFFFF#32, 0, .whole, .any, false, 0, 0, 0, 0⟩
  | .lnkPortStatus => ⟨0xC00004, 6, 0x10000, 1, 0x0, .ro, 0x0#32, 0x0#32, 0, .whole, .any, false, 0, 0, 0, 0⟩
  | .lnkPortEvt => ⟨0xC00008, 6, 0x10000, 1, 0x0, .rc, 0x0#32, 0x0#32, 0, .whole, .any, false, 0, 0, 0, 0⟩
  | .lnkRetryCfg => ⟨0xC0000C, 6, 0x10000, 1, 0x0, .rw, 0x80080000#32, 0xFF000000#32, 0, .whole, .any, false, 0, 0, 0, 0⟩
  | .lnkSeqStatus => ⟨0xC00010, 6, 0x10000, 1, 0x0, .ro, 0x0#32, 0x0#32, 0, .whole, .any, false, 0, 0, 0, 0⟩
  | .lnkSeqRx => ⟨0xC00014, 6, 0x10000, 1, 0x0, .ro, 0x0#32, 0x0#32, 0, .whole, .any, false, 0, 0, 0, 0⟩
  | .lnkCredit => ⟨0xC00018, 6, 0x10000, 1, 0x0, .ro, 0x0#32, 0x0#32, 0, .whole, .any, false, 0, 0, 0, 0⟩
  | .lnkRtt => ⟨0xC0001C, 6, 0x10000, 1, 0x0, .ro, 0x0#32, 0x0#32, 0, .whole, .any, false, 0, 0, 0, 0⟩
  | .lnkPeer => ⟨0xC00020, 6, 0x10000, 1, 0x0, .ro, 0x0#32, 0x0#32, 0, .whole, .any, false, 0, 0, 0, 0⟩
  | .lnkRxEvt => ⟨0xC00024, 6, 0x10000, 1, 0x0, .rc, 0x0#32, 0x0#32, 0, .whole, .any, false, 0, 0, 0, 0⟩
  | .lnkViolEvt => ⟨0xC00028, 6, 0x10000, 1, 0x0, .rc, 0x0#32, 0x0#32, 0, .whole, .any, false, 0, 0, 0, 0⟩
  | .lnkViolCnt => ⟨0xC0002C, 6, 0x10000, 1, 0x0, .ro, 0x0#32, 0x0#32, 0, .whole, .any, false, 0, 0, 0, 0⟩
  | .lnkLaneEc => ⟨0xC00100, 6, 0x10000, 18, 0x4, .ro, 0x0#32, 0x0#32, 0, .whole, .any, false, 0, 0, 0, 0⟩
  | .lnkLqi => ⟨0xC00180, 6, 0x10000, 18, 0x4, .ro, 0x0#32, 0x0#32, 0, .whole, .any, false, 0, 0, 0, 0⟩
  | .hstLinkStatus => ⟨0x40000, 1, 0x0, 1, 0x0, .ro, 0x0#32, 0x0#32, 0, .whole, .any, false, 0, 0, 0, 0⟩
  | .hstRelayTxCtl => ⟨0x40010, 1, 0x0, 1, 0x0, .wo, 0x0#32, 0x80000FFF#32, 0, .whole, .pfSteward, false, 0, 0, 0, 0⟩
  | .hstRelayRxCtl => ⟨0x40014, 1, 0x0, 1, 0x0, .wo, 0x0#32, 0x80000FFF#32, 0, .whole, .pfSteward, false, 0, 0, 0, 0⟩
  | .hstRelayStatus => ⟨0x40018, 1, 0x0, 1, 0x0, .ro, 0x0#32, 0x0#32, 0, .whole, .any, false, 0, 0, 0, 0⟩
  | .hstRelayTx => ⟨0x40040, 16, 0x4, 1, 0x0, .rw, 0x0#32, 0xFFFFFFFF#32, 0, .whole, .pfSteward, false, 0, 0, 0, 0⟩
  | .hstRelayRx => ⟨0x40080, 16, 0x4, 1, 0x0, .ro, 0x0#32, 0x0#32, 0, .whole, .any, false, 0, 0, 0, 0⟩
  | .hstVfCfg => ⟨0x40100, 64, 0x4, 1, 0x0, .rw, 0xF03#32, 0xF03#32, 0, .whole, .pfSteward, false, 0, 0, 0, 0⟩
  | .hstPfEvt => ⟨0x40200, 1, 0x0, 1, 0x0, .rc, 0x0#32, 0x0#32, 0, .whole, .any, false, 0, 0, 0, 0⟩
  | .hstLaunchDesc => ⟨0x41000, 64, 0x1000, 8, 0x4, .rw, 0x0#32, 0xFFFFFFFF#32, 0, .whole, .any, false, 0, 0, 0, 0⟩
  | .hstLaunchDb => ⟨0x41020, 64, 0x1000, 1, 0x0, .wo, 0x0#32, 0x1#32, 0, .whole, .vfOnly, false, 0, 0, 0, 0⟩
  | .hstLaunchStatus => ⟨0x41024, 64, 0x1000, 1, 0x0, .ro, 0x0#32, 0x0#32, 0, .whole, .any, false, 0, 0, 0, 0⟩
  | .hstLaunchCookie => ⟨0x41028, 64, 0x1000, 1, 0x0, .ro, 0x0#32, 0x0#32, 0, .whole, .any, false, 0, 0, 0, 0⟩
  | .hstJobStatus => ⟨0x41030, 64, 0x1000, 1, 0x0, .ro, 0x0#32, 0x0#32, 0, .whole, .any, false, 0, 0, 0, 0⟩
  | .hstJobCtl => ⟨0x41034, 64, 0x1000, 1, 0x0, .wo, 0x0#32, 0x1#32, 0, .whole, .vfOnly, false, 0, 0, 0, 0⟩
  | .hstVfEvt => ⟨0x41038, 64, 0x1000, 1, 0x0, .rc, 0x0#32, 0x0#32, 0, .whole, .any, false, 0, 0, 0, 0⟩
  | .hstViewSel => ⟨0x41040, 64, 0x1000, 1, 0x0, .rw, 0x0#32, 0x33F#32, 0, .whole, .vfPfSteward, false, 0, 0, 0, 0⟩
  | .hstWinBaseLo => ⟨0xC0000, 64, 0x100, 16, 0x10, .rw, 0x0#32, 0xFFFF0001#32, 0, .lo, .pfOnly, false, 0, 0, 0, 0⟩
  | .hstWinBaseHi => ⟨0xC0004, 64, 0x100, 16, 0x10, .rw, 0x0#32, 0xFFFFFFFF#32, 0, .hi, .pfOnly, false, 0, 0, 0, 0⟩
  | .hstWinSize => ⟨0xC0008, 64, 0x100, 16, 0x10, .rw, 0x0#32, 0xFFFFF#32, 0, .whole, .pfOnly, false, 0, 0, 0, 0⟩
  | .hstWinStatus => ⟨0xC000C, 64, 0x100, 16, 0x10, .ro, 0x0#32, 0x0#32, 0, .whole, .any, false, 0, 0, 0, 0⟩
  | .tntPartCfgLo => ⟨0x10000, 64, 0x400, 1, 0x0, .rwl, 0x0#32, 0xC0FF3377#32, 0, .lo, .any, false, 0, 0, 0, 0⟩
  | .tntPartCfgHi => ⟨0x10004, 64, 0x400, 1, 0x0, .rwl, 0x0#32, 0xFFFFFF#32, 0, .hi, .any, false, 0, 0, 0, 0⟩
  | .tntState => ⟨0x10008, 64, 0x400, 1, 0x0, .ro, 0x0#32, 0x0#32, 0, .whole, .any, false, 0, 0, 0, 0⟩
  | .tntGen => ⟨0x1000C, 64, 0x400, 1, 0x0, .ro, 0x0#32, 0x0#32, 0, .whole, .any, false, 0, 0, 0, 0⟩
  | .tntFaultEvt => ⟨0x10010, 64, 0x400, 1, 0x0, .rc, 0x0#32, 0x0#32, 0, .whole, .any, false, 0, 0, 0, 0⟩
  | .tntStaleCnt => ⟨0x10014, 64, 0x400, 1, 0x0, .rw, 0x0#32, 0xFFFFFFFF#32, 0, .whole, .any, false, 0, 0, 0, 0⟩
  | .tntFaultRec => ⟨0x10018, 64, 0x400, 3, 0x4, .ro, 0x0#32, 0x0#32, 0, .whole, .any, false, 0, 0, 0, 0⟩
  | .tntRestartTime => ⟨0x10024, 64, 0x400, 1, 0x0, .ro, 0x0#32, 0x0#32, 0, .whole, .any, false, 0, 0, 0, 0⟩
  | .tntCfg => ⟨0x10028, 64, 0x400, 1, 0x0, .rw, 0x2000#32, 0xFFFF#32, 0, .whole, .steward, false, 0, 0, 0, 0⟩
  | .tntCtl => ⟨0x1002C, 64, 0x400, 1, 0x0, .wo, 0x0#32, 0x3#32, 0, .whole, .steward, false, 0, 0, 0, 0⟩
  | .ancFaultEvt => ⟨0x70, 1, 0x0, 1, 0x0, .rc, 0x0#32, 0x0#32, 0, .whole, .any, false, 0, 0, 0, 0⟩
  | .ancFaultCond => ⟨0x74, 1, 0x0, 1, 0x0, .ro, 0x0#32, 0x0#32, 0, .whole, .any, false, 0, 0, 0, 0⟩
  | .ancFaultLog => ⟨0x78, 1, 0x0, 1, 0x0, .ro, 0x0#32, 0x0#32, 0, .whole, .any, false, 0, 0, 0, 0⟩
  | .pwaBudget => ⟨0x5000, 1, 0x0, 1, 0x0, .cpl, 0xAF00AF0#32, 0xFFF0FFF#32, 0, .whole, .any, false, 0, 0, 0, 0⟩
  | .pwaBudgetGuard => ⟨0x5008, 1, 0x0, 1, 0x0, .grd, 0x0#32, 0x0#32, 0, .whole, .any, false, 0, 0, 0, 0⟩
  | .pwaWindow => ⟨0x5010, 1, 0x0, 1, 0x0, .rw, 0x101#32, 0x3FFFFFF#32, 0, .whole, .any, false, 0, 0, 0, 0⟩
  | .pwaDroopCfg => ⟨0x5014, 1, 0x0, 1, 0x0, .rw, 0xA2FFFF#32, 0xFFFFFFF#32, 0, .whole, .any, false, 0, 0, 0, 0⟩
  | .pwaStatus => ⟨0x5018, 1, 0x0, 1, 0x0, .ro, 0x0#32, 0x0#32, 0, .whole, .any, false, 0, 0, 0, 0⟩
  | .pwaMeas => ⟨0x501C, 1, 0x0, 1, 0x0, .ro, 0x0#32, 0x0#32, 0, .whole, .any, false, 0, 0, 0, 0⟩
  | .pwaGrantEvt => ⟨0x5020, 1, 0x0, 1, 0x0, .rc, 0x0#32, 0x0#32, 0, .whole, .any, false, 0, 0, 0, 0⟩
  | .pwaGate => ⟨0x5024, 1, 0x0, 1, 0x0, .ro, 0x0#32, 0x0#32, 0, .whole, .any, false, 0, 0, 0, 0⟩
  | .pwaTemp => ⟨0x5028, 1, 0x0, 1, 0x0, .ro, 0x0#32, 0x0#32, 0, .whole, .any, false, 0, 0, 0, 0⟩
  | .pwaSensor => ⟨0x5100, 32, 0x4, 1, 0x0, .ro, 0x0#32, 0x0#32, 0, .whole, .any, false, 0, 0, 0, 0⟩
  | .pwaShareLo => ⟨0x5400, 64, 0x10, 1, 0x0, .ro, 0x0#32, 0x0#32, 0, .lo, .any, false, 0, 0, 0, 0⟩
  | .pwaShareHi => ⟨0x5404, 64, 0x10, 1, 0x0, .ro, 0x0#32, 0x0#32, 0, .hi, .any, false, 0, 0, 0, 0⟩
  | .pwaAlloc => ⟨0x5408, 64, 0x10, 1, 0x0, .ro, 0x0#32, 0x0#32, 0, .whole, .any, false, 0, 0, 0, 0⟩
  | .pwaTile => ⟨0x5800, 64, 0x4, 1, 0x0, .ro, 0x0#32, 0x0#32, 0, .whole, .any, false, 0, 0, 0, 0⟩
  | .stwStatus => ⟨0x30000, 1, 0x0, 1, 0x0, .ro, 0x0#32, 0x0#32, 0, .whole, .any, false, 0, 0, 0, 0⟩
  | .stwDuty => ⟨0x30004, 1, 0x0, 1, 0x0, .ro, 0x3020100#32, 0x0#32, 0, .whole, .any, false, 0, 0, 0, 0⟩
  | .stwHeartbeat => ⟨0x30010, 5, 0x4, 1, 0x0, .rw, 0x0#32, 0xFFFFFF00#32, 0, .whole, .ownCore, false, 0, 0, 0, 0⟩
  | .stwBreakCtl => ⟨0x30030, 1, 0x0, 1, 0x0, .rw, 0x2#32, 0x3#32, 0, .whole, .any, false, 0, 0, 0, 0⟩
  | .stwDrainStatus => ⟨0x30034, 1, 0x0, 1, 0x0, .ro, 0x0#32, 0x0#32, 0, .whole, .any, false, 0, 0, 0, 0⟩
  | .stwVfIrq => ⟨0x30040, 1, 0x0, 1, 0x0, .wo, 0x0#32, 0x1F3F#32, 0, .whole, .steward, false, 0, 0, 0, 0⟩
  | .stwMtimeLo => ⟨0x30048, 1, 0x0, 1, 0x0, .ro, 0x0#32, 0x0#32, 0, .lo, .any, false, 0, 0, 0, 0⟩
  | .stwMtimeHi => ⟨0x3004C, 1, 0x0, 1, 0x0, .ro, 0x0#32, 0x0#32, 0, .hi, .any, false, 0, 0, 0, 0⟩
  | .stwMtimecmpLo => ⟨0x30060, 5, 0x8, 1, 0x0, .rw, 0xFFFFFFFF#32, 0xFFFFFFFF#32, 0, .lo, .steward, false, 0, 0, 0, 0⟩
  | .stwMtimecmpHi => ⟨0x30064, 5, 0x8, 1, 0x0, .rw, 0xFFFFFFFF#32, 0xFFFFFFFF#32, 0, .hi, .steward, false, 0, 0, 0, 0⟩
  | .stwCause => ⟨0x300A0, 5, 0x4, 1, 0x0, .ro, 0x0#32, 0x0#32, 0, .whole, .any, false, 0, 0, 0, 0⟩
  | .stwIrqEn => ⟨0x300C0, 5, 0x4, 1, 0x0, .rw, 0x0#32, 0x3F#32, 0, .whole, .steward, false, 0, 0, 0, 0⟩
  | .stwLaunchPend => ⟨0x300E0, 2, 0x4, 1, 0x0, .ro, 0x0#32, 0x0#32, 0, .whole, .any, false, 0, 0, 0, 0⟩
  | .stwMbox => ⟨0x30100, 16, 0x4, 1, 0x0, .rw, 0x0#32, 0xFFFFFFFF#32, 0, .whole, .any, false, 0, 0, 0, 0⟩
  | .stwMboxDb => ⟨0x30140, 1, 0x0, 1, 0x0, .wo, 0x0#32, 0x1#32, 0, .whole, .any, false, 0, 0, 0, 0⟩
  | .stwMboxStatus => ⟨0x30144, 1, 0x0, 1, 0x0, .ro, 0x0#32, 0x0#32, 0, .whole, .any, false, 0, 0, 0, 0⟩
  | .stwMboxDone => ⟨0x30148, 1, 0x0, 1, 0x0, .wo, 0x0#32, 0x1#32, 0, .whole, .steward, false, 0, 0, 0, 0⟩
  | .stwMboxRsp => ⟨0x30180, 16, 0x4, 1, 0x0, .rw, 0x0#32, 0xFFFFFFFF#32, 0, .whole, .steward, false, 0, 0, 0, 0⟩
  | .pmcCtl => ⟨0x20000, 1, 0x0, 1, 0x0, .rw, 0x0#32, 0x7#32, 0, .whole, .any, false, 0, 0, 0, 0⟩
  | .pmcTagMode => ⟨0x20004, 1, 0x0, 1, 0x0, .rw, 0x0#32, 0x3#32, 0, .whole, .any, false, 0, 0, 0, 0⟩
  | .pmcReasonSel => ⟨0x20008, 1, 0x0, 1, 0x0, .rw, 0x0#32, 0xFFFE#32, 0, .whole, .any, false, 0, 0, 0, 0⟩
  | .pmcFreezeReq => ⟨0x20010, 1, 0x0, 1, 0x0, .wo, 0x0#32, 0x80001F13#32, 0, .whole, .pfSteward, false, 0, 0, 0, 0⟩
  | .pmcStatus => ⟨0x20014, 1, 0x0, 1, 0x0, .ro, 0x0#32, 0x0#32, 0, .whole, .any, false, 0, 0, 0, 0⟩
  | .pmcHangCfg => ⟨0x20020, 1, 0x0, 1, 0x0, .rw, 0x80010000#32, 0x800FFFFF#32, 0, .whole, .pfSteward, false, 0, 0, 0, 0⟩
  | .pmcHangStatus => ⟨0x20024, 1, 0x0, 1, 0x0, .ro, 0x0#32, 0x0#32, 0, .whole, .any, false, 0, 0, 0, 0⟩
  | .pmcHangTime => ⟨0x20028, 1, 0x0, 1, 0x0, .ro, 0x0#32, 0x0#32, 0, .whole, .any, false, 0, 0, 0, 0⟩
  | .pmcHangRel => ⟨0x2002C, 1, 0x0, 1, 0x0, .wo, 0x0#32, 0x1#32, 0, .whole, .steward, false, 0, 0, 0, 0⟩
  | .pmcHangEvt => ⟨0x20030, 1, 0x0, 1, 0x0, .rc, 0x0#32, 0x0#32, 0, .whole, .any, false, 0, 0, 0, 0⟩
  | .pmcTntCtl => ⟨0x21000, 64, 0x100, 1, 0x0, .rw, 0x0#32, 0x1#32, 0, .whole, .any, false, 0, 0, 0, 0⟩
  | .pmcTntHang => ⟨0x21004, 64, 0x100, 1, 0x0, .rw, 0x0#32, 0x800FFFFF#32, 0, .whole, .pfSteward, false, 0, 0, 0, 0⟩
  | .pmcTntStatus => ⟨0x21008, 64, 0x100, 1, 0x0, .ro, 0x0#32, 0x0#32, 0, .whole, .any, false, 0, 0, 0, 0⟩
  | .pmcWait => ⟨0x100700, 96, 0x10000, 48, 0x4, .ro, 0x0#32, 0x0#32, 511, .whole, .any, false, 0, 0, 0, 0⟩
  | .pmcWcap => ⟨0x100800, 96, 0x10000, 48, 0x4, .ro, 0x0#32, 0x0#32, 511, .whole, .any, false, 0, 0, 0, 0⟩
  | .pmcEngineBusyLo => ⟨0x2000000, 96, 0x10000, 12, 0x40, .rw, 0x0#32, 0xFFFFFFFF#32, 511, .lo, .any, true, 0, 0, 0, 0⟩
  | .pmcEngineBusyHi => ⟨0x2000004, 96, 0x10000, 12, 0x40, .rw, 0x0#32, 0xFFFFFFFF#32, 511, .hi, .any, true, 0, 0, 0, 0⟩
  | .pmcEngineStallLo => ⟨0x2000008, 96, 0x10000, 12, 0x40, .rw, 0x0#32, 0xFFFFFFFF#32, 511, .lo, .any, true, 0, 0, 0, 0⟩
  | .pmcEngineStallHi => ⟨0x200000C, 96, 0x10000, 12, 0x40, .rw, 0x0#32, 0xFFFFFFFF#32, 511, .hi, .any, true, 0, 0, 0, 0⟩
  | .pmcEngineIdleLo => ⟨0x2000010, 96, 0x10000, 12, 0x40, .rw, 0x0#32, 0xFFFFFFFF#32, 511, .lo, .any, true, 0, 0, 0, 0⟩
  | .pmcEngineIdleHi => ⟨0x2000014, 96, 0x10000, 12, 0x40, .rw, 0x0#32, 0xFFFFFFFF#32, 511, .hi, .any, true, 0, 0, 0, 0⟩
  | .pmcEngineSelLo => ⟨0x2000018, 96, 0x10000, 12, 0x40, .rw, 0x0#32, 0xFFFFFFFF#32, 511, .lo, .any, true, 0, 0, 0, 0⟩
  | .pmcEngineSelHi => ⟨0x200001C, 96, 0x10000, 12, 0x40, .rw, 0x0#32, 0xFFFFFFFF#32, 511, .hi, .any, true, 0, 0, 0, 0⟩
  | .pmcStallReason => ⟨0x2000020, 96, 0x10000, 12, 0x40, .rw, 0x0#32, 0xFFFF0000#32, 511, .whole, .any, true, 0, 0, 0, 0⟩
  | .pmcRecHead => ⟨0x2001100, 96, 0x10000, 1, 0x0, .ro, 0x0#32, 0x0#32, 1, .whole, .any, false, 0, 0, 0, 0⟩
  | .pmcBinStatus => ⟨0x2001104, 96, 0x10000, 1, 0x0, .ro, 0x0#32, 0x0#32, 1, .whole, .any, false, 0, 0, 0, 0⟩
  | .pmcTcStatus => ⟨0x2001108, 96, 0x10000, 1, 0x0, .ro, 0x0#32, 0x0#32, 1, .whole, .any, false, 0, 0, 0, 0⟩
  | .pmcTcLo => ⟨0x2001200, 96, 0x10000, 16, 0x8, .ro, 0x0#32, 0x0#32, 1, .lo, .any, false, 0, 0, 0, 0⟩
  | .pmcTcHi => ⟨0x2001204, 96, 0x10000, 16, 0x8, .ro, 0x0#32, 0x0#32, 1, .hi, .any, false, 0, 0, 0, 0⟩
  | .pmcBinKey => ⟨0x2001400, 96, 0x10000, 32, 0x20, .rw, 0x0#32, 0xFFFFFFFF#32, 1, .whole, .any, true, 0, 0, 0, 0⟩
  | .pmcBinCmds => ⟨0x2001404, 96, 0x10000, 32, 0x20, .rw, 0x0#32, 0xFFFFFFFF#32, 1, .whole, .any, true, 0, 0, 0, 0⟩
  | .pmcBinBusyLo => ⟨0x2001408, 96, 0x10000, 32, 0x20, .rw, 0x0#32, 0xFFFFFFFF#32, 1, .lo, .any, true, 0, 0, 0, 0⟩
  | .pmcBinBusyHi => ⟨0x200140C, 96, 0x10000, 32, 0x20, .rw, 0x0#32, 0xFFFFFFFF#32, 1, .hi, .any, true, 0, 0, 0, 0⟩
  | .pmcBinStallLo => ⟨0x2001410, 96, 0x10000, 32, 0x20, .rw, 0x0#32, 0xFFFFFFFF#32, 1, .lo, .any, true, 0, 0, 0, 0⟩
  | .pmcBinStallHi => ⟨0x2001414, 96, 0x10000, 32, 0x20, .rw, 0x0#32, 0xFFFFFFFF#32, 1, .hi, .any, true, 0, 0, 0, 0⟩
  | .pmcBinBytesLo => ⟨0x2001418, 96, 0x10000, 32, 0x20, .rw, 0x0#32, 0xFFFFFFFF#32, 1, .lo, .any, true, 0, 0, 0, 0⟩
  | .pmcBinBytesHi => ⟨0x200141C, 96, 0x10000, 32, 0x20, .rw, 0x0#32, 0xFFFFFFFF#32, 1, .hi, .any, true, 0, 0, 0, 0⟩
  | .pmcRecId => ⟨0x2001800, 96, 0x10000, 32, 0x20, .ro, 0x0#32, 0x0#32, 1, .whole, .any, false, 0, 0, 0, 0⟩
  | .pmcRecLength => ⟨0x2001804, 96, 0x10000, 32, 0x20, .ro, 0x0#32, 0x0#32, 1, .whole, .any, false, 0, 0, 0, 0⟩
  | .pmcRecSrcLo => ⟨0x2001808, 96, 0x10000, 32, 0x20, .ro, 0x0#32, 0x0#32, 1, .lo, .any, false, 0, 0, 0, 0⟩
  | .pmcRecSrcHi => ⟨0x200180C, 96, 0x10000, 32, 0x20, .ro, 0x0#32, 0x0#32, 1, .hi, .any, false, 0, 0, 0, 0⟩
  | .pmcRecDstLo => ⟨0x2001810, 96, 0x10000, 32, 0x20, .ro, 0x0#32, 0x0#32, 1, .lo, .any, false, 0, 0, 0, 0⟩
  | .pmcRecDstHi => ⟨0x2001814, 96, 0x10000, 32, 0x20, .ro, 0x0#32, 0x0#32, 1, .hi, .any, false, 0, 0, 0, 0⟩
  | .pmcRecStart => ⟨0x2001818, 96, 0x10000, 32, 0x20, .ro, 0x0#32, 0x0#32, 1, .whole, .any, false, 0, 0, 0, 0⟩
  | .pmcRecEnd => ⟨0x200181C, 96, 0x10000, 32, 0x20, .ro, 0x0#32, 0x0#32, 1, .whole, .any, false, 0, 0, 0, 0⟩
  | .irqPfPend => ⟨0x8000, 1, 0x0, 1, 0x0, .ro, 0x0#32, 0x0#32, 0, .whole, .any, false, 0, 0, 0, 0⟩
  | .irqVfPend => ⟨0x8100, 64, 0x4, 1, 0x0, .ro, 0x0#32, 0x0#32, 0, .whole, .any, false, 0, 0, 0, 0⟩
  | .memPhyPair => ⟨0x0, 2048, 0x0, 1, 0x0, .ro, 0x0#32, 0x0#32, 0, .whole, .any, false, 7, 1, 0, 96⟩
  | .memPhyStack => ⟨0x0, 2048, 0x0, 1, 0x0, .ro, 0x0#32, 0x0#32, 0, .whole, .any, false, 7, 1, 240, 6⟩
/-- The registers of the global blocks, part 0. -/
def globalRegs0 : List RegId :=
  [.ancId, .ancStepping, .ancState, .ancResetCtl, .ancResetGuard, .ancResetCause, .clkRootCfg, .clkStatus, .clkEvt, .clkBarLo,
   .clkBarHi, .clkBarPhase, .clkBarErr, .bootStatus, .bootErr, .bootErrInfoA, .bootErrInfoB, .bootErrInfoR, .bootSlot,
   .bootImageId, .bootTime, .bootRepair, .bootTileFail, .bootProgCtl, .bootProgAddr, .bootProgStatus, .bootProgBuf, .ancLock,
   .ancLockGuard, .ancSnapshot, .ancSnapStatus, .ancSnapBar, .ancMisuseEvt, .ancMisuseAddr, .idxAddr, .idxCtl, .idxData,
   .idxStatus, .idxEvt, .fusSecPolicy]

/-- The registers of the global blocks, part 1. -/
def globalRegs1 : List RegId :=
  [.fusTenantMax, .fusDebug, .fusStatus, .fusNodeMask, .fusLaneRepair, .fusKeyhash, .fusPrivMap, .fusProgCtl, .fusProgData,
   .fusProgGuard, .fusProgStatus, .memSpillCfg, .hstLinkStatus, .hstRelayTxCtl, .hstRelayRxCtl, .hstRelayStatus, .hstRelayTx,
   .hstRelayRx, .hstVfCfg, .hstPfEvt, .hstLaunchDesc, .hstLaunchDb, .hstLaunchStatus, .hstLaunchCookie, .hstJobStatus,
   .hstJobCtl, .hstVfEvt, .hstViewSel, .hstWinBaseLo, .hstWinBaseHi, .hstWinSize, .hstWinStatus, .tntPartCfgLo, .tntPartCfgHi,
   .tntState, .tntGen, .tntFaultEvt, .tntStaleCnt, .tntFaultRec, .tntRestartTime]

/-- The registers of the global blocks, part 2. -/
def globalRegs2 : List RegId :=
  [.tntCfg, .tntCtl, .ancFaultEvt, .ancFaultCond, .ancFaultLog, .pwaBudget, .pwaBudgetGuard, .pwaWindow, .pwaDroopCfg,
   .pwaStatus, .pwaMeas, .pwaGrantEvt, .pwaGate, .pwaTemp, .pwaSensor, .pwaShareLo, .pwaShareHi, .pwaAlloc, .pwaTile,
   .stwStatus, .stwDuty, .stwHeartbeat, .stwBreakCtl, .stwDrainStatus, .stwVfIrq, .stwMtimeLo, .stwMtimeHi, .stwMtimecmpLo,
   .stwMtimecmpHi, .stwCause, .stwIrqEn, .stwLaunchPend, .stwMbox, .stwMboxDb, .stwMboxStatus, .stwMboxDone, .stwMboxRsp,
   .pmcCtl, .pmcTagMode, .pmcReasonSel]

/-- The registers of the global blocks, part 3. -/
def globalRegs3 : List RegId :=
  [.pmcFreezeReq, .pmcStatus, .pmcHangCfg, .pmcHangStatus, .pmcHangTime, .pmcHangRel, .pmcHangEvt, .pmcTntCtl, .pmcTntHang,
   .pmcTntStatus, .irqPfPend, .irqVfPend]

/-- The registers of the global blocks. -/
def globalRegs : List RegId := globalRegs0 ++ globalRegs1 ++ globalRegs2 ++ globalRegs3

/-- The registers of the node windows (Table 20.2), part 0. -/
def nodeRegs0 : List RegId :=
  [.nodeId, .nodeTclkMeas, .bnVcCfg, .bnLinkStatus, .bnLinkEc, .bnEccEvt, .bnLateEvt, .bnDropEvt, .bnRouteTbl, .bnFlowCfg,
   .bnFlowRate, .bnFlowBound, .bnFlowPhase, .bnFlowState, .bnPhase, .chEpt, .chDropEvt, .chLinkEc, .chStore, .nodeBell,
   .nodeBellRing, .snLinkEc, .snEccEvt, .snDropEvt, .snJoin, .snRing, .snGongCtl, .snGongStatus, .snGongEvt, .snGongLast,
   .snDbStatus, .snBarrierCfg, .snBarrierStatus, .snRimshotCfg, .snRimshotStatus, .fldCap, .fldEvt, .fldDupEvt, .fldCfg,
   .fldFmt]

/-- The registers of the node windows (Table 20.2), part 1. -/
def nodeRegs1 : List RegId :=
  [.fldLink, .fldStatus, .fldBlocks, .cqGroupCfg, .cqGroupFlow, .cqStatus, .cqRingCfg, .cqRingFlow, .cqRingStatus, .cqSeqCfg,
   .cqSeqScope, .cqSeqStatus, .cqTailEvt, .tpCfg, .tpCond, .tpViolEvt, .tpViolLog, .tpViolBar, .tpViolLimit, .tpViolCnt,
   .tpErrEvt, .tpPage, .tpOut, .tpFmap, .tpCmap, .tpSmap, .tpPmap, .tpGmap, .slbEccEvt, .slbScrub, .slbRetired, .memPcStatus,
   .memEccEvt, .memZeroStatus, .pmcWait, .pmcWcap]

/-- The registers of the node windows (Table 20.2). -/
def nodeRegs : List RegId := nodeRegs0 ++ nodeRegs1

/-- The channel registers, part 0. -/
def chRegs0 : List RegId :=
  [.chCfg, .chEp, .chStatus, .chEvt, .chMsgCntLo, .chMsgCntHi, .chStallCntLo, .chStallCntHi, .chSeq]

/-- The channel registers. -/
def chRegs : List RegId := chRegs0

/-- The link registers, part 0. -/
def lnkRegs0 : List RegId :=
  [.lnkPortCfg, .lnkPortStatus, .lnkPortEvt, .lnkRetryCfg, .lnkSeqStatus, .lnkSeqRx, .lnkCredit, .lnkRtt, .lnkPeer, .lnkRxEvt,
   .lnkViolEvt, .lnkViolCnt, .lnkLaneEc, .lnkLqi]

/-- The link registers. -/
def lnkRegs : List RegId := lnkRegs0

/-- The lease tables, part 0. -/
def slbRegs0 : List RegId :=
  [.slbLease, .slbHlease, .slbHmap, .slbHzero, .slbHbase, .slbFreeErrEvt, .slbUse]

/-- The lease tables. -/
def slbRegs : List RegId := slbRegs0

/-- The counter banks (Table 19.3), part 0. -/
def bankRegs0 : List RegId :=
  [.pmcEngineBusyLo, .pmcEngineBusyHi, .pmcEngineStallLo, .pmcEngineStallHi, .pmcEngineIdleLo, .pmcEngineIdleHi,
   .pmcEngineSelLo, .pmcEngineSelHi, .pmcStallReason, .pmcRecHead, .pmcBinStatus, .pmcTcStatus, .pmcTcLo, .pmcTcHi,
   .pmcBinKey, .pmcBinCmds, .pmcBinBusyLo, .pmcBinBusyHi, .pmcBinStallLo, .pmcBinStallHi, .pmcBinBytesLo, .pmcBinBytesHi,
   .pmcRecId, .pmcRecLength, .pmcRecSrcLo, .pmcRecSrcHi, .pmcRecDstLo, .pmcRecDstHi, .pmcRecStart, .pmcRecEnd]

/-- The counter banks (Table 19.3). -/
def bankRegs : List RegId := bankRegs0

/-- The indirect registers (Table 20.5), part 0. -/
def indRegs0 : List RegId :=
  [.tpfState, .tpfLines, .tpfCredits, .tpfEcc, .phyLaneStatus, .phyEqCfg, .phyGainCfg, .phyEvm, .phyQual, .phyFreq,
   .phyLaneEvt, .phyFfe, .phyDfe, .phyPortStatus, .phyPortCfg, .phyTxLanes, .phyRxLanes, .phyRxIsol, .phyTxIsol, .phyPeerFuse,
   .phySyncCfg, .phyPreambleCfg, .phyRampCfg, .phyPortEvt, .phySleepBars, .phyTrainTime, .memPhyPair, .memPhyStack]

/-- The indirect registers (Table 20.5). -/
def indRegs : List RegId := indRegs0

/-- The 64-bit registers, low word and high word. -/
def regPairs : List (RegId × RegId) :=
  [(.chMsgCntLo, .chMsgCntHi), (.chStallCntLo, .chStallCntHi), (.hstWinBaseLo, .hstWinBaseHi), (.tntPartCfgLo, .tntPartCfgHi),
   (.pwaShareLo, .pwaShareHi), (.stwMtimeLo, .stwMtimeHi), (.stwMtimecmpLo, .stwMtimecmpHi), (.pmcEngineBusyLo, .pmcEngineBusyHi),
   (.pmcEngineStallLo, .pmcEngineStallHi), (.pmcEngineIdleLo, .pmcEngineIdleHi), (.pmcEngineSelLo, .pmcEngineSelHi), (.pmcTcLo, .pmcTcHi),
   (.pmcBinBusyLo, .pmcBinBusyHi), (.pmcBinStallLo, .pmcBinStallHi), (.pmcBinBytesLo, .pmcBinBytesHi), (.pmcRecSrcLo, .pmcRecSrcHi),
   (.pmcRecDstLo, .pmcRecDstHi)]

/-- The high word of the low word of a 64-bit register, and the reverse; the word itself otherwise. -/
def RegId.other (r : RegId) : RegId :=
  match regPairs.find? (fun p => p.1 == r || p.2 == r) with
  | some p => if p.1 = r then p.2 else p.1
  | none => r

/-- The counters of the die (R812): engine registers, tag bins, CH_MSG_CNT and CH_STALL_CNT. -/
def RegId.isCounter (r : RegId) : Bool := r.desc.counter

/-- One register word: its row and the two indices of its address. -/
structure Reg where
  id : RegId
  i : Nat := 0
  j : Nat := 0
  deriving DecidableEq, Repr

/-- The reset value of a register word. -/
def Reg.reset (r : Reg) : Word := r.id.desc.reset

/-- The order of register words in the register file: by row of the index, then by index. -/
def Reg.lt (a b : Reg) : Bool :=
  decide (a.id.ctorIdx < b.id.ctorIdx) ||
    (a.id.ctorIdx == b.id.ctorIdx && (decide (a.i < b.i) || (a.i == b.i && decide (a.j < b.j))))

end Sys2Proof.Machine
end

