-- ==== Sys2Proof/Machine/Hw.lean ====
section
/-! DEFINITION. The parts of the block's state beside its register file: plain data, one structure for each unit of the die. -/

namespace Sys2Proof.Machine

/-- What one access path holds for itself: its IDX set (R216), its latched misuse address (R223), its CLK_BAR_HI (R87), its
holding registers of the 64-bit registers (R202), and the answer of its last access: its last word, and the words that a longer read
request answered before it (R189). -/
structure PathState where
  idxAddr : Word := 0#32
  idxCtl : Word := 0#32
  idxEvt : Word := 0#32
  idxWrite : Option (Nat × Word) := none
  idxRead : Option Nat := none
  misuseAddr : Word := 0#32
  barHi : Word := 0#32
  hold : List (Reg × Word) := []
  resp : Word := 0#32
  earlier : List Word := []
  accessFault : Bool := false
  deriving DecidableEq, Repr

/-- A pending CPL value (R210): its path, its value and the FCLK cycle in which its window opened. -/
structure CplPend where
  path : Path
  value : Word
  time : Nat
  deriving DecidableEq, Repr

/-- The pending values of the four CPL registers (R210). -/
structure CplState where
  reset : Option CplPend := none
  lock : Option CplPend := none
  budget : Option CplPend := none
  fuse : Option CplPend := none
  deriving DecidableEq, Repr

/-- The bar counter (R56 to R61). `rest` counts the rest cycles inserted so far after the last bar, `c` those chosen. -/
structure BarState where
  running : Bool := false
  bar : BitVec 48 := 0#48
  phase : Nat := 0
  rest : Nat := 0
  c : Nat := 0
  e : Int := 0
  jumped : Bool := false
  jumpTo : Option (Nat × Nat) := none
  target : Option Nat := none
  beatSeen : Bool := false
  lostBars : Nat := 0
  deriving DecidableEq, Repr

/-- The input pins and supervised clocks (chapters 2 and 21). -/
structure PinState where
  pwrGood : Bool := true
  rstN : Bool := true
  refclk : Bool := true
  perstN : Bool := true
  thermN : Bool := true
  deriving DecidableEq, Repr

/-- Resets accepted and not yet begun (R85, R894), and what the last cold reset leaves for BOOT (R140, R904). -/
structure ResetState where
  coldReq : Bool := false
  warmReq : Bool := false
  lostCauses : Word := 0#32
  portResets : List Nat := []
  fromRequest : Bool := false
  start : Nat := 0
  deriving DecidableEq, Repr

/-- FUS_PRIV_MAP0 to 7 of production parts (Table 5.7), region i in byte i mod 4 of register i / 4. -/
def productionPrivMap : List Word :=
  [0x62536273#32, 0x662A73A2#32, 0x652AA26A#32, 0x61616161#32, 0x66256269#32, 0x006161A2#32, 0x00000000#32, 0x00000000#32]

/-- The fuse array: the bits burned, FUS register by FUS register (Tables 5.9 and 5.11). svn_floor is its thermometer count.
DESIGN CHOICE (log entry 17). -/
structure FuseArray where
  secPolicy : Word := 0xC#32
  svnFloor : Nat := 0
  tenantMax : Nat := 64
  debug : Word := 0xF#32
  nodeMask : List Word := []
  laneRepair : List Word := []
  keyhash : List Word := []
  privMap : List Word := productionPrivMap
  burning : Option (Nat × Word) := none
  deriving DecidableEq, Repr

/-- What the NVM probe found (R103 to R106): the mode of Table 3.3, the SCK shift, the addressing width and the size in
bytes; mode 0 before a probe. -/
structure NvmState where
  mode : Nat := 0
  shift : Nat := 0
  addr4 : Bool := false
  sfdp : Bool := false
  size : Nat := 0
  cells : List Host.Cell := []
  busyCmd : Option (Nat × Nat) := none
  deriving DecidableEq, Repr

/-- A mesh link that is down: network (0 B, 1 C, 2 S), node and direction (0 −X, 1 +X, 2 −Y, 3 +Y) (R97, R282). -/
structure MeshDown where
  net : Nat
  node : Nat
  dir : Nat
  deriving DecidableEq, Repr

/-- What BIST found (Table 3.2) and what fails later in RUN: nodes whose routers failed, mesh links down, stewards failed,
tile sites failed, HBM pairs mapped out at BIST and in RUN. -/
structure Health where
  routerFail : List Nat := []
  meshDown : List MeshDown := []
  stewardFail : Nat := 0
  tileFail : Nat := 0
  pairsBist : List Nat := []
  pairsRun : List Nat := []
  deriving DecidableEq, Repr

/-- Progress of BOOT (chapter 3). `order` holds the slots still to try, `cur` the one being tried or loaded (1 A, 2 B,
3 recovery); `staged` is the image that passed its checks. -/
structure BootState where
  sticky : Nat := 0
  order : List Nat := []
  cur : Nat := 0
  tried : List Nat := []
  rereading : Bool := false
  aBase : Nat := 0
  aSize : Nat := 0
  bBase : Nat := 0
  bSize : Nat := 0
  tableTimeout : List Nat := []
  slotTimeout : Bool := false
  probed : Bool := false
  tableRead : Bool := false
  checked : Bool := false
  staged : List Byte := []
  applied : Bool := false
  scrubbed : Bool := true
  deriving DecidableEq, Repr

/-- A recorded fault on its way to the anchor (R713, Table 8.4), with what TNT_FAULT_REC0 to 2 will hold. -/
structure Notice where
  f0 : Bool
  tenant : Nat
  gen : Nat
  cause : Nat
  node : Nat
  origin : Nat
  remote : Bool
  detail : Nat
  source : Nat
  bar : Nat
  phase : Nat
  t0 : Nat
  deriving DecidableEq, Repr

/-- The misuse log behind ANC_MISUSE_EVT: the address of the reported misuse (R223). -/
structure FaultState where
  misuseAt : Word := 0#32
  notices : List Notice := []
  atAnchor : List Notice := []
  forwarded : List (Nat × Nat) := []
  f0Forwarded : Bool := false
  reapply : Bool := false
  deriving DecidableEq, Repr

/-- A B-net flit: its 96-bit tag (Table 6.2), its payload, and the output ports that its copies have still to take while it
holds its input buffer (R255; 0 before its first cycle at the head). `op` is the number of the SEND or tail that the flit belongs to while it waits at its source slot, 0 otherwise. -/
structure Flit where
  tag : BitVec 96
  data : BitVec 1024
  left : Nat := 0
  op : Nat := 0
  deriving DecidableEq, Repr

/-- The B-net (chapter 6). Input queues are keyed (node × 5 + port) × 8 + VC; `used` counts the sender's credits in use for such
a queue and `owed` those on their way back; `inj` holds the flits that wait for a token at a source slot, keyed
node × 512 + slot; `rr` and `slotRr` are the round-robin pointers of R245 and R258; `phaseSw` gives for a switching phase-table
entry the bars to its switch (R261); `linkSeq` the seq that a source slot of a link node expects of the flow that feeds it through a torus port (R624, keyed as `inj`); `sinkSeq` the seq that a slot which is both source and sink expects as a sink (R248, R277: its register
shows the next to send); `lateSeen` the flows and generations whose lateness fault has been raised (R270); `errBar`
the link directions with an uncorrectable error in this bar (R282). -/
structure BnetState where
  inq : List (Nat × List Flit) := []
  used : List (Nat × Nat) := []
  owed : List (Nat × Nat) := []
  inj : List (Nat × List Flit) := []
  rr : List (Nat × Nat) := []
  slotRr : List (Nat × Nat) := []
  phaseSw : List (Nat × Nat) := []
  linkSeq : List (Nat × Nat) := []
  sinkSeq : List (Nat × Nat) := []
  lateSeen : List (Nat × Nat) := []
  errBar : List Nat := []
  deriving DecidableEq, Repr

/-- A C-net packet on its way: the 64-bit tag (Table 7.2) and the payload of its flits, flit fi in bits [128 fi + 127 : 128 fi]. -/
structure CPkt where
  tag : BitVec 64
  data : BitVec 512
  deriving DecidableEq, Repr

/-- A blocking send that waits for a credit at its source endpoint (R305); `cmd` is the tile command that waits for it, tile and
tag. -/
structure StalledSend where
  data : BitVec 512
  cmd : Option (Nat × Nat)
  deriving DecidableEq, Repr

/-- What an agent last got back for a send or a dequeue: accepted, CH_FULL, stalled, dropped, empty or a message (R306, R309). -/
inductive AgentResp where
  | none | accepted | chFull | stalled | dropped | empty
  | message (data : BitVec 512)
  deriving DecidableEq, Repr

/-- A register access of a path that travels to another node's block (R316, R317). -/
structure RegReq where
  path : Nat
  node : Nat
  write : Bool
  addr : Nat
  data : Word
  tag : Nat
  deriving DecidableEq, Repr

/-- The C-net (chapter 7): packets in the network in the order they entered it, the FIFO of each channel, its stalled sends, the
last answer to each agent (keyed node × 16 + endpoint), and the register accesses performed whose answers are on their way. -/
structure CnetState where
  flight : List CPkt := []
  fifos : List (Nat × List (BitVec 512)) := []
  stalled : List (Nat × List StalledSend) := []
  resp : List (Nat × AgentResp) := []
  regRsp : List (RegReq × Word × Bool) := []
  deriving DecidableEq, Repr

/-- An S-net UP or DOWN packet: its header fields (Table 8.2) and its payload. -/
structure SPkt where
  sync : Nat
  round : Nat
  tenant : Nat
  gen : Nat
  words : List Word
  deriving DecidableEq, Repr

/-- The torus stage of a round at the anchor and the link nodes (R350 to R353): the axis in progress, this module's value on it
and the partials that have arrived from the −a and the +a port. -/
structure TorusRound where
  pkt : SPkt
  axis : Nat
  minus : Option (List Word)
  plus : Option (List Word)
  ready : Bool
  deriving DecidableEq, Repr

/-- A pending FREEZE or THAW (R369). -/
structure GongPend where
  target : Nat
  snap : Bool
  deriving DecidableEq, Repr

/-- The S-net (chapter 8). `up` holds the packets that wait at a router input, keyed (node × 5 + port) × 512 + sync ID; `down`
the DOWN packets on their way to a member tile node; `partials` torus partials that arrived before this module's own value, by
port; `gongs` this module's notices on their way to the anchor, `seen` the last 32 notices by origin and serial (R364); `tx` the
packets that wait for a torus port and `rx` those that came through one: port, kind (Table 8.1) and words; `start` the start
rounds in progress, sync ID and tenant, and `startDown` the tenants whose start round has completed (R706 to R708). -/
structure SnetState where
  up : List (Nat × SPkt) := []
  down : List (Nat × SPkt) := []
  torus : List TorusRound := []
  partials : List (Nat × SPkt) := []
  freeze : Option GongPend := none
  thaw : Option GongPend := none
  serial : Nat := 0
  seen : List (Nat × Nat) := []
  gongs : List (Word × Word) := []
  tx : List (Nat × Nat × List Word) := []
  rx : List (Nat × Nat × List Word) := []
  start : List (Nat × Nat) := []
  startDown : List Nat := []
  deriving DecidableEq, Repr

/-- What a fold input has of the current operation (R403): the flow and cid of a contribution in
progress and whether it is accepted. -/
structure FoldIn where
  port : Nat
  flow : Nat
  cid : Nat
  accept : Bool
  deriving DecidableEq, Repr

/-- A fold context's operation beside its registers: contributions in progress, and bytes converted and not yet presented
(R390). -/
structure FoldCtx where
  ins : List FoldIn := []
  bytes : List Byte := []
  deriving DecidableEq, Repr

/-- What the records declare of a die flow beside its slots (Table 4.7): its kind (0 plain, 1 fold stream, 2 memory), its die tree,
its destination node, the flow that continues it on the peer module (0xffff: it crosses no torus port) and detour_ok. -/
structure FlowKind where
  kind : Nat := 0
  tree : Nat := 0
  dst : Nat := 0xff
  remote : Nat := 0xffff
  detourOk : Bool := false
  deriving DecidableEq, Repr

/-- The fold units (chapter 9): contexts keyed node × 64 + k, the ring streams that wait at the local port of a link node (node ×
8,192 + flow), and the declared kinds of die flows. -/
structure FoldState where
  ctx : List (Nat × FoldCtx) := []
  ring : List (Nat × List Flit) := []
  kinds : List (Nat × FlowKind) := []
  deriving DecidableEq, Repr

/-- A tile command whose tag is outstanding (R492). `mode`, `bin` and `start` describe it for observation (R823 to R826). -/
structure TileCmd where
  tag : Nat
  op : Nat
  ack : Bool
  layer : Nat
  oper : Nat
  mode : Nat
  bin : Nat
  start : Nat
  src : Nat
  dst : Nat
  len : Nat
  done : Bool
  deriving DecidableEq, Repr

/-- A completion in a port's completion buffer: the tag that its delivery frees, and its words (Table 11.5). -/
structure Completion where
  frees : Option Nat
  words : List (BitVec 64)
  deriving DecidableEq, Repr

/-- A read that the slab lane has performed and not yet returned (R471, R472). -/
structure SlabRet where
  line : Nat
  data : List Byte
  status : Nat
  deriving DecidableEq, Repr

/-- A SEND, or a tail that sends on a flow: `sent` of its `units` flits have been handed to the source slot, and `data` holds what
came over the memory path for the next one. `elems` bytes come from src, the rest of the stream is zero. The read of unit `ueAt`
finds an uncorrectable error (R520). -/
structure SendOp where
  id : Nat
  tag : Nat
  flow : Nat
  src : Nat
  bytes : Nat
  elems : Nat
  last : Bool
  sent : Nat
  waiting : Bool
  bad : Bool
  ueAt : Option Nat := none
  deriving DecidableEq, Repr

/-- A RECV, or a tail that receives a flow: bytes delivered and dropped so far, whether the flit with last = 1 has come, and the
writes still on the memory path. -/
structure RecvOp where
  id : Nat
  tag : Nat
  flow : Nat
  dst : Nat
  cap : Nat
  toLane : Bool
  got : Nat
  dropped : Nat
  seen : Bool
  writes : Nat
  bad : Bool
  null : Bool
  deriving DecidableEq, Repr

/-- A MOVE: units done, and a read or write on the memory path. -/
structure MoveOp where
  id : Nat
  tag : Nat
  src : Nat
  dst : Nat
  bytes : Nat
  done : Nat
  waiting : Bool
  bad : Bool
  deriving DecidableEq, Repr

/-- A SYNC that waits for its round (R488); `sent` once its contribution is on the S-net. -/
structure SyncOp where
  tag : Nat
  sync : Nat
  words : List Word
  sent : Bool
  deriving DecidableEq, Repr

/-- A held CCX tail (chapter 10): its group slot and descriptor words; phase 0 held, 1 count exchange, 2 moving, 3 completing.
`null` is the status of a null member, 0 for none; `status` that of a tail that moves no bulk data; `len` the elements of the operation; `members` and `failed` from the count
exchange; `sentW` once its count contribution is on the S-net; `blk` the next local block of its contribution; `buf` bytes of
its source fetched over the memory path, from `bufAt`. -/
structure CcxOp where
  id : Nat
  tag : Nat
  slot : Nat
  w1 : BitVec 64
  src : Nat
  dst : Nat
  cap : Nat
  released : Bool
  phase : Nat
  null : Nat
  status : Nat
  len : Nat
  members : Nat
  failed : Nat
  opno : Nat
  sentW : Bool
  blk : Nat
  bufAt : Nat
  buf : List Byte
  fetching : Bool
  bad : Bool
  combined : Bool
  deriving DecidableEq, Repr

/-- A tile port beside its registers (chapter 11): command-word credits that the tile holds, FO and CO credits that the die holds,
slab reads on their way back, flits waiting on FI, what the die last drove on SL_RD, FO (with its plan-local flow) and CO, and the
commands in progress. `launch` counts the bars since a launch asked for the release of the port (R458, R459); `leak` the bars
since TP_RST_N rose; `drainBars` those since SB_DRAIN_REQ rose; `winBars` those that SB_CNT_WIN still stays high; `demand` and
`draw` the last power request, `grant` the grant in force, `grantOut` one whose handshake is incomplete since `grantAt`,
`grantNext` one held pending; `tclkBad` the bars of a TCLK out of range;
`held` the FI, SL_RA and SL_W credits that a droop gate withholds (R765). -/
structure TilePort where
  ci : Nat := 0
  fo : Nat := 0
  co : Nat := 0
  reads : List SlabRet := []
  fiq : List Flit := []
  lastRd : Option SlabRet := none
  lastFo : Option (Nat × Flit) := none
  lastCo : List (BitVec 64) := []
  cmds : List TileCmd := []
  comps : List Completion := []
  sends : List SendOp := []
  recvs : List RecvOp := []
  moves : List MoveOp := []
  syncs : List SyncOp := []
  ccx : List CcxOp := []
  allocs : List (Nat × Nat × Nat) := []
  launch : Option Nat := none
  resetAt : Nat := 0
  leak : Nat := 0
  drainBars : Nat := 0
  winBars : Nat := 0
  demand : Option Nat := none
  draw : Nat := 0
  grant : Nat := 0
  grantOut : Option Nat := none
  grantNext : Option Nat := none
  grantAt : Nat := 0
  grantLate : Bool := false
  tclkBad : Nat := 0
  held : Nat × Nat × Nat := (0, 0, 0)
  deriving DecidableEq, Repr

/-- One access of a mover over a memory path (R539, R540): the op that asks, the tenant address, its 128 bytes and how many of
them count; `hops` are the flows the data has still to travel (the first is under way); `ready` at the node that performs it. -/
structure MemReq where
  id : Nat
  tile : Nat
  op : Nat
  addr : Nat
  write : Bool
  tenant : Nat
  gen : Nat
  data : BitVec 1024
  len : Nat
  hops : List Nat
  ready : Bool
  done : Bool
  deriving DecidableEq, Repr

/-- A memory flow (kind 2): flow, source, destination and tenant, 64 for a relay flow of the image; `plan` for one that a plan
declares, false for a default spill flow (R168, R539, R540). -/
structure MemFlow where
  flow : Nat
  src : Nat
  dst : Nat
  tenant : Nat
  plan : Bool
  deriving DecidableEq, Repr

/-- Slabs and HBM (chapter 12): contents by die slab byte address (page × 65,536 + offset) and by die HBM byte address (unit ×
2,097,152 + offset); slab pages being zeroed; memory flows; accesses in progress; for each tenant the job's hbm_units and the
windows that its spill mapping captured: number, base and pages (R686). -/
structure MemState where
  slab : List Host.Cell := []
  hbm : List Host.Cell := []
  zeroing : List Nat := []
  flows : List MemFlow := []
  reqs : List MemReq := []
  units : List (Nat × Nat) := []
  windows : List (Nat × List (Nat × Nat × Nat)) := []
  deriving DecidableEq, Repr

/-- What the die has sent to the host: a posted write of a function (0 the PF, v a VF) at a host address; an MSI-X message is the
write of its vector's data word. -/
structure HostWrite where
  fn : Nat
  addr : Nat
  data : List Byte
  deriving DecidableEq, Repr

/-- The PCIe endpoint (chapter 15): link training and D3hot of the PF, VFs with Bus Master clear, vectors requested and not yet
sent (function × 32 + vector), what has been sent to the host, the last BAR2 read's data and whether its completion is poisoned, the
errors reported through AER (function and error), and a relay request in progress (message or dequeue). -/
structure HostState where
  training : Bool := false
  d3 : Bool := false
  busMasterOff : List Nat := []
  requested : List Nat := []
  out : List HostWrite := []
  bar2 : List Byte := []
  poisoned : Bool := false
  aer : List (Nat × AerError) := []
  relayTx : Option Nat := none
  relayRx : Option Nat := none
  deriving DecidableEq, Repr

/-- Steps of a launch: none; the plan is to be read (after the doorbell); admission is to run. -/
inductive LaunchStage where
  | none | read | checks
  deriving DecidableEq, Repr

/-- Steps of the restart sequence (Table 16.5): not restarting, draining, sweeping, scrubbing. -/
inductive RestartStep where
  | none | drain | sweep | scrub
  deriving DecidableEq, Repr

/-- A tenant's launch and job (chapters 15 and 16): the copied descriptor of a launch in progress and the copy read for it, the
plan copy and cookie of the last admitted launch, whether its relaunch is due, whether the guard of R698 holds an admission, the running plan's records, the
generations assigned with their times (R698), the done set, the bars since the module joined the start round and that round's sync ID, the restart in progress with its t0 and
end cause, and the die route indices and phase-table entries that admission assigned (R721). `core` is the steward that performs the launch. -/
structure JobState where
  desc : List Word := []
  copy : List Byte := []
  plan : List Byte := []
  cookie : Word := 0#32
  doc : Option Doc := none
  stage : LaunchStage := .none
  held : Bool := false
  relaunching : Bool := false
  relaunchMax : Nat := 0
  relaunches : Nat := 0
  stopHeld : Bool := false
  genTimes : List (Nat × Nat) := []
  tileMask : Nat := 0
  doneSet : Nat := 0
  startBar : Option Nat := none
  startSync : Nat := 0
  step : RestartStep := .none
  t0 : Nat := 0
  endCause : Nat := 0
  f0 : Bool := false
  routes : List Nat := []
  phases : List Nat := []
  deriving DecidableEq, Repr

/-- A member tile node's report to a sequencer (R432): the Q node, the tile node, the die group and its owner, a start or a
completion, and for a completion what bulk data moved (0 none, 1 broadcast, 2 reduce-to-one). -/
structure SeqReport where
  q : Nat
  node : Nat
  group : Nat
  tenant : Nat
  gen : Nat
  start : Bool
  moved : Nat
  deriving DecidableEq, Repr

/-- A sequenced group beside its registers (R433): starts and completions reported by each member tile node, operations completed,
whether the entries have been armed for the current operation, and what data it moved. -/
structure SeqState where
  tiles : List (Nat × Nat × Nat) := []
  ops : Nat := 0
  armed : Bool := false
  moved : Nat := 0
  deriving DecidableEq, Repr

/-- Collectives (chapter 10): reports on their way, sequenced groups keyed Q node × 64 + j, and the elements that the root of a
broadcast sends, keyed die flow × 256 + operation number (R440). -/
structure CollState where
  reports : List SeqReport := []
  seqs : List (Nat × SeqState) := []
  lens : List (Nat × Nat) := []
  deriving DecidableEq, Repr

/-- The physical layer of a torus port beside its registers (chapter 13): whether the training in progress is a cold one and when it
began, whether the PHY PLL was lost (the next training is then cold, R580), the last valid unit of the peer and the state in which it
was last heard, the lanes received well enough, lane 17 in NRZ mode among them; for each direction the lane that holds the sideband
role (16, 17, 31 for none) and the role of the spare (0 none, 1 standby, 2 data, 3 sideband); whether the transmit direction sleeps
and the link layer asks for its wake; and the settings that lane 17 keeps for the mode it is not in (R574). -/
structure PhyPort where
  cold : Bool := true
  pllLost : Bool := false
  began : Nat := 0
  peer : Option (BitVec 64) := none
  rxOk : Nat := 0
  spareNrz : Bool := false
  txSb : Nat := 31
  rxSb : Nat := 31
  txSpare : Nat := 0
  rxSpare : Nat := 0
  asleep : Bool := false
  wakeReq : Bool := false
  nrz17 : Bool := false
  other17 : List Word := []
  deriving DecidableEq, Repr

/-- A DATA or DTR frame (Table 14.2): its header fields, the deadline differences of flits 1 to 3, and its flits. -/
structure Frame where
  dtr : Bool
  rvc : Nat
  seq : Nat
  flow : Nat
  tenant : Nat
  gen : Nat
  deadline : Nat
  fseq : Nat
  diffs : List Nat
  last : Nat
  cid : Nat
  relay : Nat
  orig : Nat
  flits : List (BitVec 1024)
  deriving DecidableEq, Repr

/-- A frame in a replay buffer: the lane of its latest copy, its replays, when that copy began, whether a replay is due, and
detour_ok of its flow (R616, R617, R644). -/
structure TxFrame where
  frame : Frame
  lane : Nat
  replays : Nat
  at' : Nat
  due : Bool
  detourOk : Bool
  deriving DecidableEq, Repr

/-- A sideband unit that awaits its acknowledgement: useq, type and body (Table 14.5). -/
structure SbUnit where
  useq : Nat
  type : Nat
  body : BitVec 36
  deriving DecidableEq, Repr

/-- A sideband packet that arrives word by word: its relays to go if a DETOUR unit preceded it, its kind and its words. -/
structure SbIn where
  relay : Option Nat := none
  kind : Nat := 0
  words : List Word := []
  deriving DecidableEq, Repr

/-- The link layer of a torus port beside its registers (chapter 14). Transmitter: flits that wait for a frame, detour frames to pass
on, next seq, oldest unacknowledged seq, replay buffer, frames sent on each ring VC and the latest released counts received, the
round-robin pointer of each VC, the last seq of each lane. Receiver: A, the next seq to deliver, frames stored, frames delivered
whose flits have not all left (their flit number and ring VC), released counts, lanes without word alignment, runs of good control words
and sideband units, the NAK to send and when seqs were last named, whether the sideband owes a DACK. `bridge` holds detour frames
delivered here that cross the axis bridge. Sideband: LCTL bodies, packets that the detour relays, the packet in progress of each class (0 CLASS0,
1 SNET) as type and body of its units, whose turn it is, unacknowledged units, next useq, the unit to resend from, expected useq, a NAK owed and
when one was last sent, when uack last advanced, relays named by a DETOUR unit, packets that arrive, lane commands delivered by the
peer and not yet obeyed, the peer's IDENT bodies, an ECHO and an ECHO_REPLY that arrived (timestamp, time). `back` is the time of a port
reset and whether the training it gives is cold, until the port is UP again (R636); `downDue` a cause to declare the port down, 0 for none.
`sentFrame` and `sentUnit` are what the port last sent: lane and bytes, and the sideband unit; `leak` counts bars toward R654. -/
structure LinkPort where
  queue : List Flit := []
  relay : List Frame := []
  next : Nat := 0
  old : Nat := 0
  replay : List TxFrame := []
  sent : Nat × Nat := (0, 0)
  seen : Nat × Nat := (0, 0)
  rr : List (Nat × Nat) := []
  prev : List (Nat × Nat) := []
  expected : Nat := 0
  deliver : Nat := 0
  stored : List Frame := []
  held : List (Nat × Nat) := []
  released : Nat × Nat := (0, 0)
  desync : Nat := 0
  goodCtl : List (Nat × Nat) := []
  goodSb : Nat := 0
  nak : Option Nat := none
  nakAt : List (Nat × Nat) := []
  dack : Bool := false
  bridge : List Frame := []
  lctl : List (BitVec 36) := []
  fwd : List (Nat × Nat × List Word) := []
  cur0 : List (Nat × BitVec 36) := []
  cur1 : List (Nat × BitVec 36) := []
  turn : Bool := false
  unacked : List SbUnit := []
  useq : Nat := 0
  resend : Option Nat := none
  sbNext : Nat := 0
  sbNak : Bool := false
  sbNakAt : Option Nat := none
  sbAdv : Nat := 0
  detourIn : Option Nat := none
  in0 : SbIn := {}
  in1 : SbIn := {}
  cmds : List (BitVec 32) := []
  peer0 : Option Word := none
  peer1 : Option Word := none
  echo : Option (Nat × Nat) := none
  reply : Option (Nat × Nat) := none
  back : Option (Nat × Bool) := none
  downDue : Nat := 0
  sentFrame : Option (Nat × List Byte) := none
  sentUnit : Option (BitVec 64) := none
  leak : Nat := 0
  deriving DecidableEq, Repr

/-- A partition's adaptation period (R755): sums of reported draws and accounted grants, windows counted, and whether it was limited
in one of them. -/
structure Adapt where
  drawn : Nat := 0
  granted : Nat := 0
  windows : Nat := 0
  limited : Bool := false
  deriving DecidableEq, Repr

/-- The power arbiter beside its registers (chapter 17): a window has begun and its grants are to be computed; the PWA_BUDGET,
PWA_WINDOW and PWA_DROOP_CFG words in force and the budget of the last window (R741, R745); each tile's last request before the
window (R748); the thermal condition (R758); the sensors that have been valid since RUN (R747); droop gates with the bar in which
each ends (R766); adaptation periods; increases computed and not yet sent (R761); tenants whose start grants are due (R762). -/
structure PowerState where
  due : Bool := false
  budget : Word := 0x0AF00AF0#32
  window : Word := 0x101#32
  droop : Word := 0x00A2FFFF#32
  last : Nat := 2800
  demands : List (Option Nat × Nat) := []
  therm : Bool := false
  seen : Nat := 0
  gates : List (Nat × Nat) := []
  adapt : List (Nat × Adapt) := []
  want : List (Nat × Nat) := []
  starts : List Nat := []
  deriving DecidableEq, Repr

/-- The steward cores beside their registers (chapter 18): cores released, failed and halted, bit k for Sk; cores whose heartbeat was
written in this bar (R778); the time at which STW_MTIME was 0 and the timer interrupts raised (R775); launches in the order of
their doorbells (R786), a relaunch of tenant t as 64 + t; responses that a relay channel has not taken yet (R791). -/
structure StewardState where
  active : Nat := 0
  failed : Nat := 0
  halted : Nat := 0
  fresh : Nat := 0
  mtime0 : Nat := 0
  mtip : Nat := 0
  launches : List Nat := []
  posts : List (Nat × BitVec 512) := []
  deriving DecidableEq, Repr

/-- The TAP, the boundary scan and the debug module (R800 to R808): the instruction code in force, what its data register captured,
the boundary register's update latch, and the words of the debug module by their DMI address. -/
structure DebugState where
  tap : Nat := 1
  captured : BitVec 64 := 0#64
  boundary : BitVec 28 := 0#28
  dm : List (Nat × Word) := []
  deriving DecidableEq, Repr

/-- Observation beside its registers (chapter 19): a capture whose report the firmware has still to assemble, with its whole bar number
and its generation, and the last reports kept in firmware SRAM, oldest first: tenant and bytes (R843). -/
structure ObsState where
  due : Bool := false
  bar : Nat := 0
  gen : Nat := 0
  reports : List (Nat × List Byte) := []
  deriving DecidableEq, Repr

/-- The whole block but its command queue. `opId` numbers movers' operations and memory accesses. -/
structure Hw where
  regs : List (Reg × Word) := []
  banks : List (Reg × Word) := []
  paths : List (Nat × PathState) := []
  now : Nat := 0
  free : Nat := 0
  cpl : CplState := {}
  bar : BarState := {}
  pins : PinState := {}
  rst : ResetState := {}
  fuse : FuseArray := {}
  nvm : NvmState := {}
  health : Health := {}
  boot : BootState := {}
  doc : Option Doc := none
  fault : FaultState := {}
  msix : List (Nat × Word) := []
  bnet : BnetState := {}
  cnet : CnetState := {}
  snet : SnetState := {}
  fold : FoldState := {}
  ports : List (Nat × TilePort) := []
  mem : MemState := {}
  busy : List (Nat × Nat) := []
  opId : Nat := 1
  coll : CollState := {}
  host : HostState := {}
  jobs : List (Nat × JobState) := []
  phy : List (Nat × PhyPort) := []
  link : List (Nat × LinkPort) := []
  power : PowerState := {}
  stw : StewardState := {}
  dbg : DebugState := {}
  obs : ObsState := {}
  deriving DecidableEq, Repr

end Sys2Proof.Machine
end

