-- ==== Sys2Proof/Machine/Ops.lean ====
section
/-! DEFINITION. The named operations over registers, paths, time, the misuse log and fault records. -/

namespace Sys2Proof.Machine

/-- The word a register holds. -/
def Hw.reg (h : Hw) (id : RegId) (i : Nat := 0) (j : Nat := 0) : Word := sget h.regs ⟨id, i, j⟩ id.desc.reset

/-- Set the word a register holds. -/
def Hw.setReg (h : Hw) (id : RegId) (i j : Nat) (v : Word) : Hw :=
  { h with regs := sset Reg.lt h.regs ⟨id, i, j⟩ v id.desc.reset }

/-- Change the word a register holds. -/
def Hw.modReg (h : Hw) (id : RegId) (i j : Nat) (f : Word → Word) : Hw := h.setReg id i j (f (h.reg id i j))

/-- Clear every word of the registers that satisfy p to its reset value. -/
def Hw.dropRegs (h : Hw) (p : Reg → Bool) : Hw := { h with regs := h.regs.filter (fun e => !p e.1) }

/-- The number of an access path in ANC_MISUSE_EVT (Table 5.10). -/
def pathCode : Path → Nat
  | .vf t => t.val
  | .pf => 0x40
  | .steward k => 0x41 + k.val
  | .debug => 0x46

def Hw.path (h : Hw) (p : Path) : PathState := nget h.paths (pathCode p) {}
def Hw.setPath (h : Hw) (p : Path) (v : PathState) : Hw := { h with paths := nset h.paths (pathCode p) v {} }

/-- The answer of an access: the data a path reads. -/
def Hw.answer (h : Hw) (p : Path) (w : Word) : Hw := h.setPath p { h.path p with resp := w, accessFault := false }

/-- The answer of a refused access, with the access-fault or error of R189 and R227. -/
def Hw.refuse (h : Hw) (p : Path) (fault : Bool) : Hw :=
  h.setPath p { h.path p with resp := 0xFFFFFFFF#32, accessFault := fault }

/-- Take one free value. -/
def Hw.fresh (h : Hw) : BitVec 64 × Hw := (Config.freeWord h.free, { h with free := h.free + 1 })

/-- Die states (Table 2.5). -/
def stColdReset : Nat := 0
def stFuseLoad : Nat := 1
def stBist : Nat := 2
def stBoot : Nat := 3
def stSafeHold : Nat := 4
def stRun : Nat := 5
def stWarmReset : Nat := 6
def stClockLost : Nat := 7

def Hw.dieState (h : Hw) : Nat := fld (h.reg .ancState) 0 4

/-- Request a vector of a function, 0 the PF, v a VF (R672, R673): a request not yet sent absorbs further ones, and there is none
while the PCIe link is down (the edge "When the link goes down while a job spills to host memory" of chapter 15). -/
def Hw.vector (h : Hw) (fn v : Nat) : Hw :=
  if fld (h.reg .hstLinkStatus) 0 4 = 0 || h.host.requested.contains (fn * 32 + v) then h
  else { h with host := { h.host with requested := h.host.requested ++ [fn * 32 + v] } }

/-- An event of the PF: its HST_PF_EVT bit and vector (Table 15.4, R674). -/
def Hw.pfEvent (h : Hw) (k : Nat) : Hw := (h.modReg .hstPfEvt 0 0 (setBit · k true)).vector 0 k

/-- An event of tenant t's VF: its HST_VF_EVT bit and vector (Table 15.4, R674). -/
def Hw.vfEvent (h : Hw) (t k : Nat) : Hw := (h.modReg .hstVfEvt t 0 (setBit · k true)).vector (t + 1) k

/-- The die enters a state; the PF hears of the change (Table 15.4). -/
def Hw.setDieState (h : Hw) (s : Nat) : Hw :=
  let h1 := h.modReg .ancState 0 0 (setFld · 0 4 s)
  if h.dieState = s then h1 else h1.pfEvent 1
def Hw.running (h : Hw) : Bool := h.dieState == stRun

/-- FCLK cycles per RCLK cycle (Table 2.1). -/
def rclk : Nat := 12

/-- The bar and phase an event of this cycle is attributed to (R62, R893). -/
def Hw.stamp (h : Hw) : Nat × Nat :=
  if h.bar.rest = 0 then (h.bar.bar.toNat, h.bar.phase) else (h.bar.target.getD ((h.bar.bar.toNat + 1) % 2 ^ 48), 0)

/-- Record a misuse of a path (R223): count, first misuse since the last read, and the misuse bit of ANC_FAULT_EVT. -/
def Hw.misuse (h : Hw) (p : Path) (write : Bool) (cause : Nat) (addr : Nat) : Hw :=
  let e := h.reg .ancMisuseEvt
  let h := if fld e 24 8 = 0 then
      { h.setReg .ancMisuseEvt 0 0 (mkWord [(24, 8, 1), (16, 8, pathCode p), (5, 1, b2n write), (0, 5, cause)]) with
        fault := { h.fault with misuseAt := BitVec.ofNat 32 (addr % 2 ^ 28) } }
    else h.setReg .ancMisuseEvt 0 0 (bumpFld e 24 8 1)
  h.modReg .ancFaultEvt 0 0 (setBit · 2 true)

/-- Log an F2: sticky flag and saturating count (R712). -/
def Hw.logF2 (h : Hw) : Hw := h.modReg .ancFaultEvt 0 0 (fun w => bumpFld (setBit w 1 true) 16 8 1)

/-- Record an F0 in ANC_FAULT_EVT, and its origin in ANC_FAULT_LOG when it is the first since the last read (Table 16.7). -/
def Hw.recordF0 (h : Hw) (cause node bar : Nat) : Hw :=
  let w := h.reg .ancFaultEvt
  let h := if bit w 0 then h
    else (h.modReg .ancFaultEvt 0 0 (setFld · 8 8 cause)).setReg .ancFaultLog 0 0
      (mkWord [(0, 7, node), (8, 8, cause), (16, 16, bar)])
  (h.modReg .ancFaultEvt 0 0 (fun w => bumpFld (setBit w 0 true) 24 8 1)).pfEvent 0

/-- The topology record of the applied image; a module outside a torus before that (R58). -/
def Hw.topo (h : Hw) : Topology :=
  (h.doc.bind (fun d => d.topology.head?)).getD ⟨1, 1, 1, 0, 0, 0, 0, 0, 0, 0, 0, 0, [0, 0, 0, 0, 0, 0]⟩

/-- This module's coordinates as Table 8.4 packs them. -/
def Hw.module (h : Hw) : Nat := let t := h.topo; t.x + 16 * t.y + 256 * t.z

def Hw.sysTenant (h : Hw) : Nat := h.topo.sysTenant

/-- This die is the downbeat source: it is named by the image, or is its own source (R58, R91). -/
def Hw.isSource (h : Hw) : Bool :=
  let t := h.topo
  (t.x == t.dbx && t.y == t.dby && t.z == t.dbz) || (t.xs == 1 && t.ys == 1 && t.zs == 1) || !h.running

/-- The image that is applied names this die as the downbeat source (CLK_STATUS.downbeat_source). -/
def Hw.namedSource (h : Hw) : Bool :=
  let t := h.topo
  h.doc.isSome && t.x == t.dbx && t.y == t.dby && t.z == t.dbz

/-- The current generation of a tenant. -/
def Hw.gen (h : Hw) (t : Nat) : Nat := fld (h.reg .tntGen t) 0 10

/-- TNT_STATE.state (Table 16.1). -/
def Hw.tntState (h : Hw) (t : Nat) : Nat := fld (h.reg .tntState t) 0 4

def tsNone : Nat := 0
def tsIdle : Nat := 1
def tsAdmitting : Nat := 2
def tsStarting : Nat := 3
def tsRunning : Nat := 4
def tsHalted : Nat := 5
def tsQuiesce : Nat := 6
def tsScrub : Nat := 7

/-- A partition runs a job: STARTING, RUNNING or HALTED (R714, R749). -/
def Hw.active (h : Hw) (t : Nat) : Bool := [tsStarting, tsRunning, tsHalted].contains (h.tntState t)

/-- Fuses mask a node (R225). -/
def Hw.nodeMasked (h : Hw) (n : Nat) : Bool := bit (h.reg .fusNodeMask (n / 32)) (n % 32)

/-- The partition rectangle of TNT_PART_CFG (Table 16.8). -/
def Hw.partRect (h : Hw) (t : Nat) : Rect :=
  let w := h.reg .tntPartCfgLo t
  ⟨fld w 0 3, fld w 4 3, fld w 8 2, fld w 12 2⟩

def Hw.partValid (h : Hw) (t : Nat) : Bool := bit (h.reg .tntPartCfgLo t) 31
def Hw.partMulti (h : Hw) (t : Nat) : Bool := bit (h.reg .tntPartCfgLo t) 30

/-- The box of TNT_PART_CFG (Table 16.8). -/
def Hw.partBox (h : Hw) (t : Nat) : Box :=
  let w := h.reg .tntPartCfgHi t
  ⟨fld w 0 4, fld w 4 4, fld w 8 4, fld w 12 4 + 1, fld w 16 4 + 1, fld w 20 4 + 1⟩

/-- The tile indices of a rectangle. -/
def Rect.tiles (r : Rect) : List Nat := rectTiles r.tx0 r.ty0 (2 ^ r.log2w) (2 ^ r.log2h)

/-- The tiles of a tenant's partition; none without a partition. -/
def Hw.partTiles (h : Hw) (t : Nat) : List Nat := if h.partValid t then (h.partRect t).tiles else []

/-- The tenant whose partition holds a tile site. -/
def Hw.tileOwner (h : Hw) (i : Nat) : Option Nat := (List.range 64).find? (fun t => (h.partTiles t).contains i)

/-- A mesh link is down from both of its ends. -/
def linkBoth (net n dir : Nat) : List MeshDown :=
  match neighbour n (dir + 1) with
  | some m => [⟨net, n, dir⟩, ⟨net, m, facing (dir + 1) - 1⟩]
  | none => []

/-- Add links to the set of links that are down. -/
def addDown (xs ys : List MeshDown) : List MeshDown := ys.foldl (fun a y => if a.contains y then a else a ++ [y]) xs

/-- Slab page P is retired (R522). -/
def Hw.pageRetired (h : Hw) (p : Nat) : Bool := bit (h.reg .slbRetired (tileNode (p / 64)) (p % 64 / 32)) (p % 32)

/-- HBM pair q (stack × 16 + pair) is usable: tested good and not mapped out since (Table 12.5). -/
def Hw.pairUsable (h : Hw) (q : Nat) : Bool := bit (h.reg .memPcStatus (nodeOf 1 (q / 8))) (q % 8)

/-- Queue a recorded fault for the anchor (R713). -/
def Hw.notify (h : Hw) (n : Notice) : Hw := { h with fault := { h.fault with notices := h.fault.notices ++ [n] } }

/-- Record an F1 for a tenant at a node: the notice carries cause, tenant, generation, origin and time (R713). -/
def Hw.raiseF1 (h : Hw) (t gen cause node detail : Nat) (source : Nat := 0) : Hw :=
  h.notify ⟨false, t, gen, cause, node, h.module, false, detail, source, h.stamp.1, h.stamp.2, h.now⟩

/-- Record an F0 at a node. -/
def Hw.raiseF0 (h : Hw) (cause node detail : Nat) : Hw :=
  h.notify ⟨true, h.sysTenant, 0, cause, node, h.module, false, detail, 0, h.stamp.1, h.stamp.2, h.now⟩

/-- A fault of a resource: F1 for its owner with the given cause, F0 DIE_FLOW (or the given die cause) for a resource of
generation 0 (R26, Table 16.2). -/
def Hw.raiseOwner (h : Hw) (t gen cause node detail : Nat) (dieCause : Nat := 0x43) : Hw :=
  if gen = 0 then h.raiseF0 dieCause node detail else h.raiseF1 t gen cause node detail

/-- Count stale traffic of a tenant, saturating (R699). -/
def Hw.stale (h : Hw) (t k : Nat) : Hw := h.modReg .tntStaleCnt t 0 (bumpFld · 0 32 k)

end Sys2Proof.Machine
end

