-- ==== Sys2Proof/Machine/Access.lean ====
section
/-! DEFINITION. Where an access lands and whether it may: the address map (Tables 20.1 to 20.5), the VF view (Table 20.3), the
privilege map (R226 to R232), which blocks answer in which die state (R52, R90). -/

namespace Sys2Proof.Machine

/-- What an address of the register space names. `reserved` is a location that Table 20.2 gives to other node classes (R852). -/
inductive Target where
  | reg (r : Reg)
  | bank (r : Reg)
  | msix (off : Nat)
  | reserved
  | none
  deriving DecidableEq, Repr

/-- The indices at which a register row covers an address (Table 20.9). -/
def RegId.match? (id : RegId) (a : Nat) : Option Reg :=
  let d := id.desc
  if a < d.base then none else
    let x := a - d.base
    let i := if d.s1 = 0 then 0 else x / d.s1
    let r := if d.s1 = 0 then x else x % d.s1
    let j := if d.s2 = 0 then 0 else r / d.s2
    if i < d.n1 ∧ j < d.n2 ∧ r = j * d.s2 then some ⟨id, i, j⟩ else none

/-- The first row of a list that covers an address. -/
def findReg (ids : List RegId) (a : Nat) : Option Reg := ids.findSome? (fun id => id.match? a)

/-- Table 20.2: the offset ranges of a node window and the classes (one bit each) that have them. -/
def nodeRanges : List (Nat × Nat × Nat) :=
  [(0, 4, 511), (0x10, 0x14, 1), (0x100, 0x118, 511), (0x200, 0x240, 0x29), (0x240, 0x248, 511), (0x248, 0x258, 0x29),
   (0x300, 0x30c, 511), (0x310, 0x334, 64), (0x400, 0x40c, 511), (0x500, 0x52c, 1), (0x600, 0x610, 1), (0x600, 0x60c, 2),
   (0x700, 0x7c0, 511), (0x800, 0x8c0, 511), (0x2000, 0x3000, 511), (0x3000, 0x3104, 1), (0x3200, 0x3400, 4),
   (0x3000, 0x3400, 16), (0x4000, 0x8000, 511), (0x8000, 0x8d80, 1), (0x8000, 0xc000, 64), (0xc000, 0xc200, 511),
   (0xc200, 0xc400, 4), (0xd000, 0xe000, 64), (0xe000, 0xe800, 511)]

/-- What an offset of a node window names (R852). -/
def nodeTarget (a : Nat) : Target :=
  let n := (a - 0x100000) / 0x10000
  let off := a % 0x10000
  let cls := nodeClass n
  match findReg (nodeRegs.filter (fun id => id.desc.classes.testBit cls)) a with
  | some r => .reg r
  | none =>
    let here := nodeRanges.filter (fun r => r.1 ≤ off && off < r.2.1)
    if here.isEmpty || here.any (fun r => r.2.2.testBit cls) then .none else .reserved

/-- What an offset of a counter bank names: a T node's mover and tile port lie at 0x1000 and 0x1040 (Table 19.3). -/
def bankReg (a : Nat) : Option Reg :=
  let n := (a - 0x2000000) / 0x10000
  let off := a % 0x10000
  let cls := nodeClass n
  let ids := bankRegs.filter (fun id => id.desc.classes.testBit cls)
  if cls = 0 then
    if 0x180 ≤ off ∧ off < 0x200 then none
    else if 0x1000 ≤ off ∧ off < 0x1080 then findReg ids (a - 0x1000 + 0x180)
    else findReg ids a
  else findReg ids a

/-- The address of a register word in the PF BAR0 normal view. -/
def Reg.addr (r : Reg) : Nat :=
  let d := r.id.desc
  let a := d.base + r.i * d.s1 + r.j * d.s2
  if 0x2000000 ≤ a ∧ nodeClass r.i = 0 ∧ 0x180 ≤ a % 0x10000 ∧ a % 0x10000 < 0x200 then a + 0x1000 - 0x180 else a

def Target.ofReg : Option Reg → Target
  | some r => .reg r
  | Option.none => .none

def Target.ofBank : Option Reg → Target
  | some r => if r.id.isCounter then .bank r else .none
  | Option.none => .none

/-- Table 20.1: what an address of the PF BAR0 normal view names (R848). -/
def pfTarget (a : Nat) : Target :=
  if a < 0xfe000 then .ofReg (findReg globalRegs a)
  else if a < 0x100000 then .msix (a - 0xfe000)
  else if a < 0x700000 then nodeTarget a
  else if a < 0x800000 then .none
  else if a < 0x840000 then .ofReg (findReg chRegs a)
  else if a < 0xc00000 then .none
  else if a < 0xc60000 then .ofReg (findReg lnkRegs a)
  else if a < 0x1000000 then .none
  else if a < 0x10a0400 then .ofReg (findReg slbRegs a)
  else if a < 0x1800000 then .none
  else if a < 0x1840000 then .ofBank (findReg chRegs (a - 0x1000000))
  else if a < 0x2000000 then .none
  else if a < 0x2600000 then .ofReg (bankReg a)
  else if a < 0x3000000 then .none
  else if a < 0x3600000 then .ofBank (bankReg (a - 0x1000000))
  else .none

/-- The privilege region of an address of the normal view (Tables 5.7 and 20.1, R851); 32 where none applies. -/
def regionOf (a : Nat) : Nat :=
  if a < 0x5000 then a / 0x1000
  else if a < 0x7000 then 5
  else if a < 0x8000 then 32
  else if a < 0x10000 then 6
  else if a < 0x20000 then 7
  else if a < 0x30000 then 8
  else if a < 0x40000 then 9
  else if a < 0xfe000 then 10
  else if a < 0x100000 then 32
  else if a < 0x700000 then
    match nodeClass ((a - 0x100000) / 0x10000) with
    | 0 => 11 | 1 => 12 | 2 => 13 | 3 => 14 | 4 => 14 | _ => 15
  else if a < 0x800000 then 32
  else if a < 0x840000 then 16
  else if a < 0xc00000 then 32
  else if a < 0xc60000 then 17
  else if a < 0x1000000 then 32
  else if a < 0x10a0400 then 18
  else if a < 0x1800000 then 32
  else 19

/-- The code of a region for a path (R226, R228). -/
def Hw.privCode (h : Hw) (p : Path) (region : Nat) : Nat :=
  if 32 ≤ region then 0 else
    let b := fld (h.reg .fusPrivMap (region / 4)) (region % 4 * 8) 8
    match p with
    | .pf => b % 4
    | .vf _ => if region = 4 ∨ (20 ≤ region ∧ region ≤ 22) then 0 else b / 4 % 4
    | .steward _ => b / 16 % 4
    | .debug => b / 64

/-- A path may read a region: code 1 or more, and the PF always reads regions 0 to 3 (R226, R228). -/
def Hw.mayRead (h : Hw) (p : Path) (region : Nat) : Bool :=
  1 ≤ h.privCode p region || (p == .pf && region ≤ 3)

/-- A path may write a region: code 2, or 3 for the value and guard writes of CPL registers (R226, R215). -/
def Hw.mayWrite (h : Hw) (p : Path) (region : Nat) (cpl : Bool) : Bool := (if cpl then 3 else 2) ≤ h.privCode p region

/-- The tile of a local index of a partition (below Table 20.3). -/
def Hw.localTile (h : Hw) (t k : Nat) : Option Nat :=
  let r := h.partRect t
  let w := 2 ^ r.log2w
  if h.partValid t ∧ k < w * 2 ^ r.log2h then some ((r.ty0 + k / w) * 8 + (r.tx0 + k % w)) else none

/-- A VF reaches channel c (R326). -/
def Hw.vfChannel (h : Hw) (t c : Nat) : Bool := bit (h.reg .chCfg c) 15 && fld (h.reg .chCfg c) 16 6 == t

/-- The register at an offset of a tile slot (Table 20.4). -/
def tileSlotOff : Nat → Option Nat
  | 0 => some 0 | 4 => some 0x10 | 8 => some 0x504 | 0xc => some 0x518 | 0x10 => some 0x50c | 0x14 => some 0x510
  | 0x18 => some 0x528 | 0x1c => some 0x520 | 0x20 => some 0x524 | _ => none

/-- The PF offset that an offset of the normal view of VF t + 1 reaches (Table 20.3). -/
def Hw.vfOffset (h : Hw) (t b : Nat) : Option Nat :=
  let sel := h.reg .hstViewSel t
  if b < 0x1000 then some (0x41000 + t * 0x1000 + b)
  else if b < 0x1400 then some (0x10000 + t * 0x400 + (b - 0x1000))
  else if b < 0x1500 then some (0x21000 + t * 0x100 + (b - 0x1400))
  else if b < 0x1504 then some (0x8100 + t * 4)
  else if b < 0x2000 then none
  else if b < 0x3000 then
    match h.localTile t ((b - 0x2000) / 0x40), tileSlotOff (b % 0x40) with
    | some i, some o => some (0x100000 + tileNode i * 0x10000 + o)
    | _, _ => none
  else if b < 0x10000 then none
  else if b < 0x20000 then
    let c := 1024 * fld sel 8 2 + (b - 0x10000) / 0x40
    if h.vfChannel t c then some (0x800000 + c * 0x40 + b % 0x40) else none
  else if b < 0x30000 then
    let c := 1024 * fld sel 8 2 + (b - 0x20000) / 0x40
    if h.vfChannel t c then some (0x1800000 + c * 0x40 + b % 0x40) else none
  else if b < 0x32000 then
    match h.localTile t (fld sel 0 6) with
    | some i => some ((if b < 0x31000 then 0x2000000 else 0x3000000) + tileNode i * 0x10000 + 0x1000 + b % 0x1000)
    | none => none
  else none

/-- Where an access of a path lands: the alias view (0 normal, 1 SET, 2 CLR, 3 TGL), the PF offset of the normal view and what
it names (R187, R197, R848 to R854). The PF MSI-X structures answer the PF only and lie outside the alias views (R849, R850). -/
def Hw.resolve (h : Hw) (p : Path) (addr : Nat) : Nat × Nat × Target :=
  match p with
  | .vf t =>
    match if addr < 0x100000 then h.vfOffset t.val (addr % 0x40000) else none with
    | some a => (addr / 0x40000, a, pfTarget a)
    | none => (addr / 0x40000, 0x7000, .none)
  | _ =>
    let view := addr / 0x4000000
    let a := addr % 0x4000000
    match pfTarget a with
    | .msix o => if view = 0 ∧ p = .pf then (0, a, .msix o) else (view, a, .none)
    | t => (view, a, t)

/-- The block at an offset answers: every block in RUN, else ANC, CLK, FUS and BOOT only (R52, R90); a VF needs fw_ready
(R95); the debug path needs FUS_DEBUG.sysbus, which debug_closed forces to 0 (R231, R232). -/
def Hw.answers (h : Hw) (p : Path) (a : Nat) : Bool :=
  match p with
  | .vf _ => h.running && bit (h.reg .bootStatus) 10
  | .debug => (h.running || a < 0x4000) && bit (h.reg .fusDebug) 3 && !bit (h.reg .fusDebug) 8
  | _ => h.running || a < 0x4000

/-- Default of an MSI-X table word: vectors start masked. PRESUMED (log entry 27). -/
def msixReset (k : Nat) : Word := if k % 0x1000 < 0x200 ∧ k % 16 = 12 then 1#32 else 0#32

/-- The mesh ports of a node whose B-net link is up (Table 6.6). -/
def Hw.linksUp (h : Hw) (net n : Nat) : Nat :=
  let down := h.health.meshDown.filter (fun d => d.net == net && d.node == n)
  (List.range 4).foldl (fun m d => if (linkExists n).testBit d && down.all (fun x => x.dir != d) then m + 2 ^ d else m) 0

/-- FUS_DEBUG as the debug functions see it: debug_closed forces tap, hart_debug and sysbus to 0 (R231). -/
def Hw.fusDebugEff (h : Hw) : Word :=
  let w := h.reg .fusDebug
  if bit w 8 then w &&& 0x102#32 else w

end Sys2Proof.Machine
end

