-- ==== Sys2Proof/Machine/WriteCheck.lean ====
section
/-! DEFINITION. The checks of a register write, in the order the misuse rules give (below Table 5.6), and the value a write leaves
in a register: alias views (R197, R198), 64-bit words (R203), lock bits (R208). -/

namespace Sys2Proof.Machine

/-- A register has a field that a write may change (R196). -/
def RegId.writable (id : RegId) : Bool :=
  match id.desc.access with
  | .ro => false
  | .rc => false
  | .grd => true
  | _ => id.desc.wmask != 0#32

/-- The RW fields of a register, which alias views reach (R198); IDX_DATA has none for them. -/
def RegId.aliasMask (id : RegId) : Word :=
  match id.desc.access with
  | .rw => if id = .idxData then 0#32 else id.desc.wmask
  | _ => 0#32

/-- A path that the restriction of a register names (Table 20.7). -/
def writerOk (w : Writers) (p : Path) (i : Nat) : Bool :=
  match w, p with
  | .any, _ => true
  | .steward, .steward _ => true
  | .ownCore, .steward k => k.val == i
  | .pfOnly, .pf => true
  | .pfSteward, .pf => true
  | .pfSteward, .steward _ => true
  | .vfOnly, .vf _ => true
  | .vfPfSteward, .vf t => t.val == i
  | .vfPfSteward, .pf => true
  | .vfPfSteward, .steward _ => true
  | _, _ => false

/-- The fields of a register that set lock bits make read-only (Table 5.4). -/
def lockedMask (id : RegId) (lock : Word) : Word :=
  let b (k : Nat) (m : Word) : Word := if bit lock k then m else 0#32
  match id with
  | .clkRootCfg => b 0 0x10000#32
  | .tntPartCfgLo => b 1 0xFFFFFFFF#32
  | .tntPartCfgHi => b 1 0xFFFFFFFF#32
  | .bootSlot => b 2 0x7#32
  | .pwaBudget => b 3 0xFFFFFFFF#32
  | .pwaWindow => b 3 0xFFFFFFFF#32
  | .pwaDroopCfg => b 3 0xFFFFFFFF#32
  | .phyEqCfg => b 4 0xF3#32
  | .phyGainCfg => b 4 0xF1#32
  | .stwBreakCtl => b 5 0xFFFFFFFF#32
  | .pmcCtl => b 6 0xFFFFFFFF#32
  | .pmcTagMode => b 6 0xFFFFFFFF#32
  | _ => 0#32

/-- How the checks of a write end: it is finished here (refused or discarded), or it goes on to a register in a view. -/
inductive WriteGate where
  | done (h : Hw)
  | go (view : Nat) (r : Reg)
  | msix (off : Nat)

/-- The checks of a 32-bit write of a path before the register's own rules: answering block, alignment, address, privilege,
access type, path (R52, R90, R188, R189, R196, R198, R206, R227, R852, R859). The first failure is logged. -/
def Hw.writeGate (h : Hw) (p : Path) (addr : Nat) : WriteGate :=
  let isStw := match p with | .steward _ => true | _ => false
  let deny (c : Nat) (f : Bool) : WriteGate :=
    let h := h.misuse p true c addr
    .done (h.setPath p { h.path p with accessFault := f })
  match h.resolve p addr with
  | (view, a, t) =>
    if !h.answers p a then .done h
    else if addr % 4 ≠ 0 then deny 8 isStw
    else match t with
      | .none => deny 3 false
      | .msix o => .msix o
      | .reserved => if h.mayWrite p (regionOf a) false then .done h else deny 2 (isStw || p == .debug)
      | .bank _ => if h.mayWrite p (regionOf a) false then deny 4 false else deny 2 (isStw || p == .debug)
      | .reg r =>
        let d := r.id.desc
        if !h.mayWrite p (regionOf a) (d.access == .cpl || d.access == .grd) then deny 2 (isStw || p == .debug)
        else if !r.id.writable || (view ≠ 0 && r.id.aliasMask == 0#32) then deny 4 false
        else if !writerOk d.writers p r.i then
          let h := if r.id = .bootProgCtl then h.modReg .bootProgStatus 0 0 (setBit · 3 true) else h
          .done (h.misuse p true 10 addr)
        else .go view r

/-- The word a write of v in a view leaves in a register that holds w (R197). -/
def viewValue (id : RegId) (view : Nat) (w v : Word) : Word :=
  let m := id.aliasMask
  match view with
  | 0 => merge id.desc.wmask w v
  | 1 => w ||| (v &&& m)
  | 2 => w &&& ~~~ (v &&& m)
  | _ => w ^^^ (v &&& m)

/-- Keep the governed fields of a register, and log cause 0x05 if the write would change one (R208). -/
def Hw.lockFilter (h : Hw) (p : Path) (addr : Nat) (id : RegId) (w v : Word) : Hw × Word :=
  let m := lockedMask id (h.reg .ancLock)
  if (w ^^^ v) &&& m = 0#32 then (h, v) else (h.misuse p true 5 addr, merge m v w)

/-- Store a plain register word with its write rules: the value of the view, the 64-bit rule of R203, the lock rule. -/
def Hw.plainWrite (h : Hw) (p : Path) (addr view : Nat) (r : Reg) (v : Word) : Hw :=
  let d := r.id.desc
  if view = 0 ∧ d.half = .hi then
    h.setPath p { h.path p with hold := sset Reg.lt (h.path p).hold r (v &&& d.wmask) 0#32 }
  else
    let w := h.reg r.id r.i r.j
    let x := h.lockFilter p addr r.id w (viewValue r.id view w v)
    let h1 := x.1.setReg r.id r.i r.j x.2
    if view = 0 ∧ d.half = .lo then
      let hi : Reg := ⟨r.id.other, r.i, r.j⟩
      let keep := lockedMask r.id (h.reg .ancLock) ≠ 0#32
      if keep then h1 else h1.setReg hi.id hi.i hi.j (sget (h.path p).hold hi 0#32)
    else h1

end Sys2Proof.Machine
end

