-- ==== Sys2Proof/Machine/Clocks.lean ====
section
/-! DEFINITION. Cold and warm resets and what they clear (Table 2.3), complement-guarded writes (R210 to R213), reset requests
(R85, R86) and the fuse burn (R234 to R236). -/

namespace Sys2Proof.Machine

/-- ANC_RESET_CAUSE bits (Table 2.7). -/
def rcPowerOn : Nat := 0
def rcRstN : Nat := 1
def rcRefclk : Nat := 2
def rcCold : Nat := 3
def rcWarm : Nat := 4
def rcPerst : Nat := 5
def rcRoot : Nat := 6

/-- A word with one bit. -/
def oneBit (k : Nat) : Word := BitVec.ofNat 32 (2 ^ k)

/-- Registers whose words a warm reset keeps: the fuse shadows, the BIST and repair results, the slot forcing, the PLL lock bits
and the PCIe link (Table 2.3, R89, R140). -/
def RegId.keptWarm (id : RegId) : Bool :=
  [RegId.fusSecPolicy, .fusTenantMax, .fusDebug, .fusStatus, .fusNodeMask, .fusLaneRepair, .fusKeyhash, .fusPrivMap,
   .bootRepair, .bootTileFail, .bootSlot, .clkStatus, .ancState, .ancResetCause, .ancFaultCond, .slbRetired, .memPcStatus,
   .bnLinkStatus, .memPhyPair, .memPhyStack, .hstLinkStatus].contains id

/-- The NVM byte that an erased device reads as, and what a byte that nothing has written reads as. DESIGN CHOICE (log entry 16). -/
def nvmByte : Byte := 0xFF#8

/-- Bytes of the NVM whose contents are open take free values: what an NVM command that was cut off left behind (the edge "When
RST_N is asserted while the programmer is erasing or programming" of chapter 3, R107). DESIGN CHOICE (log entry 6). -/
def nvmOpen : Nat → Nat → Nat → List Host.Cell → List Host.Cell
  | 0, _, _, m => m
  | k + 1, a, f, m => nvmOpen k (a + 1) (f + 1) (memSet nvmByte m a ((Config.freeWord f).setWidth 8))

/-- The bytes a programmer command touches: 256 to program, a 4 KiB sector or a 64 KiB block to erase (R135). -/
def progSpan (cmd : Nat) : Nat := if cmd = 3 then 4096 else if cmd = 4 then 65536 else 256

/-- The programmer's command is cut off before it has completed: what it touches is open. DESIGN CHOICE (log entry 6). -/
def Hw.nvmCut (h : Hw) : Hw :=
  match h.nvm.busyCmd with
  | none => h
  | some (cmd, a) =>
    if 2 ≤ cmd ∧ cmd ≤ 4 then
      { h with nvm := { h.nvm with cells := nvmOpen (progSpan cmd) a h.free h.nvm.cells, busyCmd := none }
               free := h.free + progSpan cmd }
    else { h with nvm := { h.nvm with busyCmd := none } }

/-- The fuse array after a row is burned (Table 5.8). -/
def FuseArray.burn (f : FuseArray) (row : Nat) (d : Word) : FuseArray :=
  if row = 0 then { f with secPolicy := f.secPolicy ||| (d &&& 0x11#32) }
  else if 0x10 ≤ row ∧ row ≤ 0x1b then
    { f with keyhash := (List.range 12).map (fun i => f.keyhash.getD i 0#32 ||| (if i = row - 0x10 then d else 0#32)) }
  else if row = 0x20 then { f with svnFloor := max f.svnFloor (fld d 0 6) }
  else if row = 0x30 then { f with debug := f.debug ||| (d &&& 0x100#32) }
  else f

/-- A fuse burn is cut off: the row holds any subset of the bits requested (the edge "When PWR_GOOD falls during a fuse burn" of
chapter 21). DESIGN CHOICE (log entry 7). -/
def Hw.burnCut (h : Hw) : Hw :=
  match h.fuse.burning with
  | none => h
  | some (row, d) =>
    let f := (Config.freeWord h.free).setWidth 32
    let part := if row = 0x20 then BitVec.ofNat 32 (f.toNat % (fld d 0 6 + 1)) else d &&& f
    { h with fuse := { (h.fuse.burn row part) with burning := none }, free := h.free + 1 }

/-- The parts of the block that outlive every reset: what lies outside the digital state (pins, the fuse array, the NVM's
contents, the HBM's contents), the clock of the model and its free values. -/
def Hw.outer (h : Hw) : Hw :=
  let h := h.nvmCut.burnCut
  { ({} : Hw) with now := h.now, free := h.free, pins := h.pins, fuse := h.fuse,
                   nvm := { ({} : NvmState) with cells := h.nvm.cells }
                   mem := { ({} : MemState) with hbm := h.mem.hbm }
                   host := { ({} : HostState) with out := h.host.out }
                   stw := { ({} : StewardState) with mtime0 := h.now } }

/-- The tile sites that are masked or retired hold their ports in MASKED (R515, R516). -/
def Hw.maskPorts (h : Hw) : Hw :=
  (List.range 64).foldl (fun h i =>
    let n := tileNode i
    if h.nodeMasked n || h.health.tileFail.testBit i || bit (h.reg .tpCfg n) 31 then h.modReg .tpCond n 0 (setFld · 0 4 4) else h) h

/-- A cold reset with its causes (R75, R80, R81, R140): the die enters COLD_RESET. `pins` is true for a cause by PWR_GOOD, RST_N
or REFCLK. A PWR_GOOD cause clears the earlier ones; a cause that joins a running cold reset is added. -/
def Hw.coldReset (h : Hw) (cause : Word) (byPin : Bool) : Hw :=
  let old := if h.dieState = stColdReset then h.reg .ancResetCause else 0#32
  let cause := if h.rst.coldReq then cause ||| oneBit rcCold else cause
  let rc := if bit cause rcPowerOn then oneBit rcPowerOn else old ||| cause
  let slot := if byPin then 0#32 else h.reg .bootSlot &&& 7#32
  let h' := { h.outer with rst := { ({} : ResetState) with fromRequest := !byPin, start := h.now } }
  let keepLocks := if h.pins.refclk && h.pins.pwrGood then h.reg .clkStatus &&& 0x7FFD#32 else 0#32
  ((h'.setReg .ancResetCause 0 0 rc).setReg .bootSlot 0 0 slot).setReg .clkStatus 0 0 keepLocks

/-- A warm reset with its causes (R76, R80, R89, R140): the die enters WARM_RESET. `perst`: PERST_N also resets the endpoint.
DEDUCED (log entry 37). -/
def Hw.warmReset (h : Hw) (cause : Word) (perst : Bool) : Hw :=
  let again := h.dieState = stWarmReset
  let cause := cause ||| h.rst.lostCauses ||| (if h.rst.warmReq then oneBit rcWarm else 0#32)
  let rc := if again then h.reg .ancResetCause ||| cause else cause
  let count := fld (h.reg .ancState) 16 16
  let h' := { h.outer with
    regs := h.regs.filter (fun e => e.1.id.keptWarm && !(perst && decide (e.1.id = RegId.hstLinkStatus)))
    health := h.health
    boot := { ({} : BootState) with sticky := h.boot.sticky, scrubbed := false }
    msix := if perst then [] else h.msix
    host := if perst then h.outer.host else { h.outer.host with d3 := h.host.d3, busMasterOff := h.host.busMasterOff }
    dbg := { h.dbg with dm := h.dbg.dm.filter (fun e => e.1 != 0x90) }
    rst := { ({} : ResetState) with start := h.now } }
  let h' := h'.setReg .ancState 0 0 (mkWord [(0, 4, stWarmReset), (16, 16, if again then count else satAdd 16 count 1)])
  let h' := h'.setReg .ancResetCause 0 0 rc
  let h' := h'.modReg .bootSlot 0 0 (· &&& 7#32)
  let h' := h'.modReg .clkStatus 0 0 (· &&& 0x7FFF#32)
  let h' := h'.modReg .ancFaultCond 0 0 (· &&& 0x18#32)
  let retired := (h.regs.filter (fun e => decide (e.1.id = RegId.tpCfg) && bit e.2 31)).map (·.1.i)
  let h' := (retired.foldl (fun (h' : Hw) n => h'.modReg .tpCfg n 0 (setBit · 31 true)) h').maskPorts
  if again then h' else h'.pfEvent 1

/-- A warm-reset cause (R76): absorbed before BOOT (R79), held pending in CLOCK_LOST (R894), else it starts the warm reset. -/
def Hw.warmCause (h : Hw) (bitNo : Nat) (perst : Bool) : Hw :=
  let s := h.dieState
  if s = stColdReset ∨ s = stFuseLoad ∨ s = stBist then h
  else if s = stClockLost then
    { h with rst := { h.rst with lostCauses := h.rst.lostCauses ||| oneBit bitNo } }.modReg .ancState 0 0 (setBit · 8 true)
  else h.warmReset (oneBit bitNo) perst

/-- The register, guard and pending value of a CPL register. -/
def cplId : CplReg → RegId
  | .reset => .ancResetCtl
  | .lock => .ancLock
  | .budget => .pwaBudget
  | .fuse => .fusProgCtl

def cplGuardId : CplReg → RegId
  | .reset => .ancResetGuard
  | .lock => .ancLockGuard
  | .budget => .pwaBudgetGuard
  | .fuse => .fusProgGuard

def Hw.cplPend (h : Hw) : CplReg → Option CplPend
  | .reset => h.cpl.reset
  | .lock => h.cpl.lock
  | .budget => h.cpl.budget
  | .fuse => h.cpl.fuse

def Hw.setCplPend (h : Hw) (c : CplReg) (v : Option CplPend) : Hw :=
  match c with
  | .reset => { h with cpl := { h.cpl with reset := v } }
  | .lock => { h with cpl := { h.cpl with lock := v } }
  | .budget => { h with cpl := { h.cpl with budget := v } }
  | .fuse => { h with cpl := { h.cpl with fuse := v } }

/-- The guard window in FCLK cycles: 64 RCLK cycles (R210). -/
def guardWindow : Nat := 64 * rclk

/-- A lock bit makes this CPL value change a governed field (R213). -/
def Hw.cplLocked (h : Hw) (c : CplReg) (v : Word) : Bool :=
  c == .budget && bit (h.reg .ancLock) 3 && (v &&& 0x0FFF0FFF#32) != h.reg .pwaBudget

/-- A value write to a CPL register that passed its privilege check (R210, R213). -/
def Hw.cplValue (h : Hw) (p : Path) (c : CplReg) (v : Word) (addr : Nat) : Hw :=
  if h.cplLocked c v then h.misuse p true 5 addr else h.setCplPend c (some ⟨p, v, h.now⟩)

/-- A guard window expires without a guard write (R212). -/
def Hw.cplExpire (h : Hw) (c : CplReg) : Hw :=
  match h.cplPend c with
  | none => h
  | some q =>
    if h.now < q.time + guardWindow then h
    else (h.setCplPend c none).misuse q.path true 7 (Reg.addr ⟨cplId c, 0, 0⟩)

/-- A guard write (R211 to R213): the accepted value, if it is accepted. -/
def Hw.cplGuard (h : Hw) (p : Path) (c : CplReg) (g : Word) (addr : Nat) : Hw × Option Word :=
  match h.cplPend c with
  | none => (h.misuse p true 7 addr, none)
  | some q =>
    if q.time + guardWindow ≤ h.now then ((h.cplExpire c).misuse p true 7 addr, none)
    else if q.path ≠ p then (h.misuse p true 7 addr, none)
    else if g ≠ ~~~q.value then ((h.setCplPend c none).misuse p true 6 addr, none)
    else
      let h := h.setCplPend c none
      if h.cplLocked c q.value then (h.misuse p true 5 addr, none) else (h, some q.value)

/-- The target of a reset request is in range for its kind (R86). -/
def resetTargetOk (v : Word) : Bool :=
  let t := fld v 8 8
  match fld v 0 3 with
  | 0 => t == 0 | 1 => t == 0 | 2 => t == 0 | 3 => t < 64 | 4 => t < 6 | 5 => t < 64 | _ => false

/-- A wider reset than a partition or port reset is pending (R79). -/
def Hw.widerPending (h : Hw) : Bool := h.rst.coldReq || h.rst.warmReq || h.rst.lostCauses != 0#32

/-- An accepted ANC_RESET_CTL value (R77, R78, R79, R85, R86, R895). -/
def Hw.acceptReset (h : Hw) (p : Path) (v : Word) (addr : Nat) : Hw :=
  if !resetTargetOk v then h.misuse p true 9 addr
  else
    let v := v &&& 0xFF07#32
    let done := setFld v 0 3 0
    let pend (h : Hw) := (h.setReg .ancResetCtl 0 0 v).modReg .ancState 0 0 (setBit · 8 true)
    let s := h.dieState
    match fld v 0 3 with
    | 1 =>
      if s = stColdReset ∨ s = stFuseLoad ∨ s = stBist ∨ h.rst.coldReq then h.setReg .ancResetCtl 0 0 done
      else if s = stClockLost then pend { h with rst := { h.rst with lostCauses := h.rst.lostCauses ||| oneBit rcWarm } }
      else pend { h with rst := { h.rst with warmReq := true } }
    | 2 => pend { h with rst := { h.rst with coldReq := true } }
    | 3 =>
      let h := h.setReg .ancResetCtl 0 0 done
      if s = stRun ∧ !h.widerPending then h.raiseF1 (fld v 8 8) (h.gen (fld v 8 8)) 0x10 anchorNode 0 0 else h
    | 4 =>
      if s = stRun ∧ !h.widerPending then pend { h with rst := { h.rst with portResets := h.rst.portResets ++ [fld v 8 8] } }
      else h.setReg .ancResetCtl 0 0 done
    | 5 =>
      if s = stRun ∧ !h.widerPending then pend { h with rst := { h.rst with portResets := h.rst.portResets ++ [16 + fld v 8 8] } }
      else h.setReg .ancResetCtl 0 0 done
    | _ => h.setReg .ancResetCtl 0 0 done

/-- A requested port reset begins: kind returns to 0 and reset_pending clears (R85). -/
def Hw.portResetBegins (h : Hw) (k : Nat) : Hw :=
  if h.rst.portResets.contains k then
    let h := { h with rst := { h.rst with portResets := h.rst.portResets.erase k } }
    let h := h.modReg .ancResetCtl 0 0 (setFld · 0 3 0)
    if h.rst.portResets.isEmpty && !h.widerPending then h.modReg .ancState 0 0 (setBit · 8 false) else h
  else h

/-- The burnable bits and the condition of a fuse row hold for the data (Table 5.8, R235). -/
def Hw.burnOk (h : Hw) (row : Nat) (data : Word) : Bool :=
  let pol := h.reg .fusSecPolicy
  let d := data.toNat
  if row = 0 then (data &&& ~~~0x11#32) == 0#32 && (!bit data 0 || (List.range 12).any (fun i => h.reg .fusKeyhash i != 0#32))
  else if 0x10 ≤ row ∧ row ≤ 0x1b then !bit pol 0
  else if row = 0x20 then d < 64 && fld pol 8 6 < d
  else if row = 0x30 then (data &&& ~~~0x100#32) == 0#32
  else false

/-- An accepted FUS_PROG_CTL value (R234, R235). -/
def Hw.acceptBurn (h : Hw) (p : Path) (v : Word) (addr : Nat) : Hw :=
  let pol := h.reg .fusSecPolicy
  let h := h.setReg .fusProgCtl 0 0 (v &&& 0x1FF#32)
  if !(p == .pf && h.dieState == stSafeHold && bit pol 3 && !bit pol 4) then
    (h.modReg .fusProgStatus 0 0 (setBit · 3 true)).misuse p true 12 addr
  else if !bit v 8 || h.fuse.burning.isSome then h
  else if !h.burnOk (fld v 0 8) (h.reg .fusProgData) then h.modReg .fusProgStatus 0 0 (setBit · 2 true)
  else
    { h with fuse := { h.fuse with burning := some (fld v 0 8, h.reg .fusProgData) } }.setReg .fusProgStatus 0 0 1#32

/-- A burn ends with its read-back (R236). -/
def Hw.burnDone (h : Hw) (differs : Bool) : Hw :=
  match h.fuse.burning with
  | none => h
  | some (row, d) =>
    { h with fuse := { (h.fuse.burn row d) with burning := none } }.modReg .fusProgStatus 0 0
      (fun w => setBit (setBit (setBit w 0 false) 1 true) 2 differs)

/-- An accepted CPL value takes effect (R85, R207, R234, R759). The budget counts from the window after next. -/
def Hw.cplAccept (h : Hw) (p : Path) (c : CplReg) (v : Word) (addr : Nat) : Hw :=
  match c with
  | .reset => h.acceptReset p v addr
  | .lock => h.modReg .ancLock 0 0 (· ||| (v &&& 0x7F#32))
  | .budget => h.setReg .pwaBudget 0 0 (v &&& 0x0FFF0FFF#32)
  | .fuse => h.acceptBurn p v addr

/-- A guard write with all its effects. -/
def Hw.guardWrite (h : Hw) (p : Path) (c : CplReg) (g : Word) (addr : Nat) : Hw :=
  match h.cplGuard p c g addr with
  | (h, some v) => h.cplAccept p c v addr
  | (h, none) => h

/-- A PLL locks (R49). -/
def pllBit : PllId → Nat
  | .root => 1
  | .phy p => 2 + p.val
  | .hbm s => 8 + s.val
  | .pcie => 14

def Hw.pllLock (h : Hw) (w : PllId) : Hw := h.modReg .clkStatus 0 0 (fun c => setBit (setBit c 0 true) (pllBit w) true)

/-- A PLL loses lock: its lock bit clears and its event sets (Table 2.9). -/
def Hw.pllUnlock (h : Hw) (w : PllId) : Hw :=
  (h.modReg .clkStatus 0 0 (setBit · (pllBit w) false)).modReg .clkEvt 0 0 (setBit · (pllBit w) true)

/-- The root PLL loses lock (R51, R727): outside COLD_RESET the die enters CLOCK_LOST. DEDUCED (log entry 18). -/
def Hw.rootUnlock (h : Hw) : Hw :=
  let h := h.pllUnlock .root
  if h.dieState = stColdReset then h
  else
    let h := (h.setDieState stClockLost).modReg .clkStatus 0 0 (setBit · 18 true)
    let h := h.modReg .ancFaultCond 0 0 (setBit · 0 true)
    h.recordF0 0x48 anchorNode h.stamp.1

/-- The root PLL regains lock (R51, R894). -/
def Hw.rootRelock (h : Hw) : Hw :=
  let h := h.pllLock .root
  if h.dieState = stClockLost ∧ !bit (h.reg .clkRootCfg) 16 then h.warmReset (oneBit rcRoot) false else h

end Sys2Proof.Machine
end

