-- ==== Sys2Proof/Machine/Crypto.lean ====
section
/-! DEFINITION. The checks on images: CRC-32C (R111), SHA-384 and ECDSA over P-384 (R120, FIPS 180-4 and FIPS 186-5). -/

namespace Sys2Proof.Machine

/-- One step of a reflected CRC-32C: polynomial 0x1EDC6F41, reflected 0x82F63B78. -/
def crcBit : Nat → BitVec 32 → BitVec 32
  | 0, c => c
  | k + 1, c => crcBit k (if c.getLsbD 0 then (c >>> 1) ^^^ 0x82F63B78#32 else c >>> 1)

/-- CRC-32C of a byte string (R111). -/
def crc32c (bs : List Byte) : Nat :=
  ((bs.foldl (fun (c : BitVec 32) b => crcBit 8 (c ^^^ b.zeroExtend 32)) 0xFFFFFFFF#32) ^^^ 0xFFFFFFFF#32).toNat

/-- SHA-512 family round constants 0 to 19. -/
def shaK0 : List Nat :=
  [0x428a2f98d728ae22, 0x7137449123ef65cd, 0xb5c0fbcfec4d3b2f, 0xe9b5dba58189dbbc,
   0x3956c25bf348b538, 0x59f111f1b605d019, 0x923f82a4af194f9b, 0xab1c5ed5da6d8118,
   0xd807aa98a3030242, 0x12835b0145706fbe, 0x243185be4ee4b28c, 0x550c7dc3d5ffb4e2,
   0x72be5d74f27b896f, 0x80deb1fe3b1696b1, 0x9bdc06a725c71235, 0xc19bf174cf692694,
   0xe49b69c19ef14ad2, 0xefbe4786384f25e3, 0x0fc19dc68b8cd5b5, 0x240ca1cc77ac9c65]

/-- SHA-512 family round constants 20 to 39. -/
def shaK1 : List Nat :=
  [0x2de92c6f592b0275, 0x4a7484aa6ea6e483, 0x5cb0a9dcbd41fbd4, 0x76f988da831153b5,
   0x983e5152ee66dfab, 0xa831c66d2db43210, 0xb00327c898fb213f, 0xbf597fc7beef0ee4,
   0xc6e00bf33da88fc2, 0xd5a79147930aa725, 0x06ca6351e003826f, 0x142929670a0e6e70,
   0x27b70a8546d22ffc, 0x2e1b21385c26c926, 0x4d2c6dfc5ac42aed, 0x53380d139d95b3df,
   0x650a73548baf63de, 0x766a0abb3c77b2a8, 0x81c2c92e47edaee6, 0x92722c851482353b]

/-- SHA-512 family round constants 40 to 59. -/
def shaK2 : List Nat :=
  [0xa2bfe8a14cf10364, 0xa81a664bbc423001, 0xc24b8b70d0f89791, 0xc76c51a30654be30,
   0xd192e819d6ef5218, 0xd69906245565a910, 0xf40e35855771202a, 0x106aa07032bbd1b8,
   0x19a4c116b8d2d0c8, 0x1e376c085141ab53, 0x2748774cdf8eeb99, 0x34b0bcb5e19b48a8,
   0x391c0cb3c5c95a63, 0x4ed8aa4ae3418acb, 0x5b9cca4f7763e373, 0x682e6ff3d6b2b8a3,
   0x748f82ee5defb2fc, 0x78a5636f43172f60, 0x84c87814a1f0ab72, 0x8cc702081a6439ec]

/-- SHA-512 family round constants 60 to 79. -/
def shaK3 : List Nat :=
  [0x90befffa23631e28, 0xa4506cebde82bde9, 0xbef9a3f7b2c67915, 0xc67178f2e372532b,
   0xca273eceea26619c, 0xd186b8c721c0c207, 0xeada7dd6cde0eb1e, 0xf57d4f7fee6ed178,
   0x06f067aa72176fba, 0x0a637dc5a2c898a6, 0x113f9804bef90dae, 0x1b710b35131c471b,
   0x28db77f523047d84, 0x32caab7b40c72493, 0x3c9ebe0a15c9bebc, 0x431d67c49c100d4c,
   0x4cc5d4becb3e42b6, 0x597f299cfc657e2a, 0x5fcb6fab3ad6faec, 0x6c44198c4a475817]

/-- The 80 round constants of the SHA-512 family. -/
def shaK : List Nat := shaK0 ++ shaK1 ++ shaK2 ++ shaK3

/-- The initial hash value of SHA-384. -/
def shaH : List (BitVec 64) :=
  [0xcbbb9d5dc1059ed8#64, 0x629a292a367cd507#64, 0x9159015a3070dd17#64, 0x152fecd8f70e5939#64,
   0x67332667ffc00b31#64, 0x8eb44a8768581511#64, 0xdb0c2e0d64f98fa7#64, 0x47b5481dbefa4fa4#64]

def rotr64 (x : BitVec 64) (k : Nat) : BitVec 64 := x.rotateRight k

/-- The message schedule, newest word first: word t from words t−2, t−7, t−15 and t−16. -/
def shaExpand : Nat → List (BitVec 64) → List (BitVec 64)
  | 0, w => w
  | k + 1, w =>
    let x := w.getD 1 0#64
    let y := w.getD 14 0#64
    let s1 := rotr64 x 19 ^^^ rotr64 x 61 ^^^ (x >>> 6)
    let s0 := rotr64 y 1 ^^^ rotr64 y 8 ^^^ (y >>> 7)
    shaExpand k ((s1 + w.getD 6 0#64 + s0 + w.getD 15 0#64) :: w)

/-- One round of the compression function on the working variables a to h. -/
def shaRound (v : List (BitVec 64)) (k w : BitVec 64) : List (BitVec 64) :=
  match v with
  | [a, b, c, d, e, f, g, h] =>
    let t1 := h + (rotr64 e 14 ^^^ rotr64 e 18 ^^^ rotr64 e 41) + ((e &&& f) ^^^ (~~~e &&& g)) + k + w
    let t2 := (rotr64 a 28 ^^^ rotr64 a 34 ^^^ rotr64 a 39) + ((a &&& b) ^^^ (a &&& c) ^^^ (b &&& c))
    [t1 + t2, a, b, c, d + t1, e, f, g]
  | _ => v

/-- A big-endian number of bytes. -/
def beNat (bs : List Byte) : Nat := leNat bs.reverse

/-- The compression of one 128-byte block. -/
def shaBlock (hs : List (BitVec 64)) (blk : List Byte) : List (BitVec 64) :=
  let w0 := ((List.range 16).map (fun i => BitVec.ofNat 64 (beNat ((blk.drop (8 * i)).take 8)))).reverse
  let w := (shaExpand 64 w0).reverse
  let v := (shaK.zip w).foldl (fun v p => shaRound v (BitVec.ofNat 64 p.1) p.2) hs
  (hs.zip v).map (fun p => p.1 + p.2)

def shaBlocks : Nat → List (BitVec 64) → List Byte → List (BitVec 64)
  | 0, hs, _ => hs
  | k + 1, hs, m => shaBlocks k (shaBlock hs (m.take 128)) (m.drop 128)

/-- SHA-384 of a byte string: 48 bytes. -/
def sha384 (m : List Byte) : List Byte :=
  let n := m.length
  let z := (239 - n % 128) % 128
  let p := m ++ [0x80#8] ++ List.replicate z 0#8 ++ (natLe 16 (8 * n)).reverse
  ((shaBlocks (p.length / 128) shaH p).take 6).flatMap (fun x => (natLe 8 x.toNat).reverse)

/-- b^e mod m over the bits of e, least significant first. -/
def powMod (m : Nat) : Nat → Nat → Nat → Nat
  | 0, _, _ => 1 % m
  | k + 1, b, e => (if e % 2 = 1 then b * powMod m k (b * b % m) (e / 2) else powMod m k (b * b % m) (e / 2)) % m

def p384p : Nat := 2 ^ 384 - 2 ^ 128 - 2 ^ 96 + 2 ^ 32 - 1
def p384b : Nat := 0xb3312fa7e23ee7e4988e056be3f82d19181d9c6efe8141120314088f5013875ac656398d8a2ed19d2a85c8edd3ec2aef
def p384n : Nat := 0xffffffffffffffffffffffffffffffffffffffffffffffffc7634d81f4372ddf581a0db248b0a77aecec196accc52973
def p384gx : Nat := 0xaa87ca22be8b05378eb1c71ef320ad746e1d3b628ba79b9859f741e082542a385502f25dbf55296c3a545e3872760ab7
def p384gy : Nat := 0x3617de4a96262c6f5d9e98bf9292dc29f8f41dbd289a147ce9da3113b5f0b8c00a60b1ce1d7e819d7a431d7c90ea0e5f

/-- The inverse modulo a prime. -/
def invMod (m x : Nat) : Nat := powMod m 384 x (m - 2)

/-- A point of the curve; none is the point at infinity. -/
abbrev CurvePoint := Option (Nat × Nat)

/-- Point addition on P-384. -/
def ecAdd (a b : CurvePoint) : CurvePoint :=
  match a, b with
  | none, q => q
  | q, none => q
  | some (x1, y1), some (x2, y2) =>
    let p := p384p
    if x1 = x2 ∧ (y1 + y2) % p = 0 then none
    else
      let l := if x1 = x2 then (3 * x1 * x1 + (p - 3)) * invMod p (2 * y1 % p) % p
        else ((y2 + p - y1) * invMod p ((x2 + p - x1) % p)) % p
      let x3 := (l * l + 2 * p - x1 - x2) % p
      some (x3, (l * (x1 + p - x3) + p - y1) % p)

/-- A scalar multiple of a point over the bits of the scalar. -/
def ecMul : Nat → Nat → CurvePoint → CurvePoint
  | 0, _, _ => none
  | k + 1, e, q => if e % 2 = 1 then ecAdd q (ecMul k (e / 2) (ecAdd q q)) else ecMul k (e / 2) (ecAdd q q)

/-- The point is on the curve with reduced coordinates. -/
def onCurve (x y : Nat) : Bool :=
  x < p384p && y < p384p && (y * y) % p384p == (x * x * x + (p384p - 3) * x + p384b) % p384p

/-- ECDSA verification of a signature over a message under a SEC 1 uncompressed public key (step 11 of Table 3.5, R120). -/
def ecdsaOk (pubkey msg : List Byte) (r s : Nat) : Bool :=
  let x := beNat ((pubkey.drop 1).take 48)
  let y := beNat ((pubkey.drop 49).take 48)
  if pubkey.length = 97 ∧ byteAt pubkey 0 = 4#8 ∧ onCurve x y ∧ 1 ≤ r ∧ r < p384n ∧ 1 ≤ s ∧ s < p384n then
    let e := beNat (sha384 msg)
    let w := invMod p384n s
    match ecAdd (ecMul 384 (e * w % p384n) (some (p384gx, p384gy))) (ecMul 384 (r * w % p384n) (some (x, y))) with
    | some (x1, _) => x1 % p384n == r
    | none => false
  else false

end Sys2Proof.Machine
end

