-- ==== Sys2Proof/Machine/Boot.lean ====
section
/-! DEFINITION. Start-up from the NVM up to the choice of slots (chapter 3): fuse load, BIST and repair, the NVM probe, the slot
table, the safe-hold state and its programmer. -/

namespace Sys2Proof.Machine

/-- Die codes of BOOT_ERR (Table 3.11). -/
def beFuseEcc : Nat := 0x80
def beNvmAbsent : Nat := 0x81
def beStewardBist : Nat := 0x82
def beFwsramBist : Nat := 0x83
def beCoreRouter : Nat := 0x84
def beAllFailed : Nat := 0x85
def beHold : Nat := 0x86

/-- BOOT_STATUS.phase (Table 3.9). -/
def Hw.setPhase (h : Hw) (p : Nat) : Hw := h.modReg .bootStatus 0 0 (setFld · 0 4 p)

/-- The die enters SAFE_HOLD with a die code (R88, R131); ALERT_N then is low (`Hw.alertN`). -/
def Hw.safeHold (h : Hw) (code : Nat) : Hw :=
  let h := (h.setDieState stSafeHold).modReg .bootErr 0 0 (setFld · 24 8 code)
  let h := h.setPhase 0xF
  let sticky := if [beFuseEcc, beStewardBist, beFwsramBist, beCoreRouter].contains code then code else h.boot.sticky
  { h with boot := { h.boot with sticky := sticky } }

/-- The cold-reset cause ends (R83, R50): pins and REFCLK are good again, and with the root PLL locked the die enters
FUSE_LOAD. -/
def Hw.coldEnd (h : Hw) : Hw :=
  if h.dieState ≠ stColdReset then h
  else
    let h := { h with pins := { h.pins with pwrGood := true, rstN := true, refclk := true }, rst := { h.rst with start := h.now } }
    if bit (h.reg .clkStatus) 1 then h.setDieState stFuseLoad else h

/-- Load a list of words into consecutive registers. -/
def Hw.loadRegs (h : Hw) (id : RegId) : Nat → List Word → Hw
  | _, [] => h
  | i, w :: ws => (h.setReg id i 0 w).loadRegs id (i + 1) ws

/-- FUSE_LOAD completes (R93, R224): the shadows take the array, or after an uncorrectable error none does and the die enters
SAFE_HOLD with FUSE_ECC. -/
def Hw.fuseLoad (h : Hw) (ue : Bool) (corrected : Nat) : Hw :=
  if h.dieState ≠ stFuseLoad then h
  else if ue then h.safeHold beFuseEcc
  else
    let f := h.fuse
    let h := h.setReg .fusSecPolicy 0 0 (setFld f.secPolicy 8 6 f.svnFloor)
    let h := h.setReg .fusTenantMax 0 0 (mkWord [(0, 7, f.tenantMax)])
    let h := h.setReg .fusDebug 0 0 f.debug
    let h := h.loadRegs .fusNodeMask 0 f.nodeMask
    let h := h.loadRegs .fusLaneRepair 0 f.laneRepair
    let h := h.loadRegs .fusKeyhash 0 f.keyhash
    let h := h.loadRegs .fusPrivMap 0 f.privMap
    let h := h.setReg .fusStatus 0 0 (mkWord [(0, 1, 1), (8, 8, Nat.min 255 corrected)])
    h.maskPorts.setDieState stBist

/-- Undirected mesh links that are down. -/
def downCount (xs : List MeshDown) : Nat := (xs.filter (fun d => d.dir == 1 || d.dir == 3)).length

/-- Mark an HBM pair's memory node: the fields of MEM_PC_STATUS are masks of the node's pairs (Table 12.5). -/
def Hw.pairOut (h : Hw) (pair : Nat) (run : Bool) : Hw :=
  let n := nodeOf 1 (pair / 8)
  h.modReg .memPcStatus n 0 (fun w => setBit (setBit w (pair % 8) false) ((if run then 16 else 8) + pair % 8) true)

/-- A slab page is retired: SLB_RETIRED, from which the retired bit of its lease is read (R522). -/
def Hw.retirePage (h : Hw) (p : Nat) : Hw :=
  h.modReg .slbRetired (tileNode (p / 64)) (p % 64 / 32) (setBit · (p % 32) true)

/-- The stewards that are masked by fuses or failed BIST (R98). -/
def Hw.stewardsOut (h : Hw) : Nat :=
  (List.range 5).foldl (fun m k => if h.health.stewardFail.testBit k || h.nodeMasked (nodeOf 3 k) then m + 2 ^ k else m) 0

/-- BIST ends (R97, R98, R903): every finding is reported, repairs are applied, and the die enters BOOT or SAFE_HOLD. -/
def Hw.bist (h : Hw) (routers : List Nat) (down repaired : List MeshDown) (pages : List Nat) (stewards : Nat) (sram : Bool)
    (pairs : List Nat) (tiles : Nat) : Hw :=
  if h.dieState ≠ stBist then h
  else
    let routers := routers.filter (fun n => !h.nodeMasked n)
    let tiles := (List.range 64).foldl (fun m i => if tiles.testBit i && !h.nodeMasked (tileNode i) then m + 2 ^ i else m) 0
    let pairs := pairs.filter (fun q => !h.nodeMasked (nodeOf 1 (q / 8)))
    let stewards := (List.range 5).foldl (fun m k => if stewards.testBit k && !h.nodeMasked (nodeOf 3 k) then m + 2 ^ k else m) 0
    let pages := pages.filter (fun p => !h.nodeMasked (tileNode (p / 64)))
    let links := addDown (down.flatMap (fun d => linkBoth d.net d.node d.dir))
      (routers.flatMap (fun n => (List.range 3).flatMap (fun net => (List.range 4).flatMap (fun d => linkBoth net n d))))
    let h := { h with health := { ({} : Health) with routerFail := routers, meshDown := links, stewardFail := stewards,
                                                     tileFail := tiles, pairsBist := pairs } }
    let h := h.maskPorts
    let h := (List.range 12).foldl (fun h i => if h.nodeMasked (nodeOf 1 i) then h else h.setReg .memPcStatus (nodeOf 1 i) 0 0xFF#32) h
    let h := (List.range 96).foldl (fun h q => if pairs.contains q then h
      else h.setReg .memPhyPair (7 * 256 + q) 0 1#32) h
    let h := (List.range 6).foldl (fun h s => if (List.range 16).all (fun k => pairs.contains (16 * s + k)) then h
      else h.setReg .memPhyStack (7 * 256 + 0xf0 + s) 0 1#32) h
    let h := pairs.foldl (fun h q => h.pairOut q false) h
    let h := pages.foldl (fun h p => h.retirePage p) h
    let h := repaired.foldl (fun h d => if d.net = 0 then h.modReg .bnLinkStatus d.node 0 (setBit · (4 + d.dir) true) else h) h
    let h := h.setReg .bootRepair 0 0 (mkWord [(24, 5, stewards), (16, 8, Nat.min 255 (downCount links)), (8, 8, pairs.length),
      (0, 8, Nat.min 255 pages.length)])
    let h := (h.setReg .bootTileFail 0 0 (BitVec.ofNat 32 tiles)).setReg .bootTileFail 1 0 (BitVec.ofNat 32 (tiles / 2 ^ 32))
    let h := h.modReg .ancFaultCond 0 0 (fun w => setBit (setBit w 3 (!links.isEmpty)) 4 (!pairs.isEmpty))
    let h := h.modReg .bootStatus 0 0 (setBit · 11 (h.reg .bootRepair != 0#32 || tiles != 0))
    if routers.any (fun n => [5, 6, 7].contains (nodeClass n)) then h.safeHold beCoreRouter
    else if sram then h.safeHold beFwsramBist
    else if 2 ≤ popCount 5 h.stewardsOut then h.safeHold beStewardBist
    else h.setDieState stBoot

/-- BOOT begins (R91, R133, R892, R904): BOOT_ERR clears, the bar counter starts at bar 0 and phase 0, the die is its own
downbeat source; hold_next or a sticky code ends it in SAFE_HOLD. -/
def Hw.bootStart (h : Hw) : Hw :=
  if h.dieState = stWarmReset ∨ (h.dieState = stBoot ∧ !h.bar.running) then
    let h := (h.setDieState stBoot).setReg .bootErr 0 0 0#32
    let h := { h with bar := { ({} : BarState) with running := true } }
    let h := h.modReg .clkStatus 0 0 (setBit · 16 true)
    let h := h.modReg .bootStatus 0 0 (setBit · 11 (h.reg .bootRepair != 0#32 || h.reg .bootTileFail 0 != 0#32 || h.reg .bootTileFail 1 != 0#32))
    if h.boot.sticky ≠ 0 then h.safeHold h.boot.sticky
    else if bit (h.reg .bootSlot) 2 then (h.modReg .bootSlot 0 0 (setBit · 2 false)).safeHold beHold
    else h
  else h

/-- SCK of each mode of Table 3.3, in Hz. -/
def modeSck : Nat → Nat
  | 1 => 25000000 | 2 => 50000000 | 3 => 100000000 | 4 => 100000000 | 5 => 200000000 | _ => 25000000

/-- The probe's choice of mode, SCK and addressing (R105, R106). -/
def Hw.nvmChoose (h : Hw) (sfdp : Option (Nat × Nat × Nat)) : Hw :=
  let x : Nat × Nat × Bool × Nat × Bool := match sfdp with
    | none => (1, 3, false, 16 * 2 ^ 20, false)
    | some (modes, kHz, size) =>
      let mode := (([5, 4, 3, 2, 1].find? (fun m => modes.testBit (m - 1)))).getD 1
      let k := ((List.range 8).find? (fun k => 200000000 / 2 ^ k ≤ modeSck mode && 200000000 / 2 ^ k ≤ kHz * 1000)).getD 7
      (mode, k, decide (16 * 2 ^ 20 < size), Nat.min size (256 * 2 ^ 20), true)
  let h := { h with nvm := { h.nvm with mode := x.1, shift := x.2.1, addr4 := x.2.2.1, size := x.2.2.2.1, sfdp := x.2.2.2.2 }
                    boot := { h.boot with probed := true } }
  h.modReg .bootStatus 0 0 (fun w => setFld (setFld w 12 3 x.1) 24 3 x.2.1)

/-- The JEDEC ID reads all zero or all one (R104). -/
def jedecAbsent (jedec : Nat) : Bool := jedec == 0 || jedec == 2 ^ 24 - 1

/-- EXTEST, CLAMP or HIGHZ takes the NVM's pins: its operations time out (R810). -/
def Hw.nvmBlocked (h : Hw) : Bool := [3, 4, 5].contains h.dbg.tap

/-- The NVM probe of BOOT (R103, R104); a device that is not reached reads as absent (R810). -/
def Hw.nvmProbe (h : Hw) (jedec : Nat) (sfdp : Option (Nat × Nat × Nat)) : Hw :=
  if h.dieState = stBoot ∧ h.bar.running ∧ !h.boot.probed then
    let h := h.setPhase 1
    if jedecAbsent jedec || h.nvmBlocked then h.safeHold beNvmAbsent else h.nvmChoose sfdp
  else h

/-- Bytes of the NVM; an address at or beyond the reach of the addressing in use is out of range (R106). -/
def Hw.nvmRead (h : Hw) (a len : Nat) : List Byte := memRead nvmByte h.nvm.cells a len
def Hw.nvmReach (h : Hw) : Nat := if h.nvm.addr4 then 2 ^ 32 else 16 * 2 ^ 20

/-- A slot-table copy is valid (Table 3.4, R112). -/
def slotTableOk (b : List Byte) (size : Nat) : Bool :=
  let slot (o : Nat) : Bool :=
    let base := u32 b o
    let len := u32 b (o + 4)
    base % 0x10000 == 0 && len % 0x10000 == 0 && 0x10000 ≤ len && len ≤ 7 * 2 ^ 20 && 0x710000 ≤ base && base + len ≤ size
  let a0 := u32 b 0x10
  let b0 := u32 b 0x18
  u32 b 0 == 0x54535642 && u16 b 4 == 1 && u32 b 0x3c == crc32c (b.take 0x3c) && u8 b 6 ≤ 1 && u8 b 7 == 0 && leAt b 12 4 == 0 &&
  leAt b 0x20 28 == 0 && slot 0x10 && slot 0x18 && (a0 + u32 b 0x14 ≤ b0 || b0 + u32 b 0x1c ≤ a0)

/-- The slots to try, each once (R114). -/
def slotOrder (forced : Nat) (table : Option Nat) : List Nat :=
  let f := if forced = 0 then [] else [forced]
  let t := match table with
    | some 0 => [1, 2]
    | some _ => [2, 1]
    | none => []
  (f ++ t ++ [3]).foldl (fun a s => if a.contains s then a else a ++ [s]) []

/-- The loader validates both slot-table copies and chooses the newer valid one (R112 to R114). -/
def Hw.slotTable (h : Hw) : Hw :=
  if h.dieState = stBoot ∧ h.boot.probed ∧ !h.boot.tableRead then
    let h := h.setPhase 2
    let c0 := h.nvmRead 0 64
    let c1 := h.nvmRead 0x1000 64
    let v0 := !h.nvmBlocked && slotTableOk c0 h.nvm.size && !h.boot.tableTimeout.contains 0
    let v1 := !h.nvmBlocked && slotTableOk c1 h.nvm.size && !h.boot.tableTimeout.contains 1
    let d := (u32 c1 8 + 2 ^ 32 - u32 c0 8) % 2 ^ 32
    let copy : Option Nat := if v0 && v1 then some (if 1 ≤ d ∧ d < 2 ^ 31 then 1 else 0)
      else if v0 then some 0 else if v1 then some 1 else none
    let forced := fld (h.reg .bootSlot) 0 2
    match copy with
    | some k =>
      let c := if k = 0 then c0 else c1
      let h := { h with boot := { h.boot with tableRead := true, order := slotOrder forced (some (u8 c 6)), aBase := u32 c 0x10,
                                              aSize := u32 c 0x14, bBase := u32 c 0x18, bSize := u32 c 0x1c } }
      h.modReg .bootSlot 0 0 (fun w => setBit (setBit w 9 true) 8 (k == 1))
    | none => { h with boot := { h.boot with tableRead := true, order := slotOrder forced none } }
  else h

/-- The field of BOOT_ERR and the BOOT_ERR_INFO register of a slot. -/
def slotErrShift (slot : Nat) : Nat := (slot - 1) * 8
def slotInfo : Nat → RegId
  | 1 => .bootErrInfoA | 2 => .bootErrInfoB | _ => .bootErrInfoR

/-- Begin an attempt on the next slot: BOOT_SLOT.next clears at the first attempt, attempts and slot count it (R140, Table 3.9). -/
def Hw.beginAttempt (h : Hw) (slot : Nat) : Hw :=
  let h := h.modReg .bootSlot 0 0 (setFld · 0 2 0)
  let h := h.modReg .bootStatus 0 0 (fun w => setFld (setFld w 4 2 slot) 6 2 (fld w 6 2 + 1))
  { h with boot := { h.boot with cur := slot, order := h.boot.order.erase slot } }

/-- A slot fails with a code at a place (R118, R902); with no slot left the die enters SAFE_HOLD (R115). -/
def Hw.failSlot (h : Hw) (code sect rec : Nat) : Hw :=
  let s := h.boot.cur
  let h := h.modReg .bootErr 0 0 (setFld · (slotErrShift s) 8 code)
  let h := h.setReg (slotInfo s) 0 0 (mkWord [(16, 8, sect), (0, 16, rec)])
  let h := { h with boot := { h.boot with checked := false, staged := [] } }
  if h.boot.order.isEmpty then h.safeHold beAllFailed else h

/-- The programmer ends its command: busy clears, done sets, err as given (R135). -/
def Hw.progEnd (h : Hw) (err : Bool) : Hw :=
  { h with nvm := { h.nvm with busyCmd := none } }.modReg .bootProgStatus 0 0
    (fun w => setBit (setBit (setBit w 0 false) 1 true) 2 err)

/-- Accept or refuse a programmer command (R134, R135); the command's effect comes when it ends. A probe that no BOOT has made
since the last reset comes first. Command 0 with an error marks a command that is refused without touching the NVM. -/
def Hw.progStart (h : Hw) (p : Path) (cmd jedec : Nat) (sfdp : Option (Nat × Nat × Nat)) : Hw :=
  if !(p == .pf && h.dieState == stSafeHold && bit (h.reg .fusSecPolicy) 2) then h.modReg .bootProgStatus 0 0 (setBit · 3 true)
  else if bit (h.reg .bootProgStatus) 0 then h
  else
    let h := h.setReg .bootProgStatus 0 0 1#32
    let a := (h.reg .bootProgAddr).toNat
    if cmd = 0 ∨ 4 < cmd ∨ a % progSpan cmd ≠ 0 then { h with nvm := { h.nvm with busyCmd := some (0, a) } }
    else
      let absent := !h.boot.probed && (jedecAbsent jedec || h.nvmBlocked)
      let h := if h.boot.probed || absent then h else h.nvmChoose sfdp
      if absent || h.nvmReach ≤ a then { h with nvm := { h.nvm with busyCmd := some (0, a) } }
      else { h with nvm := { h.nvm with busyCmd := some (cmd, a) } }

/-- Load 256 bytes into BOOT_PROG_BUF, NVM byte k in byte k mod 4 of word k / 4 (Table 3.8). -/
def Hw.loadBuf (h : Hw) (b : List Byte) : Hw :=
  (List.range 64).foldl (fun h k => h.setReg .bootProgBuf k 0 (BitVec.ofNat 32 (u32 b (4 * k)))) h

/-- BOOT_PROG_BUF as bytes. -/
def Hw.progBuf (h : Hw) : List Byte := (List.range 64).flatMap (fun k => natLe 4 (h.reg .bootProgBuf k).toNat)

/-- Program bytes into the NVM: a program can only clear bits. -/
def nvmProgram (m : List Host.Cell) (a : Nat) (bs : List Byte) : List Host.Cell :=
  memWrite nvmByte m a (((memRead nvmByte m a bs.length).zip bs).map (fun p => p.1 &&& p.2))

/-- What a programmer command does to the NVM and the buffer: a read fills the buffer, a program, a sector erase and a block erase change the
device (R135). DEDUCED (log entry 23). -/
def Hw.progPerform (h : Hw) (cmd a : Nat) : Hw :=
  if cmd = 1 then h.loadBuf (h.nvmRead a 256)
  else if cmd = 2 then { h with nvm := { h.nvm with cells := nvmProgram h.nvm.cells a h.progBuf } }
  else if cmd = 3 then { h with nvm := { h.nvm with cells := memClear h.nvm.cells a 4096 } }
  else if cmd = 4 then { h with nvm := { h.nvm with cells := memClear h.nvm.cells a 65536 } }
  else h

/-- A programmer command ends (R135, R107); on a timeout what it touched is open. -/
def Hw.progDone (h : Hw) (timeout : Bool) : Hw :=
  match h.nvm.busyCmd with
  | none => h
  | some (cmd, a) =>
    if timeout || (cmd != 0 && h.nvmBlocked) then h.nvmCut.progEnd true
    else (h.progPerform cmd a).progEnd (decide (cmd = 0 ∨ 4 < cmd))

/-- A single NVM command times out (R107): the slot-table copy being read becomes invalid, the slot being read fails with
NVM_TIMEOUT, the programmer's command ends with an error. -/
def Hw.nvmTimeout (h : Hw) (copy : Nat) : Hw :=
  if h.dieState = stSafeHold then h.progDone true
  else if h.dieState = stBoot ∧ h.boot.probed ∧ !h.boot.checked then
    if !h.boot.tableRead then { h with boot := { h.boot with tableTimeout := h.boot.tableTimeout ++ [copy] } }
    else match h.boot.order with
      | s :: _ => (h.beginAttempt s).failSlot 0x11 0xff 0
      | [] => h
  else h

end Sys2Proof.Machine
end

