-- ==== Sys2Proof/Machine/Bnet.lean ====
section
/-! DEFINITION. The B-net (chapter 6): flit tags, flow slots, regulators and phase sets, routers with their arbitration and
credits, deadlines and lateness, mesh-link errors. -/

namespace Sys2Proof.Machine

/-- Fields of a flit tag (Table 6.2). -/
def Flit.flow (f : Flit) : Nat := fld f.tag 0 13
def Flit.tenant (f : Flit) : Nat := fld f.tag 13 6
def Flit.gen (f : Flit) : Nat := fld f.tag 19 10
def Flit.vc (f : Flit) : Nat := fld f.tag 29 3
def Flit.deadline (f : Flit) : Nat := fld f.tag 32 25
def Flit.seq (f : Flit) : Nat := fld f.tag 57 7
def Flit.route (f : Flit) : Nat := fld f.tag 64 12
def Flit.table (f : Flit) : Bool := bit f.tag 76
def Flit.last (f : Flit) : Bool := bit f.tag 77
def Flit.poison (f : Flit) : Bool := bit f.tag 78
def Flit.remote (f : Flit) : Bool := bit f.tag 79
def Flit.cid (f : Flit) : Nat := fld f.tag 80 16

def Flit.setPoison (f : Flit) : Flit := { f with tag := setBit f.tag 78 true }

/-- A flit as its injector hands it over: flow, last, cid and payload; the slot stamps the rest (R267, R277). -/
def mkFlit (flow : Nat) (last : Bool) (cid : Nat) (data : BitVec 1024) (remote : Bool := false) (poison : Bool := false) : Flit :=
  { tag := setFld (setBit (setBit (setBit (setFld (0#96) 0 13 flow) 77 last) 78 poison) 79 remote) 80 16 cid, data := data }

/-- Bar time (R242), modulo 2^25. -/
def Hw.barTime (h : Hw) : Nat := (h.bar.bar.toNat * 4096 + h.bar.phase) % 2 ^ 25

/-- A deadline has come (R268). -/
def Hw.isLate (h : Hw) (deadline : Nat) : Bool := (h.barTime + 2 ^ 25 - deadline) % 2 ^ 25 < 2 ^ 24

/-- The key of an input VC queue. -/
def qKey (n port vc : Nat) : Nat := (n * 5 + port) * 8 + vc

def Hw.bq (h : Hw) (n port vc : Nat) : List Flit := nget h.bnet.inq (qKey n port vc) []
def Hw.setBq (h : Hw) (n port vc : Nat) (q : List Flit) : Hw :=
  { h with bnet := { h.bnet with inq := nset h.bnet.inq (qKey n port vc) q [] } }

/-- Credits a sender has in use for an input queue; it holds 8 less those (R243). -/
def Hw.bUsed (h : Hw) (k : Nat) : Nat := nget h.bnet.used k 0
def Hw.setBUsed (h : Hw) (k v : Nat) : Hw := { h with bnet := { h.bnet with used := nset h.bnet.used k v 0 } }
def Hw.bOwed (h : Hw) (k : Nat) : Nat := nget h.bnet.owed k 0
def Hw.setBOwed (h : Hw) (k v : Nat) : Hw := { h with bnet := { h.bnet with owed := nset h.bnet.owed k v 0 } }

/-- A receiver's credit reaches the sender (R243). -/
def Hw.bCreditReturn (h : Hw) (n port vc : Nat) : Hw :=
  let k := qKey n port vc
  if h.bOwed k = 0 then h else (h.setBOwed k (h.bOwed k - 1)).setBUsed k (h.bUsed k - 1)

/-- The valid slot of a flow at a node (R248). -/
def Hw.flowSlot (h : Hw) (n flow : Nat) : Option Nat :=
  (h.regs.find? (fun e => decide (e.1.id = RegId.bnFlowCfg) && e.1.i == n && bit e.2 13 && fld e.2 0 13 == flow)).map (·.1.j)

/-- The source node and slot of a flow. -/
def Hw.flowSource (h : Hw) (flow : Nat) : Option (Nat × Nat) :=
  (h.regs.find? (fun e => decide (e.1.id = RegId.bnFlowCfg) && bit e.2 13 && bit e.2 14 && fld e.2 0 13 == flow)).map
    (fun e => (e.1.i, e.1.j))

def Hw.slotTenant (h : Hw) (n s : Nat) : Nat := fld (h.reg .bnFlowCfg n s) 16 6
def Hw.slotGen (h : Hw) (n s : Nat) : Nat := fld (h.reg .bnFlowCfg n s) 22 10

/-- Log a drop in BN_DROP_EVT: every cause but LATE (Table 6.7). -/
def Hw.bDrop (h : Hw) (n cause flow : Nat) : Hw :=
  h.modReg .bnDropEvt n 0 (fun w =>
    if fld w 24 8 = 0 then mkWord [(24, 8, 1), (16, 4, cause), (0, 13, flow)] else bumpFld w 24 8 1)

/-- The declared kind of a die flow. -/
def Hw.flowKind (h : Hw) (f : Nat) : FlowKind := nget h.fold.kinds f {}

/-- The valid fold context of a tree at a node. -/
def Hw.treeCtx (h : Hw) (n tree : Nat) : Option Nat :=
  (List.range 64).find? (fun k => bit (h.reg .fldCfg n k) 15 && fld (h.reg .fldCfg n k) 0 12 == tree)

/-- A context combines nothing more until it is cleared (R389, R407). -/
def Hw.ctxStop (h : Hw) (n k : Nat) : Hw := h.modReg .fldStatus n k (setBit · 3 true)

/-- A fold stream has lost a flit: the context it feeds stops (R407). -/
def Hw.foldStop (h : Hw) (f : Nat) : Hw :=
  let k := h.flowKind f
  if k.kind = 1 then
    match h.treeCtx k.dst k.tree with
    | some c => h.ctxStop k.dst c
    | none => h
  else h

/-- A late flit is dropped (R270): logged in BN_LATE_EVT; the first of its flow and generation sets the source slot's late
flag and raises the fault of R26. -/
def Hw.bLate (h : Hw) (n : Nat) (f : Flit) : Hw :=
  let h := (h.foldStop f.flow).modReg .bnLateEvt n 0 (fun w =>
    if fld w 24 8 = 0 then mkWord [(24, 8, 1), (23, 1, b2n f.remote), (20, 3, f.vc), (0, 13, f.flow)] else bumpFld w 24 8 1)
  let h := match h.flowSource f.flow with
    | some (m, s) => h.modReg .bnFlowState m s (setBit · 20 true)
    | none => h
  if h.bnet.lateSeen.contains (f.flow, f.gen) then h
  else
    { h with bnet := { h.bnet with lateSeen := h.bnet.lateSeen ++ [(f.flow, f.gen)] } }.raiseOwner f.tenant f.gen 1 n f.flow

/-- The output ports a flit takes at a node, one bit each, bit 0 local (R252); 0 where it is unrouted. -/
def Hw.outMask (h : Hw) (n : Nat) (f : Flit) : Nat :=
  if f.table then fld (h.reg .bnRouteTbl n (f.route / 4)) (f.route % 4 * 8) 5
  else
    let d := f.route % 128
    if 96 ≤ d then 0 else 2 ^ xyPort n d

/-- The output ports a head flit has still to take. -/
def Hw.headLeft (h : Hw) (n : Nat) (f : Flit) : Nat := if f.left = 0 then h.outMask n f else f.left

/-- A mesh link of the B-net is up. -/
def Hw.bLinkUp (h : Hw) (n port : Nat) : Bool := (h.linksUp 0 n).testBit (port - 1)

/-- The head flit leaves its buffer: its queue advances and a credit is owed to the sender of a mesh port (R243). -/
def Hw.bPop (h : Hw) (n port vc : Nat) : Hw :=
  let h := h.setBq n port vc ((h.bq n port vc).drop 1)
  if port = 0 then h else let k := qKey n port vc; h.setBOwed k (h.bOwed k + 1)

/-- The head flit has taken output `out`: it leaves its buffer once every copy has left (R255). -/
def Hw.bTook (h : Hw) (n port vc out : Nat) : Hw :=
  match h.bq n port vc with
  | [] => h
  | f :: rest =>
    let left := h.headLeft n f - 2 ^ out
    if left = 0 then h.bPop n port vc else h.setBq n port vc ({ f with left := left } :: rest)

/-- Drop the head flits that can go no further: late (R269, R270), unrouted (R252), or with an output link that is down
(LINK_DOWN, Table 6.4). -/
def Hw.bClean (h : Hw) (n port vc : Nat) : Hw :=
  match h.bq n port vc with
  | [] => h
  | f :: _ =>
    if h.isLate f.deadline then (h.bLate n f).bPop n port vc
    else
      let left := h.headLeft n f
      if left = 0 then (h.bDrop n 4 f.flow).bPop n port vc
      else match [1, 2, 3, 4].find? (fun p => left.testBit p && !h.bLinkUp n p) with
        | some p => (h.bDrop n 9 f.flow).bTook n port vc p
        | none => h

/-- Every input queue of a node: its port and VC. -/
def allQueues : List (Nat × Nat) := (List.range 5).flatMap (fun p => (List.range 8).map (fun v => (p, v)))

def Hw.bCleanAll (h : Hw) (n : Nat) : Hw := allQueues.foldl (fun h q => h.bClean n q.1 q.2) h

/-- The input that an output port serves (R245): the lowest VC with a head flit for the output that is ready, and among its
inputs the first after the last winner. -/
def Hw.arbitrate (h : Hw) (n out : Nat) (ready : Nat → Nat → Flit → Bool) : Option (Nat × Nat) :=
  (List.range 8).findSome? fun vc =>
    let ptr := nget h.bnet.rr (qKey n out vc) 0
    ((List.range 5).map (fun k => (ptr + k) % 5)).findSome? fun port =>
      match h.bq n port vc with
      | [] => none
      | f :: _ => if (h.headLeft n f).testBit out && ready port vc f then some (port, vc) else none

/-- Move the round-robin pointer past the winner. -/
def Hw.arbitrated (h : Hw) (n out port vc : Nat) : Hw :=
  { h with bnet := { h.bnet with rr := nset h.bnet.rr (qKey n out vc) ((port + 1) % 5) 0 } }

/-- A mesh link of a network goes down in both directions and raises F0 MESH_LINK (R282, R283). -/
def Hw.meshLinkDown (h : Hw) (net n dir : Nat) : Hw :=
  let h := { h with health := { h.health with meshDown := addDown h.health.meshDown (linkBoth net n dir) } }
  (h.modReg .ancFaultCond 0 0 (setBit · 3 true)).raiseF0 0x41 n 0

/-- An uncorrectable error on the link direction that arrives at node n from direction dir (0 −X to 3 +Y): its count rises by 8,
and at 128 the link goes down (R282, R287, R335). `id` is the network's LINK_EC register. -/
def Hw.linkError (h : Hw) (net : Nat) (id : RegId) (n dir : Nat) : Hw :=
  let e := fld (h.reg id n) (dir * 8) 8 + 8
  let h := h.modReg id n 0 (setFld · (dir * 8) 8 (Nat.min 255 e))
  let h := { h with bnet := { h.bnet with errBar := (net * 384 + n * 4 + dir) :: h.bnet.errBar } }
  if 128 ≤ e then h.meshLinkDown net n dir else h

/-- One flit crosses the mesh link from node n through port `out` with the error its receiver sees (R239, R279 to R282). -/
def Hw.bReceive (h : Hw) (n out vc : Nat) (f : Flit) (err : MeshErr) : Hw :=
  match neighbour n out with
  | none => h
  | some m =>
    let port := facing out
    let k := qKey m port vc
    let f := { f with left := 0 }
    let h := h.setBUsed k (h.bUsed k + 1)
    let keep (h : Hw) (f : Flit) : Hw := h.setBq m port vc (h.bq m port vc ++ [f])
    match err with
    | .ok | .router => keep h f
    | .corrected => (keep h f).modReg .bnEccEvt m 0 (bumpFld · 0 16 1) |>.logF2
    | .payload => (((keep h f.setPoison).modReg .bnEccEvt m 0 (bumpFld · 16 8 1)).linkError 0 .bnLinkEc m (port - 1))
    | .tag =>
      (((h.modReg .bnEccEvt m 0 (bumpFld · 24 8 1)).bDrop m 8 f.flow).setBOwed k (h.bOwed k + 1)
        |>.raiseF0 0x40 m 0).linkError 0 .bnLinkEc m (port - 1)
    | .credit => ((h.modReg .bnEccEvt m 0 (bumpFld · 24 8 1)).raiseF0 0x40 m 0).linkError 0 .bnLinkEc m (port - 1)

/-- A router output serves one flit (R243 to R246, R252, R255, R269). -/
def Hw.flitHop (h : Hw) (n out : Nat) (err : MeshErr) : Hw :=
  let h := h.bCleanAll n
  match neighbour n out with
  | none => h
  | some m =>
    match h.arbitrate n out (fun _ vc _ => h.bUsed (qKey m (facing out) vc) < 8) with
    | none => h
    | some (port, vc) =>
      match h.bq n port vc with
      | [] => h
      | f :: _ => ((h.arbitrated n out port vc).bTook n port vc out).bReceive n out vc f err

/-- Flits that wait for a token at a source slot. -/
def Hw.waiting (h : Hw) (n s : Nat) : List Flit := nget h.bnet.inj (n * 512 + s) []
def Hw.setWaiting (h : Hw) (n s : Nat) (q : List Flit) : Hw :=
  { h with bnet := { h.bnet with inj := nset h.bnet.inj (n * 512 + s) q [] } }

/-- An injector hands a flit to its source slot: the injection checks NO_FLOW and WRONG_OWNER (Table 6.4) come first. `owner` is
the injector's tenant; none for the die itself. -/
def Hw.inject (h : Hw) (n : Nat) (owner : Option Nat) (f : Flit) : Hw :=
  match h.flowSlot n f.flow with
  | none => h.bDrop n 1 f.flow
  | some s =>
    let cfg := h.reg .bnFlowCfg n s
    if !bit cfg 14 then h.bDrop n 1 f.flow
    else if owner.any (fun t => t != fld cfg 16 6) then h.bDrop n 2 f.flow
    else h.setWaiting n s (h.waiting n s ++ [f])

/-- Injection of (t, g) is fenced: the restart of the tenant stops it (Table 16.5 step 1). -/
def Hw.fenced (h : Hw) (t g : Nat) : Bool := g != 0 && bit (h.reg .tntState t) 8

/-- A source slot has a flit waiting, a token, a buffer at the local input, and no fence or gate holds it (R256 to R258). -/
def Hw.slotReady (h : Hw) (gated : Bool) (n s : Nat) : Bool :=
  let cfg := h.reg .bnFlowCfg n s
  let rate := h.reg .bnFlowRate n s
  bit cfg 13 && bit cfg 14 && !(h.waiting n s).isEmpty && 0 < fld (h.reg .bnFlowState n s) 0 13 && h.bar.rest == 0 &&
  !h.fenced (fld cfg 16 6) (fld cfg 22 10) && !gated && (h.bq n 0 (fld rate 13 3)).length < 8

/-- The slots of a node with flits waiting. -/
def Hw.waitingSlots (h : Hw) (n : Nat) : List Nat := (h.bnet.inj.filter (fun e => e.1 / 512 == n)).map (fun e => e.1 % 512)

/-- The slot that the local input takes: lowest VC, ties round-robin over slot numbers (R258). -/
def Hw.grantSlot (h : Hw) (gated : Bool) (n : Nat) : Option Nat :=
  let ready := (h.waitingSlots n).filter (h.slotReady gated n)
  (List.range 8).findSome? fun vc =>
    let ss := ready.filter (fun s => fld (h.reg .bnFlowRate n s) 13 3 == vc)
    let ptr := nget h.bnet.slotRr (n * 8 + vc) 0
    match ss.filter (fun s => ptr ≤ s) with
    | s :: _ => some s
    | [] => ss.head?

/-- The tag a source slot stamps on a flit it grants: owner, VC, route, deadline and seq (R267, R277, Table 6.2). A flit that
entered through a torus port carries its own deadline base (R271), given as `base`. -/
def Hw.stampFlit (h : Hw) (n s : Nat) (f : Flit) : Flit :=
  let cfg := h.reg .bnFlowCfg n s
  let rate := h.reg .bnFlowRate n s
  let bound := fld (h.reg .bnFlowBound n s) 0 24
  let base := if f.remote then f.deadline else h.barTime
  let t := setFld f.tag 13 6 (fld cfg 16 6)
  let t := setFld t 19 10 (fld cfg 22 10)
  let t := setFld t 29 3 (fld rate 13 3)
  let t := setFld t 32 25 (base + bound)
  let t := setFld t 57 7 (fld (h.reg .bnFlowState n s) 13 7)
  let t := setFld t 64 12 (fld rate 16 12)
  { f with tag := setBit t 76 (bit rate 28), left := 0, op := 0 }

/-- A flit is granted a token at its source slot and injected (R257, R258, R267, R277). Flits whose slot has gone are dropped
with NO_FLOW. -/
def Hw.flitInject (h : Hw) (gated : Bool) (n : Nat) : Hw :=
  match h.grantSlot gated n with
  | none => h
  | some s =>
    match h.waiting n s with
    | [] => h
    | f :: rest =>
      let f := h.stampFlit n s f
      let h := h.setWaiting n s rest
      let st := h.reg .bnFlowState n s
      let h := h.setReg .bnFlowState n s (setFld (setFld st 0 13 (fld st 0 13 - 1)) 13 7 (fld st 13 7 + 1))
      let h := { h with bnet := { h.bnet with slotRr := nset h.bnet.slotRr (n * 8 + f.vc) (s + 1) 0 } }
      h.setBq n 0 f.vc (h.bq n 0 f.vc ++ [f])

/-- The seq that a sink slot expects next (R277). A slot that is also the flow's source keeps it beside the next seq to send. -/
def Hw.sinkSeq (h : Hw) (n s : Nat) : Nat :=
  if bit (h.reg .bnFlowCfg n s) 14 then nget h.bnet.sinkSeq (n * 512 + s) 0 else fld (h.reg .bnFlowState n s) 13 7
def Hw.setSinkSeq (h : Hw) (n s v : Nat) : Hw :=
  if bit (h.reg .bnFlowCfg n s) 14 then { h with bnet := { h.bnet with sinkSeq := nset h.bnet.sinkSeq (n * 512 + s) (v % 128) 0 } }
  else h.modReg .bnFlowState n s (setFld · 13 7 v)

/-- The access whose data a flit of a memory flow carries: the first one that travels on that flow (R540). -/
def Hw.memCarried (h : Hw) (f : Flit) : Option MemReq := h.mem.reqs.find? (fun r => r.hops.head? == some f.flow && (r.write || r.done))

/-- A relay flow hands a read's poisoned flit on to the flow back, whose sink drops it (R542, R280). -/
def Hw.memRelays (h : Hw) (f : Flit) : Bool := (h.memCarried f).any (fun r => !r.write && 2 ≤ r.hops.length)

/-- The sink checks of a flit at a node, in the order of R265, with the slot where it passes NO_FLOW. -/
def Hw.sinkCheck (h : Hw) (n : Nat) (f : Flit) : Nat × Option Nat :=
  match h.flowSlot n f.flow with
  | none => (1, none)
  | some s =>
    let cfg := h.reg .bnFlowCfg n s
    if !bit cfg 15 then (1, none)
    else if f.tenant ≠ fld cfg 16 6 then (2, some s)
    else if f.gen ≠ fld cfg 22 10 then (3, some s)
    else if f.seq ≠ h.sinkSeq n s then (5, some s)
    else if h.isLate f.deadline then (6, some s)
    else if f.poison && !h.memRelays f then (7, some s)
    else (0, some s)

/-- The effect of a failed sink check, or of a passed one on the slot's expected seq (Table 6.4, R277). A poisoned flit of a memory flow
counts for the tenant whose access it serves, as R520, R524 and R542 raise its fault. -/
def Hw.sinkChecked (h : Hw) (n : Nat) (f : Flit) (c : Nat) (s : Option Nat) : Hw :=
  let seqDone (h : Hw) : Hw := match s with
    | some s => h.setSinkSeq n s (f.seq + 1)
    | none => h
  match c with
  | 0 => seqDone h
  | 3 => (h.bDrop n 3 f.flow).stale f.tenant 1
  | 5 =>
    let h := match s with
      | some s => h.modReg .bnFlowState n s (setBit · 21 true)
      | none => h
    (((seqDone h).foldStop f.flow).bDrop n 5 f.flow).raiseOwner f.tenant f.gen 2 n f.flow
  | 6 => (seqDone h).bLate n f
  | 7 =>
    let o := match h.memCarried f with
      | some r => (r.tenant, r.gen)
      | none => (f.tenant, f.gen)
    (((seqDone h).foldStop f.flow).bDrop n 7 f.flow).raiseOwner o.1 o.2 3 n f.flow
  | c => h.bDrop n c f.flow

/-- The source slots that a die holds: node and slot. -/
def Hw.sourceSlots (h : Hw) : List (Nat × Nat) :=
  (h.regs.filter (fun e => decide (e.1.id = RegId.bnFlowCfg) && bit e.2 13 && bit e.2 14)).map (fun e => (e.1.i, e.1.j))

/-- Bars until the switch of a phase-table entry: 2 in the bar of the write, 1 in the gap bar (R261). -/
def Hw.phaseStage (h : Hw) (e : Nat) : Nat := nget h.bnet.phaseSw e 0
def Hw.setPhaseStage (h : Hw) (e v : Nat) : Hw := { h with bnet := { h.bnet with phaseSw := nset h.bnet.phaseSw e v 0 } }

/-- At the end of the gap bar an entry takes its target (R261, R262). -/
def Hw.phaseSwitch (h : Hw) (e : Nat) : Hw :=
  if h.phaseStage e ≠ 1 then h
  else (h.setPhaseStage e 0).modReg .bnPhase anchorNode e (fun w => setBit (setFld w 8 8 (fld w 0 8)) 16 false)

/-- The target of a phase-table entry is written (R261, R262). -/
def Hw.phaseTarget (h : Hw) (e v : Nat) : Hw :=
  let w := setFld (h.reg .bnPhase anchorNode e) 0 8 v
  if h.phaseStage e ≠ 0 ∨ fld w 8 8 = v % 256 then h.setReg .bnPhase anchorNode e w
  else (h.setPhaseStage e (if h.bar.rest = 0 then 2 else 3)).setReg .bnPhase anchorNode e (setBit w 16 true)

/-- A bar ends for the phase table: gap bars end with their switch, written entries enter their gap bar. -/
def Hw.phaseBar (h : Hw) : Hw :=
  h.bnet.phaseSw.foldl (fun h e => if e.2 = 1 then h.phaseSwitch e.1 else h.setPhaseStage e.1 (e.2 - 1)) h

/-- A source slot receives tokens in this bar (R260, R261). -/
def Hw.phaseOpen (h : Hw) (n s : Nat) : Bool :=
  let ph := h.reg .bnFlowPhase n s
  let e := fld ph 0 12
  e == 0 || (h.phaseStage e != 1 && fld (h.reg .bnPhase anchorNode e) 8 8 == fld ph 16 8)

/-- Refill the regulators at the start of a bar; unused tokens expire (R256). -/
def Hw.tokenRefill (h : Hw) : Hw :=
  h.sourceSlots.foldl (fun h x =>
    let v := if h.phaseOpen x.1 x.2 then fld (h.reg .bnFlowRate x.1 x.2) 0 13 else 0
    h.modReg .bnFlowState x.1 x.2 (setFld · 0 13 v)) h

/-- A bar ends for the link error counts of the three networks: each falls by 1 unless it rose in the bar (R282). -/
def Hw.linkErrorBar (h : Hw) : Hw :=
  let dec (net : Nat) (id : RegId) (h : Hw) : Hw :=
    (h.regs.filter (fun e => decide (e.1.id = id))).foldl (fun h e =>
      (List.range 4).foldl (fun h d =>
        if h.bnet.errBar.contains (net * 384 + e.1.i * 4 + d) then h
        else h.modReg id e.1.i 0 (fun w => setFld w (d * 8) 8 (fld w (d * 8) 8 - 1))) h) h
  let h := dec 2 .snLinkEc (dec 1 .chLinkEc (dec 0 .bnLinkEc h))
  { h with bnet := { h.bnet with errBar := [] } }

/-- Make a flow slot live, or free it: its seq, tokens and flags reset when valid sets (R278, Table 6.9). -/
def Hw.flowCfgSet (h : Hw) (n s : Nat) (w : Word) : Hw :=
  let was := bit (h.reg .bnFlowCfg n s) 13
  let h := h.setReg .bnFlowCfg n s w
  if bit w 13 && !was then
    { h.setReg .bnFlowState n s 0#32 with bnet := { h.bnet with
        linkSeq := serase h.bnet.linkSeq (n * 512 + s), sinkSeq := serase h.bnet.sinkSeq (n * 512 + s), lateSeen := h.bnet.lateSeen.filter (fun x => x.1 != fld w 0 13) } }
  else h

/-- The write rules of a slot's four registers (R250, R278, R285). `w` is the word the write would leave. DEDUCED (log entry 31). -/
def Hw.flowRegWrite (h : Hw) (p : Path) (addr : Nat) (r : Reg) (w : Word) : Hw :=
  let live := bit (h.reg .bnFlowCfg r.i r.j) 13
  match r.id with
  | .bnFlowCfg => if live then h.flowCfgSet r.i r.j (setBit (h.reg .bnFlowCfg r.i r.j) 13 (bit w 13)) else h.flowCfgSet r.i r.j w
  | .bnFlowRate =>
    if live then h
    else if fld w 0 13 = 0 ∨ 4096 < fld w 0 13 ∨ (!bit w 28 ∧ 96 ≤ fld w 16 12) then h.misuse p true 9 addr
    else h.setReg r.id r.i r.j w
  | .bnFlowBound => if live then h else if fld w 0 24 < 64 then h.misuse p true 9 addr else h.setReg r.id r.i r.j w
  | _ => if live then h else h.setReg r.id r.i r.j w

/-- The write rules of the phase table (R261 to R263, R285). -/
def Hw.phaseRegWrite (h : Hw) (p : Path) (addr : Nat) (r : Reg) (w : Word) : Hw :=
  if r.j = 0 then h.misuse p true 4 addr
  else
    let h := h.modReg .bnPhase anchorNode r.j (fun o => merge 0xBF000000#32 o w)
    h.phaseTarget r.j (fld w 0 8)

end Sys2Proof.Machine
end

