-- ==== Sys2Proof/Machine/Port.lean ====
section
/-! DEFINITION. Tile ports (chapter 11): port states, violations and the budget (R510 to R514), completions, tags and credits
(R462 to R468, R492 to R495), bells (R311 to R315), and the counting enables of chapter 19 that they obey. -/

namespace Sys2Proof.Machine

def Hw.port (h : Hw) (i : Nat) : TilePort := nget h.ports i {}
def Hw.setPort (h : Hw) (i : Nat) (p : TilePort) : Hw := { h with ports := nset h.ports i p {} }
def Hw.modPort (h : Hw) (i : Nat) (f : TilePort → TilePort) : Hw := h.setPort i (f (h.port i))

/-- Port states (Table 11.2). -/
def psReset : Nat := 0
def psActive : Nat := 1
def psDraining : Nat := 2
def psDrained : Nat := 3
def psMasked : Nat := 4

/-- TP_COND.state of a tile (R454). -/
def Hw.portState (h : Hw) (i : Nat) : Nat := fld (h.reg .tpCond (tileNode i)) 0 4
def Hw.setPortState (h : Hw) (i s : Nat) : Hw := h.modReg .tpCond (tileNode i) 0 (setFld · 0 4 s)

/-- TP_RST_N is high (Table 11.2). -/
def Hw.portUp (h : Hw) (i : Nat) : Bool := [psActive, psDraining, psDrained].contains (h.portState i)

/-- The tenant and generation that a tile works for: those of the partition that holds its site. -/
def Hw.tileTenant (h : Hw) (i : Nat) : Nat := (h.tileOwner i).getD 0
def Hw.tileGen (h : Hw) (i : Nat) : Nat := h.gen (h.tileTenant i)

/-- Raise F1 for the partition that holds a tile. -/
def Hw.tileF1 (h : Hw) (i cause detail : Nat) : Hw :=
  match h.tileOwner i with
  | some t => h.raiseF1 t (h.gen t) cause (tileNode i) detail
  | none => h

/-- A droop gate holds a node: detectors 0 to 7 gate every tile node, detector 8 + r those of row r, up to the first cycle of the
bar in which the gate ends (R764 to R766). -/
def Hw.gated (h : Hw) (n : Nat) : Bool :=
  nodeClass n == 0 && h.power.gates.any (fun g => decide (h.stamp.1 < g.2) && (decide (g.1 < 8) || g.1 - 8 == nodeRow n))

/-- Gong FREEZE is in effect (R367). -/
def Hw.frozen (h : Hw) : Bool := bit (h.reg .snGongStatus anchorNode) 0

/-- Counting is enabled for a partition (R818, Table 19.5): its row holds and the die is not frozen. -/
def Hw.countsTenant (h : Hw) (t : Nat) : Bool := bit (h.reg .pmcCtl) 1 && bit (h.reg .pmcTntCtl t) 0

/-- What the owner (t, g) has counts now: a die resource under die_en, a tenant's under its enable. -/
def Hw.counts (h : Hw) (t g : Nat) : Bool := !h.frozen && (if g = 0 then bit (h.reg .pmcCtl) 0 else h.countsTenant t)

/-- Add to a 64-bit counter held in a low and a high register, saturating. -/
def Hw.add64 (h : Hw) (lo hi : RegId) (i j d : Nat) : Hw :=
  let v := Nat.min (2 ^ 64 - 1) ((h.reg lo i j).toNat + 2 ^ 32 * (h.reg hi i j).toNat + d)
  (h.setReg lo i j (BitVec.ofNat 32 v)).setReg hi i j (BitVec.ofNat 32 (v / 2 ^ 32))

/-- Engine e of node n makes progress in a cycle: a busy cycle (Table 19.1), and the end of its wait (R831). -/
def Hw.act (h : Hw) (n e : Nat) : Hw :=
  let h := (List.range 4).foldl (fun h w => h.setReg .pmcWait n (4 * e + w) 0#32) h
  { h with busy := nset h.busy (n * 16 + e) (nget h.busy (n * 16 + e) 0 + 1) 0 }

/-- Count a violation of a tile (R511, R513); `tag` and `op` are those of the command concerned, 0 for a lane or handshake. -/
def Hw.violation (h : Hw) (i code tag op : Nat) : Hw :=
  let n := tileNode i
  let e := h.reg .tpViolEvt n
  let h := if fld e 16 16 = 0 then
      ((h.setReg .tpViolEvt n 0 (mkWord [(16, 16, 1), (0, 8, code)])).setReg .tpViolLog n 0
        (mkWord [(16, 16, tag), (8, 8, op), (0, 8, code)])).setReg .tpViolBar n 0
          (mkWord [(16, 12, h.stamp.1), (0, 12, h.stamp.2)])
    else h.setReg .tpViolEvt n 0 (bumpFld e 16 16 1)
  let c := satAdd 16 (fld (h.reg .tpViolCnt n) 0 16) 1
  let h := h.setReg .tpViolCnt n 0 (mkWord [(0, 16, c)])
  if fld (h.reg .tpViolLimit n) 0 16 < c then h.tileF1 i 0x0c code else h

/-- leak_bars bars have ended since TP_RST_N rose or the count last fell: TP_VIOL_CNT falls by 1 (R512). -/
def Hw.violLeak (h : Hw) (i : Nat) : Hw :=
  let k := fld (h.reg .tpViolLimit (tileNode i)) 16 8
  if h.portUp i && k != 0 && decide (k ≤ (h.port i).leak) then
    (h.modReg .tpViolCnt (tileNode i) 0 (fun w => mkWord [(0, 16, fld w 0 16 - 1)])).modPort i (fun p => { p with leak := p.leak - k })
  else h

/-- Opcodes (Table 11.6). -/
def opNop : Nat := 0x01
def opSend : Nat := 0x02
def opRecv : Nat := 0x03
def opMove : Nat := 0x04
def opMsgSend : Nat := 0x05
def opMsgDeq : Nat := 0x06
def opSync : Nat := 0x07
def opPhase : Nat := 0x08
def opComputeDone : Nat := 0x09
def opLeaseAlloc : Nat := 0x0a
def opLeaseFree : Nat := 0x0b
def opBellClear : Nat := 0x0c
def opCntReport : Nat := 0x0d
def opJobDone : Nat := 0x0e
def opCcx : Nat := 0x10

/-- Commands that complete on success whatever ack says (Table 11.6, "always"). -/
def opAlways (op : Nat) : Bool := [opNop, opRecv, opMsgDeq, opSync, opLeaseAlloc, opCcx].contains op

/-- Completion status codes (Table 11.7). -/
def scTruncated : Nat := 0x01
def scMismatch : Nat := 0x02
def scPeer : Nat := 0x03
def scEmpty : Nat := 0x04
def scChFull : Nat := 0x05
def scNoSpace : Nat := 0x06
def scNoWindow : Nat := 0x07
def scBadGroup : Nat := 0x10
def scBadDesc : Nat := 0x11
def scLease : Nat := 0x12
def scBadSize : Nat := 0x13
def scQueueFull : Nat := 0x14
def scTagBusy : Nat := 0x15
def scBadOpcode : Nat := 0x16
def scBadArg : Nat := 0x17
def scBadFlow : Nat := 0x18
def scBadChannel : Nat := 0x19
def scBadSync : Nat := 0x1a
def scSyncBusy : Nat := 0x1b
def scBadPhase : Nat := 0x1c
def scNotOwner : Nat := 0x1d
def scNotHeld : Nat := 0x1e
def scDrained : Nat := 0x1f

/-- A status that counts as a violation (Table 11.7). -/
def scViolates (s : Nat) : Bool := 0x10 ≤ s && s != scQueueFull && s ≤ 0x1f

/-- A completion header (Table 11.5). -/
def compHeader (op len tag status viol : Nat) : BitVec 64 :=
  BitVec.ofNat 64 (op % 256 + len % 16 * 2 ^ 8 + tag % 2 ^ 16 * 2 ^ 16 + status % 256 * 2 ^ 32 + viol % 256 * 2 ^ 40)

/-- Put a completion into the completion buffer; its violation, if the status is one, is counted (R495, R510). DEDUCED (log entry 34). -/
def Hw.respond (h : Hw) (i op tag status : Nat) (body : List (BitVec 64)) (frees : Bool) : Hw :=
  let viol := if scViolates status then status else 0
  let h := if scViolates status then h.violation i status tag op else h
  let w := compHeader op body.length tag status viol :: body
  h.modPort i (fun p => { p with comps := p.comps ++ [⟨if frees then some tag else none, w⟩] })

/-- The completions that a port's buffer can hold (R494). -/
def compRoom : Nat := 64

/-- The outstanding command of a tag. -/
def TilePort.cmd (p : TilePort) (tag : Nat) : Option TileCmd := p.cmds.find? (fun c => c.tag == tag)

/-- The tag and owner's key of a command in the tag bins (Table 19.6). -/
def TileCmd.key (c : TileCmd) : Word := mkWord [(0, 16, c.layer), (16, 16, c.oper)]

/-- A command with its bin completes: the bin's command count rises, and a bin freed meanwhile is valid again (R824, R825). -/
def Hw.binDone (h : Hw) (i : Nat) (c : TileCmd) : Hw :=
  let n := tileNode i
  let key := if c.bin = 31 then 0xFFFFFFFF#32 else c.key
  (h.setReg .pmcBinKey n c.bin key).modReg .pmcBinCmds n c.bin (fun w => setBit (bumpFld w 0 31 1) 31 true)

/-- The bytes of a unit that the mover reads for a command, and the busy cycle of its work, are added to its bin (R824). -/
def Hw.binBytes (h : Hw) (i tag k : Nat) : Hw :=
  match (h.port i).cmd tag with
  | some c =>
    if c.mode = 1 ∧ h.counts (h.tileTenant i) (h.tileGen i) then
      let n := tileNode i
      let key := if c.bin = 31 then 0xFFFFFFFF#32 else c.key
      (((h.setReg .pmcBinKey n c.bin key).modReg .pmcBinCmds n c.bin (setBit · 31 true)).add64 .pmcBinBytesLo .pmcBinBytesHi n c.bin k).add64
        .pmcBinBusyLo .pmcBinBusyHi n c.bin 1
    else h
  | none => h

/-- Write the next command record (R826, Table 19.7). -/
def Hw.record (h : Hw) (i : Nat) (c : TileCmd) (status len : Nat) : Hw :=
  let n := tileNode i
  let r := fld (h.reg .pmcRecHead n) 0 5
  let h := h.setReg .pmcRecId n r (mkWord [(0, 8, c.op), (8, 8, status), (16, 16, c.tag)])
  let h := h.setReg .pmcRecLength n r (BitVec.ofNat 32 len)
  let h := (h.setReg .pmcRecSrcLo n r (BitVec.ofNat 32 c.src)).setReg .pmcRecSrcHi n r (BitVec.ofNat 32 (c.src / 2 ^ 32))
  let h := (h.setReg .pmcRecDstLo n r (BitVec.ofNat 32 c.dst)).setReg .pmcRecDstHi n r (BitVec.ofNat 32 (c.dst / 2 ^ 32))
  let h := (h.setReg .pmcRecStart n r (BitVec.ofNat 32 c.start)).setReg .pmcRecEnd n r (BitVec.ofNat 32 h.barTime)
  h.modReg .pmcRecHead n 0 (fun w => bumpFld (setFld w 0 5 (r + 1)) 16 16 1)

/-- What observation keeps of a command that completes (R823 to R826). -/
def Hw.observeDone (h : Hw) (i : Nat) (c : TileCmd) (status len : Nat) : Hw :=
  if h.counts (h.tileTenant i) (h.tileGen i) then
    if c.mode = 1 then h.binDone i c
    else if c.mode = 2 ∧ [opSend, opRecv, opMove, opCcx].contains c.op then h.record i c status len
    else h
  else h

/-- A command completes (R482, R492): with a completion when it always completes, asked for one or failed; otherwise its tag is
free at once. -/
def Hw.finish (h : Hw) (i tag status : Nat) (body : List (BitVec 64)) (len : Nat) : Hw :=
  match (h.port i).cmd tag with
  | none => h
  | some c =>
    let h := h.observeDone i c status len
    if opAlways c.op || c.ack || status != 0 then
      (h.modPort i (fun p => { p with cmds := p.cmds.map (fun d => if d.tag = tag then { d with done := true } else d) })).respond
        i c.op tag status body true
    else h.modPort i (fun p => { p with cmds := p.cmds.filter (fun d => d.tag != tag) })

/-- The bin of a command accepted in tagged mode (R824). -/
def Hw.chooseBin (h : Hw) (i : Nat) (key : Word) : Hw × Nat :=
  let n := tileNode i
  let valid (b : Nat) : Bool := bit (h.reg .pmcBinCmds n b) 31
  match (List.range 31).find? (fun b => valid b && h.reg .pmcBinKey n b == key) with
  | some b => (h, b)
  | none =>
    let b := ((List.range 31).find? (fun b => !valid b)).getD 31
    ((h.setReg .pmcBinKey n b (if b = 31 then 0xFFFFFFFF#32 else key)).modReg .pmcBinCmds n b (setBit · 31 true), b)

/-- Bells: set bits of NODE_BELL (R311). A bell of the H node that sets requests its vector: 2 + k for bell k (Table 15.4). -/
def Hw.ringBell (h : Hw) (n mask : Nat) : Hw :=
  let old := h.reg .nodeBell n
  let h := h.modReg .nodeBell n 0 (· ||| (BitVec.ofNat 32 mask &&& 0xFFFFFF#32))
  if n = hostNode then
    (bitsOf 24 mask).foldl (fun h k => if bit old k then h else h.vector 0 (k + 2)) h
  else h

/-- Some bell-enabled channel into endpoint k of node n holds more than bell_level messages (R313). -/
def Hw.bellDue (h : Hw) (n k : Nat) : Bool :=
  h.regs.any (fun e => decide (e.1.id = RegId.chCfg) && bit e.2 15 && bit e.2 13 &&
    (let ep := h.reg .chEp e.1.i
     fld ep 16 7 == n && fld ep 24 4 == k && decide (fld e.2 0 8 < fld (h.reg .chStatus e.1.i) 0 9)))

/-- Clear bells, and ring again those whose channels still hold more than bell_level messages (R313, R315). -/
def Hw.clearBells (h : Hw) (n mask : Nat) : Hw :=
  let h := h.modReg .nodeBell n 0 (· &&& ~~~ (BitVec.ofNat 32 mask))
  h.ringBell n ((List.range 16).foldl (fun m k => if mask.testBit k && h.bellDue n k then m + 2 ^ k else m) 0)

end Sys2Proof.Machine
end

