-- ==== Sys2Proof/Machine/Cnet.lean ====
section
/-! DEFINITION. The C-net and its message channels (chapter 7): credits, sends, arrivals, dequeues, bells, set-up and teardown. -/

namespace Sys2Proof.Machine

/-- Fields of a C-net tag (Table 7.2). -/
def CPkt.dst (p : CPkt) : Nat := fld p.tag 0 7
def CPkt.src (p : CPkt) : Nat := fld p.tag 7 7
def CPkt.cls (p : CPkt) : Nat := fld p.tag 14 3
def CPkt.tenant (p : CPkt) : Nat := fld p.tag 17 6
def CPkt.gen (p : CPkt) : Nat := fld p.tag 23 10
def CPkt.chan (p : CPkt) : Nat := fld p.tag 33 12
def CPkt.seq (p : CPkt) : Nat := fld p.tag 48 8
def CPkt.poison (p : CPkt) : Bool := bit p.tag 56

/-- Class codes as the notes of Table 7.2 use them: 4 credit returns, 5 messages in `chan` and `seq`; the class field itself is
that of Table 7.3. -/
def ccCredit : Nat := 0
def ccMsg : Nat := 5

/-- A one- or four-flit packet (Table 7.2); `fi` and `last` are those of its last flit. -/
def mkCPkt (cls src dst tenant gen chan seq : Nat) (data : BitVec 512) : CPkt :=
  { tag := BitVec.ofNat 64 (dst % 128 + src % 128 * 2 ^ 7 + cls % 8 * 2 ^ 14 + tenant % 64 * 2 ^ 17 + gen % 1024 * 2 ^ 23 +
      chan % 4096 * 2 ^ 33 + (if cls = ccMsg then 3 else 0) * 2 ^ 45 + 2 ^ 47 + seq % 256 * 2 ^ 48), data := data }

/-- Fields of CH_CFG and CH_EP (Table 7.9). -/
def Hw.chValid (h : Hw) (c : Nat) : Bool := bit (h.reg .chCfg c) 15
def Hw.chTenant (h : Hw) (c : Nat) : Nat := fld (h.reg .chCfg c) 16 6
def Hw.chGen (h : Hw) (c : Nat) : Nat := fld (h.reg .chCfg c) 22 10
def Hw.chBlocking (h : Hw) (c : Nat) : Bool := bit (h.reg .chCfg c) 14
def Hw.chDepth (h : Hw) (c : Nat) : Nat := 2 ^ fld (h.reg .chCfg c) 8 4
def Hw.chSrc (h : Hw) (c : Nat) : Nat × Nat := (fld (h.reg .chEp c) 0 7, fld (h.reg .chEp c) 8 4)
def Hw.chDst (h : Hw) (c : Nat) : Nat × Nat := (fld (h.reg .chEp c) 16 7, fld (h.reg .chEp c) 24 4)

/-- Live state of a channel in CH_STATUS (Table 7.10). -/
def Hw.chOcc (h : Hw) (c : Nat) : Nat := fld (h.reg .chStatus c) 0 9
def Hw.chCredits (h : Hw) (c : Nat) : Nat := fld (h.reg .chStatus c) 16 9
def Hw.setChStatus (h : Hw) (c occ credits : Nat) (stalled : Bool) : Hw :=
  h.setReg .chStatus c 0 (mkWord [(27, 1, b2n (occ == 0)), (26, 1, b2n stalled), (25, 1, b2n (credits == 0)), (16, 9, credits), (0, 9, occ)])
def Hw.chStalled (h : Hw) (c : Nat) : List StalledSend := nget h.cnet.stalled c []
def Hw.chFifo (h : Hw) (c : Nat) : List (BitVec 512) := nget h.cnet.fifos c []

/-- Update occupancy and credits of a valid channel, keeping stalled. -/
def Hw.chUpdate (h : Hw) (c occ credits : Nat) : Hw := h.setChStatus c occ credits (!(h.chStalled c).isEmpty)

/-- The answer to the agent of an endpoint (R306, R309). -/
def Hw.setResp (h : Hw) (n k : Nat) (r : AgentResp) : Hw :=
  { h with cnet := { h.cnet with resp := nset h.cnet.resp (n * 16 + k) r .none } }
def Hw.resp (h : Hw) (n k : Nat) : AgentResp := nget h.cnet.resp (n * 16 + k) .none

/-- A drop is logged in CH_DROP_EVT of a node (R319). -/
def Hw.cNote (h : Hw) (n cause c : Nat) : Hw :=
  h.modReg .chDropEvt n 0 (fun w =>
    if fld w 24 8 = 0 then mkWord [(24, 8, 1), (16, 4, cause), (0, 12, c)] else bumpFld w 24 8 1)

/-- Log a drop in the node's CH_DROP_EVT and, where the channel is valid, in its CH_EVT (R319). -/
def Hw.cDrop (h : Hw) (n cause c : Nat) : Hw :=
  let h := h.cNote n cause c
  if h.chValid c then
    h.modReg .chEvt c 0 (fun w => if fld w 16 8 = 0 then setFld (bumpFld w 16 8 1) 0 4 cause else bumpFld w 16 8 1)
  else h

/-- A packet enters the network. -/
def Hw.cSend (h : Hw) (p : CPkt) : Hw := { h with cnet := { h.cnet with flight := h.cnet.flight ++ [p] } }

/-- A channel counter counts (R310, Table 19.5). -/
def Hw.chCount (h : Hw) (lo hi : RegId) (c d : Nat) : Hw :=
  if h.counts (h.chTenant c) (h.chGen c) then h.add64 lo hi c 0 d else h

/-- A send is accepted: it takes a credit and the next sequence number and enters the network (R302, R308). -/
def Hw.chAccept (h : Hw) (c : Nat) (data : BitVec 512) : Hw :=
  let s := h.reg .chSeq c
  let h1 := h.cSend (mkCPkt ccMsg (h.chSrc c).1 (h.chDst c).1 (h.chTenant c) (h.chGen c) c (fld s 0 8) data)
  (h1.setReg .chSeq c 0 (setFld s 0 8 (fld s 0 8 + 1))).chUpdate c (h.chOcc c) (h.chCredits c - 1)

/-- Sends of a tenant's channels are held by the fence (Table 16.5 step 1). -/
def Hw.chFenced (h : Hw) (c : Nat) : Bool := h.fenced (h.chTenant c) (h.chGen c)

/-- What a send on a channel comes to (R302, R305, R306, Table 7.7). -/
inductive SendResult where
  | accepted | stalled | full
  | dropped (cause : Nat)
  deriving DecidableEq, Repr

/-- A send on channel c from endpoint k of node n by an injector of tenant t (none: a steward or the host relay) (R302 to R306,
R319). A send that the fence holds waits as a stalled one does. -/
def Hw.chSend (h : Hw) (n k : Nat) (t : Option Nat) (c : Nat) (data : BitVec 512) (cmd : Option (Nat × Nat)) : Hw × SendResult :=
  if !h.chValid c || h.chSrc c != (n, k) then (h.cDrop n 1 c, .dropped 1)
  else if t.any (fun t => t != h.chTenant c) then (h.cDrop n 2 c, .dropped 2)
  else if (h.chStalled c).isEmpty && 0 < h.chCredits c && !h.chFenced c then (h.chAccept c data, .accepted)
  else if h.chBlocking c || h.chFenced c then
    let q := h.chStalled c ++ [⟨data, cmd⟩]
    let h := { h with cnet := { h.cnet with stalled := nset h.cnet.stalled c q [] } }
    (h.setChStatus c (h.chOcc c) (h.chCredits c) true, .stalled)
  else (h.modReg .chEvt c 0 (bumpFld · 24 8 1), .full)

/-- The oldest stalled send of a channel is accepted if a credit is there (R305): the command it belongs to. -/
def Hw.chUnstall (h : Hw) (c : Nat) : Hw × Option (Option (Nat × Nat)) :=
  match h.chStalled c with
  | [] => (h, none)
  | s :: rest =>
    if h.chCredits c = 0 || h.chFenced c then (h, none)
    else
      let h := { h with cnet := { h.cnet with stalled := nset h.cnet.stalled c rest [] } }
      (h.chAccept c s.data, some s.cmd)

/-- The first packet in flight that satisfies p, and the packets without it. -/
def takeFirst {α : Type} (p : α → Bool) : List α → Option (α × List α)
  | [] => none
  | x :: xs => if p x then some (x, xs) else (takeFirst p xs).map (fun r => (r.1, x :: r.2))

/-- Take the oldest packet of a class and channel out of the network. -/
def Hw.cTake (h : Hw) (cls c : Nat) : Option (CPkt × Hw) :=
  (takeFirst (fun p : CPkt => p.cls == cls && p.chan == c) h.cnet.flight).map
    (fun r => (r.1, { h with cnet := { h.cnet with flight := r.2 } }))

/-- A packet crosses its route (R287, R290, R292, Table 7.7): errors at receivers, and links that are down unless it crossed them
before they failed. The packet as it arrives, or none where it was dropped. -/
def Hw.cCross (h : Hw) (p : CPkt) (errs : List CErr) (crossed : Bool) : Hw × Option CPkt :=
  let down := (defaultLinks p.src p.dst).find? (fun l => !(h.linksUp 1 l.1).testBit (l.2 - 1))
  let drop (h : Hw) (n cause : Nat) : Hw := if p.cls = ccMsg ∨ p.cls = ccCredit then h.cDrop n cause p.chan else h.cNote n cause p.chan
  match (if crossed then none else down) with
  | some l => (drop h l.1 8, none)
  | none =>
    errs.foldl (fun acc e =>
      match acc with
      | (h, none) => (h, none)
      | (h, some p) =>
        match e.err with
        | .ok => (h, some p)
        | .router => (h.raiseF0 0x45 e.node 0, some p)
        | .corrected => (h.logF2, some p)
        | .payload => (h.linkError 1 .chLinkEc e.node e.dir, some { p with tag := setBit p.tag 56 true })
        | .tag => (((drop h e.node 7).raiseF0 0x40 e.node 0).linkError 1 .chLinkEc e.node e.dir, none)
        | .credit => ((h.raiseF0 0x40 e.node 0).linkError 1 .chLinkEc e.node e.dir, some p)) (h, some p)

/-- A channel's F1, or F0 for a die channel (Table 7.7). -/
def Hw.chFault (h : Hw) (c cause n : Nat) : Hw := h.raiseOwner (h.chTenant c) (h.chGen c) cause n c

/-- A message is checked at its destination and enqueued or dropped (R307, R308, R312, R319, R320). -/
def Hw.chDeliver (h : Hw) (p : CPkt) : Hw :=
  let c := p.chan
  let n := p.dst
  if !h.chValid c || (h.chDst c).1 != n then h.cDrop n 1 c
  else if p.tenant ≠ h.chTenant c then h.cDrop n 2 c
  else if p.gen ≠ h.chGen c then (h.cDrop n 3 c).stale p.tenant 1
  else
    let s := h.reg .chSeq c
    let h1 := h.setReg .chSeq c 0 (setFld s 8 8 (p.seq + 1))
    if p.seq ≠ fld s 8 8 then (h1.cDrop n 4 c).chFault c 2 n
    else if h.chDepth c ≤ h.chOcc c then (h1.cDrop n 5 c).chFault c 4 n
    else if p.poison then (h1.cDrop n 6 c).chFault c 3 n
    else
      let occ := h.chOcc c + 1
      let h := { h1 with cnet := { h1.cnet with fifos := nset h1.cnet.fifos c (h1.chFifo c ++ [p.data]) [] } }
      let h := (h.chUpdate c occ (h.chCredits c)).chCount .chMsgCntLo .chMsgCntHi c 1
      let h := h.modReg .chStore n 0 (fun w => setFld w 16 11 (fld w 16 11 + 1))
      if bit (h.reg .chCfg c) 13 && occ == fld (h.reg .chCfg c) 0 8 + 1 then h.ringBell n (2 ^ (h.chDst c).2) else h

/-- The oldest message of a channel in flight reaches its destination. DEDUCED (log entry 32). -/
def Hw.chMsgArrival (h : Hw) (c : Nat) (errs : List CErr) (crossed : Bool) : Hw :=
  match h.cTake ccMsg c with
  | none => h
  | some (p, h) =>
    match h.cCross p errs crossed with
    | (h, some p) => h.chDeliver p
    | (h, none) => h

/-- A credit packet is checked and counted at the source (R304, Table 7.7). -/
def Hw.chCredit (h : Hw) (p : CPkt) : Hw :=
  let c := p.chan
  let n := p.dst
  if !h.chValid c || (h.chSrc c).1 != n then h.cDrop n 1 c
  else if p.tenant ≠ h.chTenant c then h.cDrop n 2 c
  else if p.gen ≠ h.chGen c then (h.cDrop n 3 c).stale p.tenant 1
  else if h.chDepth c < h.chCredits c + p.seq + 1 then (h.cDrop n 5 c).chFault c 4 n
  else h.chUpdate c (h.chOcc c) (h.chCredits c + p.seq + 1)

/-- Return one credit to the source: it joins a credit packet of the channel that has not left the node (`merge`), or travels in a
packet of its own (R303). -/
def Hw.chReturnCredit (h : Hw) (c : Nat) (merge : Bool) : Hw :=
  match (if merge then h.cTake ccCredit c else none) with
  | some (p, h) => if p.seq < 255 then h.cSend { p with tag := setFld p.tag 48 8 (p.seq + 1) }
                   else (h.cSend p).cSend (mkCPkt ccCredit (h.chDst c).1 (h.chSrc c).1 (h.chTenant c) (h.chGen c) c 0 0)
  | none => h.cSend (mkCPkt ccCredit (h.chDst c).1 (h.chSrc c).1 (h.chTenant c) (h.chGen c) c 0 0)

/-- A dequeue at endpoint k of node n takes the oldest message whole (R302, R307, R309). -/
def Hw.chDequeue (h : Hw) (n k c : Nat) (merge : Bool) : Hw × AgentResp :=
  if !h.chValid c || h.chDst c != (n, k) then (h, .dropped)
  else match h.chFifo c with
    | [] => (h, .empty)
    | m :: rest =>
      let h := { h with cnet := { h.cnet with fifos := nset h.cnet.fifos c rest [] } }
      let h := h.chUpdate c (h.chOcc c - 1) (h.chCredits c)
      let h := h.modReg .chStore n 0 (fun w => setFld w 16 11 (fld w 16 11 - 1))
      (h.chReturnCredit c merge, .message m)

/-- A channel becomes valid: sequence numbers 0, credits equal to its depth, slots reserved (R301, R302, R308, R323). -/
def Hw.chEnable (h : Hw) (c : Nat) (w : Word) : Hw :=
  let h := (h.setReg .chCfg c 0 w).setReg .chSeq c 0 0#32
  let h := { h with cnet := { h.cnet with fifos := nset h.cnet.fifos c [] [], stalled := nset h.cnet.stalled c [] [] } }
  (h.setChStatus c 0 (h.chDepth c) false).modReg .chStore (h.chDst c).1 0 (fun x => setFld x 0 11 (fld x 0 11 + h.chDepth c))

/-- A channel is cleared: stalled sends and messages are discarded, the slots released (R324). -/
def Hw.chDisable (h : Hw) (c : Nat) : Hw :=
  if !h.chValid c then h
  else
    let n := (h.chDst c).1
    let d := h.chDepth c
    let occ := (h.chFifo c).length
    let h := h.modReg .chCfg c 0 (setBit · 15 false)
    let h := { h with cnet := { h.cnet with fifos := nset h.cnet.fifos c [] [], stalled := nset h.cnet.stalled c [] [] } }
    (h.setReg .chStatus c 0 0x8000000#32).modReg .chStore n 0 (fun x => setFld (setFld x 0 11 (fld x 0 11 - d)) 16 11 (fld x 16 11 - occ))

/-- An endpoint that a valid channel names (R325). -/
def Hw.endpointInUse (h : Hw) (n k : Nat) : Bool :=
  h.regs.any (fun e => decide (e.1.id = RegId.chCfg) && bit e.2 15 && (h.chSrc e.1.i == (n, k) || h.chDst e.1.i == (n, k)))

/-- The rank of an endpoint (CH_EPT). -/
def Hw.rank (h : Hw) (e : Nat × Nat) : Nat := fld (h.reg .chEpt e.1 e.2) 0 8

/-- The write rules of CH_CFG, CH_EP and CH_EPT (R297, R323 to R325, R328). `w` is the word the write would leave. -/
def Hw.chRegWrite (h : Hw) (p : Path) (addr : Nat) (r : Reg) (w : Word) : Hw :=
  match r.id with
  | .chCfg =>
    let c := r.i
    let old := h.reg .chCfg c
    if bit old 15 then
      let h := if (old ^^^ w) &&& 0xFFFF7FFF#32 = 0#32 then h else h.misuse p true 4 addr
      if bit w 15 then h else h.chDisable c
    else if !bit w 15 then h.setReg .chCfg c 0 w
    else if fld w 8 4 < 2 ∨ 8 < fld w 8 4 then h.misuse p true 9 addr
    else if bit w 14 && decide (h.rank (h.chDst c) ≤ h.rank (h.chSrc c)) then h.misuse p true 9 addr
    else h.chEnable c w
  | .chEp =>
    let ok (n : Nat) : Bool := n < 96 && hasEndpoints n
    if h.chValid r.i then (if h.reg .chEp r.i = w then h else h.misuse p true 4 addr)
    else if !ok (fld w 0 7) || !ok (fld w 16 7) then h.misuse p true 9 addr
    else h.setReg .chEp r.i 0 w
  | _ =>
    if h.endpointInUse r.i r.j then (if h.reg .chEpt r.i r.j = w then h else h.misuse p true 4 addr)
    else h.setReg .chEpt r.i r.j w

end Sys2Proof.Machine
end

