-- ==== Sys2Proof/Machine/Float.lean ====
section
/-! DEFINITION. The number formats of chapters 8 and 9: widening to a carrier, carrier addition rounded to nearest even, and the
conversion at a closing root (R346, R347, R383 to R398). -/

namespace Sys2Proof.Machine

/-- A binary floating format: exponent and fraction bits, and whether it has infinities (Table 9.1; E4M3 has none). -/
structure Fmt where
  ebits : Nat
  fbits : Nat
  hasInf : Bool
  deriving DecidableEq, Repr

def fmtE4M3 : Fmt := ⟨4, 3, false⟩
def fmtE5M2 : Fmt := ⟨5, 2, true⟩
def fmtFP16 : Fmt := ⟨5, 10, true⟩
def fmtBF16 : Fmt := ⟨8, 7, true⟩
def fmtFP32 : Fmt := ⟨8, 23, true⟩
def fmtFX48 : Fmt := ⟨11, 36, true⟩

def Fmt.bias (f : Fmt) : Nat := 2 ^ (f.ebits - 1) - 1
def Fmt.bits (f : Fmt) : Nat := 1 + f.ebits + f.fbits

/-- The weight of the last place of a subnormal, as an exponent of 2. -/
def Fmt.emin (f : Fmt) : Int := 1 - (f.bias : Int) - (f.fbits : Int)

/-- A value: not a number, an infinity, or (−1)^neg × mant × 2^exp. -/
inductive FVal where
  | nan
  | inf (neg : Bool)
  | fin (neg : Bool) (mant : Nat) (exp : Int)
  deriving DecidableEq, Repr

/-- The value of a bit pattern (Table 9.1, R384). -/
def Fmt.decode (f : Fmt) (x : Nat) : FVal :=
  let frac := x % 2 ^ f.fbits
  let e := x / 2 ^ f.fbits % 2 ^ f.ebits
  let neg := x / 2 ^ (f.fbits + f.ebits) % 2 == 1
  if e = 2 ^ f.ebits - 1 ∧ f.hasInf then (if frac = 0 then .inf neg else .nan)
  else if e = 2 ^ f.ebits - 1 ∧ frac = 2 ^ f.fbits - 1 then .nan
  else if e = 0 then .fin neg frac f.emin
  else .fin neg (2 ^ f.fbits + frac) (f.emin + (e : Int) - 1)

/-- Bits of a magnitude with its sign. -/
def Fmt.withSign (f : Fmt) (neg : Bool) (x : Nat) : Nat := (if neg then 2 ^ (f.fbits + f.ebits) else 0) + x

def Fmt.infBits (f : Fmt) (neg : Bool) : Nat := f.withSign neg ((2 ^ f.ebits - 1) * 2 ^ f.fbits)

/-- The canonical NaN: positive, quiet; 0x7F in E4M3 (Tables 9.4 and 9.5). -/
def Fmt.nanBits (f : Fmt) : Nat :=
  if f.hasInf then (2 ^ f.ebits - 1) * 2 ^ f.fbits + 2 ^ (f.fbits - 1) else 2 ^ (f.ebits + f.fbits) - 1

/-- The largest finite magnitude. -/
def Fmt.maxBits (f : Fmt) : Nat :=
  if f.hasInf then (2 ^ f.ebits - 1) * 2 ^ f.fbits - 1 else 2 ^ (f.ebits + f.fbits) - 2

/-- Integer division by 2^d, rounded to nearest with ties to even. -/
def roundShift (m d : Nat) : Nat :=
  if d = 0 then m
  else
    let q := m / 2 ^ d
    let r := m % 2 ^ d
    let half := 2 ^ (d - 1)
    if half < r ∨ (r = half ∧ q % 2 = 1) then q + 1 else q

/-- Round mant × 2^exp to the format, ties to even, subnormals kept: the magnitude's bits, or none when the rounded value, with
the exponent unbounded, exceeds the largest finite one (R393 to R395, R397). -/
def Fmt.round (f : Fmt) (mant : Nat) (exp : Int) : Option Nat :=
  if mant = 0 then some 0
  else
    let len : Int := (Nat.log2 mant : Int) + 1
    let u := max f.emin (exp + len - ((f.fbits : Int) + 1))
    let q := if u ≤ exp then mant * 2 ^ (exp - u).toNat else roundShift mant (u - exp).toNat
    let x : Nat := if q = 2 ^ (f.fbits + 1) then 2 ^ f.fbits else q
    let u : Int := if q = 2 ^ (f.fbits + 1) then u + 1 else u
    let b := if x < 2 ^ f.fbits then x else (u - f.emin).toNat * 2 ^ f.fbits + x
    if f.maxBits < b then none else some b

/-- The bits of a value in a carrier; overflow gives an infinity (R395). -/
def Fmt.encode (f : Fmt) : FVal → Nat
  | .nan => f.nanBits
  | .inf neg => f.infBits neg
  | .fin neg m e =>
    match f.round m e with
    | some b => f.withSign neg b
    | none => f.infBits neg

/-- The exact sum of two values; the special values follow Table 9.4 and R347. -/
def FVal.add : FVal → FVal → FVal
  | .nan, _ => .nan
  | _, .nan => .nan
  | .inf a, .inf b => if a = b then .inf a else .nan
  | .inf a, .fin _ _ _ => .inf a
  | .fin _ _ _, .inf b => .inf b
  | .fin a m e, .fin b k g =>
    let lo := min e g
    let x : Int := (if a then -1 else 1) * ((m * 2 ^ (e - lo).toNat : Nat) : Int)
    let y : Int := (if b then -1 else 1) * ((k * 2 ^ (g - lo).toNat : Nat) : Int)
    let s := x + y
    if s = 0 then .fin (a && b && m == 0 && k == 0) 0 lo
    else .fin (decide (s < 0)) s.natAbs lo

/-- Addition in a carrier format, rounded once (R347, R393, R394). -/
def Fmt.add (f : Fmt) (x y : Nat) : Nat := f.encode ((f.decode x).add (f.decode y))

/-- Widen a bit pattern of one format exactly to a wider one; a NaN gives the canonical NaN (R386). -/
def Fmt.widen (src dst : Fmt) (x : Nat) : Nat := dst.encode (src.decode x)

/-- The conversion of a carrier value to a float destination (Table 9.5, R398). -/
def Fmt.close (f : Fmt) (sat : Bool) : FVal → Nat
  | .nan => f.nanBits
  | .inf neg => if f.hasInf then f.infBits neg else f.nanBits
  | .fin neg m e =>
    match f.round m e with
    | some b => f.withSign neg b
    | none => if sat then f.withSign neg f.maxBits else if f.hasInf then f.infBits neg else f.nanBits

/-- Input format codes (Table 9.1): size in bytes, elements per block. -/
def inSize : Nat → Nat
  | 1 => 1 | 2 => 4 | 3 => 1 | 4 => 1 | 5 => 2 | 6 => 2 | _ => 4
def inElems : Nat → Nat
  | 1 => 16 | 2 => 16 | 7 => 20 | _ => 32

/-- Carrier codes 9 INT64, 0xA FP32, 0xB FX48 (R163): bytes per element and elements per flit (Table 9.3). -/
def carSize : Nat → Nat
  | 9 => 8 | 10 => 4 | _ => 6
def carElems : Nat → Nat
  | 9 => 16 | 10 => 32 | _ => 20

/-- Widen an input element to the carrier of its format (R383, R386). -/
def widen (inFmt x : Nat) : Nat :=
  match inFmt with
  | 1 => ofSigned 64 (toSigned 8 x)
  | 2 => ofSigned 64 (toSigned 32 x)
  | 3 => fmtE4M3.widen fmtFP32 x
  | 4 => fmtE5M2.widen fmtFP32 x
  | 5 => fmtFP16.widen fmtFP32 x
  | 6 => fmtBF16.widen fmtFP32 x
  | _ => fmtFP32.widen fmtFX48 x

/-- Add two carrier elements (R391, R393, R394). -/
def carAdd (car x y : Nat) : Nat :=
  match car with
  | 9 => (x + y) % 2 ^ 64
  | 10 => fmtFP32.add x y
  | _ => fmtFX48.add x y

/-- Clamp an integer to n signed bits. -/
def clampSigned (n : Nat) (x : Int) : Int := max (-(2 ^ (n - 1) : Int)) (min (2 ^ (n - 1) - 1) x)

/-- Convert a carrier element to dst_fmt at a closing root (Table 9.5). -/
def closeElem (car dst : Nat) (sat : Bool) (x : Nat) : Nat :=
  let v : FVal := if car = 10 then fmtFP32.decode x else fmtFX48.decode x
  match dst with
  | 1 => if sat then ofSigned 8 (clampSigned 8 (toSigned 64 x)) else x % 2 ^ 8
  | 2 => if sat then ofSigned 32 (clampSigned 32 (toSigned 64 x)) else x % 2 ^ 32
  | 3 => fmtE4M3.close sat v
  | 4 => fmtE5M2.close sat v
  | 5 => fmtFP16.close sat v
  | 6 => fmtBF16.close sat v
  | _ => if car = 10 ∧ v ≠ .nan then x else fmtFP32.close sat v

/-- The elements of a byte string, size bytes each, little-endian. -/
def elemsOf (size : Nat) : Nat → List Byte → List Nat
  | 0, _ => []
  | k + 1, bs => leNat (bs.take size) :: elemsOf size k (bs.drop size)

/-- Pack elements of size bytes. -/
def packElems (size : Nat) (xs : List Nat) : List Byte := xs.flatMap (natLe size)

/-- A payload of 128 bytes as a number of 1,024 bits, byte k in bits [8k + 7 : 8k]. -/
def payload (bs : List Byte) : BitVec 1024 := BitVec.ofNat 1024 (leNat (bs.take 128))
def payloadBytes (d : BitVec 1024) : List Byte := natLe 128 d.toNat

/-- Carrier elements of a flit and back (R385, Table 9.3). -/
def carUnpack (car : Nat) (d : BitVec 1024) : List Nat := elemsOf (carSize car) (carElems car) (payloadBytes d)
def carPack (car : Nat) (xs : List Nat) : BitVec 1024 := payload (packElems (carSize car) xs)

/-- Rimshot addition of payload words: fmt 1 INT32, 2 INT64, 3 FP32 (R345 to R347). -/
def rimAdd (fmt : Nat) (a b : List Word) : List Word :=
  match fmt with
  | 1 => List.zipWith (· + ·) a b
  | 3 => List.zipWith (fun x y => BitVec.ofNat 32 (fmtFP32.add x.toNat y.toNat)) a b
  | _ =>
    let n := leNat (a.flatMap (fun w => natLe 4 w.toNat))
    let m := leNat (b.flatMap (fun w => natLe 4 w.toNat))
    (List.range (a.length / 2)).flatMap (fun k =>
      let s := (n / 2 ^ (64 * k) + m / 2 ^ (64 * k)) % 2 ^ 64
      [BitVec.ofNat 32 s, BitVec.ofNat 32 (s / 2 ^ 32)])

end Sys2Proof.Machine
end

