-- ==== Sys2Proof/Machine/Snet.lean ====
section
/-! DEFINITION. The S-net (chapter 8): rounds on the fixed tree, their torus stage, the Gong and the downbeat. -/

namespace Sys2Proof.Machine

/-- Word kinds (Table 8.1). -/
def kUp : Nat := 1
def kDown : Nat := 2
def kGong : Nat := 4
def kBeat : Nat := 5

/-- The mesh port toward the tree parent (R336); 0 at the anchor. -/
def treePort (n : Nat) : Nat :=
  if nodeCol n ≤ 9 then 2 else if nodeCol n = 11 then 1
  else if nodeRow n ≤ 5 then 4 else if nodeRow n = 7 then 3 else 0

/-- The join byte of a sync ID at a router (R337). -/
def Hw.joinByte (h : Hw) (n s : Nat) : Nat := fld (h.reg .snJoin n (s / 4)) (s % 4 * 8) 8

/-- Configuration and status of a sync ID (Tables 8.6 and 8.7): 0 to 255 barriers, 256 to 511 Rimshot groups. -/
def syncCfgId (s : Nat) : RegId := if s < 256 then .snBarrierCfg else .snRimshotCfg
def syncStatusId (s : Nat) : RegId := if s < 256 then .snBarrierStatus else .snRimshotStatus
def Hw.syncCfg (h : Hw) (s : Nat) : Word := h.reg (syncCfgId s) anchorNode (s % 256)
def Hw.syncStatus (h : Hw) (s : Nat) : Word := h.reg (syncStatusId s) anchorNode (s % 256)
def Hw.modSyncStatus (h : Hw) (s : Nat) (f : Word → Word) : Hw := h.modReg (syncStatusId s) anchorNode (s % 256) f

/-- Payload words that a sync ID's rounds carry. -/
def Hw.syncWords (h : Hw) (s : Nat) : Nat := if s < 256 then 0 else fld (h.syncCfg s) 11 3 + 1

/-- The header word of a round (Table 8.2) and a whole packet; and the packet that words spell. -/
def SPkt.header (p : SPkt) : Word :=
  mkWord [(0, 8, p.sync % 256), (8, 1, p.sync / 256), (9, 4, p.words.length), (14, 2, p.round), (16, 6, p.tenant), (22, 10, p.gen)]
def SPkt.toWords (p : SPkt) : List Word := p.header :: p.words
def SPkt.ofWords : List Word → Option SPkt
  | [] => none
  | w :: ws => some ⟨fld w 0 8 + 256 * fld w 8 1, fld w 14 2, fld w 16 6, fld w 22 10, ws⟩

/-- Log an S-net drop (Table 8.6). -/
def Hw.sDrop (h : Hw) (n cause s : Nat) : Hw :=
  h.modReg .snDropEvt n 0 (fun w =>
    if fld w 24 8 = 0 then mkWord [(24, 8, 1), (16, 4, cause), (0, 9, s)] else bumpFld w 24 8 1)

/-- The checks of Table 8.3 that do not depend on the input: 0 where the packet passes. -/
def Hw.sCheck (h : Hw) (p : SPkt) (round : Nat) : Nat :=
  let c := h.syncCfg p.sync
  if !bit c 15 then 1
  else if p.tenant ≠ fld c 16 6 then 2
  else if p.gen ≠ fld c 22 10 then 3
  else if p.round ≠ round % 4 then 4
  else if p.words.length ≠ h.syncWords p.sync then 5
  else 0

/-- Drop a packet with a cause and its fault (Table 8.3, R359). -/
def Hw.sFail (h : Hw) (n cause : Nat) (p : SPkt) : Hw :=
  let h := h.sDrop n cause p.sync
  let c := h.syncCfg p.sync
  if cause = 3 then h.stale p.tenant 1
  else if cause = 4 ∨ cause = 5 then h.raiseOwner (fld c 16 6) (fld c 22 10) 5 n p.sync
  else h

/-- The packet that waits at a router input. -/
def upKey (n port s : Nat) : Nat := (n * 5 + port) * 512 + s
def Hw.upAt (h : Hw) (n port s : Nat) : Option SPkt := (h.snet.up.find? (fun e => e.1 == upKey n port s)).map (·.2)
def Hw.setUp (h : Hw) (n port s : Nat) (p : SPkt) : Hw :=
  { h with snet := { h.snet with up := sinsert nlt (serase h.snet.up (upKey n port s)) (upKey n port s) p } }
def Hw.clearUp (h : Hw) (n port s : Nat) : Hw := { h with snet := { h.snet with up := serase h.snet.up (upKey n port s) } }

/-- An UP packet arrives at an input of a router (R337, R358): routers check the join byte, the anchor everything. -/
def Hw.upArrive (h : Hw) (n port : Nat) (p : SPkt) : Hw :=
  if !(h.joinByte n p.sync).testBit port then h.sFail n 1 p
  else
    let c := if n = anchorNode then h.sCheck p (fld (h.syncStatus p.sync) 0 8) else 0
    if c ≠ 0 then h.sFail n c p
    else if (h.upAt n port p.sync).isSome then h.sFail n 4 p
    else
      let h := h.setUp n port p.sync p
      if n = anchorNode then h.modSyncStatus p.sync (setBit · 8 true) else h

/-- A contribution enters the S-net at its tile node after the checks of R358; the cause it fails with, or 0. -/
def Hw.contribute (h : Hw) (n : Nat) (p : SPkt) (round : Nat) : Hw × Nat :=
  let c := h.sCheck p round
  if c ≠ 0 then (h.sFail n c p, c) else (h.upArrive n 0 p, 0)

/-- The members' nodes that a DOWN packet of a sync ID reaches over the join bytes, and the nodes where a link that is down stops
it (R337, Table 8.3). -/
def Hw.downWalk (h : Hw) (s : Nat) : Nat → Nat → List Nat × List Nat
  | 0, _ => ([], [])
  | k + 1, n =>
    let j := h.joinByte n s
    let own := if j.testBit 0 then [n] else []
    ([1, 2, 3, 4].filter (fun p => j.testBit p)).foldl (fun acc p =>
      match neighbour n p with
      | some m =>
        if (h.linksUp 2 n).testBit (p - 1) then
          let r := h.downWalk s k m
          (acc.1 ++ r.1, acc.2 ++ r.2)
        else (acc.1, acc.2 ++ [n])
      | none => acc) (own, [])

/-- The anchor sends a DOWN packet down the die tree (R342, R343, R353). For a start round the DOWN packet ends at the anchor
(R708). -/
def Hw.downSend (h : Hw) (p : SPkt) : Hw :=
  match h.snet.start.find? (fun e => e.1 == p.sync && e.2 == p.tenant) with
  | some e => { h with snet := { h.snet with start := h.snet.start.filter (fun x => x != e), startDown := h.snet.startDown ++ [e.2] } }
  | none =>
    let r := h.downWalk p.sync 17 anchorNode
    let h := r.2.foldl (fun h n => h.sDrop n 7 p.sync) h
    { h with snet := { h.snet with down := h.snet.down ++ r.1.map (fun n => (n, p)) } }

/-- The ring role of a sync ID at a torus port (Table 8.6): bit 0 send, 1 receive, 2 root. -/
def Hw.ringRole (h : Hw) (p s : Nat) : Nat := fld (h.reg .snRing (portNode p) (s / 4)) (s % 4 * 8) 8

/-- Hand a packet to a torus port. -/
def Hw.torusTx (h : Hw) (p kind : Nat) (ws : List Word) : Hw := { h with snet := { h.snet with tx := h.snet.tx ++ [(p, kind, ws)] } }

/-- Copy a DOWN packet on to every port that received a partial of its sync ID (R353). -/
def Hw.downRings (h : Hw) (p : SPkt) : Hw :=
  ((List.range 6).filter (fun q => (h.ringRole q p.sync).testBit 1)).foldl (fun h q => h.torusTx q kDown p.toWords) h

/-- A torus round is complete at this module: the result goes to the rings and to the die (R353). -/
def Hw.torusDone (h : Hw) (p : SPkt) : Hw := ((h.downRings p).modSyncStatus p.sync (setBit · 9 false)).downSend p

/-- The partial that waits at a port for a sync ID. -/
def Hw.partialAt (h : Hw) (q s : Nat) : Option SPkt := (h.snet.partials.find? (fun e => e.1 == q * 512 + s)).map (·.2)

/-- Run the torus stage of a round as far as its partials allow, axis by axis (R350 to R352). -/
def Hw.torusStep (h : Hw) (s : Nat) : Nat → SPkt → Nat → Hw
  | 0, _, _ => h
  | k + 1, p, axis =>
    if 3 ≤ axis then h.torusDone p
    else
      let lo := 2 * axis
      let rm := h.ringRole lo s
      let rp := h.ringRole (lo + 1) s
      let m := h.partialAt lo s
      let q := h.partialAt (lo + 1) s
      if rm % 8 = 0 ∧ rp % 8 = 0 then h.torusStep s k p (axis + 1)
      else if (rm.testBit 1 && m.isNone) || (rp.testBit 1 && q.isNone) then
        { h with snet := { h.snet with
          torus := h.snet.torus.filter (fun r => r.pkt.sync != s) ++ [⟨p, axis, m.map (·.words), q.map (·.words), true⟩] } }
      else
        let f := fld (h.syncCfg s) 8 3
        let v := match (if rm.testBit 1 then m else none) with
          | some x => rimAdd f x.words p.words
          | none => p.words
        let v := match (if rp.testBit 1 then q else none) with
          | some x => rimAdd f v x.words
          | none => v
        let p := { p with words := v }
        let h := { h with snet := { h.snet with
          torus := h.snet.torus.filter (fun r => r.pkt.sync != s)
          partials := h.snet.partials.filter (fun e => e.1 != lo * 512 + s && e.1 != (lo + 1) * 512 + s) } }
        if rm.testBit 2 || rp.testBit 2 then h.torusStep s k p (axis + 1)
        else if rm.testBit 0 then h.torusTx lo kUp p.toWords
        else if rp.testBit 0 then h.torusTx (lo + 1) kUp p.toWords
        else h.torusStep s k p (axis + 1)

/-- The anchor has combined a round (R342): its count rises; a torus round enters its torus stage. -/
def Hw.anchorDone (h : Hw) (p : SPkt) : Hw :=
  let h := h.modSyncStatus p.sync (fun w => setBit (setFld w 0 8 (fld w 0 8 + 1)) 8 false)
  if bit (h.syncCfg p.sync) 14 then (h.modSyncStatus p.sync (setBit · 9 true)).torusStep p.sync 4 p 0
  else h.downSend p

/-- Combine packets in ascending port order (R341). -/
def Hw.combineUp (h : Hw) (s : Nat) (p : SPkt) (rest : List SPkt) : SPkt :=
  { p with words := rest.foldl (fun a q => rimAdd (fld (h.syncCfg s) 8 3) a q.words) p.words }

/-- A router combines the UP packets of a round and forwards the result to its parent (R336, R337, R341, R342); `err` is what the
parent's receiver reports (R335). -/
def Hw.upCombine (h : Hw) (n s : Nat) (err : MeshErr) : Hw :=
  if err = .router then h.raiseF0 0x45 n 0 else
  let ports := (List.range 5).filter (fun p => (h.joinByte n s).testBit p)
  match ports.mapM (fun p => h.upAt n p s) with
  | some (p :: rest) =>
    let x := h.combineUp s p rest
    let h := (ports.foldl (fun h q => h.clearUp n q s) h).act n 11
    if n = anchorNode then h.anchorDone x
    else
      match neighbour n (treePort n) with
      | none => h
      | some m =>
        let port := facing (treePort n)
        if !(h.linksUp 2 n).testBit (treePort n - 1) then h.sDrop n 7 s
        else match err with
          | .ok => h.upArrive m port x
          | .corrected => ((h.modReg .snEccEvt m 0 (bumpFld · 0 16 1)).logF2).upArrive m port x
          | _ => (((h.modReg .snEccEvt m 0 (bumpFld · 24 8 1)).sDrop m 6 s).raiseF0 0x42 m 0).linkError 2 .snLinkEc m (port - 1)
  | _ => h

/-- Take the first packet of some kinds that came through a torus port. -/
def Hw.torusRx (h : Hw) (q : Nat) (kinds : List Nat) : Option (Nat × List Word × Hw) :=
  (takeFirst (fun e : Nat × Nat × List Word => e.1 == q && kinds.contains e.2.1) h.snet.rx).map
    (fun r => (r.1.2.1, r.1.2.2, { h with snet := { h.snet with rx := r.2 } }))

/-- A ring partial or a DOWN packet of a torus round arrives at a link node (R351 to R353, R707). -/
def Hw.ringPartial (h : Hw) (q : Nat) : Hw :=
  match h.torusRx q [kUp, kDown] with
  | none => h
  | some (kind, ws, h) =>
    match SPkt.ofWords ws with
    | none => h
    | some p =>
      let c := h.syncCfg p.sync
      let n := portNode q
      let role := h.ringRole q p.sync
      if !bit c 15 || !(if kind = kUp then role.testBit 1 else role.testBit 0) then h.sFail n 1 p
      else if p.tenant ≠ fld c 16 6 then h.sFail n 2 p
      else if p.gen ≠ fld c 22 10 then h.sFail n 3 p
      else if p.words.length ≠ h.syncWords p.sync then h.sFail n 5 p
      else if kind = kDown then h.torusDone p
      else if (h.partialAt q p.sync).isSome then h.sFail n 4 p
      else
        let h := { h with snet := { h.snet with partials := sinsert nlt h.snet.partials (q * 512 + p.sync) p } }
        match h.snet.torus.find? (fun r => r.pkt.sync == p.sync) with
        | some r => h.torusStep p.sync 4 r.pkt r.axis
        | none => h

/-- valid = 0: every packet of the ID held in any router is discarded (R378). -/
def Hw.syncDiscard (h : Hw) (s : Nat) : Hw :=
  { h with snet := { h.snet with
      up := h.snet.up.filter (fun e => e.1 % 512 != s)
      down := h.snet.down.filter (fun e => e.2.sync != s)
      torus := h.snet.torus.filter (fun r => r.pkt.sync != s)
      partials := h.snet.partials.filter (fun e => e.1 % 512 != s) } }

/-- Clear a barrier or Rimshot configuration (R378): its rounds' state goes with it. -/
def Hw.syncDisable (h : Hw) (s : Nat) : Hw :=
  ((h.setReg (syncCfgId s) anchorNode (s % 256) (setBit (h.syncCfg s) 15 false)).setReg (syncStatusId s) anchorNode (s % 256) 0#32).syncDiscard s

/-- The write rules of SN_BARRIER_CFG and SN_RIMSHOT_CFG (R378). -/
def Hw.syncRegWrite (h : Hw) (p : Path) (addr : Nat) (r : Reg) (w : Word) : Hw :=
  let s := if r.id = RegId.snRimshotCfg then 256 + r.j else r.j
  if bit (h.syncCfg s) 15 then (if bit w 15 then h else h.syncDisable s)
  else if bit w 15 then
    if s ≥ 256 ∧ (fld w 8 3 = 0 ∨ 4 ≤ fld w 8 3) then h.misuse p true 9 addr
    else (h.setReg r.id r.i r.j w).modSyncStatus s (fun _ => 0#32)
  else h.setReg r.id r.i r.j w

/-- The links of a torus broadcast that start at this module from a stage on: port, hops, stage, direction (R364). -/
def Hw.castStarts (h : Hw) (stage : Nat) : List (Nat × Nat × Nat × Nat) :=
  let t := h.topo
  [(0, t.xs), (1, t.ys), (2, t.zs)].flatMap fun (a, n) =>
    if a < stage ∨ n ≤ 1 then []
    else (if 0 < n / 2 then [(2 * a + 1, n / 2, a, 0)] else []) ++
      (if 0 < (n + 1) / 2 - 1 then [(2 * a, (n + 1) / 2 - 1, a, 1)] else [])

/-- Send a GONG or BEAT packet to the torus from a stage on (R364, R370). -/
def Hw.castFrom (h : Hw) (kind stage : Nat) (w0 w1 : Word) : Hw :=
  (h.castStarts stage).foldl (fun h x =>
    h.torusTx x.1 kind [w0, setBit (setFld (setFld w1 24 4 x.2.1) 28 2 x.2.2.1) 30 (x.2.2.2 == 1)]) h

/-- Forward a packet of a broadcast: along its direction while hops remain, and into the later stages (R364). -/
def Hw.castOn (h : Hw) (kind : Nat) (w0 w1 : Word) : Hw :=
  let hops := fld w1 24 4
  let stage := fld w1 28 2
  if stage = 3 then h
  else
    let h := if 1 < hops then
        h.torusTx (2 * stage + (if bit w1 30 then 0 else 1)) kind [w0, setFld w1 24 4 (hops - 1)]
      else h
    h.castFrom kind (stage + 1) w0 w1

/-- The words of a GONG packet that this module originates (Table 8.4), and its next serial number. -/
def Hw.gongWords (h : Hw) (op : Nat) (f0 torus : Bool) (tenant gen arg node : Nat) : Word × Word :=
  (mkWord [(0, 2, op), (2, 1, b2n f0), (3, 1, b2n torus), (4, 6, tenant), (10, 10, gen), (20, 12, arg)],
   mkWord [(0, 12, h.module), (12, 7, node), (19, 5, h.snet.serial), (28, 2, 3)])

/-- A notice by origin and serial (R364). -/
def gongName (w1 : Word) : Nat × Nat := (fld w1 0 12, fld w1 19 5)

/-- Note a notice among the last 32 (R364). -/
def Hw.gongSee (h : Hw) (w1 : Word) : Hw :=
  { h with snet := { h.snet with seen := (h.snet.seen ++ [gongName w1]).drop (h.snet.seen.length + 1 - 32) } }

/-- This module originates a notice: it goes to the torus if asked, and to the anchor (R362, R364). -/
def Hw.gongSend (h : Hw) (op : Nat) (f0 torus : Bool) (tenant gen arg node : Nat) : Hw :=
  let w := h.gongWords op f0 torus tenant gen arg node
  let h := { h with snet := { h.snet with serial := (h.snet.serial + 1) % 32 } }.gongSee w.2
  let h := if torus then h.castFrom kGong 0 w.1 w.2 else h
  if op = 3 then h else { h with snet := { h.snet with gongs := h.snet.gongs ++ [w] } }

/-- FREEZE (op 1) or THAW (op 2) toward the bar `lead` bars ahead (R362). -/
def Hw.gongTimed (h : Hw) (op lead : Nat) (torus snap : Bool) : Hw :=
  h.gongSend op snap torus h.sysTenant 0 ((h.stamp.1 + lead) % 4096) anchorNode

/-- FAULT by a steward (R363). -/
def Hw.gongFault (h : Hw) (f0 : Bool) (tenant : Nat) : Hw :=
  if f0 then h.raiseF0 0x4d anchorNode 0 else h.raiseF1 tenant (h.gen tenant) 0x14 anchorNode 0 2

/-- A write to SN_GONG_CTL (R362, R363, R378). `w` is the word the write would leave. DEDUCED (log entry 36). -/
def Hw.gongCtl (h : Hw) (p : Path) (addr : Nat) (w : Word) : Hw :=
  if fld w 8 4 < 3 ∨ (bit w 31 ∧ fld w 0 2 = 0) then h.misuse p true 9 addr
  else
    let h := h.setReg .snGongCtl anchorNode 0 (setBit w 31 false)
    if !bit w 31 then h
    else match fld w 0 2 with
      | 3 => h.gongFault (bit w 12) (fld w 16 6)
      | op => h.gongTimed op (fld w 8 4) (bit w 4) (bit w 12)

/-- Copy every counter into its holding bank (R204, R205); counters are the registers of R812. -/
def Hw.snapshot (h : Hw) : Hw :=
  let h := { h with banks := h.regs.filter (fun e => e.1.id.isCounter) }
  let h := h.modReg .ancSnapStatus 0 0 (fun w => setFld (setFld w 16 16 (fld w 16 16 + 1)) 0 12 h.stamp.2)
  h.setReg .ancSnapBar 0 0 (BitVec.ofNat 32 h.stamp.1)

/-- Raise SB_CNT_WIN at the tiles whose partitions count (R505, R829). -/
def Hw.openWindows (h : Hw) : Hw :=
  (List.range 64).foldl (fun h i =>
    match h.tileOwner i with
    | none => h
    | some t =>
      if h.countsTenant t && h.portUp i then
        let n := tileNode i
        let h := h.modPort i (fun p => { p with winBars := fld (h.reg .tpCfg n) 16 4 })
        if bit (h.reg .tpCond n) 12 then h
        else (h.modReg .tpCond n 0 (setBit · 12 true)).modReg .pmcTcStatus n 0 (fun w => setFld (setFld w 16 16 (fld w 16 16 + 1)) 0 16 0)
      else h) h

/-- ANC_SNAPSHOT.take (R204, R505). -/
def Hw.takeSnapshot (h : Hw) : Hw := h.snapshot.openWindows

/-- A FREEZE takes effect (R367, R505). -/
def Hw.freezeNow (h : Hw) (snap : Bool) : Hw :=
  let h := { h with snet := { h.snet with freeze := none } }
  if h.frozen then h.modReg .snGongStatus anchorNode 0 (setBit · 1 false)
  else
    let h := if snap then h.snapshot else h
    let h := h.openWindows
    (h.modReg .snGongStatus anchorNode 0 (fun w => setBit (setBit w 0 true) 1 false)).modReg .snGongEvt anchorNode 0 (setBit · 0 true)

/-- A THAW takes effect (R367). -/
def Hw.thawNow (h : Hw) : Hw :=
  let h := { h with snet := { h.snet with thaw := none } }
  if h.frozen then
    (h.modReg .snGongStatus anchorNode 0 (fun w => setBit (setBit w 0 false) 2 false)).modReg .snGongEvt anchorNode 0 (setBit · 1 true)
  else h.modReg .snGongStatus anchorNode 0 (setBit · 2 false)

/-- Bars from a target bar number modulo 4,096 to the bar this cycle belongs to; 2,048 and more for a target that lies ahead. -/
def Hw.sinceTarget (h : Hw) (target : Nat) : Nat := (h.stamp.1 + 4096 - target) % 4096

/-- This is the first cycle attributed to its bar (R62, R367). -/
def Hw.firstCycle (h : Hw) : Bool := h.bar.rest == 1 || (h.bar.rest == 0 && h.bar.phase == 0 && h.bar.c == 0)

/-- A FREEZE or THAW notice is held pending or takes effect at once (R367 to R369). A notice that R368 gives no effect still
cancels a pending notice of the other op with the same target (R369). -/
def Hw.gongHold (h : Hw) (w0 w1 : Word) : Hw :=
  let h := (h.setReg .snGongLast anchorNode 0 w0).setReg .snGongLast anchorNode 1 w1
  let op := fld w0 0 2
  let target := fld w0 20 12
  let late (h : Hw) : Hw :=
    if h.sinceTarget target = 0 && h.firstCycle then h else h.modReg .snGongEvt anchorNode 0 (setBit · 2 true)
  let pend (h : Hw) (b : Nat) : Hw := h.modReg .snGongStatus anchorNode 0 (fun w => setFld (setBit w b true) 16 12 target)
  if op = 1 then
    if h.frozen then
      if h.snet.thaw.any (fun x => x.target == target) then
        { h with snet := { h.snet with thaw := none } }.modReg .snGongStatus anchorNode 0 (setBit · 2 false)
      else h
    else if h.sinceTarget target < 2048 then (late h).freezeNow (bit w0 2)
    else pend { h with snet := { h.snet with freeze := some ⟨target, bit w0 2⟩ } } 1
  else if op = 2 then
    if !h.frozen then
      if h.snet.freeze.any (fun x => x.target == target) then
        { h with snet := { h.snet with freeze := none } }.modReg .snGongStatus anchorNode 0 (setBit · 1 false)
      else h
    else if h.sinceTarget target < 2048 then (late h).thawNow
    else pend { h with snet := { h.snet with thaw := some ⟨target, false⟩ } } 2
  else h

/-- A notice of this module reaches the anchor, or one from the torus arrives there: a duplicate is discarded, another is
forwarded (R364, R369). -/
def Hw.gongLocal (h : Hw) : Hw :=
  match h.snet.gongs with
  | [] => h
  | w :: rest => { h with snet := { h.snet with gongs := rest } }.gongHold w.1 w.2

/-- A notice that came through a torus port: none where it is a duplicate (R364), else the state that has forwarded it. -/
def Hw.gongRemote (h : Hw) (w0 w1 : Word) : Option Hw :=
  if h.snet.seen.contains (gongName w1) then none else some ((h.gongSee w1).castOn kGong w0 w1)

def Hw.gongDup (h : Hw) : Hw := h.modReg .snGongEvt anchorNode 0 (bumpFld · 16 8 1)

/-- A FREEZE or THAW from the torus arrives through port q. -/
def Hw.gongArrive (h : Hw) (q : Nat) : Hw :=
  match h.snet.rx.find? (fun e => e.1 == q && e.2.1 == kGong) with
  | some (_, _, [w0, w1]) =>
    if fld w0 0 2 = 3 then h
    else match h.torusRx q [kGong] with
      | some (_, _, h) =>
        match h.gongRemote w0 w1 with
        | some h => h.gongHold w0 w1
        | none => h.gongDup
      | none => h
  | _ => h

/-- A FAULT notice is received at the anchor: SN_GONG_EVT.faults and SN_GONG_LAST (Tables 8.6 and 8.8). -/
def Hw.gongTaken (h : Hw) (w0 w1 : Word) : Hw :=
  ((h.setReg .snGongLast anchorNode 0 w0).setReg .snGongLast anchorNode 1 w1).modReg .snGongEvt anchorNode 0 (bumpFld · 24 8 1)

/-- A pending FREEZE is due: the target bar has begun (R367). -/
def Hw.freezeDue (h : Hw) : Hw :=
  match h.snet.freeze with
  | some f => if h.sinceTarget f.target < 2048 then h.freezeNow f.snap else h
  | none => h

/-- A pending THAW is due (R367). -/
def Hw.thawDue (h : Hw) : Hw :=
  match h.snet.thaw with
  | some f => if h.sinceTarget f.target < 2048 then h.thawNow else h
  | none => h

/-- The downbeat source sends a BEAT packet at phase 0 of a bar whose number is a multiple of 4 (R370, Table 8.5). -/
def Hw.beatSend (h : Hw) : Hw :=
  if h.running && h.isSource && h.bar.rest == 0 && h.bar.phase == 0 && h.bar.bar.toNat % 4 == 0 then
    h.castFrom kBeat 0 (mkWord [(0, 16, h.bar.bar.toNat), (16, 6, h.sysTenant)]) 0#32
  else h

/-- The alignment error that a BEAT of a given source bar and age shows (R372). -/
def Hw.beatError (h : Hw) (bar age : Nat) : Int :=
  let a := age / 8
  let s : Int := ((bar * 4096 + a : Nat) : Int) - (a / 4097 : Nat)
  let l : Int := ((h.bar.bar.toNat % 2 ^ 16 * 4096 + h.bar.phase : Nat) : Int)
  toSigned 28 (ofSigned 28 (l - s))

/-- A measurement of e reaches the bar counter (R59 to R61, R372, R374). -/
def Hw.measure (h : Hw) (e : Int) : Hw :=
  let h := { h with bar := { h.bar with e := e, beatSeen := true, lostBars := 0 } }
  let h := h.modReg .snDbStatus anchorNode 0 (fun w => setFld (setBit w 0 false) 16 16 0)
  if e.natAbs ≤ 16 then h.modReg .clkStatus 0 0 (setBit · 16 true)
  else
    let h := h.modReg .clkStatus 0 0 (setBit · 16 false)
    if e.natAbs ≤ 256 then (h.modReg .clkEvt 0 0 (setBit · 16 true)).logF2
    else
      let s : Int := ((h.bar.bar.toNat * 4096 + 4096 : Nat) : Int) - e
      { h with bar := { h.bar with jumpTo := some (((s + 4095) / 4096 % 2 ^ 48).toNat, ((-s) % 4096).toNat) } }

/-- A BEAT arrives at a follower's anchor through port q (R371, R372); `hold` is the time this die held it, in eighths of a
cycle, and `hops` its torus hops from the source. -/
def Hw.beatArrive (h : Hw) (q hold hops : Nat) : Hw :=
  if h.isSource then h
  else match h.torusRx q [kBeat] with
    | some (_, [w0, w1], h) =>
      if fld w0 22 10 ≠ 0 then h
      else
        let age := (fld w1 0 24 + fld (h.reg .lnkRtt q) 16 16 + hold) % 2 ^ 24
        let h := h.castOn kBeat w0 (setFld w1 0 24 age)
        (h.modReg .snDbStatus anchorNode 0 (setFld · 8 5 hops)).measure (h.beatError (fld w0 0 16) age)
    | some (_, _, h) => h
    | none => h

/-- 64 bars without a BEAT (R374): lost sets once, and F2 is logged. -/
def Hw.downbeatLost (h : Hw) : Hw :=
  if h.running && !h.isSource && 64 ≤ h.bar.lostBars && !bit (h.reg .snDbStatus anchorNode) 0 then
    (h.modReg .snDbStatus anchorNode 0 (setBit · 0 true)).logF2
  else h

end Sys2Proof.Machine
end

