-- ==== Sys2Proof/Machine/Fold.lean ====
section
/-! DEFINITION. The fold units (chapter 9): contexts, classification of contributions, combination and conversion. -/

namespace Sys2Proof.Machine

/-- Fields of a contribution ID (Table 9.6). -/
def cidOp (c : Nat) : Nat := c / 2 ^ 13 % 8
def cidAxis (c : Nat) : Nat := c / 2 ^ 11 % 4
def cidCoord (c : Nat) : Nat := c / 2 ^ 7 % 16
def cidNode (c : Nat) : Nat := c % 128

def mkCid (op axis coord node : Nat) : Nat := op % 8 * 2 ^ 13 + axis % 4 * 2 ^ 11 + coord % 16 * 2 ^ 7 + node % 128

def Hw.ctx (h : Hw) (n k : Nat) : FoldCtx := nget h.fold.ctx (n * 64 + k) {}
def Hw.setCtx (h : Hw) (n k : Nat) (c : FoldCtx) : Hw := { h with fold := { h.fold with ctx := nset h.fold.ctx (n * 64 + k) c {} } }

/-- The current operation number of a context (R401). -/
def Hw.ctxOp (h : Hw) (n k : Nat) : Nat := fld (h.reg .fldStatus n k) 0 3
def Hw.ctxStopped (h : Hw) (n k : Nat) : Bool := bit (h.reg .fldStatus n k) 3
def Hw.ctxMask (h : Hw) (n k : Nat) : Nat := fld (h.reg .fldFmt n k) 16 5
def Hw.ctxCarrier (h : Hw) (n k : Nat) : Nat := fld (h.reg .fldFmt n k) 4 4
def Hw.ctxRoot (h : Hw) (n k : Nat) : Bool := fld (h.reg .fldFmt n k) 24 3 == 0
def Hw.ctxDst (h : Hw) (n k : Nat) : Nat := fld (h.reg .fldFmt n k) 8 4
def Hw.ctxOut (h : Hw) (n k : Nat) : Nat := fld (h.reg .fldLink n k) 0 13

/-- Log a fold event (Tables 9.9 and 9.11). -/
def Hw.foldEvt (h : Hw) (n k cause : Nat) : Hw :=
  h.modReg .fldEvt n 0 (fun w =>
    if fld w 24 8 = 0 then mkWord [(24, 8, 1), (16, 4, cause), (0, 6, k)] else bumpFld w 24 8 1)

/-- Log a discarded contribution. -/
def Hw.foldDup (h : Hw) (n k cid : Nat) : Hw :=
  h.modReg .fldDupEvt n 0 (fun w =>
    if fld w 24 8 = 0 then mkWord [(24, 8, 1), (16, 6, k), (0, 16, cid)] else bumpFld w 24 8 1)

/-- F1 with cause FOLD for a context's owner; a die tree's LENGTH or BAD_CID is an F0 (R389, Table 9.7). -/
def Hw.foldFault (h : Hw) (n k : Nat) : Hw :=
  let c := h.reg .fldCfg n k
  h.raiseOwner (fld c 16 6) (fld c 22 10) 6 n k

/-- The flit at the head of a fold input: of the input queue (port, VC sel) at a mesh port, of the stream of flow sel at the local
port of a link node. -/
def Hw.foldHead (h : Hw) (n port sel : Nat) : Option Flit :=
  if port = 0 then (nget h.fold.ring (n * 8192 + sel) []).head? else (h.bq n port sel).head?

/-- That flit leaves its queue. -/
def Hw.foldPop (h : Hw) (n port sel : Nat) : Hw :=
  if port = 0 then
    { h with fold := { h.fold with ring := nset h.fold.ring (n * 8192 + sel) ((nget h.fold.ring (n * 8192 + sel) []).drop 1) [] } }
  else h.bPop n port sel

/-- The expected producer of an input holds for a cid (R402). -/
def Hw.producerOk (h : Hw) (n k port cid : Nat) : Bool :=
  if port = 0 then
    let w := h.reg .fldLink n k
    cidAxis cid == fld w 16 2 && cidCoord cid == fld w 20 4
  else cidAxis cid == 0 && cidCoord cid == 0 && neighbour n port == some (cidNode cid)

/-- End, or go on discarding, a contribution whose flit has been dropped. -/
def FoldCtx.after (c : FoldCtx) (port : Nat) (f : Flit) : FoldCtx :=
  let rest := c.ins.filter (fun e => e.flow != f.flow)
  { c with ins := if f.last then rest else rest ++ [⟨port, f.flow, f.cid, false⟩] }

/-- The ports with an accepted contribution in progress, in FLD_STATUS.receiving. -/
def Hw.ctxShow (h : Hw) (n k : Nat) (waiting : Bool) : Hw :=
  let rx := (List.range 5).foldl (fun m p => if (h.ctx n k).ins.any (fun e => e.port == p && e.accept) then m + 2 ^ p else m) 0
  h.modReg .fldStatus n k (fun w => setBit (setFld w 4 5 rx) 15 waiting)

/-- The sink checks of a fold input's head flit: a mesh input's are those of R265; a ring stream's were made at the link node. -/
def Hw.foldSink (h : Hw) (n port : Nat) (f : Flit) : Nat × Option Nat := if port = 0 then (0, none) else h.sinkCheck n f

/-- A valid ring entry of a link node: its configuration and flow words (R431). -/
def Hw.ringValid (h : Hw) (n r : Nat) : Bool := bit (h.reg .cqRingCfg n r) 15
def Hw.ringGate (h : Hw) (n r : Nat) : Bool := bit (h.reg .cqRingCfg n r) 14
def Hw.ringArmed (h : Hw) (n r : Nat) : Bool := bit (h.reg .cqRingStatus n r) 8

/-- The gate entry in front of the ring input of a context. -/
def Hw.gateOf (h : Hw) (n k : Nat) : Option Nat :=
  (List.range 32).find? (fun r => h.ringValid n r && h.ringGate n r && fld (h.reg .cqRingFlow n r) 0 6 == k)

/-- A ring entry has passed the flit with last = 1 of its operation: it disarms (R433). -/
def Hw.ringPassed (h : Hw) (n r : Nat) : Hw :=
  h.modReg .cqRingStatus n r (fun w => setBit (setBit (setFld w 24 8 (fld w 24 8 + 1)) 8 false) 0 false)

/-- The ring input of a context is behind an unarmed gate. -/
def Hw.gateShut (h : Hw) (n k : Nat) : Option Nat :=
  (h.gateOf n k).bind (fun r => if h.ringArmed n r then none else some r)

/-- A fold stream's flit stands at the head of an input and is classified (R402 to R407, R413, Table 9.7). -/
def Hw.foldArrive (h : Hw) (n port sel : Nat) : Hw :=
  match h.foldHead n port sel with
  | none => h
  | some f =>
    let kind := h.flowKind f.flow
    if kind.kind ≠ 1 ∨ (port ≠ 0 ∧ (h.outMask n f ≠ 1 ∨ kind.remote ≠ 0xffff)) then h
    else match h.treeCtx n kind.tree with
      | none => (h.foldEvt n 0 1).foldPop n port sel
      | some k =>
       match (if port = 0 then h.gateShut n k else none) with
       | some r => h.modReg .cqRingStatus n r (setBit · 0 true)
       | none =>
        let chk := h.foldSink n port f
        if chk.1 ≠ 0 then ((h.foldPop n port sel).sinkChecked n f chk.1 chk.2)
        else
          let c := h.ctx n k
          let take (h : Hw) : Hw := (h.foldPop n port sel).sinkChecked n f 0 chk.2
          let drop (h : Hw) : Hw := ((take h).setCtx n k (c.after port f)).ctxShow n k false
          let bad (h : Hw) : Hw := ((drop ((h.foldEvt n k 2).ctxStop n k)).foldFault n k)
          match c.ins.find? (fun e => e.flow == f.flow) with
          | some e => if e.cid ≠ f.cid then bad h else if e.accept then h else drop h
          | none =>
            let d := (cidOp f.cid + 8 - h.ctxOp n k) % 8
            if !h.producerOk n k port f.cid then bad h
            else if 5 ≤ d then drop (h.foldDup n k f.cid)
            else if d = 0 then
              if c.ins.any (fun e => e.port == port && e.accept) then drop (h.foldDup n k f.cid)
              else (h.setCtx n k { c with ins := c.ins ++ [⟨port, f.flow, f.cid, true⟩] }).ctxShow n k false
            else h.modReg .fldStatus n k (setBit · 15 true)

/-- One input's block at the head of its queue: its port and queue selector, its elements and its last bit. -/
structure FoldBlock where
  port : Nat
  sel : Nat
  flit : Option Flit
  elems : List Nat
  last : Bool
  deriving DecidableEq, Repr

/-- The block that an input of a context has available, other than a mover's (R381, R389, R405). -/
def Hw.foldBlock (h : Hw) (n k port : Nat) : Option FoldBlock :=
  match (h.ctx n k).ins.find? (fun e => e.port == port && e.accept) with
  | none => none
  | some e =>
    let car := h.ctxCarrier n k
    if port = 0 then
      (h.foldHead n 0 e.flow).map (fun f => ⟨0, e.flow, some f, carUnpack car f.data, f.last⟩)
    else
      (List.range 8).findSome? (fun vc =>
        match (h.bq n port vc).head? with
        | some f => if f.flow = e.flow ∧ f.cid = e.cid then some ⟨port, vc, some f, carUnpack car f.data, f.last⟩ else none
        | none => none)

/-- Cut bytes into flits of 128; the last one may be short when `all` is set. -/
def chunk128 (all : Bool) : Nat → List Byte → List (List Byte) × List Byte
  | 0, bs => ([], bs)
  | k + 1, bs =>
    if bs.isEmpty then ([], [])
    else if bs.length < 128 then (if all then ([bs], []) else ([], bs))
    else
      let r := chunk128 all k (bs.drop 128)
      (bs.take 128 :: r.1, r.2)

/-- The axis and coordinate that a context stamps on what it presents (R400). -/
def Hw.ctxAxis (h : Hw) (n k : Nat) : Nat × Nat :=
  let d := (h.flowKind (h.ctxOut n k)).dst
  if h.ctxRoot n k && h.ctxDst n k == 0 && nodeClass d == 2 then
    let a := portAxis (nodeInst d)
    let t := h.topo
    (a + 1, if a = 0 then t.x else if a = 1 then t.y else t.z)
  else (0, 0)

/-- A context presents a block: carrier flits, or at a closing root the converted elements (R388, R390, R397, R400). -/
def Hw.foldPresent (h : Hw) (n k : Nat) (elems : List Nat) (last poison : Bool) : Hw :=
  let cfg := h.reg .fldCfg n k
  let car := h.ctxCarrier n k
  let a := h.ctxAxis n k
  let cid := mkCid (h.ctxOp n k) a.1 a.2 n
  let put (h : Hw) (bs : List Byte) (l : Bool) : Hw :=
    h.inject n (some (fld cfg 16 6)) (mkFlit (h.ctxOut n k) l cid (payload bs) false poison)
  if h.ctxRoot n k && h.ctxDst n k != 0 then
    let dst := h.ctxDst n k
    let c := h.ctx n k
    let all := c.bytes ++ packElems (inSize dst) (elems.map (closeElem car dst (bit (h.reg .fldFmt n k) 12)))
    let r := chunk128 last (all.length / 128 + 1) all
    let h := h.setCtx n k { c with bytes := r.2 }
    (r.1.zip (List.range r.1.length)).foldl (fun h x => put h x.1 (last && x.2 + 1 == r.1.length)) h
  else put h (packElems (carSize car) elems) last

/-- The source slot of a context's output has no flit waiting for its grant (R387, R410). -/
def Hw.ctxFree (h : Hw) (n k : Nat) : Bool :=
  match h.flowSlot n (h.ctxOut n k) with
  | some s => (h.waiting n s).isEmpty
  | none => true

/-- A context combines block k once every input has it (R389 to R401, R405). `loc` is the block of the node's mover: its elements
and its last bit. The new state, and whether the block was combined, so that the mover's block is consumed. -/
def Hw.foldCombine (h : Hw) (n k : Nat) (loc : Option (List Nat × Bool)) (err : FoldErr) : Hw × Bool :=
  let cfg := h.reg .fldCfg n k
  if !bit cfg 15 || h.ctxStopped n k || !h.ctxFree n k || h.fenced (fld cfg 16 6) (fld cfg 22 10) then (h, false)
  else if err = .state then (((h.foldEvt n k 5).ctxStop n k).raiseF0 0x44 n k, false)
  else
    let block (p : Nat) : Option FoldBlock :=
      if p = 0 ∧ nodeClass n ≠ 2 then loc.map (fun b => ⟨0, 0, none, b.1, b.2⟩) else h.foldBlock n k p
    match (((List.range 5).filter (fun p => (h.ctxMask n k).testBit p)).mapM block) with
    | none => (h, false)
    | some bs =>
      -- the sink checks are made in this cycle; a flit that fails them is dropped (R405, R407)
      let bad := bs.filter (fun b => match b.flit with | some f => (h.foldSink n b.port f).1 != 0 | none => false)
      if !bad.isEmpty then
        (bad.foldl (fun h b => match b.flit with
          | some f => let c := h.foldSink n b.port f; (h.foldPop n b.port b.sel).sinkChecked n f c.1 c.2
          | none => h) h, false)
      else match bs with
        | [] => (h, false)
        | b :: rest =>
          if rest.any (fun x => x.last != b.last) then (((h.foldEvt n k 3).ctxStop n k).foldFault n k, false)
          else
            let car := h.ctxCarrier n k
            let sum := rest.foldl (fun a x => List.zipWith (carAdd car) a x.elems) b.elems
            let h := bs.foldl (fun h b => match b.flit with
              | some f => (h.foldPop n b.port b.sel).sinkChecked n f 0 (h.foldSink n b.port f).2
              | none => h) h
            let h := if err = .data then h.foldEvt n k 4 else h
            let h := (h.foldPresent n k sum b.last (err = .data)).act n 5
            let h := match (if b.last && nodeClass n == 2 then h.gateOf n k else none) with
              | some r => h.ringPassed n r
              | none => h
            let h := if b.last then
                let c := h.ctx n k
                let h := h.setCtx n k { c with ins := c.ins.filter (fun e => !e.accept) }
                (h.setReg .fldBlocks n k 0#32).modReg .fldStatus n k (fun w => setFld w 0 3 (fld w 0 3 + 1))
              else h.modReg .fldBlocks n k (bumpFld · 0 32 1)
            (h.ctxShow n k false, true)

/-- A context is armed with operation number 0 (R401). -/
def Hw.foldEnable (h : Hw) (n k : Nat) (w : Word) : Hw :=
  (((h.setReg .fldCfg n k w).setReg .fldStatus n k 0#32).setReg .fldBlocks n k 0#32).setCtx n k {}

/-- A context is cleared (R413). -/
def Hw.foldClear (h : Hw) (n k : Nat) : Hw :=
  (((h.modReg .fldCfg n k (setBit · 15 false)).setReg .fldStatus n k 0#32).setReg .fldBlocks n k 0#32).setCtx n k {}

/-- The write rules of FLD_CFG, FLD_FMT and FLD_LINK (R412, R413). -/
def Hw.foldRegWrite (h : Hw) (p : Path) (addr : Nat) (r : Reg) (w : Word) : Hw :=
  let old := h.reg r.id r.i r.j
  let live := bit (h.reg .fldCfg r.i r.j) 15
  match r.id with
  | .fldCfg =>
    if live then
      let h := if (old ^^^ w) &&& 0xFFFF7FFF#32 = 0#32 then h else h.misuse p true 4 addr
      if bit w 15 then h else h.foldClear r.i r.j
    else if bit w 15 then
      let f := h.reg .fldFmt r.i r.j
      let ok := 1 ≤ fld f 0 4 && fld f 0 4 ≤ 7 && 9 ≤ fld f 4 4 && fld f 4 4 ≤ 11 && fld f 8 4 ≤ 7 && fld f 16 5 != 0 && fld f 24 3 ≤ 4
      if ok then h.foldEnable r.i r.j w else h.misuse p true 9 addr
    else h.setReg r.id r.i r.j w
  | _ => if live then (if old = w then h else h.misuse p true 4 addr) else h.setReg r.id r.i r.j w

end Sys2Proof.Machine
end

