-- ==== Sys2Proof/Machine/Slab.lean ====
section
/-! DEFINITION. Slabs, HBM and leases (chapter 12): tenant addresses, lease operations, zeroing, the patrol scrub, mapping out. -/

namespace Sys2Proof.Machine

/-- What a tenant address reaches (R526): a byte of a slab or of HBM by its die address, or a byte of a host window of the job's
mapping (index in the mapping, offset). -/
inductive MemRef where
  | slab (a : Nat)
  | hbm (a : Nat)
  | window (k off : Nat)
  | none
  deriving DecidableEq, Repr

/-- Sizes and bases of Table 12.2. -/
def pageSize : Nat := 0x10000
def unitSize : Nat := 0x200000
def slabEnd : Nat := 0x10000000
def spillBase : Nat := 0x100000000
def hbmBase : Nat := 0x10000000000

/-- The unit behind slot s of a tenant (R529), and its die unit number. -/
def Hw.slotUnit (h : Hw) (t s : Nat) : Option Nat :=
  let b := h.reg .slbHbase t
  if s < fld b 16 16 then
    let m := h.reg .slbHmap (fld b 0 16 + s)
    if bit m 31 then some (fld m 0 16) else none
  else none

/-- A die unit is retired: its pair is mapped out (R547). -/
def Hw.unitRetired (h : Hw) (u : Nat) : Bool := !h.pairUsable (u / 512)

/-- The spill slots of a tenant that are not retired, as die units in slot order (R538). -/
def Hw.spillUnits (h : Hw) (t : Nat) : List Nat :=
  ((List.range (fld (h.reg .slbHbase t) 16 16)).filterMap (h.slotUnit t)).filter
    (fun u => bit (h.reg .slbHlease u) 12 && !h.unitRetired u)

/-- The job's windows: number, captured base and pages. -/
def Hw.jobWindows (h : Hw) (t : Nat) : List (Nat × Nat × Nat) := nget h.mem.windows t []

/-- The window that holds page v of the window part of a spill mapping: its index and the page in it (R538). -/
def windowOf : Nat → List (Nat × Nat × Nat) → Nat → Option (Nat × Nat)
  | _, [], _ => none
  | k, w :: ws, v => if v < w.2.2 then some (k, v) else windowOf (k + 1) ws (v - w.2.2)

/-- What a tenant address reaches (R526, R538). -/
def Hw.memRef (h : Hw) (t a : Nat) : MemRef :=
  if a < slabEnd then .slab a
  else if spillBase ≤ a ∧ a < hbmBase then
    let v := (a - spillBase) / pageSize
    let off := (a - spillBase) % pageSize
    let cfg := h.reg .memSpillCfg t
    if v < fld cfg 0 16 then
      match (h.spillUnits t)[v / 32]? with
      | some u => .hbm (u * unitSize + v % 32 * pageSize + off)
      | none => .none
    else if v < fld cfg 0 16 + fld cfg 16 16 then
      match windowOf 0 (h.jobWindows t) (v - fld cfg 0 16) with
      | some (k, p) => .window k (p * pageSize + off)
      | none => .none
    else .none
  else if hbmBase ≤ a ∧ (a - hbmBase) / unitSize < nget h.mem.units t 0 then
    match h.slotUnit t ((a - hbmBase) / unitSize) with
    | some u => .hbm (u * unitSize + (a - hbmBase) % unitSize)
    | none => .none
  else .none

/-- A lease word is held by (t, g). -/
def heldBy (w : Word) (t g : Nat) : Bool := bit w 15 && fld w 16 6 == t && fld w 22 10 == g

/-- (t, g) holds the unit that a reference lies in, and it is not retired (R528, R547). A spill page of a window is held by the
job whose mapping it is. -/
def Hw.holds (h : Hw) (t g : Nat) : MemRef → Bool
  | .slab a => heldBy (h.reg .slbLease (a / pageSize)) t g && !h.pageRetired (a / pageSize) && !h.mem.zeroing.contains (a / pageSize)
  | .hbm a => heldBy (h.reg .slbHlease (a / unitSize)) t g && !h.unitRetired (a / unitSize)
  | .window _ _ => g == h.gen t
  | .none => false

/-- The regions of Table 12.2 that an address lies in: 0 slab, 1 spill, 2 HBM, 3 none. -/
def regionOfAddr (a : Nat) : Nat :=
  if a < slabEnd then 0 else if spillBase ≤ a ∧ a < hbmBase then 1 else if hbmBase ≤ a then 2 else 3

/-- The range [a, a + len) of a command of tile i lies in one accepted region, in this tile's slab if in a slab, and in units
that (t, g) holds (R527, Tables 12.3 and 10.4). -/
def Hw.rangeHeld (h : Hw) (i t g a len : Nat) (spill : Bool) : Bool :=
  if len = 0 then true
  else
    let z := a + len - 1
    let r := regionOfAddr a
    r == regionOfAddr z && r != 3 && (spill || r != 1) && (r != 0 || (a / 0x400000 == i && z / 0x400000 == i)) &&
    (let step := if r = 2 then unitSize else pageSize
     (List.range (z / step - a / step + 1)).all (fun k => h.holds t g (h.memRef t ((a / step + k) * step))))

/-- Read bytes of a slab. -/
def Hw.slabRead (h : Hw) (a len : Nat) : List Byte := memRead 0#8 h.mem.slab a len
def Hw.slabWrite (h : Hw) (a : Nat) (bs : List Byte) : Hw := { h with mem := { h.mem with slab := memWrite 0#8 h.mem.slab a bs } }

/-- Read bytes of HBM: a granule whose zero-map bit is set reads as zeros (R533). -/
def Hw.hbmRead (h : Hw) (a len : Nat) : List Byte :=
  if bit (h.reg .slbHzero (a / unitSize)) (a % unitSize / pageSize) then List.replicate len 0#8
  else memRead 0#8 h.mem.hbm a len

/-- Zero a granule and clear its zero-map bit (R533). -/
def Hw.granuleZero (h : Hw) (u g : Nat) : Hw :=
  if bit (h.reg .slbHzero u) g then
    { h with mem := { h.mem with hbm := memClear h.mem.hbm (u * unitSize + g * pageSize) pageSize } }.modReg .slbHzero u 0
      (setBit · g false)
  else h

/-- Write bytes of HBM: a set granule is zeroed first (R533). -/
def Hw.hbmWrite (h : Hw) (a : Nat) (bs : List Byte) : Hw :=
  let h := h.granuleZero (a / unitSize) (a % unitSize / pageSize)
  { h with mem := { h.mem with hbm := memWrite 0#8 h.mem.hbm a bs } }

/-- A slab page is free for a lease: neither held nor retired; a page that is being zeroed counts as free (R531, R533). -/
def Hw.pageFree (h : Hw) (p : Nat) : Bool := !bit (h.reg .slbLease p) 15 && !h.pageRetired p

/-- Bind a slab page to (t, g) (R531). -/
def Hw.leasePage (h : Hw) (t g p : Nat) : Hw := h.setReg .slbLease p 0 (mkWord [(22, 10, g), (16, 6, t), (15, 1, 1)])

/-- Bind an HBM unit to a generation and set its zero map (R533). -/
def Hw.leaseUnit (h : Hw) (g u : Nat) : Hw :=
  (h.modReg .slbHlease u 0 (fun w => setBit (setFld w 22 10 g) 15 true)).setReg .slbHzero u 0 0xFFFFFFFF#32

/-- Release a slab page: it is then zeroed (R533). -/
def Hw.freePage (h : Hw) (p : Nat) : Hw :=
  let h := h.modReg .slbLease p 0 (setBit · 15 false)
  { h with mem := { h.mem with zeroing := if h.mem.zeroing.contains p then h.mem.zeroing else h.mem.zeroing ++ [p] } }

/-- Release an HBM unit. -/
def Hw.freeUnit (h : Hw) (u : Nat) : Hw := h.modReg .slbHlease u 0 (setBit · 15 false)

/-- The zeroing of a page finishes (R533). -/
def Hw.pageZeroDone (h : Hw) (p : Nat) : Hw :=
  if h.mem.zeroing.contains p then
    { h with mem := { h.mem with zeroing := h.mem.zeroing.erase p, slab := memClear h.mem.slab (p * pageSize) pageSize } }
  else h

/-- The lowest run of count consecutive positions below n that are all free. -/
def lowestRun (n count : Nat) (free : Nat → Bool) : Option Nat :=
  (List.range n).find? (fun k => k + count ≤ n && (List.range count).all (fun j => free (k + j)))

/-- The envelope of a tenant's partition, in the loaded image. -/
def Hw.envelope (h : Hw) (t : Nat) : Option Envelope :=
  h.doc.bind (fun d => (d.partitions.find? (fun p => p.tenant == t)).bind (fun p => d.envelopes[p.envelope]?))

/-- Slab pages and HBM slots that a tenant holds (SLB_USE). -/
def Hw.pagesHeld (h : Hw) (t : Nat) : Nat :=
  (h.regs.filter (fun e => decide (e.1.id = RegId.slbLease) && bit e.2 15 && fld e.2 16 6 == t)).length
def Hw.unitsHeld (h : Hw) (t : Nat) : Nat :=
  (h.regs.filter (fun e => decide (e.1.id = RegId.slbHlease) && bit e.2 15 && fld e.2 16 6 == t)).length

/-- LEASE_ALLOC (R531, R532): the state with the leases, and the first unit's tenant address and, for pages, the pages taken. -/
def Hw.leaseAlloc (h : Hw) (i kind count : Nat) : Option (Hw × Nat × List Nat) :=
  let t := h.tileTenant i
  let g := h.tileGen i
  if kind = 0 then
    match lowestRun 64 count (fun p => h.pageFree (i * 64 + p)) with
    | some p =>
      if h.pagesHeld t + count ≤ ((h.envelope t).map (·.slabPages)).getD 0 then
        let ps := (List.range count).map (fun k => i * 64 + p + k)
        some (ps.foldl (fun h q => h.leasePage t g q) h, (i * 64 + p) * pageSize, ps)
      else none
    | none => none
  else
    let free (s : Nat) : Bool := (h.slotUnit t s).any (fun u => !bit (h.reg .slbHlease u) 15 && !h.unitRetired u)
    match lowestRun (nget h.mem.units t 0) count free with
    | some s =>
      let us := (List.range count).filterMap (fun k => h.slotUnit t (s + k))
      some (us.foldl (fun h u => h.leaseUnit g u) h, hbmBase + s * unitSize, [])
    | none => none

/-- Log a refused free (Table 12.7). -/
def Hw.freeError (h : Hw) (t kind : Nat) (notOwner : Bool) (u : Nat) : Hw :=
  h.modReg .slbFreeErrEvt t 0 (fun w =>
    if fld w 24 8 = 0 then mkWord [(24, 8, 1), (17, 1, kind), (16, 1, b2n notOwner), (0, 16, u)] else bumpFld w 24 8 1)

/-- LEASE_FREE of tile i (R535, Table 12.4): the new state and the status. -/
def Hw.leaseFree (h : Hw) (i kind a : Nat) : Hw × Nat :=
  let t := h.tileTenant i
  let g := h.tileGen i
  if kind = 0 ∧ a < slabEnd ∧ a % pageSize = 0 then
    let p := a / pageSize
    let w := h.reg .slbLease p
    if !bit w 15 || h.pageRetired p then (h.freeError t 0 false p, scNotHeld)
    else if heldBy w t g then (h.freePage p, 0) else (h.freeError t 0 true p, scNotOwner)
  else if kind = 1 ∧ hbmBase ≤ a ∧ (a - hbmBase) % unitSize = 0 ∧ (a - hbmBase) / unitSize < nget h.mem.units t 0 then
    let s := (a - hbmBase) / unitSize
    match h.slotUnit t s with
    | some u =>
      let w := h.reg .slbHlease u
      if !bit w 15 || h.unitRetired u then (h.freeError t 1 false s, scNotHeld)
      else if heldBy w t g then (h.freeUnit u, 0) else (h.freeError t 1 true s, scNotOwner)
    | none => (h, scBadArg)
  else (h, scBadArg)

/-- A steward write to a lease register (R549); `w` is the word the write would leave. -/
def Hw.leaseWrite (h : Hw) (p : Path) (addr : Nat) (r : Reg) (w : Word) : Hw :=
  let slab := decide (r.id = RegId.slbLease)
  let retired := if slab then h.pageRetired r.i else h.unitRetired r.i
  if retired || !h.partValid (fld w 16 6) then h.misuse p true 9 addr
  else
    let old := h.reg r.id r.i
    let h1 := h.setReg r.id r.i 0 w
    if slab then (if bit old 15 && !bit w 15 then h1.freePage r.i else h1)
    else if bit w 15 then h1.setReg .slbHzero r.i 0 0xFFFFFFFF#32 else h1

/-- Count an uncorrectable slab error in a page, and raise F1 for its holder (R520, R522). -/
def Hw.slabUe (h : Hw) (p : Nat) : Hw :=
  let h := h.modReg .slbEccEvt (tileNode (p / 64)) 0 (bumpFld · 24 8 1)
  let w := h.reg .slbLease p
  if bit w 15 then h.raiseF1 (fld w 16 6) (fld w 22 10) 8 (tileNode (p / 64)) 0 else h

/-- A corrected slab error (R519). -/
def Hw.slabCe (h : Hw) (p : Nat) : Hw := (h.modReg .slbEccEvt (tileNode (p / 64)) 0 (bumpFld · 0 16 1)).logF2

/-- An uncorrectable line of page p: a held page raises F1, an unheld page is retired, and its bytes are cleared (R521). -/
def Hw.patrolUe (h : Hw) (n p : Nat) : Hw :=
  if bit (h.reg .slbLease p) 15 && !h.mem.zeroing.contains p then h.slabUe p
  else
    let h := (h.modReg .slbEccEvt n 0 (bumpFld · 24 8 1)).retirePage p
    { h with mem := { h.mem with slab := memClear h.mem.slab (p * pageSize) pageSize } }

/-- The patrol reads one line of a tile's slab (R521, R522): `ce` corrected words, `ue` an uncorrectable one. -/
def Hw.patrol (h : Hw) (i : Nat) (ce : Nat) (ue : Bool) : Hw :=
  if !h.running then h
  else
    let n := tileNode i
    let line := fld (h.reg .slbScrub n) 0 14
    let p := i * 64 + line / 256
    let h := h.modReg .slbScrub n 0 (fun w =>
      if line = 16383 then bumpFld (setFld w 0 14 0) 16 16 1 else setFld w 0 14 (line + 1))
    let h := (List.range ce).foldl (fun h _ => h.slabCe p) h
    if ue then h.patrolUe n p else h

/-- An HBM pair (stack × 16 + pair of the stack) fails in RUN: it is mapped out and F0 is raised (R546, R547). -/
def Hw.pairFail (h : Hw) (q cause : Nat) : Hw :=
  if h.pairUsable q then
    ((h.pairOut q true).modReg .ancFaultCond 0 0 (setBit · 4 true)).raiseF0 cause (nodeOf 1 (q / 8)) 0
  else h

/-- The next granule to zero at memory node Mi: the first set granule of the first held unit (R533). -/
def Hw.nextGranule (h : Hw) (m : Nat) : Option (Nat × Nat) :=
  (h.regs.find? (fun e => decide (e.1.id = RegId.slbHzero) && e.1.i / 4096 == m && e.2 != 0#32 && bit (h.reg .slbHlease e.1.i) 15)).map
    (fun e => (e.1.i, ((List.range 32).find? (fun g => bit e.2 g)).getD 0))

end Sys2Proof.Machine
end

