-- ==== Sys2Proof/Machine/Mover.lean ====
section
/-! DEFINITION. Movers and memory paths (chapters 11 and 12): how a mover's blocks come and go, in its own slab, in HBM and in host
windows. -/

namespace Sys2Proof.Machine

def Hw.job (h : Hw) (t : Nat) : JobState := nget h.jobs t {}
def Hw.setJob (h : Hw) (t : Nat) (j : JobState) : Hw := { h with jobs := nset h.jobs t j {} }
def Hw.modJob (h : Hw) (t : Nat) (f : JobState → JobState) : Hw := h.setJob t (f (h.job t))

/-- The PCIe link is up (R657). -/
def Hw.pcieUp (h : Hw) : Bool := fld (h.reg .hstLinkStatus) 0 4 != 0

/-- The base of a tenant's window slot as registered, in 64 KiB units (R685). -/
def Hw.winBase (h : Hw) (t w : Nat) : Nat := fld (h.reg .hstWinBaseLo t w) 16 16 + 2 ^ 16 * (h.reg .hstWinBaseHi t w).toNat

/-- A captured window can be used: not withdrawn, the link up, the VF a bus master (R542, R686, R691). -/
def Hw.windowOk (h : Hw) (t k : Nat) : Bool :=
  match (h.jobWindows t)[k]? with
  | none => false
  | some w => !bit (h.reg .hstWinStatus t w.1) 1 && h.pcieUp && !h.host.d3 && !h.host.busMasterOff.contains t

/-- A number for a new operation or access. -/
def Hw.newId (h : Hw) : Nat × Hw := (h.opId, { h with opId := h.opId + 1 })

/-- The node that performs an access; none for the mover's own slab. -/
def holderNode : MemRef → Option Nat
  | .hbm a => some (nodeOf 1 (a / unitSize / 4096))
  | .window _ _ => some hostNode
  | _ => none

/-- The memory flow of a tenant from one node to another: the plan's kind-2 flows take the place of the default spill flows
(R539). -/
def Hw.memFlow (h : Hw) (t src dst : Nat) : Option Nat :=
  let mine := h.mem.flows.filter (fun f => f.tenant == t)
  let plan := mine.filter (·.plan)
  ((if plan.isEmpty then mine.filter (fun f => !f.plan) else plan).find? (fun f => f.src == src && f.dst == dst)).map (·.flow)

/-- A relay flow of the image (R540). -/
def Hw.relayFlow (h : Hw) (src dst : Nat) : Option Nat :=
  (h.mem.flows.find? (fun f => f.tenant == 64 && f.src == src && f.dst == dst)).map (·.flow)

/-- The memory path of a tile node to the node that performs an access (R539, R540): the flows outward and the flows back. -/
def Hw.memPath (h : Hw) (t n holder : Nat) : Option (List Nat × List Nat) :=
  match h.memFlow t n holder, h.memFlow t holder n with
  | some o, some b => some ([o], [b])
  | _, _ =>
    let entry := (List.range 12).find? (fun i => (h.memFlow t n (nodeOf 1 i)).isSome && (h.memFlow t (nodeOf 1 i) n).isSome)
    match entry.map (nodeOf 1) with
    | none => none
    | some m =>
      match h.memFlow t n m, h.memFlow t m n, h.relayFlow m holder, h.relayFlow holder m with
      | some o, some b, some r, some s => some ([o, r], [s, b])
      | _, _, _, _ => none

/-- A mover starts an access over the memory path; without a path it waits (R540). A write's data travels first; a read's request
is at the performing node at once. The default spill flows are the die's own (R168). -/
def Hw.memStart (h : Hw) (i op addr : Nat) (write : Bool) (bs : List Byte) (len : Nat) : Hw :=
  let t := h.tileTenant i
  let n := tileNode i
  let x := h.newId
  let path := ((holderNode (h.memRef t addr)).bind (h.memPath t n)).getD ([], [])
  let r : MemReq := ⟨x.1, i, op, addr, write, t, h.tileGen i, payload bs, len, if write then path.1 else path.2, !write, false⟩
  let h := { x.2 with mem := { x.2.mem with reqs := x.2.mem.reqs ++ [r] } }
  match write, path.1 with
  | true, f :: _ => h.inject n (if h.mem.flows.any (fun m => m.flow == f && m.plan) then some t else none) (mkFlit f true 0 (payload bs))
  | _, _ => h

/-- An access of an operation is on the memory path. -/
def Hw.memBusy (h : Hw) (op : Nat) : Bool := h.mem.reqs.any (fun r => r.op == op)

/-- Read len bytes at a tenant address that lies in the mover's own slab or nowhere: the bytes, or none where the access is
refused (R528). The slab's uncorrectable errors come as commands of their own. -/
def Hw.moverSlabRead (h : Hw) (i a len : Nat) : Option (List Byte) :=
  let t := h.tileTenant i
  match h.memRef t a with
  | .slab b => if h.holds t (h.tileGen i) (.slab b) then some (h.slabRead b len) else none
  | _ => none

/-- Write bytes at a tenant address that lies in the mover's own slab: the state, and whether the write was performed. -/
def Hw.moverSlabWrite (h : Hw) (i a : Nat) (bs : List Byte) : Hw × Bool :=
  let t := h.tileTenant i
  match h.memRef t a with
  | .slab b => if h.holds t (h.tileGen i) (.slab b) then (h.slabWrite b bs, true) else (h, false)
  | _ => (h, false)

/-- The address lies in a region that a memory path serves. -/
def remoteAddr (a : Nat) : Bool := decide (slabEnd ≤ a)

/-- Change the first operation of a list that has an id. -/
def updSend (ops : List SendOp) (id : Nat) (f : SendOp → SendOp) : List SendOp := ops.map (fun s => if s.id = id then f s else s)

/-- The flits of an operation still wait at a source slot. -/
def Hw.opWaits (h : Hw) (id : Nat) : Bool := h.bnet.inj.any (fun e => e.2.any (fun f => f.op == id))

/-- The units that a SEND, or a sending tail, moves. -/
def SendOp.units (s : SendOp) : Nat := cdiv s.bytes 128

/-- Hand the next unit of a SEND to its source slot (R485): `bs` is what was read, none where the read was refused, which sends
all-zero flits (R528). -/
def Hw.sendUnit (h : Hw) (i : Nat) (s : SendOp) (bs : Option (List Byte)) (poison : Bool) : Hw :=
  let n := tileNode i
  let a := s.src + 128 * s.sent
  let ue := s.ueAt == some s.sent && !remoteAddr a && bs.isSome
  let h := if ue then h.slabUe (a / pageSize) else h
  let f := mkFlit s.flow (s.last && s.sent + 1 == s.units) 0 (payload (bs.getD [])) false (poison || ue)
  let h := h.inject n (some (h.tileTenant i)) { f with op := s.id }
  let h := (h.modPort i (fun p => { p with sends := updSend p.sends s.id (fun s =>
    { s with sent := s.sent + 1, waiting := false, bad := s.bad || bs.isNone }) })).act n 6
  h.binBytes i s.tag 128

/-- The bytes of unit k of a SEND that come from its source; the rest of the stream is zero (R439). -/
def SendOp.fetch (s : SendOp) (k : Nat) : Nat := Nat.min 128 (s.elems - 128 * k)

/-- The mover of tile i reads the next unit of the first unfinished SEND of a flow, when the flow's source slot has taken the
last one (R485, R487, R258); the fence (Table 16.5) and a droop gate (R765) stop its reads. -/
def Hw.pumpFlow (h : Hw) (i flow : Nat) : Hw :=
  match (h.port i).sends.find? (fun s => s.flow == flow && s.sent < s.units) with
  | none => h
  | some s =>
    if h.opWaits s.id || s.waiting || h.gated (tileNode i) || h.fenced (h.tileTenant i) (h.tileGen i) ||
        ((h.port i).sends.takeWhile (fun x => x.id != s.id)).any (fun x => x.flow == flow) then h
    else
      let len := s.fetch s.sent
      if len = 0 then h.sendUnit i s (some []) false
      else if remoteAddr (s.src + 128 * s.sent) then
        (h.modPort i (fun p => { p with sends := updSend p.sends s.id (fun s => { s with waiting := true }) })).memStart
          i s.id (s.src + 128 * s.sent) false [] len
      else h.sendUnit i s (h.moverSlabRead i (s.src + 128 * s.sent) len) false

/-- Pump every flow of a tile's SENDs. -/
def Hw.pump (h : Hw) (i : Nat) : Hw :=
  ((h.port i).sends.map (·.flow)).eraseDups.foldl (fun h f => h.pumpFlow i f) h

/-- A flit was granted at a tile node's slot: its mover reads on. -/
def Hw.pumpNode (h : Hw) (n : Nat) : Hw := if nodeClass n = 0 then h.pump (nodeInst n) else h

/-- The active receive cursor of a flow at a tile: its first RECV (R485). -/
def Hw.cursor (h : Hw) (i flow : Nat) : Option RecvOp := (h.port i).recvs.find? (fun r => r.flow == flow)

/-- Change a RECV. -/
def Hw.modRecv (h : Hw) (i id : Nat) (f : RecvOp → RecvOp) : Hw :=
  h.modPort i (fun p => { p with recvs := p.recvs.map (fun r => if r.id = id then f r else r) })

/-- A flit is consumed by a receive cursor (R276, R479, R485): its bytes up to `cap` go to the destination or to FO, the rest is
dropped. `plan` is the flow's plan-local identifier. -/
def Hw.deliverRecv (h : Hw) (i : Nat) (r : RecvOp) (plan : Nat) (f : Flit) : Hw :=
  let k := Nat.min 128 (r.cap - r.got)
  let h := (h.modRecv i r.id (fun r => { r with got := r.got + k, dropped := r.dropped + (128 - k), seen := f.last })).act (tileNode i) 6
  if k = 0 || r.null then h
  else if r.toLane then
    h.modPort i (fun p => { p with fo := p.fo - 1, lastFo := some (plan, { f with left := 0, op := 0 }) })
  else
    let bs := (payloadBytes f.data).take k
    if remoteAddr (r.dst + r.got) then
      (h.modRecv i r.id (fun r => { r with writes := r.writes + 1 })).memStart i r.id (r.dst + r.got) true bs k
    else
      let x := h.moverSlabWrite i (r.dst + r.got) bs
      if x.2 then x.1 else x.1.modRecv i r.id (fun r => { r with bad := true })

/-- The data of a read, or the end of a write, comes back to the operation that asked for it. -/
def Hw.memReturn (h : Hw) (r : MemReq) (bs : Option (List Byte)) (poison : Bool) : Hw :=
  let i := r.tile
  let p := h.port i
  match p.sends.find? (fun s => s.id == r.op) with
  | some s => (h.sendUnit i s bs poison).pump i
  | none =>
    match p.recvs.find? (fun x => x.id == r.op) with
    | some x => h.modRecv i x.id (fun x => { x with writes := x.writes - 1, bad := x.bad || bs.isNone })
    | none =>
      match p.moves.find? (fun m => m.id == r.op) with
      | some m =>
        if r.write then
          h.modPort i (fun p => { p with moves := p.moves.map (fun x => if x.id = m.id then
            { x with done := x.done + 128, waiting := false, bad := x.bad || bs.isNone } else x) })
        else
          -- a unit read from memory is written to the slab (R486)
          let x := h.moverSlabWrite i (m.dst + m.done) (bs.getD (List.replicate 128 0#8))
          x.1.modPort i (fun p => { p with moves := p.moves.map (fun y => if y.id = m.id then
            { y with done := y.done + 128, waiting := false, bad := y.bad || bs.isNone || !x.2 } else y) })
      | none =>
        h.modPort i (fun p => { p with ccx := p.ccx.map (fun c => if c.id = r.op then
          { c with fetching := false, bad := c.bad || bs.isNone, buf := c.buf ++ (bs.getD (List.replicate r.len 0#8)) } else c) })

/-- Remove an access. -/
def Hw.memDrop (h : Hw) (id : Nat) : Hw := { h with mem := { h.mem with reqs := h.mem.reqs.filter (fun r => r.id != id) } }
def Hw.memSet (h : Hw) (r : MemReq) : Hw := { h with mem := { h.mem with reqs := h.mem.reqs.map (fun x => if x.id = r.id then r else x) } }

/-- What a performed read sends back: on the first flow back, or at once where the path has none. -/
def Hw.memReply (h : Hw) (r : MemReq) (holder : Nat) (bs : Option (List Byte)) (poison : Bool) : Hw :=
  match r.hops with
  | [] => (h.memDrop r.id).memReturn r bs poison
  | f :: _ =>
    let data := payload (bs.getD [])
    ((h.memSet { r with ready := false, done := true, data := data, len := if bs.isNone then 0 else r.len }).inject holder none
      (mkFlit f true 0 data false poison))

/-- The next unit of a MOVE (R486): slab to slab at once, else over the memory path. -/
def Hw.moveUnit (h : Hw) (i : Nat) (m : MoveOp) : Hw :=
  let setM (h : Hw) (f : MoveOp → MoveOp) : Hw :=
    h.modPort i (fun p => { p with moves := p.moves.map (fun y => if y.id = m.id then f y else y) })
  let h := (h.act (tileNode i) 6).binBytes i m.tag 128
  if remoteAddr (m.src + m.done) then
    (setM h (fun m => { m with waiting := true })).memStart i m.id (m.src + m.done) false [] 128
  else
    let bs := h.moverSlabRead i (m.src + m.done) 128
    let data := bs.getD (List.replicate 128 0#8)
    if remoteAddr (m.dst + m.done) then
      (setM h (fun m => { m with waiting := true, bad := m.bad || bs.isNone })).memStart i m.id (m.dst + m.done) true data 128
    else
      let x := h.moverSlabWrite i (m.dst + m.done) data
      setM x.1 (fun m => { m with done := m.done + 128, bad := m.bad || bs.isNone || !x.2 })

/-- The units of a MOVE up to the next one that goes over a memory path; a droop gate stops its reads (R765). -/
def Hw.moveRun (h : Hw) (i id : Nat) : Nat → Hw
  | 0 => h
  | k + 1 =>
    match (h.port i).moves.find? (fun m => m.id == id) with
    | some m => if m.bytes ≤ m.done || m.waiting || h.gated (tileNode i) then h else (h.moveUnit i m).moveRun i id k
    | none => h

/-- A memory-path access is performed at the node that holds its unit (R528, R533, R540, R542, R546). `data` is what host memory
returns, `repeats` the commands repeated for parity, `ce` a corrected and `ue` an uncorrectable read, `ok` the PCIe request's success, `dead` a pair whose command stays in
error after 4 repeats. -/
def Hw.memPerform (h : Hw) (id : Nat) (data : List Byte) (repeats : Nat) (ok ce ue dead : Bool) : Hw :=
  match h.mem.reqs.find? (fun r => r.id == id && r.ready && !r.done) with
  | none => h
  | some r =>
    let ref := h.memRef r.tenant r.addr
    let holder := (holderNode ref).getD anchorNode
    let refused := !h.holds r.tenant r.gen ref
    let finish (h : Hw) (bs : Option (List Byte)) (poison : Bool) : Hw :=
      if r.write then (h.memDrop id).memReturn r bs poison else h.memReply r holder bs poison
    if refused then finish h none false
    else match ref with
      | .hbm a =>
        let q := a / unitSize / 512
        let h := (h.act holder 6).modReg .memEccEvt holder 0 (bumpFld · 16 8 repeats)
        if dead then finish (h.pairFail q 0x46) (some []) (!r.write)
        else if r.write then finish (h.hbmWrite a ((payloadBytes r.data).take r.len)) (some []) false
        else
          let h := if ce then (h.modReg .memEccEvt holder 0 (bumpFld · 0 16 1)).logF2 else h
          let h := if ue then (h.modReg .memEccEvt holder 0 (bumpFld · 24 8 1)).raiseF1 r.tenant r.gen 9 holder 0 else h
          finish h (some (h.hbmRead a r.len)) ue
      | .window k off =>
        if !h.windowOk r.tenant k || !ok then finish (h.raiseF1 r.tenant r.gen 0x0d hostNode 0) (some []) (!r.write)
        else if r.write then
          let w := ((h.jobWindows r.tenant)[k]?).getD (0, 0, 0)
          let x : HostWrite := ⟨r.tenant + 1, w.2.1 * pageSize + off, (payloadBytes r.data).take r.len⟩
          finish { h with host := { h.host with out := h.host.out ++ [x] } } (some []) false
        else finish h (some ((data ++ List.replicate r.len 0#8).take r.len)) false
      | _ => finish h none false

/-- A flit of a memory flow reaches a sink: the data of the first access that travels on that flow goes on, becomes ready to be
performed, or returns to its mover (R540). -/
def Hw.memSink (h : Hw) (n : Nat) (f : Flit) : Hw :=
  match h.memCarried f with
  | none => h
  | some r =>
    match r.hops with
    | _ :: g :: rest => (h.memSet { r with hops := g :: rest }).inject n none (mkFlit g true 0 f.data false f.poison)
    | _ =>
      if r.write then h.memSet { r with hops := [], ready := true }
      else (h.memDrop r.id).memReturn r (if r.len = 0 then none else some ((payloadBytes f.data).take r.len)) f.poison

/-- Counters of SENDs: the last flit of a SEND has been granted (R485). -/
def SendOp.finished (h : Hw) (s : SendOp) : Bool := s.sent == s.units && !h.opWaits s.id

end Sys2Proof.Machine
end

