-- ==== Sys2Proof/Machine/Collect.lean ====
section
/-! DEFINITION. Collectives (chapter 10): CCX tails, the count exchange, their bulk data and completion, ring entries and
sequencers. -/

namespace Sys2Proof.Machine

/-- Fields of a CCX descriptor's word 1 (Table 10.1). -/
def CcxOp.group (c : CcxOp) : Nat := fld c.w1 0 8
def CcxOp.op (c : CcxOp) : Nat := fld c.w1 8 2
def CcxOp.capacity (c : CcxOp) : Bool := bit c.w1 10
def CcxOp.esize (c : CcxOp) : Nat := 2 ^ fld c.w1 12 2
def CcxOp.countSync (c : CcxOp) : Nat := fld c.w1 16 8
def CcxOp.count (c : CcxOp) : Nat := fld c.w1 32 32
def CcxOp.reduce (c : CcxOp) : Bool := c.op == 2

/-- The tile is the root of a group slot. -/
def Hw.isRoot (h : Hw) (i k : Nat) : Bool := bit (h.reg .cqGroupCfg (tileNode i) k) 14
def Hw.slotTree (h : Hw) (i k : Nat) : Option Nat :=
  let w := h.reg .cqGroupFlow (tileNode i) k
  if bit w 15 then some (fld w 0 12) else none
def Hw.slotBcast (h : Hw) (i k : Nat) : Option Nat :=
  let w := h.reg .cqGroupFlow (tileNode i) k
  if bit w 31 then some (fld w 16 13) else none

/-- Roles of Table 10.2. -/
def Hw.sender (h : Hw) (i : Nat) (c : CcxOp) : Bool := c.reduce || h.isRoot i c.slot
def Hw.receiver (h : Hw) (i : Nat) (c : CcxOp) : Bool := if c.reduce then h.isRoot i c.slot else !h.isRoot i c.slot

/-- The slot that holds a plan-local group at a tile (R424). -/
def Hw.groupSlot (h : Hw) (i g : Nat) : Option Nat :=
  (List.range 16).find? (fun k =>
    bit (h.reg .tpGmap (tileNode i) k) 31 && fld (h.reg .tpGmap (tileNode i) k) 0 8 == g && bit (h.reg .cqGroupCfg (tileNode i) k) 15)

/-- The die sync ID of a plan-local sync record at a tile (R484). -/
def Hw.syncOf (h : Hw) (i s : Nat) : Option Nat :=
  ((List.range 64).find? (fun k => bit (h.reg .tpSmap (tileNode i) k) 31 && fld (h.reg .tpSmap (tileNode i) k) 16 8 == s)).map
    (fun k => fld (h.reg .tpSmap (tileNode i) k) 0 9)

/-- The sync ID of a counted tail's exchange, where it meets R435: a valid Rimshot group of 32 bytes of INT64 that names the
group. -/
def Hw.countSyncOf (h : Hw) (i : Nat) (c : CcxOp) : Option Nat :=
  (h.syncOf i c.countSync).bind (fun s =>
    let w := h.syncCfg s
    if 256 ≤ s ∧ bit w 15 ∧ fld w 8 3 = 2 ∧ fld w 11 3 = 7 ∧ fld w 0 8 = fld (h.reg .cqGroupCfg (tileNode i) c.slot) 0 8 then some s
    else none)

/-- The member's context of the group's fold tree, with an input for its mover (R426, R381). -/
def Hw.localCtx (h : Hw) (i k : Nat) : Option Nat :=
  let n := tileNode i
  (h.slotTree i k).bind (fun t => (h.treeCtx n t).bind (fun c =>
    if fld (h.reg .fldCfg n c) 16 16 == fld (h.reg .cqGroupCfg n k) 16 16 && (h.ctxMask n c).testBit 0 then some c else none))

/-- The closing root of a tree on this module: its context and output flow. -/
def Hw.closingRoot (h : Hw) (tree : Nat) : Option (Nat × Nat) :=
  (h.regs.find? (fun e => decide (e.1.id = RegId.fldCfg) && bit e.2 15 && fld e.2 0 12 == tree && h.ctxRoot e.1.i e.1.j)).map
    (fun e => (e.1.i, e.1.j))

/-- Bytes of a result element: the destination format of the closing root. -/
def Hw.resultSize (h : Hw) (i : Nat) (c : CcxOp) : Nat :=
  match (h.slotTree i c.slot).bind h.closingRoot with
  | some (n, k) => if h.ctxDst n k = 0 then carSize (h.ctxCarrier n k) else inSize (h.ctxDst n k)
  | none => c.esize

/-- Elements of its own source that a sender's range covers (below Table 10.4). -/
def CcxOp.srcCount (c : CcxOp) : Nat := if c.capacity then Nat.min c.count c.cap else c.count

/-- The checks of Table 10.4 at tail start, steps 2 to 4: the status of the first failure, 0 where all pass. `rsv`: a reserved
field of the descriptor is not 0. -/
def Hw.tailCheck (h : Hw) (i : Nat) (c : CcxOp) : Nat :=
  let n := tileNode i
  let t := h.tileTenant i
  let g := h.tileGen i
  let root := h.isRoot i c.slot
  let snd := h.sender i c
  let rcv := h.receiver i c
  let srcLen := c.srcCount * c.esize
  let dstLen := c.cap * c.esize
  let sizeOk := if c.reduce then (h.localCtx i c.slot).any (fun k => inSize (fld (h.reg .fldFmt n k) 0 4) == c.esize)
    else (h.slotBcast i c.slot).isSome && 2 ^ fld (h.reg .cqGroupCfg n c.slot) 8 2 == c.esize
  let overlap := c.reduce && root && srcLen != 0 && dstLen != 0 && decide (c.src < c.dst + dstLen ∧ c.dst < c.src + srcLen ∧ c.src ≠ c.dst)
  if fld c.w1 14 2 ≠ 0 ∨ fld c.w1 24 8 ≠ 0 ∨ c.op = 0 ∨ c.op = 3 ∨ (c.capacity ∧ c.countSync ≠ 0) ∨ c.bad then scBadDesc
  else if !sizeOk || (snd && c.src % 128 != 0) || (rcv && c.dst % 128 != 0) || overlap then scBadDesc
  else if !c.capacity && (h.countSyncOf i c).isNone then scBadDesc
  else if (!c.capacity && c.reduce && decide (2 ^ 23 ≤ c.count)) || (c.capacity && c.cap == 0) then scBadSize
  else if (snd && !h.rangeHeld i t g c.src srcLen false) || (rcv && !h.rangeHeld i t g c.dst dstLen false) then scLease
  else 0

def Hw.modCcx (h : Hw) (i id : Nat) (f : CcxOp → CcxOp) : Hw :=
  h.modPort i (fun p => { p with ccx := p.ccx.map (fun c => if c.id = id then f c else c) })

/-- A member's report to the sequencer of a scope-1 group (R432, R434). -/
def Hw.seqReport (h : Hw) (i k : Nat) (start : Bool) (moved : Nat) : Hw :=
  let w := h.reg .cqGroupCfg (tileNode i) k
  if bit w 13 then
    { h with coll := { h.coll with reports := h.coll.reports ++
        [⟨nodeOf 4 (fld w 10 2), tileNode i, fld w 0 8, fld w 16 6, fld w 22 10, start, moved⟩] } }
  else h

/-- Elements that the operation moves from each sender: C of a capacity mode, L of a counted one. -/
def CcxOp.total (c : CcxOp) : Nat := if c.capacity then c.cap else c.len

/-- The source elements that a sender supplies; none for a null member (R439, R442). -/
def CcxOp.supplied (c : CcxOp) : Nat := if c.null ≠ 0 then 0 else Nat.min c.count c.total

/-- The elements that a receiver writes at most (R438 to R440). -/
def CcxOp.accepted (c : CcxOp) : Nat := if c.capacity then c.cap else Nat.min c.len c.cap

/-- The mover of a reduce member fetches its next source bytes over the memory path (R443). -/
def Hw.pumpTail (h : Hw) (i id : Nat) : Hw :=
  match (h.port i).ccx.find? (fun c => c.id == id) with
  | none => h
  | some c =>
    let total := c.supplied * c.esize
    if !h.gated (tileNode i) ∧ c.phase = 2 ∧ c.reduce ∧ remoteAddr c.src ∧ !c.fetching ∧ c.buf.length < 256 ∧ c.bufAt + c.buf.length < total then
      let at' := c.bufAt + c.buf.length
      (h.modCcx i id (fun c => { c with fetching := true })).memStart i id (c.src + at') false [] (Nat.min 128 (total - at'))
    else h

/-- The bulk data of a tail begins to move (R425, R426, R436, R439, R442). -/
def Hw.tailMove (h : Hw) (i : Nat) (c : CcxOp) (ueAt : Option Nat) : Hw :=
  let h := h.modCcx i c.id (fun x => { x with phase := 2 })
  let h := if c.reduce then h.pumpTail i c.id
    else if h.isRoot i c.slot then
      let f := (h.slotBcast i c.slot).getD 0
      let h := { h with coll := { h.coll with lens := nset h.coll.lens (f * 256 + c.opno) c.total 0 } }
      let s : SendOp := ⟨c.id, c.tag, f, c.src, Nat.max 1 (c.total * c.esize), c.supplied * c.esize, true, 0, false, false, ueAt⟩
      (h.modPort i (fun p => { p with sends := p.sends ++ [s] })).pump i
    else h
  if h.receiver i c then
    let f := if c.reduce then ((h.slotTree i c.slot).bind h.closingRoot).map (fun x => h.ctxOut x.1 x.2) else h.slotBcast i c.slot
    let size := if c.reduce then h.resultSize i c else c.esize
    let r : RecvOp := ⟨c.id, c.tag, f.getD 8192, c.dst, c.accepted * size, false, 0, 0, false, 0, false, c.null != 0⟩
    h.modPort i (fun p => { p with recvs := p.recvs ++ [r] })
  else h

/-- The held tail of a tag that R417 lets start: released, with no earlier tail of its group, outside DRAINED and unfenced. -/
def Hw.startable (h : Hw) (i tag : Nat) : Option CcxOp :=
  match (h.port i).ccx.find? (fun c => c.tag == tag) with
  | none => none
  | some c =>
    let earlier := ((h.port i).ccx.takeWhile (fun x => x.id != c.id)).any (fun x => x.slot == c.slot)
    if c.phase = 0 ∧ c.released ∧ !earlier ∧ h.portState i ≠ psDrained ∧ !h.fenced (h.tileTenant i) (h.tileGen i) then some c else none

/-- A tail starts: its checks, then the count exchange or the bulk data (R417, R435, R441, R442). -/
def Hw.tailStart (h : Hw) (i tag : Nat) (ueAt : Option Nat) : Hw :=
  match h.startable i tag with
  | none => h
  | some c =>
    let n := tileNode i
    let st := h.tailCheck i c
    let h := if st = 0 then h else h.violation i st tag opCcx
    let c := { c with null := st, opno := fld (h.reg .cqStatus n c.slot) 24 8 }
    let h := (h.modCcx i c.id (fun _ => c)).seqReport i c.slot true 0
    if !c.capacity then h.modCcx i c.id (fun x => { x with phase := 1 })
    else if (c.reduce && (h.localCtx i c.slot).isNone) || (!c.reduce && (h.slotBcast i c.slot).isNone) || c.op == 0 || c.op == 3 then
      h.modCcx i c.id (fun x => { x with phase := 3, status := st })
    else h.tailMove i c ueAt

/-- A 64-bit lane as two words, low word first. -/
def lane64 (v : Nat) : List Word := [BitVec.ofNat 32 v, BitVec.ofNat 32 (v / 2 ^ 32)]

/-- The lanes of a tail's count contribution (Table 10.3, R442). -/
def Hw.countLanes (h : Hw) (i : Nat) (c : CcxOp) : List Word :=
  let l : List Nat := if c.null ≠ 0 then [0, 0, 1, 1]
    else if c.reduce then [c.count, c.count * c.count, 1, 0]
    else [if h.isRoot i c.slot then c.count else 0, 0, 1, 0]
  l.flatMap lane64

/-- A round packet of a sync ID with this tile's words. -/
def Hw.syncPkt (h : Hw) (s : Nat) (ws : List Word) : SPkt :=
  let c := h.syncCfg s
  ⟨s, fld (h.syncStatus s) 0 8 % 4, fld c 16 6, fld c 22 10, ws⟩

/-- A tile node builds the UP packet of a member's contribution that waits for sync ID s and injects it (R339, R340, R358); the
fence holds it (Table 16.5). A tail contributes once no SYNC of the tile holds the round. A SYNC whose contribution is dropped at
its own node is answered with BAD_ARG for its length, else with BAD_SYNC. -/
def Hw.syncContribute (h : Hw) (i s : Nat) : Hw :=
  let p := h.port i
  let n := tileNode i
  let round := fld (h.syncStatus s) 0 8
  if h.fenced (fld (h.syncCfg s) 16 6) (fld (h.syncCfg s) 22 10) then h
  else match p.syncs.find? (fun x => x.sync == s) with
    | some x =>
      if x.sent then h
      else
        let r := h.contribute n { h.syncPkt s x.words with tenant := h.tileTenant i, gen := h.tileGen i } round
        if r.2 = 0 then
          (r.1.act n 11).modPort i (fun p => { p with syncs := p.syncs.map (fun y => if y.tag = x.tag then { y with sent := true } else y) })
        else
          (r.1.modPort i (fun p => { p with syncs := p.syncs.filter (fun y => y.tag != x.tag) })).finish i x.tag
            (if r.2 = 5 then scBadArg else scBadSync) [] 0
    | none =>
      match p.ccx.find? (fun c => c.phase == 1 && !c.sentW && h.countSyncOf i c == some s) with
      | some c =>
        ((h.contribute n { h.syncPkt s (h.countLanes i c) with tenant := h.tileTenant i, gen := h.tileGen i } round).1.act n 11).modCcx i
          c.id (fun c => { c with sentW := true })
      | none => h

/-- The outcome of a count exchange (R436): the summed lanes s, q, m and f. -/
def Hw.countOutcome (h : Hw) (i : Nat) (c : CcxOp) (ws : List Word) (ueAt : Option Nat) : Hw :=
  let lane (j : Nat) : Nat := (ws.getD (2 * j) 0#32).toNat + 2 ^ 32 * (ws.getD (2 * j + 1) 0#32).toNat
  let s := lane 0
  let q := lane 1
  let m := lane 2
  let f := lane 3
  let c := { c with members := m, failed := f }
  let stop (h : Hw) (st : Nat) : Hw := h.modCcx i c.id (fun _ => { c with phase := 3, status := st })
  if 0 < f || c.null != 0 then stop h (if c.null ≠ 0 then c.null else scPeer)
  else if c.reduce && m * q != s * s then stop h scMismatch
  else
    let len := if c.reduce then s / m else s
    let c := { c with len := len }
    if len = 0 then h.modCcx i c.id (fun _ => { c with phase := 3, status := 0 })
    else (h.modCcx i c.id (fun _ => c)).tailMove i c ueAt

/-- The 64-bit words of a Rimshot payload. -/
def wordPairs : List Word → List (BitVec 64)
  | a :: b :: rest => (b ++ a) :: wordPairs rest
  | [a] => [a.setWidth 64]
  | [] => []

/-- A DOWN packet is delivered to the member at node n (R343, R344, R488): to its SYNC, or to the tail whose count exchange it
is. -/
def Hw.downDeliver (h : Hw) (n s : Nat) (ueAt : Option Nat) : Hw :=
  match takeFirst (fun e : Nat × SPkt => e.1 == n && e.2.sync == s) h.snet.down with
  | none => h
  | some (e, rest) =>
    let h := { h with snet := { h.snet with down := rest } }
    let i := nodeInst n
    match (h.port i).syncs.find? (fun x => x.sync == s && x.sent) with
    | some x =>
      (h.modPort i (fun p => { p with syncs := p.syncs.filter (fun y => y.tag != x.tag) })).finish i x.tag 0 (wordPairs e.2.words) 0
    | none =>
      match (h.port i).ccx.find? (fun c => c.phase == 1 && c.sentW && h.countSyncOf i c == some s) with
      | some c => h.countOutcome i c e.2.words ueAt
      | none => h

/-- The next block of the mover of tile node n for context k: its tail, elements in the carrier and last bit (R381, R387,
R439, R442). -/
def Hw.tailBlock (h : Hw) (n k : Nat) : Option (CcxOp × List Nat × Bool) :=
  if nodeClass n ≠ 0 then none
  else
    let i := nodeInst n
    match (h.port i).ccx.find? (fun c => c.phase == 2 && c.reduce && !c.combined && h.localCtx i c.slot == some k) with
    | none => none
    | some c =>
      let fmt := fld (h.reg .fldFmt n k) 0 4
      let car := h.ctxCarrier n k
      let per := carElems car
      let blocks := Nat.max 1 (cdiv c.total per)
      let have' := Nat.min per (c.supplied - c.blk * per)
      let off := c.blk * per * inSize fmt
      let need := have' * inSize fmt
      let bytes : Option (List Byte) :=
        if need = 0 then some []
        else if remoteAddr c.src then
          (if off + need ≤ c.bufAt + c.buf.length then some ((c.buf.drop (off - c.bufAt)).take need) else none)
        else if h.gated n then none
        else some ((h.moverSlabRead i (c.src + off) need).getD (List.replicate need 0#8))
      bytes.map (fun b => (c, (elemsOf (inSize fmt) have' b).map (widen fmt) ++ List.replicate (per - have') 0, c.blk + 1 == blocks))

/-- The block has been combined: the tail goes on to the next one. -/
def Hw.tailConsumed (h : Hw) (n k : Nat) (c : CcxOp) (last : Bool) : Hw :=
  let i := nodeInst n
  let per := carElems (h.ctxCarrier n k) * inSize (fld (h.reg .fldFmt n k) 0 4)
  let off := c.blk * per
  let len := Nat.min per (c.supplied * c.esize - off)
  let refused := len != 0 && !remoteAddr c.src && (h.moverSlabRead i (c.src + off) len).isNone
  let h := h.modCcx i c.id (fun c =>
    let used := off + per - c.bufAt
    { c with blk := c.blk + 1, combined := last, bad := c.bad || refused,
             buf := if remoteAddr c.src then c.buf.drop used else [], bufAt := if remoteAddr c.src then off + per else 0 })
  ((h.act n 6).binBytes i c.tag len).pumpTail i c.id

/-- A context combines with its node's mover. -/
def Hw.foldCombineAt (h : Hw) (n k : Nat) (err : FoldErr) : Hw :=
  let b := h.tailBlock n k
  match h.foldCombine n k (b.map (·.2)) err with
  | (h', true) =>
    match (if (h.ctxMask n k).testBit 0 then b else none) with
    | some (c, _, last) => h'.tailConsumed n k c last
    | none => h'
  | (h', false) => h'

/-- The elements that a receiver of a broadcast may write: no more than its root sends (R440). -/
def Hw.bcastLimit (h : Hw) (i : Nat) (c : CcxOp) : Option Nat :=
  (h.slotBcast i c.slot).bind (fun f => let v := nget h.coll.lens (f * 256 + c.opno) 0; if v = 0 then none else some v)

/-- The bytes that a receive cursor accepts: its cap, and for a broadcast receiver no more than the root's elements. -/
def Hw.recvCap (h : Hw) (i : Nat) (r : RecvOp) : Nat :=
  match (h.port i).ccx.find? (fun c => c.id == r.id && !c.reduce) with
  | some c => match h.bcastLimit i c with
    | some l => Nat.min r.cap (l * c.esize)
    | none => r.cap
  | none => r.cap

/-- Status, elements and drops of a tail that has reached its completing event (Table 10.9, R438 to R440, R446). -/
def Hw.tailResult (h : Hw) (i : Nat) (c : CcxOp) : Option (Nat × Nat × Nat) :=
  let p := h.port i
  let cut := if c.capacity && h.sender i c && c.null == 0 then c.count - c.cap else 0
  let outcome (bad : Bool) (elems drops : Nat) : Nat × Nat × Nat :=
    if c.null ≠ 0 then (c.null, 0, 0) else if bad then (scLease, elems, drops)
    else if drops ≠ 0 then (scTruncated, elems, drops) else (0, elems, drops)
  if c.phase = 3 then some (c.status, 0, 0)
  else if c.phase ≠ 2 then none
  else if h.receiver i c then
    match p.recvs.find? (fun r => r.id == c.id) with
    | some r =>
      if r.seen && r.writes == 0 then
        let size := if c.reduce then h.resultSize i c else c.esize
        let root := if c.reduce then c.total else (h.bcastLimit i c).getD ((r.got + r.dropped) / size)
        some (outcome (r.bad || c.bad) (Nat.min c.accepted root) (cut + (root - c.accepted)))
      else none
    | none => none
  else if c.reduce then (if c.combined then some (outcome c.bad c.supplied cut) else none)
  else
    match p.sends.find? (fun s => s.id == c.id) with
    | some s => if s.finished h then some (outcome (s.bad || c.bad) c.supplied cut) else none
    | none => none

/-- Log an error completion of a tail (CQ_TAIL_EVT). -/
def Hw.tailEvt (h : Hw) (i status tag : Nat) : Hw :=
  if status ≤ scTruncated then h
  else h.modReg .cqTailEvt (tileNode i) 0 (fun w =>
    if fld w 24 8 = 0 then mkWord [(24, 8, 1), (16, 8, status), (0, 16, tag)] else bumpFld w 24 8 1)

/-- A completion whose violation has been counted already, at the check that failed (R441). -/
def Hw.finishCounted (h : Hw) (i tag status : Nat) (body : List (BitVec 64)) (len : Nat) : Hw :=
  match (h.port i).cmd tag with
  | none => h
  | some c =>
    let h := h.observeDone i c status len
    h.modPort i (fun p => { p with
      cmds := p.cmds.map (fun d => if d.tag = tag then { d with done := true } else d)
      comps := p.comps ++ [⟨some tag, compHeader c.op body.length tag status status :: body⟩] })

/-- Remove the operations of an id from a port. -/
def TilePort.dropOp (p : TilePort) (id : Nat) : TilePort :=
  { p with ccx := p.ccx.filter (fun x => x.id != id), sends := p.sends.filter (fun x => x.id != id),
           recvs := p.recvs.filter (fun x => x.id != id) }

/-- A tail reaches its completing event (R446, R447). -/
def Hw.tailComplete (h : Hw) (i tag : Nat) : Hw :=
  match (h.port i).ccx.find? (fun c => c.tag == tag) with
  | none => h
  | some c =>
    match h.tailResult i c with
    | none => h
    | some (st, elems, drops) =>
      let n := tileNode i
      let body : List (BitVec 64) := [BitVec.ofNat 64 (elems % 2 ^ 32 + drops % 2 ^ 32 * 2 ^ 32),
        BitVec.ofNat 64 (c.members % 2 ^ 20 + c.failed % 2 ^ 20 * 2 ^ 20 + c.opno % 256 * 2 ^ 40 + c.group * 2 ^ 48)]
      let moved := if c.phase = 3 then 0 else c.op
      let h := (h.tailEvt i st tag).modPort i (fun p => p.dropOp c.id)
      let h := h.modReg .cqStatus n c.slot (fun w => setFld (setFld w 24 8 (fld w 24 8 + 1)) 0 8 st)
      let h := h.seqReport i c.slot false moved
      if c.null ≠ 0 then h.finishCounted i tag st body elems else h.finish i tag st body elems

/-- CQ_STATUS.state of a slot (Table 10.11). -/
def Hw.cqState (h : Hw) (i k : Nat) : Nat :=
  match (h.port i).ccx.filter (fun c => c.slot == k) with
  | [] => 0
  | c :: rest =>
    if (h.tailResult i c).isSome then 6
    else if c.phase = 0 then (if c.released || rest.any (·.released) then 2 else 1)
    else if c.phase = 1 then 3
    else if h.receiver i c && !h.sender i c then 5 else 4

/-- The sequenced group of a Q node that a report concerns. -/
def Hw.seqOf (h : Hw) (q group tenant gen : Nat) : Option Nat :=
  (List.range 64).find? (fun j => let w := h.reg .cqSeqCfg q j
    bit w 15 && fld w 0 8 == group && fld w 16 6 == tenant && fld w 22 10 == gen)

def Hw.seqState (h : Hw) (q j : Nat) : SeqState := nget h.coll.seqs (q * 64 + j) {}
def Hw.setSeq (h : Hw) (q j : Nat) (s : SeqState) : Hw := { h with coll := { h.coll with seqs := nset h.coll.seqs (q * 64 + j) s {} } }

/-- The ring entries of a sequenced group on this module: port and entry. -/
def Hw.groupEntries (h : Hw) (q j : Nat) : List (Nat × Nat) :=
  let c := h.reg .cqSeqCfg q j
  (bitsOf 6 (fld (h.reg .cqSeqScope q j) 0 6)).flatMap (fun p =>
    ((List.range 32).filter (fun r => let w := h.reg .cqRingCfg (portNode p) r
      bit w 15 && fld w 0 8 == fld c 0 8 && fld w 16 16 == fld c 16 16)).map (fun r => (p, r)))

/-- Show a sequencer's state, and complete the current operation where every entry has disarmed and every member tail has
completed (R433). Entries that the operation does not use disarm once its tails have completed. -/
def Hw.seqRefresh (h : Hw) (q j : Nat) : Hw :=
  let s := h.seqState q j
  let members := fld (h.reg .cqSeqScope q j) 16 7
  let started := (s.tiles.filter (fun t => s.ops < t.2.1)).length
  let completed := (s.tiles.filter (fun t => s.ops < t.2.2)).length
  let es := h.groupEntries q j
  let all := s.armed && completed == members
  let h := if all then
      es.foldl (fun h e =>
        let used := if h.ringGate (portNode e.1) e.2 then s.moved == 2 else s.moved == 1
        if used then h else h.modReg .cqRingStatus (portNode e.1) e.2 (setBit · 8 false)) h
    else h
  let disarmed := (List.range 6).foldl (fun m p =>
    let mine := es.filter (fun e => e.1 == p)
    if s.armed && !mine.isEmpty && mine.all (fun e => !h.ringArmed (portNode p) e.2) then m + 2 ^ p else m) 0
  if all && es.all (fun e => !h.ringArmed (portNode e.1) e.2) then
    let s' := { s with ops := s.ops + 1, armed := false, moved := 0 }
    (h.setSeq q j s').setReg .cqSeqStatus q j (mkWord [(24, 8, s'.ops),
      (16, 7, (s.tiles.filter (fun t => s'.ops < t.2.1)).length), (8, 7, (s.tiles.filter (fun t => s'.ops < t.2.2)).length)])
  else h.setReg .cqSeqStatus q j (mkWord [(24, 8, s.ops), (16, 7, started), (8, 7, completed), (0, 6, disarmed)])

/-- A report reaches its sequencer (R432, R434, R699). -/
def Hw.seqArrive (h : Hw) (q : Nat) : Hw :=
  match takeFirst (fun r : SeqReport => r.q == q) h.coll.reports with
  | none => h
  | some (r, rest) =>
    let h := { h with coll := { h.coll with reports := rest } }
    match h.seqOf q r.group r.tenant r.gen with
    | none => if (List.range 64).any (fun j => let w := h.reg .cqSeqCfg q j
                bit w 15 && fld w 0 8 == r.group && fld w 16 6 == r.tenant) then h.stale r.tenant 1 else h
    | some j =>
      let s := h.seqState q j
      let old := ((s.tiles.find? (fun t => t.1 == r.node)).map (·.2)).getD (0, 0)
      let new := if r.start then (old.1 + 1, old.2) else (old.1, old.2 + 1)
      let tiles := s.tiles.filter (fun t => t.1 != r.node) ++ [(r.node, new.1, new.2)]
      let moved := if !r.start && r.moved != 0 && new.2 == s.ops + 1 then r.moved else s.moved
      ((h.setSeq q j { s with tiles := tiles, moved := moved }).act q 10).seqRefresh q j

/-- The sequencer arms the group's entries when the first member tail of the operation has started (R433). -/
def Hw.seqArm (h : Hw) (q j : Nat) : Hw :=
  let s := h.seqState q j
  if bit (h.reg .cqSeqCfg q j) 15 && !s.armed && s.tiles.any (fun t => s.ops < t.2.1) then
    let h := (h.groupEntries q j).foldl (fun h e => h.modReg .cqRingStatus (portNode e.1) e.2 (setBit · 8 true)) h
    ((h.setSeq q j { s with armed := true }).act q 10).seqRefresh q j
  else h

/-- Refresh every sequencer that holds entries at a link node. -/
def Hw.seqRefreshAll (h : Hw) : Hw :=
  h.coll.seqs.foldl (fun h e => h.seqRefresh (e.1 / 64) (e.1 % 64)) h

/-- An armed relay entry of a link node takes the flit of its in_flow that stands at the head of an input and hands its copy to
out_flow's source slot (R431); an unarmed entry holds it. -/
def Hw.ringRelay (h : Hw) (n r port sel : Nat) : Hw :=
  let w := h.reg .cqRingFlow n r
  match h.foldHead n port sel with
  | none => h
  | some f =>
    if !h.ringValid n r || h.ringGate n r || f.flow != fld w 0 13 || (port != 0 && h.outMask n f != 1) then h
    else if !h.ringArmed n r then h.modReg .cqRingStatus n r (setBit · 0 true)
    else
      let chk := h.foldSink n port f
      let out := fld w 16 13
      if chk.1 ≠ 0 then (h.foldPop n port sel).sinkChecked n f chk.1 chk.2
      else
        let free := match h.flowSlot n out with
          | some s => (h.waiting n s).isEmpty
          | none => true
        if !free then h
        else
          let cfg := h.reg .cqRingCfg n r
          let h := (h.foldPop n port sel).sinkChecked n f 0 chk.2
          let h := h.inject n (some (fld cfg 16 6)) (mkFlit out f.last f.cid f.data)
          (if f.last then h.ringPassed n r else h.modReg .cqRingStatus n r (setBit · 0 false)).seqRefreshAll

/-- A slot's held tails are discarded without completion (R450). -/
def Hw.slotDiscard (h : Hw) (i k : Nat) : Hw :=
  ((h.port i).ccx.filter (fun c => c.slot == k)).foldl (fun h c =>
    h.modPort i (fun p => { p.dropOp c.id with cmds := p.cmds.filter (fun d => d.tag != c.tag) })) h

/-- The write rules of the collective registers (R450). -/
def Hw.cqRegWrite (h : Hw) (p : Path) (addr : Nat) (r : Reg) (w : Word) : Hw :=
  let old := h.reg r.id r.i r.j
  let cfg : RegId := match r.id with
    | .cqGroupCfg => .cqGroupCfg | .cqGroupFlow => .cqGroupCfg
    | .cqRingCfg => .cqRingCfg | .cqRingFlow => .cqRingCfg
    | _ => .cqSeqCfg
  let live := bit (h.reg cfg r.i r.j) 15
  if r.id = cfg then
    if live then
      let h := if (old ^^^ w) &&& 0xFFFF7FFF#32 = 0#32 then h else h.misuse p true 4 addr
      if bit w 15 then h
      else
        let h := h.setReg r.id r.i r.j (setBit old 15 false)
        match cfg with
        | .cqGroupCfg => h.slotDiscard (nodeInst r.i) r.j
        | .cqRingCfg => h.modReg .cqRingStatus r.i r.j (fun x => setBit (setBit x 8 false) 0 false)
        | _ => h.setSeq r.i r.j {}
    else
      let h := h.setReg r.id r.i r.j w
      if bit w 15 then
        match cfg with
        | .cqGroupCfg => h.setReg .cqStatus r.i r.j 0#32
        | .cqRingCfg => h.setReg .cqRingStatus r.i r.j 0#32
        | _ => (h.setSeq r.i r.j {}).setReg .cqSeqStatus r.i r.j 0#32
      else h
  else if live then (if old = w then h else h.misuse p true 4 addr)
  else h.setReg r.id r.i r.j w

end Sys2Proof.Machine
end

