-- ==== Sys2Proof/Machine/Checks.lean ====
section
/-! DEFINITION. What the loader and admission prove of a document's records (Tables 3.6 and 4.24): routes and multicast trees, link
loads, latency terms, capacities, fold trees, groups, power shares, HBM placement. -/

namespace Sys2Proof.Machine

/-- Codes of BOOT_ERR and of launch results (Tables 3.11 and 4.24). -/
def ckLength : Nat := 0x24
def ckLayout : Nat := 0x40
def ckCrc : Nat := 0x41
def ckUnknown : Nat := 0x42
def ckMissing : Nat := 0x43
def ckReserved : Nat := 0x44
def ckRange : Nat := 0x45
def ckTopology : Nat := 0x50
def ckShape : Nat := 0x51
def ckTenantMax : Nat := 0x52
def ckMasked : Nat := 0x53
def ckRoute : Nat := 0x54
def ckLoad : Nat := 0x55
def ckEnvelope : Nat := 0x56
def ckCycle : Nat := 0x57
def ckFold : Nat := 0x58
def ckGroup : Nat := 0x59
def ckRetry : Nat := 0x5a
def ckPower : Nat := 0x5b
def ckOutside : Nat := 0x60
def ckOversize : Nat := 0x61

/-- The number of records of a section type. -/
def Doc.count (d : Doc) (t : Nat) : Nat :=
  match t with
  | 1 => d.topology.length | 2 => d.partitions.length | 3 => d.envelopes.length | 4 => d.reservations.length
  | 5 => d.routes.length | 6 => d.flows.length | 7 => d.endpoints.length | 8 => d.channels.length | 9 => d.folds.length
  | 10 => d.groups.length | 11 => d.policy.length | 12 => d.shares.length | 13 => d.detours.length | 14 => d.steward.length
  | 16 => d.syncs.length | 17 => d.windows.length | _ => 0

/-- The records of some section types, in directory order and index order (R122). -/
def Doc.places (d : Doc) (order types : List Nat) : List (Nat × Nat) :=
  (order.filter (fun t => types.contains t)).flatMap (fun t => (List.range (d.count t)).map (fun i => (t, i)))

/-- The first record of some section types that a check fails at. -/
def Doc.firstBad (d : Doc) (order types : List Nat) (bad : Nat → Nat → Bool) : Option (Nat × Nat) :=
  (d.places order types).find? (fun x => bad x.1 x.2)

/-- A node, with its tile site or memory node, is not under R99: not masked, its router and its tile site passed BIST, its site is not
retired, a pair of its memory node is usable. -/
def Hw.usable (h : Hw) (n : Nat) : Bool :=
  n < 96 && !h.nodeMasked n && !h.health.routerFail.contains n &&
  (nodeClass n != 0 || !(h.health.tileFail.testBit (nodeInst n) || bit (h.reg .tpCfg n) 31)) &&
  (nodeClass n != 1 || (List.range 8).any (fun q => h.pairUsable (8 * nodeInst n + q)))

/-! Routes (R158, R159, R253). A link is a node and the mesh port it leaves by. -/

/-- Walk ports from a node: the links, unless the walk leaves the grid, comes to a node twice or crosses a link that is down. -/
def walkPorts (up : Nat → Nat → Bool) : List Nat → Nat → List Nat → Option (List (Nat × Nat) × Nat)
  | [], n, _ => some ([], n)
  | p :: ps, n, seen =>
    match neighbour n p with
    | none => none
    | some m =>
      if seen.contains m || !up n p then none
      else (walkPorts up ps m (m :: seen)).map (fun r => ((n, p) :: r.1, r.2))

/-- A mesh link of the B-net is up. -/
def Hw.meshUp (h : Hw) (n p : Nat) : Bool := (h.linksUp 0 n).testBit (p - 1)

/-- The ports of a route record. -/
def RouteRec.ports (r : RouteRec) : List Nat := r.segs.flatMap (fun s => List.replicate s.2 (s.1 + 1))

/-- The links of a route record, unless it fails R158. -/
def Hw.routeLinks (h : Hw) (r : RouteRec) : Option (List (Nat × Nat)) :=
  match walkPorts h.meshUp r.ports r.src [r.src] with
  | some (ls, n) => if n = r.dst then some ls else none
  | none => none

/-- The links of the default route, unless one is down (R253). -/
def Hw.xyRoute (h : Hw) (a b : Nat) : Option (List (Nat × Nat)) :=
  let ls := defaultLinks a b
  if ls.all (fun l => h.meshUp l.1 l.2) then some ls else none

/-- The links of a route or reservation that names a table route with its own ends, or the default route. -/
def Hw.pathLinks (h : Hw) (d : Doc) (route src dst : Nat) : Option (List (Nat × Nat)) :=
  if route = 0xffff then h.xyRoute src dst
  else match d.routes[route]? with
    | some r => if r.src = src ∧ r.dst = dst then h.routeLinks r else none
    | none => none

/-- The node that a link leads to. -/
def linkEnd (l : Nat × Nat) : Nat := (neighbour l.1 l.2).getD 96

/-- The branches of a multicast flow. -/
def Doc.branches (d : Doc) (f : FlowRec) : List RouteRec := (d.routes.drop f.route).take f.branches

/-- Join the links of one more branch to a tree: a node keeps one incoming link. -/
def joinTree (src : Nat) (tree branch : List (Nat × Nat)) : Option (List (Nat × Nat)) :=
  branch.foldl (fun acc l => acc.bind (fun t =>
    if t.contains l then some t
    else if linkEnd l = src ∨ t.any (fun x => linkEnd x == linkEnd l) then none else some (t ++ [l]))) (some tree)

/-- The sinks of a flow: its dst, or where its branches end. -/
def Doc.sinks (d : Doc) (f : FlowRec) : List Nat := if f.dst = 0xff then (d.branches f).map (·.dst) else [f.dst]

/-- The links of a flow, each once, unless its route or its tree fails (R158, R159). -/
def Hw.flowLinks (h : Hw) (d : Doc) (f : FlowRec) : Option (List (Nat × Nat)) :=
  if f.dst ≠ 0xff then h.pathLinks d f.route f.src f.dst
  else if f.route = 0xffff then none
  else
    let bs := d.branches f
    if !(bs.all (fun r => r.src == f.src)) || !(bs.map (·.dst)).Nodup then none
    else bs.foldl (fun acc r => acc.bind (fun t => (h.routeLinks r).bind (joinTree f.src t))) (some [])

/-- The torus port of a link node. -/
def portOf (n : Nat) : Option Nat := if n < 96 ∧ nodeClass n = 2 then some (nodeInst n) else none

/-- The port that a flow is carried across: its dst is a link node and it names a receiving module (Table 4.7). -/
def FlowRec.port (f : FlowRec) : Option Nat := if f.rx = 0xff then none else portOf f.dst

/-- The module across a port of the torus of a topology (R639). -/
def Topology.across (t : Topology) (p : Nat) : Nat × Nat × Nat :=
  let move (a c n : Nat) : Nat := if portAxis p = a then (if portPlus p = 1 then (c + 1) % n else (c + n - 1) % n) else c
  (move 0 t.x t.xs, move 1 t.y t.ys, move 2 t.z t.zs)

def Topology.size (t : Topology) (a : Nat) : Nat := if a = 0 then t.xs else if a = 1 then t.ys else t.zs
def Topology.coord (t : Topology) (a : Nat) : Nat := if a = 0 then t.x else if a = 1 then t.y else t.z

/-- A flow that ends at a link node breaks the port rules (R640) or the dateline rule (R623). -/
def Topology.portBad (t : Topology) (f : FlowRec) : Bool :=
  match portOf f.dst with
  | none => false
  | some p =>
    let a := portAxis p
    let crosses := t.coord a == (if portPlus p = 1 then t.size a - 1 else 0)
    !t.portEnable.testBit p || (f.rx, f.ry, f.rz) != t.across p || f.remoteFlow == 0xffff ||
    (match portOf f.src with | some q => a < portAxis q || q == p | none => false) ||
    (if crosses then f.vc % 2 == 0 else portOf f.src != some (p ^^^ 1) && f.vc % 2 == 1)

/-- A channel's default route crosses a C-net link that is down (R899). -/
def Hw.chanBad (h : Hw) (d : Doc) (c : ChannelRec) : Bool :=
  match d.endpoints[c.src]?, d.endpoints[c.dst]? with
  | some a, some b => !(defaultLinks a.node b.node).all (fun l => (h.linksUp 1 l.1).testBit (l.2 - 1))
  | _, _ => false

/-! Link loads (R160, R272, R642). A load entry counts on a link, or on the transmitting direction of torus port p as link (96 + p, 0);
phase set 0 is always active. -/

structure Load where
  link : Nat × Nat
  vc : Nat
  rate : Nat
  set : Nat
  phase : Nat
  deriving DecidableEq, Repr

/-- The greatest sum of one phase's rates. -/
def phasePeak (es : List Load) : Nat :=
  es.foldl (fun m e => Nat.max m ((es.filter (fun x => x.phase == e.phase)).foldl (fun a x => a + x.rate) 0)) 0

/-- The load on a link of the VCs that count (R160). -/
def loadOn (es : List Load) (l : Nat × Nat) (vcs : Nat → Bool) : Nat :=
  let es := es.filter (fun e => e.link == l && vcs e.vc)
  (es.filter (fun e => e.set == 0)).foldl (fun a e => a + e.rate) 0 +
  ((es.map (·.set)).eraseDups.filter (· != 0)).foldl (fun a s => a + phasePeak (es.filter (fun e => e.set == s))) 0

/-- The link that the transmitting direction of a port counts as. -/
def portLink (p : Nat) : Nat × Nat := (96 + p, 0)

/-- The loads of a flow on its links and on the port it is carried across. -/
def Hw.flowLoads (h : Hw) (d : Doc) (f : FlowRec) : List Load :=
  (((h.flowLinks d f).getD []) ++ (f.port.map portLink).toList).map (fun l => ⟨l, f.vc, f.rate, f.phaseSet, f.phase⟩)

/-- The loads of a reservation; one whose dst is a link node also counts on its port (R900). -/
def Hw.resvLoads (h : Hw) (d : Doc) (r : Reservation) : List Load :=
  (((h.pathLinks d r.route r.src r.dst).getD []) ++ ((portOf r.dst).map portLink).toList).map (fun l => ⟨l, r.vc, r.rate, 0, 0⟩)

/-- The mesh links that join two tile nodes of a rectangle, in both directions (Table 4.15). -/
def Rect.links (r : Rect) : List (Nat × Nat) :=
  let ns := r.tiles.map tileNode
  ns.flatMap (fun n => ([1, 2, 3, 4].filter (fun p => match neighbour n p with | some m => ns.contains m | none => false)).map (fun p => (n, p)))

/-- The lowest VC of a vc_mask; 8 for an empty one, which counts in no W (R272). -/
def lowestVc (mask : Nat) : Nat := ((List.range 8).find? (fun v => mask.testBit v)).getD 8

/-- The memory nodes of mem_mask that are usable (R168). -/
def Hw.spillNodes (h : Hw) (e : Envelope) : List Nat :=
  ((List.range 12).filter (fun i => e.memMask.testBit i && h.usable (nodeOf 1 i))).map (nodeOf 1)

/-- The nearest memory node of a tile node, the lower node number among equals (R168). -/
def nearest (n : Nat) (ms : List Nat) : Option Nat :=
  ms.foldl (fun b m => match b with
    | none => some m
    | some x => if hops n m < hops n x ∨ (hops n m = hops n x ∧ m < x) then some m else some x) none

/-- The default spill flows of a partition: source and destination (R168). -/
def Hw.spillFlows (h : Hw) (p : PartRec) (e : Envelope) : List (Nat × Nat) :=
  if e.spillRate = 0 then []
  else ((p.rect.tiles.map tileNode).filter h.usable).flatMap (fun n =>
    match nearest n (h.spillNodes e) with
    | some m => [(n, m), (m, n)]
    | none => [])

/-- The envelope of a partition record. -/
def Doc.envelopeOf (d : Doc) (p : PartRec) : Envelope :=
  (d.envelopes[p.envelope]?).getD ⟨0, 0, 0, 0, 0, 0, 0, 0, 0, 0, 0, 0, 0, 0, 0, 0, 0, 0⟩

/-- The partition that names an envelope. -/
def Doc.partOfEnv (d : Doc) (i : Nat) : Option PartRec := d.partitions.find? (fun p => p.envelope == i)

/-- The loads of an envelope: internal_rate and the default spill flows (R169). -/
def Hw.envLoads (h : Hw) (d : Doc) (i : Nat) : List Load :=
  match d.partOfEnv i, d.envelopes[i]? with
  | some p, some e =>
    (if e.internalRate = 0 then [] else p.rect.links.map (fun l => (⟨l, lowestVc e.vcMask, e.internalRate, 0, 0⟩ : Load))) ++
    (h.spillFlows p e).flatMap (fun x => (defaultLinks x.1 x.2).map (fun l => ⟨l, e.spillVc, e.spillRate, 0, 0⟩))
  | _, _ => []

/-- The loads of a detour on its via port: the detour_ok flows of its down port (R642). -/
def Doc.detourLoads (d : Doc) (x : DetourRec) : List Load :=
  (d.flows.filter (fun f => f.detourOk && f.port == some x.downPort)).map
    (fun f => ⟨portLink x.viaPort, f.vc, f.rate, f.phaseSet, f.phase⟩)

/-- Everything that an image places on links (R160, R169, R272, R642). -/
def Hw.imageLoads (h : Hw) (d : Doc) : List Load :=
  d.flows.flatMap (h.flowLoads d) ++ d.reservations.flatMap (h.resvLoads d) ++
  (List.range d.envelopes.length).flatMap (h.envLoads d) ++ d.detours.flatMap d.detourLoads

/-- What a link may carry (R39, R642). -/
def linkMax (l : Nat × Nat) : Nat := if 96 ≤ l.1 then 1536 else 4096

/-- B_min of a flow over its links (R272, R274, R649). -/
def flowBmin (es : List Load) (f : FlowRec) (ls : List (Nat × Nat)) : Nat :=
  let a := 4 + 4 * ls.length + ls.foldl (fun a l => a + loadOn es l (fun v => v ≤ f.vc)) 0
  (match f.port with
   | some p => a + 219 + cdiv (33 * loadOn es (portLink p) (fun v => v ≤ f.vc)) 16
   | none => a) + 1

/-- A margin is less than a needed number of cycles. -/
def marginBelow (f : FlowRec) (bmin need : Nat) : Bool := f.bound < bmin + need

/-- The latency that a detour adds on an axis of size n (R648). -/
def detourDelay (axis n : Nat) : Nat := (n - 2) * 256 + (n - 1) * (if axis = 2 then 32 else 16)

/-- A detour fails R172. -/
def Hw.detourBad (h : Hw) (d : Doc) (t : Topology) (i : Nat) : Bool :=
  match d.detours[i]? with
  | none => false
  | some x =>
    let es := h.imageLoads d
    x.viaPort != (x.downPort ^^^ 1) || !t.portEnable.testBit x.downPort || !t.portEnable.testBit x.viaPort ||
    (d.detours.take i).any (fun y => y.downPort == x.downPort) ||
    d.flows.any (fun f => f.detourOk && f.port == some x.downPort && (match h.flowLinks d f with
      | some ls => marginBelow f (flowBmin es f ls) (detourDelay (portAxis x.downPort) (t.size (portAxis x.downPort)))
      | none => false))

/-- A record of a document uses a resource that R99 covers (Table 3.6). -/
def Hw.maskedUse (h : Hw) (d : Doc) (t i : Nat) : Bool :=
  match t with
  | 6 => (d.flows[i]?).any (fun f => !h.usable f.src || !(d.sinks f).all h.usable)
  | 7 => (d.endpoints[i]?).any (fun e => !h.usable e.node)
  | 9 => (d.folds[i]?).any (fun f => !h.usable f.node)
  | 10 => (d.groups[i]?).any (fun g => g.scope == 1 && g.sequencer ≤ 3 && !h.usable (nodeOf 4 g.sequencer))
  | 4 => (d.reservations[i]?).any (fun r => !h.usable r.src || !h.usable r.dst)
  | _ => false

/-- A record of a document fails with ROUTE (R158, R159, R172, R253, R623, R640, R899). -/
def Hw.routeBad (h : Hw) (d : Doc) (topo : Topology) (t i : Nat) : Bool :=
  match t with
  | 5 => (d.routes[i]?).any (fun r => (h.routeLinks r).isNone)
  | 6 => (d.flows[i]?).any (fun f => (h.flowLinks d f).isNone || topo.portBad f)
  | 4 => (d.reservations[i]?).any (fun r => (h.pathLinks d r.route r.src r.dst).isNone)
  | 13 => h.detourBad d topo i
  | 8 => (d.channels[i]?).any (h.chanBad d)
  | _ => false

/-! Capacities. A use counts on a resource and a node: 0 flow entries, 1 channels, 2 slab pages, 3 HBM units, 4 flow slots, 5
message-store slots, 6 fold contexts, 7 group slots, 8 sequenced groups, 9 ring entries. -/

/-- What a node has of a resource (R248, R301, R379, R423). -/
def nodeCap : Nat → Nat
  | 4 => 512 | 5 => 1024 | 6 => 64 | 7 => 16 | 8 => 64 | 9 => 32 | _ => 0

/-- A group has members on this module (R423). -/
def Topology.member (t : Topology) (g : GroupRec) : Bool :=
  g.scope == 0 || (g.box.bx0 ≤ t.x && t.x < g.box.bx0 + g.box.bsx && g.box.by0 ≤ t.y && t.y < g.box.by0 + g.box.bsy &&
    g.box.bz0 ≤ t.z && t.z < g.box.bz0 + g.box.bsz)

/-- The gates of a scope-1 group on this module: the records of its tree whose local input is the torus ring (R145, R431). -/
def Doc.gates (d : Doc) (g : GroupRec) : List FoldRec :=
  if g.scope = 1 then d.folds.filter (fun f => f.tree == g.foldTree && nodeClass f.node == 2 && f.inMask.testBit 0) else []

/-- The relays of a scope-1 group on this module: a link node where its broadcast ends, and the flow from there that continues it
across a port (R430, R431). -/
def Doc.relays (d : Doc) (g : GroupRec) : List (Nat × FlowRec) :=
  if g.scope = 1 then
    match d.flows.find? (fun f => f.flow == g.bcastFlow) with
    | some b => ((d.sinks b).filter (fun n => (portOf n).isSome)).filterMap (fun n =>
        (d.flows.find? (fun f => f.src == n && f.flow != b.flow && f.port.isSome)).map (fun f => (n, f)))
    | none => []
  else []

/-- The uses of a record that lie at nodes. -/
def Doc.nodeUses (d : Doc) (topo : Topology) (t i : Nat) : List ((Nat × Nat) × Nat) :=
  match t with
  | 6 => ((d.flows[i]?).map (fun f => (f.src :: d.sinks f).eraseDups.map (fun n => ((4, n), 1)))).getD []
  | 8 => match d.channels[i]? with
    | some c => ((d.endpoints[c.dst]?).map (fun e => ((5, e.node), 2 ^ c.log2Depth))).toList
    | none => []
  | 9 => ((d.folds[i]?).map (fun f => ((6, f.node), 1))).toList
  | 10 => match d.groups[i]? with
    | some g =>
      if !topo.member g then []
      else g.rect.tiles.map (fun k => ((7, tileNode k), 1)) ++
        (if g.scope = 1 ∧ g.sequencer ≤ 3 then [((8, nodeOf 4 g.sequencer), 1)] else []) ++
        (d.gates g).map (fun f => ((9, f.node), 1)) ++ (d.relays g).map (fun r => ((9, r.1), 1))
    | none => []
  | _ => []

/-- The uses of an image record, the sums over the die included (R169). -/
def Hw.imageUses (h : Hw) (d : Doc) (topo : Topology) (t i : Nat) : List ((Nat × Nat) × Nat) :=
  match t with
  | 3 => match d.partOfEnv i, d.envelopes[i]? with
    | some p, some e =>
      let sf := h.spillFlows p e
      [((0, 0), e.flowEntries + sf.length), ((1, 0), e.channels), ((2, 0), e.slabPages), ((3, 0), e.hbmUnits + e.spillHbmUnits)] ++
        sf.flatMap (fun x => [((4, x.1), 1), ((4, x.2), 1)])
    | _, _ => []
  | 6 => ((0, 0), 1) :: d.nodeUses topo t i
  | 8 => ((1, 0), 1) :: d.nodeUses topo t i
  | _ => d.nodeUses topo t i

/-- What has been counted of a resource. -/
abbrev Tally := List ((Nat × Nat) × Nat)
def Tally.of (m : Tally) (k : Nat × Nat) : Nat := sget m k 0
def Tally.add (m : Tally) (us : List ((Nat × Nat) × Nat)) : Tally :=
  us.foldl (fun m u => (u.1, m.of u.1 + u.2) :: serase m u.1) m

/-- Count the uses of records one after another; the first record with a use beyond the capacity fails. -/
def tallyUp (uses : Nat → Nat → List ((Nat × Nat) × Nat)) (cap : Nat × Nat → Nat) (bad : Nat → Nat → Bool) :
    List (Nat × Nat) → Tally → Option (Nat × Nat)
  | [], _ => none
  | x :: xs, m =>
    let us := uses x.1 x.2
    let m := m.add us
    if bad x.1 x.2 || us.any (fun u => cap u.1 < m.of u.1) then some x else tallyUp uses cap bad xs m

/-- Slab pages and HBM units left after masks and repairs (Table 3.6). -/
def Hw.pagesLeft (h : Hw) : Nat :=
  (List.range 64).foldl (fun a i => if h.usable (tileNode i)
    then a + ((List.range 64).filter (fun k => !h.pageRetired (64 * i + k))).length else a) 0
def Hw.unitsLeft (h : Hw) : Nat := 512 * ((List.range 96).filter h.pairUsable).length

/-- What the die has of a resource for an image. -/
def Hw.imageCap (h : Hw) (k : Nat × Nat) : Nat :=
  match k.1 with
  | 0 => 8192 | 1 => 4096 | 2 => h.pagesLeft | 3 => h.unitsLeft | r => nodeCap r

/-! HBM placement (R529). -/

/-- The columns of a partition: pairs of its mem_mask nodes, pair-major, as pair numbers. -/
def hbmColumns (memMask : Nat) : List Nat :=
  let ms := (List.range 12).filter (fun i => memMask.testBit i)
  (List.range 8).flatMap (fun q => ms.map (fun i => 8 * i + q))

/-- Take k slots over the columns in rotation, from column index c; `next` gives the lowest free unit of each pair. Fails when every
column is full. -/
def placeSlots (ok : Nat → Bool) (cols : List Nat) : Nat → Nat → List (Nat × Nat) → Option (List Nat × List (Nat × Nat))
  | 0, _, next => some ([], next)
  | k + 1, c, next =>
    let rot := (List.range cols.length).map (fun j => (c + j) % cols.length)
    match rot.find? (fun j => let q := cols.getD j 0; ok q && nget next q 0 < 512) with
    | none => none
    | some j =>
      let q := cols.getD j 0
      let u := nget next q 0
      (placeSlots ok cols k (j + 1) (nset next q (u + 1) 0)).map (fun r => ((512 * q + u) :: r.1, r.2))

/-- The slots of every partition in record order: units of each, or the index of the partition that does not fit. -/
def Hw.placeAll (h : Hw) (d : Doc) : List PartRec → Nat → List (Nat × Nat) → List (List Nat) × Option Nat
  | [], _, _ => ([], none)
  | p :: ps, i, next =>
    let e := d.envelopeOf p
    match placeSlots h.pairUsable (hbmColumns e.memMask) (e.hbmUnits + e.spillHbmUnits) 0 next with
    | none => ([], some i)
    | some (us, next) => let r := h.placeAll d ps (i + 1) next; (us :: r.1, r.2)

def Hw.placement (h : Hw) (d : Doc) : List (List Nat) × Option Nat := h.placeAll d d.partitions 0 []

/-- An envelope fails by itself: spill flows without a usable memory node (R168), or HBM columns that are full (R529). -/
def Hw.envelopeBad (h : Hw) (d : Doc) (t i : Nat) : Bool :=
  t == 3 && match d.envelopes[i]? with
    | some e => (e.spillRate != 0 && (h.spillNodes e).isEmpty) ||
        (match (h.placement d).2 with | some k => ((d.partitions[k]?).map (·.envelope)) == some i | none => false)
    | none => false

/-- The image fails with ENVELOPE at a record (Table 3.6). -/
def Hw.imageOver (h : Hw) (d : Doc) (topo : Topology) (order : List Nat) : Option (Nat × Nat) :=
  tallyUp (h.imageUses d topo) h.imageCap (h.envelopeBad d) (d.places order [3, 6, 8, 9, 10]) []

/-! Channel ranks, fold trees, groups. -/

/-- A blocking channel does not run to a higher rank (R161). -/
def Doc.rankBad (d : Doc) (i : Nat) : Bool :=
  match d.channels[i]? with
  | some c => c.blocking && match d.endpoints[c.src]?, d.endpoints[c.dst]? with
    | some a, some b => b.rank ≤ a.rank
    | _, _ => false
  | none => false

/-- The input port and VC at which a flow enters a node over its links. -/
def entersAt (vc : Nat) (ls : List (Nat × Nat)) (n : Nat) : Option (Nat × Nat) :=
  (ls.find? (fun l => linkEnd l == n)).map (fun l => (facing l.2, vc))

/-- Another flow than the named one enters a node on an input port and VC. `others` are flow links and VCs with their names. -/
def sharesInput (others : List (Nat × Nat × List (Nat × Nat))) (flow n : Nat) (k : Nat × Nat) : Bool :=
  others.any (fun o => o.1 != flow && entersAt o.2.1 o.2.2 n == some k)

/-- The carrier of an input format, and integer formats (R163). -/
def carrierFor (fmt : Nat) : Nat := if fmt = 1 ∨ fmt = 2 then 9 else if fmt = 7 then 11 else 10
def intFmt (fmt : Nat) : Bool := fmt == 1 || fmt == 2

/-- The chain of parents from a unit reaches a root. -/
def reachesRoot (tree : List FoldRec) : Nat → FoldRec → Bool
  | 0, _ => false
  | k + 1, r => r.outPort == 0xff || match (neighbour r.node r.outPort).bind (fun m => tree.find? (fun x => x.node == m)) with
    | some x => reachesRoot tree k x
    | none => false

/-- A fold record fails R163, R382 or R406. `others` are the flows that may share an input. -/
def Hw.foldBad (h : Hw) (d : Doc) (others : List (Nat × Nat × List (Nat × Nat))) (i : Nat) : Bool :=
  match d.folds[i]? with
  | none => false
  | some r =>
    let tree := d.folds.filter (fun x => x.tree == r.tree)
    let at' (n : Option Nat) : Option FoldRec := n.bind (fun m => tree.find? (fun x => x.node == m))
    let root := r.outPort == 0xff
    let out := d.flows.find? (fun f => f.flow == r.outFlow)
    ((tree.filter (fun x => x.outPort == 0xff)).length != 1) ||
    (d.folds.take i).any (fun x => x.tree == r.tree && x.node == r.node) ||
    r.inMask == 0 || (!root && r.inMask.testBit r.outPort) ||
    (tree.any (fun x => x.inFmt != r.inFmt)) || r.carrier != carrierFor r.inFmt ||
    (r.inMask.testBit 0 && !([0, 1, 2].contains (nodeClass r.node))) ||
    ([1, 2, 3, 4].any fun p => r.inMask.testBit p && (match at' (neighbour r.node p) with
      | some c => c.outPort == 0xff || c.outPort != facing p
      | none => true)) ||
    (match out with
     | none => true
     | some f =>
       f.src != r.node ||
       (if root then
          (if r.dstFmt = 0 then r.saturate || f.dst == 0xff || (portOf f.dst).isNone
           else 8 ≤ r.dstFmt || intFmt r.dstFmt != intFmt r.inFmt || (r.saturate && !([1, 2, 3, 4].contains r.dstFmt)))
        else
          match at' (neighbour r.node r.outPort) with
          | none => true
          | some p =>
            !p.inMask.testBit (facing r.outPort) || !reachesRoot tree (tree.length + 1) r ||
            f.kind != 1 || f.foldTree != r.tree || f.dst != p.node || (h.flowLinks d f) != some [(r.node, r.outPort)] ||
            sharesInput others f.flow p.node (facing r.outPort, f.vc)))

/-- The flows of a document with their names, VCs and links, for R406 and R428. -/
def Hw.flowInputs (h : Hw) (d : Doc) (base : Nat) : List (Nat × Nat × List (Nat × Nat)) :=
  d.flows.map (fun f => (base + f.flow, f.vc, (h.flowLinks d f).getD []))

/-- The default spill flows of an image, for the same. -/
def Hw.spillInputs (h : Hw) (d : Doc) (base : Nat) : List (Nat × Nat × List (Nat × Nat)) :=
  (d.partitions.flatMap (fun p =>
    let e := d.envelopeOf p
    (h.spillFlows p e).map (fun x => (e.spillVc, defaultLinks x.1 x.2)))).zipIdx.map (fun x => (base + x.2, x.1))

/-- A rectangle breaks R34. -/
def Rect.bad (r : Rect) : Bool :=
  r.tx0 % 2 ^ r.log2w != 0 || r.ty0 % 2 ^ r.log2h != 0 || decide (8 < r.tx0 + 2 ^ r.log2w) || decide (8 < r.ty0 + 2 ^ r.log2h)

/-- A box breaks R166 on an axis. -/
def axisBad (origin size n : Nat) : Bool :=
  !((size == n && origin == 0) || ([1, 2, 4, 8, 16].contains size && origin % size == 0 && origin + size ≤ n))

def Topology.boxBad (t : Topology) (b : Box) : Bool :=
  axisBad b.bx0 b.bsx t.xs || axisBad b.by0 b.bsy t.ys || axisBad b.bz0 b.bsz t.zs

/-- A module lies in a box. -/
def Box.has (b : Box) (x y z : Nat) : Bool :=
  b.bx0 ≤ x && x < b.bx0 + b.bsx && b.by0 ≤ y && y < b.by0 + b.bsy && b.bz0 ≤ z && z < b.bz0 + b.bsz

/-- A rectangle or box lies in another. -/
def Rect.within (a b : Rect) : Bool :=
  b.tx0 ≤ a.tx0 && a.tx0 + 2 ^ a.log2w ≤ b.tx0 + 2 ^ b.log2w && b.ty0 ≤ a.ty0 && a.ty0 + 2 ^ a.log2h ≤ b.ty0 + 2 ^ b.log2h
def Box.within (a b : Box) : Bool :=
  b.bx0 ≤ a.bx0 && a.bx0 + a.bsx ≤ b.bx0 + b.bsx && b.by0 ≤ a.by0 && a.by0 + a.bsy ≤ b.by0 + b.bsy &&
  b.bz0 ≤ a.bz0 && a.bz0 + a.bsz ≤ b.bz0 + b.bsz

/-- A flow's entry into a node is shared with another flow (R428). -/
def Hw.sinkShared (h : Hw) (d : Doc) (others : List (Nat × Nat × List (Nat × Nat))) (base : Nat) (f : FlowRec) (n : Nat) : Bool :=
  match entersAt f.vc ((h.flowLinks d f).getD []) n with
  | some k => sharesInput others (base + f.flow) n k
  | none => false

/-- A group record fails with GROUP (R33, R164, R422, R426, R428, R429). `part` is the partition of a plan's group. -/
def Hw.groupBad (h : Hw) (d : Doc) (t : Topology) (others : List (Nat × Nat × List (Nat × Nat))) (base : Nat) (part : Option PartRec)
    (i : Nat) : Bool :=
  match d.groups[i]? with
  | none => false
  | some g =>
    let b := g.box
    let onRoot := g.scope == 0 || (g.rootx == t.x && g.rooty == t.y && g.rootz == t.z)
    let root := d.folds.find? (fun f => f.tree == g.foldTree && f.outPort == 0xff)
    let bcast := d.flows.find? (fun f => f.flow == g.bcastFlow)
    g.rect.bad || t.boxBad b || !g.rect.tiles.contains g.rootTile ||
    (if g.scope = 1 then
       !b.has g.rootx g.rooty g.rootz || g.axes == 0 || 3 < g.sequencer ||
       (!g.axes.testBit 0 && b.bsx != 1) || (!g.axes.testBit 1 && b.bsy != 1) || (!g.axes.testBit 2 && b.bsz != 1)
     else g.sequencer != 0xff) ||
    (match part with | some p => !g.rect.within p.rect || !b.within p.box | none => false) ||
    (t.member g &&
      ((match root with
        | some r =>
          (r.dstFmt != 0) != onRoot ||
          (r.dstFmt != 0 && (match d.flows.find? (fun f => f.flow == r.outFlow) with
            | some f => f.dst != tileNode g.rootTile || h.sinkShared d others base f f.dst
            | none => true))
        | none => false) ||
       (match bcast with
        | some f => (d.sinks f).any (fun n => h.sinkShared d others base f n)
        | none => false)))

/-! Power (R171). -/

/-- A record fails with POWER_POLICY. -/
def Doc.powerBad (d : Doc) (t i : Nat) : Bool :=
  match d.policy.head? with
  | none => false
  | some p =>
    let avail := p.packageBudget - p.dieReserve
    match t with
    | 2 => (d.partitions[i]?).any (fun q => !d.shares.any (fun s => s.tenant == q.tenant))
    | 12 => (d.shares[i]?).any (fun s =>
        !d.partitions.any (fun q => q.tenant == s.tenant) || (d.shares.take i).any (fun x => x.tenant == s.tenant) ||
        s.ceiling < s.floor || avail < s.ceiling || avail < (d.shares.take (i + 1)).foldl (fun a x => a + x.floor) 0)
    | _ => false

/-- A partition record fails with PART_SHAPE (R167). -/
def Doc.shapeBad (d : Doc) (t : Topology) (i : Nat) : Bool :=
  match d.partitions[i]? with
  | none => false
  | some p =>
    let seen := d.partitions.take i
    p.rect.bad || seen.any (fun q => q.tenant == p.tenant || q.envelope == p.envelope || q.rect.tiles.any (fun k => p.rect.tiles.contains k)) ||
    t.boxBad p.box || !p.box.has t.x t.y t.z

/-- The topology record fails with TOPOLOGY (R165, Table 3.6). -/
def Topology.bad (t : Topology) : Bool :=
  decide (t.xs ≤ t.dbx) || decide (t.ys ≤ t.dby) || decide (t.zs ≤ t.dbz) ||
  (List.range 6).any (fun p => t.portEnable.testBit p && t.size (portAxis p) == 1)

/-- A flow that crosses a port fails with RETRY_BUDGET (R651), with W of the image. -/
def Hw.retryBad (h : Hw) (d : Doc) (t : Topology) (es : List Load) (i : Nat) : Bool :=
  match d.flows[i]? with
  | none => false
  | some f => match f.port with
    | some p => marginBelow f (flowBmin es f ((h.flowLinks d f).getD [])) (8 * t.replayRtt.getD p 0)
    | none => false

/-- A record of an image contributes to a link that is overloaded (R39, R642). -/
def Hw.loadBad (h : Hw) (d : Doc) (full : List (Nat × Nat)) (t i : Nat) : Bool :=
  let ls : List Load := match t with
    | 6 => match d.flows[i]? with
      | some f => h.flowLoads d f ++ (d.detours.filter (fun x => f.detourOk && f.port == some x.downPort)).map
          (fun x => ⟨portLink x.viaPort, f.vc, f.rate, f.phaseSet, f.phase⟩)
      | none => []
    | 4 => ((d.reservations[i]?).map (h.resvLoads d)).getD []
    | 3 => h.envLoads d i
    | _ => []
  ls.any (fun l => full.contains l.link)

/-- The first structural check that fails, with its code, section type and record (Table 3.6, R122). -/
def Hw.structural (h : Hw) (d : Doc) (order : List Nat) : Option (Nat × Nat × Nat) :=
  let topo := (d.topology.head?).getD ⟨1, 1, 1, 0, 0, 0, 0, 0, 0, 0, 0, 0, []⟩
  let es := h.imageLoads d
  let full := ((es.map (·.link)).eraseDups).filter (fun l => linkMax l < loadOn es l (fun _ => true))
  let ins := h.flowInputs d 0 ++ h.spillInputs d 8192
  let tmax := fld (h.reg .fusTenantMax) 0 7
  let at' (code : Nat) (x : Option (Nat × Nat)) : Option (Nat × Nat × Nat) := x.map (fun p => (code, p))
  [ fun _ => at' ckTopology (d.firstBad order [1] (fun _ _ => topo.bad)),
    fun _ => at' ckShape (d.firstBad order [2] (fun _ i => d.shapeBad topo i)),
    fun _ => at' ckTenantMax (d.firstBad order [2] (fun _ i => tmax ≤ i || (d.partitions[i]?).any (fun p => tmax ≤ p.tenant))),
    fun _ => at' ckMasked (d.firstBad order [6, 7, 9, 10, 4] (h.maskedUse d)),
    fun _ => at' ckRoute (d.firstBad order [5, 6, 4, 13, 8] (h.routeBad d topo)),
    fun _ => at' ckLoad (d.firstBad order [6, 4, 3] (h.loadBad d full)),
    fun _ => at' ckEnvelope (h.imageOver d topo order),
    fun _ => at' ckCycle (d.firstBad order [8] (fun _ i => d.rankBad i)),
    fun _ => at' ckFold (d.firstBad order [9] (fun _ i => h.foldBad d ins i)),
    fun _ => at' ckGroup (d.firstBad order [10] (fun _ i => h.groupBad d topo ins 0 none i)),
    fun _ => at' ckRetry (d.firstBad order [6] (fun _ i => h.retryBad d topo es i)),
    fun (_ : Unit) => at' ckPower (d.firstBad order [2, 12] d.powerBad) ].findSome? (fun f => f ())

end Sys2Proof.Machine
end

