-- ==== Sys2Proof/Machine/Loader.lean ====
section
/-! DEFINITION. The checks of an image (Table 3.5) and of a plan's construction (R174, R175, Table 4.24 steps 2 to 13), and the
loader's attempt on a slot (R108, R118, R902). -/

namespace Sys2Proof.Machine

/-- Where a check failed: its code, the section and the record that BOOT_ERR_INFO reports (R902). -/
abbrev Finding := Nat × Nat × Nat

/-- How an image and a plan differ in construction (Tables 4.2 and 4.22): the directory's place and size, and the section area. -/
structure DocForm where
  plan : Bool
  dirOff : Nat
  dirMax : Nat
  lo : Nat
  hi : Nat

/-- The forms of an image and of a plan of n bytes. -/
def imageForm (n : Nat) : DocForm := ⟨false, 0x100, 47, 0x400, n - 96⟩
def planForm (n : Nat) : DocForm := ⟨true, 0x40, 11, 0x100, n⟩

/-- Directory entry i, its bytes and its flags (Table 4.4). -/
def DocForm.entryBytes (f : DocForm) (b : List Byte) (i : Nat) : List Byte := (b.drop (f.dirOff + 16 * i)).take 16
def DocForm.entry (f : DocForm) (b : List Byte) (i : Nat) : DirEntry := parseDir (f.entryBytes b i)
def DocForm.entries (f : DocForm) (b : List Byte) (count : Nat) : List DirEntry := (List.range count).map (f.entry b)
def DirEntry.mandatory (e : DirEntry) : Bool := e.flags % 2 == 1
def DirEntry.custom (e : DirEntry) : Bool := e.flags / 2 % 2 == 1
def DirEntry.bytes (e : DirEntry) (b : List Byte) : List Byte := (b.drop e.offset).take e.length

/-- A used entry breaks R152, against the entries before it. -/
def DocForm.entryBad (f : DocForm) (before : List DirEntry) (e : DirEntry) : Bool :=
  e.offset < f.lo || f.hi < e.offset + e.length || e.offset % 8 != 0 || (e.type == 15 && e.offset % 0x1000 != 0) ||
  (sectType f.plan e.type).any (fun t => e.length % t.size != 0) ||
  before.any (fun a => a.type == e.type ||
    (a.length != 0 && e.length != 0 && a.offset < e.offset + e.length && e.offset < a.offset + a.length))

/-- The section layout (R151, R152, R175). -/
def DocForm.layoutBad (f : DocForm) (b : List Byte) (count : Nat) : Option Finding :=
  if (!f.plan && count == 0) || f.dirMax < count then some (ckLayout, 0xff, 0)
  else
    (List.range f.dirMax).findSome? (fun i =>
      if (if i < count then f.entryBad (f.entries b i) (f.entry b i) else !allZero (f.entryBytes b i)) then some (ckLayout, i, 0)
      else none)

/-- The first section, in directory order, whose CRC does not match. -/
def crcBad (b : List Byte) (es : List DirEntry) : Option Finding :=
  es.zipIdx.findSome? (fun e => if crc32c (e.1.bytes b) == e.1.crc then none else some (ckCrc, e.2, 0))

/-- The first mandatory entry of an unknown type (R121, R175). -/
def unknownBad (plan : Bool) (es : List DirEntry) : Option Finding :=
  es.zipIdx.findSome? (fun e => if e.1.mandatory && (sectType plan e.1.type).isNone then some (ckUnknown, e.2, 0) else none)

/-- The lowest-numbered required type that is absent from an image. -/
def missingBad (es : List DirEntry) : Option Finding :=
  sectTypes.findSome? (fun t => if t.inImage == 1 && es.all (fun e => e.type != t.type) then some (ckMissing, 0xff, t.type) else none)

/-- The raw records of a section: none for FIRMWARE, whose records are bytes, and for a type that is skipped. -/
def DirEntry.records (e : DirEntry) (plan : Bool) (b : List Byte) : List (List Byte) :=
  if e.type == 15 then [] else
    match sectType plan e.type with
    | some t => chop t.size (e.length / t.size) (e.bytes b)
    | none => []

/-- The document that its sections spell. -/
def docOf (plan : Bool) (b : List Byte) (es : List DirEntry) : Doc :=
  parseDoc ((es.filter (fun e => (sectType plan e.type).isSome)).map (fun e => (e.type, e.records plan b)))

/-- A directory entry holds a reserved bit, or a flag against R153. -/
def DocForm.entryReserved (f : DocForm) (b : List Byte) (i : Nat) (e : DirEntry) : Bool :=
  u8 (f.entryBytes b i) 3 != 0 || 4 ≤ e.flags || (e.custom && (f.plan || e.type != 15)) ||
  (!f.plan && !e.mandatory && (sectType false e.type).any (fun t => t.inImage == 1))

/-- Some byte of the section area that lies in no section is not 0 (R150). -/
def DocForm.paddingBad (f : DocForm) (b : List Byte) (es : List DirEntry) : Bool :=
  b.zipIdx.any (fun x => x.1 != 0#8 && f.lo ≤ x.2 && x.2 < f.hi && es.all (fun e => !(e.offset ≤ x.2 && x.2 < e.offset + e.length)))

/-- Reserved fields (step 16 of Table 3.5), in the order of R902; `header` says that a reserved field of the header is not 0. -/
def DocForm.reservedBad (f : DocForm) (header : Bool) (b : List Byte) (es : List DirEntry) : Option Finding :=
  if header then some (ckReserved, 0xff, 0)
  else
    (es.zipIdx.findSome? (fun e => if f.entryReserved b e.2 e.1 then some (ckReserved, e.2, 0) else none)).or
    ((es.zipIdx.findSome? (fun e => (e.1.records f.plan b).zipIdx.findSome? (fun r =>
      if reservedZero e.1.type r.1 then none else some (ckReserved, e.2, r.2)))).or
    (if f.paddingBad b es then some (ckReserved, 0xff, 0xffff) else none))

/-- Record counts and field ranges (step 17 of Table 3.5), in the order of R902. -/
def DocForm.rangeBad (f : DocForm) (d : Doc) (es : List DirEntry) : Option Finding :=
  let fw := ((es.find? (fun e => e.type == 15)).map (·.length)).getD 0
  es.zipIdx.findSome? (fun e =>
    match sectType f.plan e.1.type with
    | none => none
    | some t =>
      let k := e.1.length / t.size
      if k < t.minRec || t.maxRec < k then some (ckRange, e.2, 0)
      else if t.type = 15 then none
      else (List.range k).findSome? (fun i => if rangeOk d f.plan fw t.type i then none else some (ckRange, e.2, i)))

/-- Fields of the image header (Table 4.3). -/
def imageLength (b : List Byte) : Nat := u32 b 0xc
def imageCount (b : List Byte) : Nat := u8 b 0x15
def imageLockMask (b : List Byte) : Nat := u32 b 0x18

/-- Steps 1 to 7 of Table 3.5, on the header (R147, R148). -/
def Hw.headerBad (h : Hw) (b : List Byte) (cap : Nat) : Option Finding :=
  let bad (c : Nat) : Option Finding := some (c, 0xff, 0)
  let n := imageLength b
  let step := h.reg .ancStepping
  if u32 b 0 = 0xffffffff then bad 0x12
  else if u32 b 0 ≠ 0x4d495642 then bad 0x20
  else if u32 b 0x3fc ≠ crc32c (b.take 0x3fc) then bad 0x21
  else if u16 b 4 ≠ 1 ∨ u16 b 6 ≠ 0x400 then bad 0x22
  else if u16 b 8 ≠ 0x0b01 ∨ u8 b 0xb ≠ fld step 8 8 ∨ fld step 0 8 < u8 b 0xa then bad 0x23
  else if n < 0x460 ∨ n % 8 ≠ 0 ∨ cap < n ∨ 7 * 2 ^ 20 < n then bad ckLength
  else if bit (h.reg .fusSecPolicy) 0 &&
      sha384 ((b.drop 0x20).take 97) != (List.range 12).flatMap (fun k => natLe 4 (h.reg .fusKeyhash k).toNat) then bad 0x30
  else none

/-- The reserved fields of the image header, lock_mask's bits beyond R209 included. -/
def imageHeaderReserved (b : List Byte) : Bool :=
  u16 b 0x16 != 0 || 0x80 ≤ imageLockMask b || u32 b 0x1c != 0 || !allZero ((b.drop 0x81).take 127) || !allZero ((b.drop 0x3f0).take 12)

/-- Steps 9 to 18 of Table 3.5, on the staged image: what fails first, or the records. -/
def Hw.imageBad (h : Hw) (b : List Byte) : Option Finding :=
  let f := imageForm b.length
  match f.layoutBad b (imageCount b) with
  | some x => some x
  | none =>
    let es := f.entries b (imageCount b)
    let sig := b.drop (b.length - 96)
    match crcBad b es with
    | some x => some x
    | none =>
      let pol := h.reg .fusSecPolicy
      if !ecdsaOk ((b.drop 0x20).take 97) (b.take (b.length - 96)) (leNat (sig.take 48)) (leNat (sig.drop 48)) then some (0x31, 0xff, 0)
      else if u8 b 0x14 < fld pol 8 6 then some (0x32, 0xff, 0)
      else
        let d := docOf false b es
        let custom := if bit pol 1 then none
          else es.zipIdx.findSome? (fun e => if e.1.type == 15 && e.1.custom then some (0x33, e.2, 0) else none)
        let syntactic := custom.or ((unknownBad false es).or ((missingBad es).or
          ((f.reservedBad (imageHeaderReserved b) b es).or (f.rangeBad d es))))
        match syntactic with
        | some x => some x
        | none => (h.structural d (es.map (·.type))).map (fun x => (x.1, (es.findIdx (fun e => e.type == x.2.1)), x.2.2))

/-- The document of a checked image. -/
def imageDoc (b : List Byte) : Doc := docOf false b ((imageForm b.length).entries b (imageCount b))

/-- The loaded FIRMWARE section's place: its offset and length. -/
def imageFirmware (b : List Byte) : Nat × Nat :=
  match ((imageForm b.length).entries b (imageCount b)).find? (fun e => e.type == 15) with
  | some e => (e.offset, e.length)
  | none => (0, 0)

/-- Bytes as a disturbed read gives them: `errs` are wrong bits by offset (R108). -/
def disturbed (errs : List (Nat × Byte)) (b : List Byte) : List Byte := errs.foldl (fun b e => b.modify e.1 (· ^^^ e.2)) b

/-- The place of a slot: its base and capacity (R114). -/
def Hw.slotPlace (h : Hw) (slot : Nat) : Option (Nat × Nat) :=
  if slot = 3 then some (0x10000, 0x700000)
  else if !bit (h.reg .bootSlot) 9 then none
  else if slot = 1 then some (h.boot.aBase, h.boot.aSize) else some (h.boot.bBase, h.boot.bSize)

/-- The checks of a slot at a place: what failed, or the image (Table 3.5). -/
def Hw.checkSlot (h : Hw) (base cap : Nat) (errs : List (Nat × Byte)) : Finding ⊕ List Byte :=
  if h.nvmReach < base + 0x400 then .inl (0x10, 0xff, 0)
  else
    let head := disturbed errs (h.nvmRead base 0x400)
    match h.headerBad head cap with
    | some x => .inl x
    | none =>
      if h.nvmReach < base + imageLength head then .inl (0x10, 0xff, 0)
      else
        let b := disturbed errs (h.nvmRead base (imageLength head))
        match h.imageBad b with
        | some x => .inl x
        | none => .inr b

/-- The loader tries the next slot (R108, R114, R118, R902). `errs` are wrong bits of the read in the probed mode, `errs2` those of
the re-read in mode 1. -/
def Hw.slotAttempt (h : Hw) (errs errs2 : List (Nat × Byte)) : Hw :=
  if h.dieState = stBoot ∧ h.boot.tableRead ∧ !h.boot.checked then
    match h.boot.order with
    | [] => h
    | slot :: _ =>
      let h := (h.beginAttempt slot).setPhase 3
      if h.nvmBlocked then h.failSlot 0x11 0xff 0
      else match h.slotPlace slot with
        | none => h.failSlot 0x10 0xff 0
        | some (base, cap) =>
          let first := h.checkSlot base cap errs
          let again := h.nvm.mode != 1 && (match first with | .inl x => x.1 == 0x21 || x.1 == ckCrc | .inr _ => false)
          let h := if again then h.modReg .bootStatus 0 0 (setBit · 9 true) else h
          match if again then h.checkSlot base cap errs2 else first with
          | .inl x => h.failSlot x.1 x.2.1 x.2.2
          | .inr b => { h with boot := { h.boot with checked := true, staged := b, rereading := again } }.setPhase 7
  else h

/-- The header checks of a plan copy (Table 4.24 steps 2 to 8): the code of the first that fails. -/
def Hw.planHeaderBad (h : Hw) (t : Nat) (b : List Byte) : Option Nat :=
  let n := u32 b 8
  let topo := h.topo
  if u32 b 0 ≠ 0x4c505642 then some 0x20
  else if u32 b 0xfc ≠ crc32c (b.take 0xfc) then some 0x21
  else if u16 b 4 ≠ 1 then some 0x22
  else if n < 0x100 ∨ 0x40000 < n ∨ n % 8 ≠ 0 ∨ b.length < n then some ckLength
  else if u8 b 6 ≠ t then some 0x25
  else if u8 b 0xc ≠ topo.x ∨ u8 b 0xd ≠ topo.y ∨ u8 b 0xe ≠ topo.z then some 0x26
  else if u32 b 0x18 ≠ 0 ∧ u32 b 0x18 ≠ (h.reg .bootImageId).toNat then some 0x27
  else none

/-- The entries and the document of a plan. -/
def planEntries (b : List Byte) : List DirEntry := (planForm (u32 b 8)).entries b (u8 b 0xf)
def planDoc (b : List Byte) : Doc := docOf true b (planEntries b)

/-- The construction of a plan (Table 4.24 steps 9 to 13): the code of the first check that fails. -/
def planBad (b : List Byte) : Option Nat :=
  let f := planForm (u32 b 8)
  let es := planEntries b
  let header := 2 ≤ u8 b 7 || !allZero ((b.drop 0x28).take 24) || !allZero ((b.drop 0xf0).take 12)
  ((f.layoutBad b (u8 b 0xf)).or ((crcBad b es).or ((unknownBad true es).or
    ((f.reservedBad header b es).or (f.rangeBad (planDoc b) es))))).map (·.1)

end Sys2Proof.Machine
end

