-- ==== Sys2Proof/Machine/Tile.lean ====
section
/-! DEFINITION. The lanes, commands and sideband of a tile port (chapter 11). -/

namespace Sys2Proof.Machine

/-- The credits that a gated tile node's port withholds (R765). -/
def Hw.withhold (h : Hw) (i : Nat) (f : Nat × Nat × Nat → Nat × Nat × Nat) : Hw :=
  if h.gated (tileNode i) then h.modPort i (fun p => { p with held := f p.held }) else h

/-- Log what the check bits of an item show (R453): lane k of TPF_ECC; false where the item is discarded. -/
def Hw.padCheck (h : Hw) (i k : Nat) (e : PadErr) : Hw × Bool :=
  let n := tileNode i
  match e with
  | .ok => (h, true)
  | .corrected =>
    (((h.modReg .tpErrEvt n 0 (bumpFld · 0 16 1)).modReg .tpfEcc (6 * 256 + i) k (bumpFld · 0 32 1)).logF2, true)
  | .uncorrectable => ((h.modReg .tpErrEvt n 0 (bumpFld · 24 8 1)).tileF1 i 7 0, false)

/-- Plan-local identifiers through the maps (R484). -/
def Hw.mapGet (h : Hw) (id : RegId) (i cnt planLen dieLen plan : Nat) : Option Nat :=
  ((List.range cnt).find? (fun k => bit (h.reg id (tileNode i) k) 31 && fld (h.reg id (tileNode i) k) 16 planLen == plan)).map
    (fun k => fld (h.reg id (tileNode i) k) 0 dieLen)

def Hw.flowOf (h : Hw) (i plan : Nat) : Option Nat := h.mapGet .tpFmap i 512 13 13 plan
def Hw.chanOf (h : Hw) (i plan : Nat) : Option Nat := h.mapGet .tpCmap i 256 12 12 plan
def Hw.phaseOf (h : Hw) (i plan : Nat) : Option Nat := h.mapGet .tpPmap i 16 8 12 plan

/-- The plan-local identifier of a die flow at a tile. -/
def Hw.planOf (h : Hw) (i die : Nat) : Nat :=
  (((List.range 512).find? (fun k => bit (h.reg .tpFmap (tileNode i) k) 31 && fld (h.reg .tpFmap (tileNode i) k) 0 13 == die)).map
    (fun k => fld (h.reg .tpFmap (tileNode i) k) 16 13)).getD 0

/-- CI credits after an item of n words (R494): they return at once unless the completion buffer is full. -/
def Hw.ciTake (h : Hw) (i n : Nat) : Hw :=
  h.modPort i (fun p => if p.comps.length < compRoom then p else { p with ci := p.ci - n })

/-- The record of a command whose header is accepted, with its observation mode and bin (R823, R824). -/
def Hw.cmdOpen (h : Hw) (i op : Nat) (x : CmdHdr) (src dst len : Nat) : Hw × TileCmd :=
  let mode := fld (h.reg .pmcTagMode) 0 2
  let key := mkWord [(0, 16, x.layer.toNat), (16, 16, x.oper.toNat)]
  let r := if mode = 1 ∧ h.counts (h.tileTenant i) (h.tileGen i) then h.chooseBin i key else (h, 0)
  (r.1, ⟨x.tag.toNat, op, x.ack, x.layer.toNat, x.oper.toNat, mode, r.2, h.barTime, src, dst, len, false⟩)

/-- Answer a command that is not performed (R495): it never holds its tag. -/
def Hw.refuseCmd (h : Hw) (i : Nat) (c : TileCmd) (status : Nat) : Hw :=
  (h.observeDone i c status 0).respond i c.op c.tag status [] false

/-- A completion with a violation that has been counted, or none. -/
def Hw.answerCounted (h : Hw) (i op tag status viol : Nat) : Hw :=
  h.modPort i (fun p => { p with comps := p.comps ++ [⟨none, [compHeader op 0 tag status viol]⟩] })

/-- The addresses and length that a command names, for its record (Table 19.7). -/
def cmdRange (op : Nat) (body : List (BitVec 64)) : Nat × Nat × Nat :=
  let w (k : Nat) : BitVec 64 := body.getD (k - 1) 0#64
  if op = opSend then (fld (w 2) 0 48, 0, fld (w 1) 32 32)
  else if op = opRecv then (0, if bit (w 1) 14 then 0 else fld (w 2) 0 48, fld (w 1) 32 32)
  else if op = opMove then (fld (w 2) 0 48, fld (w 3) 0 48, fld (w 1) 32 32)
  else if op = opCcx then (fld (w 2) 0 48, fld (w 3) 0 48, 0)
  else (0, 0, 0)

/-- A command with its words arrives on CI (R462, R463, R466, R467, R481, R482, R492, R493, R502): credits, errors, DRAINED,
TAG_BUSY, QUEUE_FULL, then its len and reserved bits (`masks` gives the bits that each word may set). A command that passes holds
its tag and is performed by `go`. A command with an uncorrectable word is discarded and answered by nothing (R453); what the words left
over count is a MALFORMED row of its own. -/
def Hw.accept (h : Hw) (i op : Nat) (x : CmdHdr) (body : List (BitVec 64)) (lens : List Nat) (masks : List Nat)
    (go : Hw → Hw) : Hw :=
  if !h.portUp i then h
  else
    let n := body.length + 1
    let p := h.port i
    let r := cmdRange op body
    let tag := x.tag.toNat
    let h := h.act (tileNode i) 7
    if p.ci = 0 then h.violation i 0x22 0 0
    else if p.ci < n then ((h.violation i 0x22 tag op).answerCounted i op tag scBadArg 0x22).ciTake i p.ci
    else
      let e := h.padCheck i 0 x.err
      if !e.2 then e.1.ciTake i n
      else
        let o := e.1.cmdOpen i op x r.1 r.2.1 r.2.2
        let h := o.1
        let c := o.2
        let h :=
          if h.portState i = psDrained then h.refuseCmd i c scDrained
          else if (p.cmd tag).isSome then h.refuseCmd i c scTagBusy
          else if 64 ≤ p.cmds.length then h.refuseCmd i c scQueueFull
          else if lens.isEmpty then h.refuseCmd i c scBadOpcode
          else if !lens.contains body.length || x.rsv != 0#3 ||
              (body.zip masks).any (fun w => w.1 &&& ~~~ (BitVec.ofNat 64 w.2) != 0#64) then h.refuseCmd i c scBadArg
          else go (h.modPort i (fun p => { p with cmds := p.cmds ++ [c] }))
        h.ciTake i n

/-- Fail a command that holds its tag before it is performed: it does not hold it any more. -/
def Hw.failCmd (h : Hw) (i tag status : Nat) : Hw :=
  match (h.port i).cmd tag with
  | none => h
  | some c => (h.modPort i (fun p => { p with cmds := p.cmds.filter (fun d => d.tag != tag) })).refuseCmd i c status

def all64 : Nat := 2 ^ 64 - 1
def mask48 : Nat := 2 ^ 48 - 1

/-- Word k of a body, counted from 1. -/
def bodyWord (body : List (BitVec 64)) (k : Nat) : BitVec 64 := body.getD (k - 1) 0#64

/-- NOP (Table 11.6). -/
def Hw.cmdNop (h : Hw) (i : Nat) (x : CmdHdr) (body : List (BitVec 64)) : Hw :=
  h.accept i opNop x body [0] [] (fun h => h.finish i x.tag.toNat 0 [] 0)

/-- SEND (R485, R486, R527); unit `ueAt` of its source has an uncorrectable error (R520). -/
def Hw.cmdSend (h : Hw) (i : Nat) (x : CmdHdr) (body : List (BitVec 64)) (ueAt : Option Nat) : Hw :=
  h.accept i opSend x body [2] [0xFFFFFFFF00003FFF, mask48] fun h =>
    let w1 := bodyWord body 1
    let src := fld (bodyWord body 2) 0 48
    let n := fld w1 32 32
    let tag := x.tag.toNat
    if n = 0 ∨ n % 128 ≠ 0 ∨ src % 128 ≠ 0 then h.failCmd i tag scBadArg
    else
      match (h.flowOf i (fld w1 0 13)).filter (fun f => (h.flowSlot (tileNode i) f).any (fun s => bit (h.reg .bnFlowCfg (tileNode i) s) 14)) with
      | none => h.failCmd i tag scBadFlow
      | some f =>
        if !h.rangeHeld i (h.tileTenant i) (h.tileGen i) src n true then h.failCmd i tag scLease
        else
          let y := h.newId
          (y.2.modPort i (fun p => { p with sends := p.sends ++ [⟨y.1, tag, f, src, n, n, bit w1 13, 0, false, false, ueAt⟩] })).pump i

/-- A SEND's last flit has been granted injection (R485). -/
def Hw.sendDone (h : Hw) (i tag : Nat) : Hw :=
  match (h.port i).sends.find? (fun s => s.tag == tag && (h.port i).ccx.all (fun c => c.id != s.id)) with
  | none => h
  | some s =>
    if s.finished h then
      ((h.modPort i (fun p => { p with sends := p.sends.filter (fun y => y.id != s.id) })).finish i tag
        (if s.bad then scLease else 0) [] s.bytes).pump i
    else h

/-- RECV (R479, R485, R527). -/
def Hw.cmdRecv (h : Hw) (i : Nat) (x : CmdHdr) (body : List (BitVec 64)) : Hw :=
  h.accept i opRecv x body [2] [0xFFFFFFFF00005FFF, mask48] fun h =>
    let w1 := bodyWord body 1
    let dst := fld (bodyWord body 2) 0 48
    let cap := fld w1 32 32
    let lane := bit w1 14
    let tag := x.tag.toNat
    if cap = 0 ∨ cap % 128 ≠ 0 ∨ (!lane ∧ dst % 128 ≠ 0) then h.failCmd i tag scBadArg
    else
      match h.flowOf i (fld w1 0 13) with
      | none => h.failCmd i tag scBadFlow
      | some f =>
        if !lane && !h.rangeHeld i (h.tileTenant i) (h.tileGen i) dst cap true then h.failCmd i tag scLease
        else
          let y := h.newId
          y.2.modPort i (fun p => { p with recvs := p.recvs ++ [⟨y.1, tag, f, dst, cap, lane, 0, 0, false, 0, false, false⟩] })

/-- A RECV has consumed its flit with last = 1 (R485). -/
def Hw.recvDone (h : Hw) (i tag : Nat) : Hw :=
  match (h.port i).recvs.find? (fun r => r.tag == tag && (h.port i).ccx.all (fun c => c.id != r.id)) with
  | none => h
  | some r =>
    if r.seen && r.writes == 0 then
      (h.modPort i (fun p => { p with recvs := p.recvs.filter (fun y => y.id != r.id) })).finish i tag
        (if r.bad then scLease else if r.dropped ≠ 0 then scTruncated else 0)
        [BitVec.ofNat 64 (r.got % 2 ^ 32 + r.dropped % 2 ^ 32 * 2 ^ 32)] r.got
    else h

/-- MOVE (R486, R527). -/
def Hw.cmdMove (h : Hw) (i : Nat) (x : CmdHdr) (body : List (BitVec 64)) : Hw :=
  h.accept i opMove x body [3] [0xFFFFFFFF00000000, mask48, mask48] fun h =>
    let n := fld (bodyWord body 1) 32 32
    let src := fld (bodyWord body 2) 0 48
    let dst := fld (bodyWord body 3) 0 48
    let tag := x.tag.toNat
    let held (a : Nat) : Bool := h.rangeHeld i (h.tileTenant i) (h.tileGen i) a n true
    if n = 0 ∨ n % 128 ≠ 0 ∨ src % 128 ≠ 0 ∨ dst % 128 ≠ 0 then h.failCmd i tag scBadArg
    else if !held src || !held dst || (remoteAddr src && remoteAddr dst) then h.failCmd i tag scLease
    else
      let y := h.newId
      (y.2.modPort i (fun p => { p with moves := p.moves ++ [⟨y.1, tag, src, dst, n, 0, false, false⟩] })).moveRun i y.1
        (if remoteAddr src || remoteAddr dst then 1 else 0)

/-- A MOVE's units up to its last are written, and it completes; over a memory path, its next unit begins instead (R486). -/
def Hw.moveDone (h : Hw) (i tag : Nat) : Hw :=
  match (h.port i).moves.find? (fun m => m.tag == tag) with
  | none => h
  | some m =>
    if m.waiting || h.fenced (h.tileTenant i) (h.tileGen i) then h
    else
      let remote := remoteAddr m.src || remoteAddr m.dst
      let h := h.moveRun i m.id (if remote then 1 else m.bytes / 128)
      match (h.port i).moves.find? (fun y => y.id == m.id) with
      | some m =>
        if m.bytes ≤ m.done then
          (h.modPort i (fun p => { p with moves := p.moves.filter (fun y => y.id != m.id) })).finish i tag
            (if m.bad then scLease else 0) [] m.bytes
        else h
      | none => h

/-- A channel's message from the words of a body. -/
def msgOfWords (ws : List (BitVec 64)) : BitVec 512 :=
  (ws.take 8).reverse.foldl (fun a w => (a <<< 64) ||| w.setWidth 512) 0#512
def wordsOfMsg (m : BitVec 512) : List (BitVec 64) := (List.range 8).map (fun k => (m >>> (64 * k)).setWidth 64)

/-- MSG_SEND (R484, R487, R302, R305, R306). -/
def Hw.cmdMsgSend (h : Hw) (i : Nat) (x : CmdHdr) (body : List (BitVec 64)) : Hw :=
  h.accept i opMsgSend x body [9] [0xFFF] fun h =>
    let n := tileNode i
    let tag := x.tag.toNat
    match (h.chanOf i (fld (bodyWord body 1) 0 12)).filter (fun c => h.chValid c && (h.chSrc c).1 == n) with
    | none => h.failCmd i tag scBadChannel
    | some c =>
      match h.chSend n (h.chSrc c).2 (some (h.tileTenant i)) c (msgOfWords (body.drop 1)) (some (i, tag)) with
      | (h, .accepted) => h.finish i tag 0 [] 64
      | (h, .stalled) => h
      | (h, .full) => h.finish i tag scChFull [] 0
      | (h, .dropped _) => h.failCmd i tag scBadChannel

/-- MSG_DEQ (R309, R484). -/
def Hw.cmdMsgDeq (h : Hw) (i : Nat) (x : CmdHdr) (body : List (BitVec 64)) (merge : Bool) : Hw :=
  h.accept i opMsgDeq x body [1] [0xFFF] fun h =>
    let n := tileNode i
    let tag := x.tag.toNat
    match (h.chanOf i (fld (bodyWord body 1) 0 12)).filter (fun c => h.chValid c && (h.chDst c).1 == n) with
    | none => h.failCmd i tag scBadChannel
    | some c =>
      match h.chDequeue n (h.chDst c).2 c merge with
      | (h, .message m) => h.finish i tag 0 (wordsOfMsg m) 64
      | (h, .empty) => h.finish i tag scEmpty [] 0
      | (h, _) => h.failCmd i tag scBadChannel

/-- SYNC (R488, R340). The high half of the last body word of an odd payload is not a word when it is 0. -/
def Hw.cmdSync (h : Hw) (i : Nat) (x : CmdHdr) (body : List (BitVec 64)) : Hw :=
  h.accept i opSync x body [1, 2, 3, 4, 5] [0xFF] fun h =>
    let tag := x.tag.toNat
    match h.syncOf i (fld (bodyWord body 1) 0 8) with
    | none => h.failCmd i tag scBadSync
    | some s =>
      let p := h.port i
      if p.syncs.any (fun y => y.sync == s) || p.ccx.any (fun c => c.phase == 1 && h.countSyncOf i c == some s) then
        h.failCmd i tag scSyncBusy
      else
        let ws := (body.drop 1).flatMap (fun (w : BitVec 64) => [w.setWidth 32, (w >>> 32).setWidth 32])
        let ws := if ws.length = h.syncWords s + 1 ∧ ws.getLast? = some 0#32 then ws.dropLast else ws
        h.modPort i (fun p => { p with syncs := p.syncs ++ [⟨tag, s, ws, false⟩] })

/-- PHASE (R490, R261, R263). -/
def Hw.cmdPhase (h : Hw) (i : Nat) (x : CmdHdr) (body : List (BitVec 64)) : Hw :=
  h.accept i opPhase x body [1] [0xFFFF] fun h =>
    let w := bodyWord body 1
    let tag := x.tag.toNat
    let v := fld w 8 8
    match h.phaseOf i (fld w 0 8) with
    | none => h.failCmd i tag scBadPhase
    | some e =>
      let declared := h.regs.any (fun r => decide (r.1.id = RegId.bnFlowCfg) && bit r.2 13 && bit r.2 14 &&
        (let ph := h.reg .bnFlowPhase r.1.i r.1.j; fld ph 0 12 == e && fld ph 16 8 == v))
      if declared then (h.phaseTarget e v).finish i tag 0 [] 0 else h.failCmd i tag scBadPhase

/-- COMPUTE_DONE (R414, R489). -/
def Hw.cmdComputeDone (h : Hw) (i : Nat) (x : CmdHdr) (body : List (BitVec 64)) : Hw :=
  h.accept i opComputeDone x body [1] [0xFFFF] fun h =>
    let tag := x.tag.toNat
    let t := fld (bodyWord body 1) 0 16
    match (h.port i).ccx.find? (fun c => c.tag == t && c.phase == 0) with
    | none => h.failCmd i tag scBadArg
    | some c => (h.modCcx i c.id (fun c => { c with released := true })).finish i tag 0 [] 0

/-- LEASE_ALLOC (R531 to R534). -/
def Hw.cmdLeaseAlloc (h : Hw) (i : Nat) (x : CmdHdr) (body : List (BitVec 64)) : Hw :=
  h.accept i opLeaseAlloc x body [1] [0x7F0001] fun h =>
    let w := bodyWord body 1
    let tag := x.tag.toNat
    let n := fld w 16 7
    if n = 0 ∨ 64 < n then h.failCmd i tag scBadArg
    else match h.leaseAlloc i (fld w 0 1) n with
      | none => h.finish i tag scNoSpace [] 0
      | some (h, a, ps) =>
        if ps.any (fun q => h.mem.zeroing.contains q) then h.modPort i (fun p => { p with allocs := p.allocs ++ [(tag, a, n)] })
        else h.finish i tag 0 [BitVec.ofNat 64 a] 0

/-- The pages of a LEASE_ALLOC that waited for zeroing are zero, and it completes; a page retired meanwhile makes it choose again
(R533, R522). -/
def Hw.leaseAllocDone (h : Hw) (i tag : Nat) : Hw :=
  match (h.port i).allocs.find? (fun a => a.1 == tag) with
  | none => h
  | some (_, a, n) =>
    let ps := (List.range n).map (fun k => a / pageSize + k)
    let drop (h : Hw) : Hw := h.modPort i (fun p => { p with allocs := p.allocs.filter (fun y => y.1 != tag) })
    if ps.any h.pageRetired then
      let h := ps.foldl (fun h q => h.modReg .slbLease q 0 (setBit · 15 false)) h
      match h.leaseAlloc i 0 n with
      | none => (drop h).finish i tag scNoSpace [] 0
      | some (h, b, _) => h.modPort i (fun p => { p with allocs := p.allocs.map (fun y => if y.1 = tag then (tag, b, n) else y) })
    else if ps.any (fun q => h.mem.zeroing.contains q) then h
    else (drop h).finish i tag 0 [BitVec.ofNat 64 a] 0

/-- LEASE_FREE (R535 to R537). -/
def Hw.cmdLeaseFree (h : Hw) (i : Nat) (x : CmdHdr) (body : List (BitVec 64)) : Hw :=
  h.accept i opLeaseFree x body [1] [2 ^ 49 - 1] fun h =>
    let w := bodyWord body 1
    let r := h.leaseFree i (fld w 48 1) (fld w 0 48)
    if r.2 = scBadArg then h.failCmd i x.tag.toNat scBadArg else r.1.finish i x.tag.toNat r.2 [] 0

/-- BELL_CLEAR (R491, R313). -/
def Hw.cmdBellClear (h : Hw) (i : Nat) (x : CmdHdr) (body : List (BitVec 64)) : Hw :=
  h.accept i opBellClear x body [1] [0xFFFFFF] fun h =>
    (h.clearBells (tileNode i) (fld (bodyWord body 1) 0 24)).finish i x.tag.toNat 0 [] 0

/-- CNT_REPORT (R506, R828, R829). -/
def Hw.cmdCntReport (h : Hw) (i : Nat) (x : CmdHdr) (body : List (BitVec 64)) : Hw :=
  h.accept i opCntReport x body [2, 3, 4, 5, 6, 7, 8, 9] [0xFF] fun h =>
    let n := tileNode i
    let w := bodyWord body 1
    let first := fld w 0 4
    let k := fld w 4 4
    let tag := x.tag.toNat
    if k + 1 ≠ body.length ∨ k = 0 ∨ 8 < k ∨ 16 < first + k then h.failCmd i tag scBadArg
    else if !bit (h.reg .tpCond n) 12 then h.finish i tag scNoWindow [] 0
    else
      (((body.drop 1).zip (List.range k)).foldl (fun h v =>
        ((h.setReg .pmcTcLo n (first + v.2) (v.1.setWidth 32)).setReg .pmcTcHi n (first + v.2) ((v.1 >>> 32).setWidth 32)).modReg
          .pmcTcStatus n 0 (setBit · (first + v.2) true)) h).finish i tag 0 [] 0

/-- JOB_DONE (R483, R704). -/
def Hw.cmdJobDone (h : Hw) (i : Nat) (x : CmdHdr) (body : List (BitVec 64)) : Hw :=
  h.accept i opJobDone x body [0] [] fun h =>
    let h := match h.tileOwner i with
      | some t =>
        if h.active t ∧ (h.job t).tileMask.testBit i ∧ !(h.job t).doneSet.testBit i then
          let h := h.modJob t (fun j => { j with doneSet := j.doneSet + 2 ^ i })
          if (h.job t).doneSet = (h.job t).tileMask then h.modReg .tntState t 0 (setBit · 10 true) else h
        else h
      | none => h
    h.finish i x.tag.toNat 0 [] 0

/-- A command with an undefined opcode (R482). -/
def Hw.cmdUnknown (h : Hw) (i op : Nat) (x : CmdHdr) (body : List (BitVec 64)) : Hw := h.accept i op x body [] [] id

/-- CCX at acceptance (R414 to R416, R418, R424): held, or answered at once. Reserved bits are checked at tail start (Table 10.4);
`bad` notes those outside word 1. -/
def Hw.cmdCcx (h : Hw) (i : Nat) (x : CmdHdr) (body : List (BitVec 64)) : Hw :=
  h.accept i opCcx x body [4] [] fun h =>
    let w (k : Nat) := bodyWord body k
    let tag := x.tag.toNat
    let fail (h : Hw) (s : Nat) : Hw := (h.tailEvt i s tag).failCmd i tag s
    if 16 ≤ (h.port i).ccx.length then fail h scQueueFull
    else match h.groupSlot i (fld (w 1) 0 8) with
      | none => fail h scBadGroup
      | some k =>
        let y := h.newId
        let bad := fld (w 2) 48 16 != 0 || fld (w 3) 48 16 != 0 || fld (w 4) 32 32 != 0
        let c : CcxOp := ⟨y.1, tag, k, w 1, fld (w 2) 0 48, fld (w 3) 0 48, fld (w 4) 0 32, bit (w 1) 11, 0, 0, 0, 0, 0, 0, 0, false, 0,
          0, [], false, bad, false⟩
        y.2.modPort i (fun p => { p with ccx := p.ccx ++ [c] })

/-- A command ends early: a new header came before it had all its words (R467). -/
def Hw.malformedCmd (h : Hw) (i op tag : Nat) : Hw :=
  if h.portUp i then (h.violation i 0x20 tag op).answerCounted i op tag scBadArg 0x20 else h

/-- A run of words without a header is discarded (R467). -/
def Hw.malformedRun (h : Hw) (i : Nat) : Hw := if h.portUp i then h.violation i 0x20 0 0 else h

/-- An item arrives without a credit and is discarded (R463). A command that loses a word is answered with BAD_ARG (R467). -/
def Hw.laneOverrun (h : Hw) (i : Nat) (cmd : Option (Nat × Nat)) : Hw :=
  if !h.portUp i then h
  else match cmd with
    | some (op, tag) => (h.violation i 0x22 tag op).answerCounted i op tag scBadArg 0x22
    | none => h.violation i 0x22 0 0

/-- The slab-lane page check (R470). -/
def Hw.lanePage (h : Hw) (i p : Nat) : Bool :=
  h.holds (h.tileTenant i) (h.tileGen i) (.slab ((i * 64 + p) * pageSize))

/-- A slab-lane read of a 256-byte line (R469, R470, R472, R519). At most 16 are outstanding, one for each credit. -/
def Hw.slabLaneRead (h : Hw) (i line : Nat) (err : PadErr) (ce : Bool) : Hw :=
  if !h.portUp i then h
  else if 16 ≤ (h.port i).reads.length + (h.port i).held.2.1 then h.violation i 0x22 0 0
  else
    let e := h.padCheck i 3 err
    if !e.2 then e.1.withhold i (fun x => (x.1, x.2.1 + 1, x.2.2))
    else
      let h := e.1.act (tileNode i) 7
      let push (h : Hw) (d : List Byte) (s : Nat) : Hw := h.modPort i (fun p => { p with reads := p.reads ++ [⟨line, d, s⟩] })
      if h.lanePage i (line / 256) then
        let h := if ce then h.slabCe (i * 64 + line / 256) else h
        push h (h.slabRead (i * 0x400000 + line * 256) 256) 0
      else push (h.violation i 0x21 0 0) (List.replicate 256 0#8) 2

/-- Read data returns in order (R465, R471); `ue` the slab found an uncorrectable error. -/
def Hw.slabReturn (h : Hw) (i : Nat) (ue : Bool) : Hw :=
  match (h.port i).reads with
  | [] => h
  | r :: rest =>
    let bad := ue && r.status == 0
    let h := if bad then h.slabUe (i * 64 + r.line / 256) else h
    let d := if bad then { r with data := List.replicate 256 0#8, status := 1 } else r
    (h.modPort i (fun p => { p with reads := rest, lastRd := some d })).withhold i (fun x => (x.1, x.2.1 + 1, x.2.2))

/-- A slab-lane write of a 128-byte unit under its byte enables (R469, R470). -/
def Hw.slabLaneWrite (h : Hw) (i unit : Nat) (en : BitVec 128) (data : BitVec 1024) (err : PadErr) (ce : Bool) : Hw :=
  if !h.portUp i then h
  else if 16 ≤ (h.port i).held.2.2 then h.violation i 0x22 0 0
  else
    let e := h.padCheck i (if err = .corrected then 2 else 3) err
    let w (h : Hw) : Hw := h.withhold i (fun x => (x.1, x.2.1, x.2.2 + 1))
    if !e.2 then w e.1
    else
      let h := w (e.1.act (tileNode i) 7)
      if h.lanePage i (unit / 512) then
        let h := if ce then h.slabCe (i * 64 + unit / 512) else h
        let a := i * 0x400000 + unit * 128
        let new := ((payloadBytes data).zip ((h.slabRead a 128).zip (List.range 128))).map
          (fun x => if en.getLsbD x.2.2 then x.1 else x.2.1)
        h.slabWrite a new
      else h.violation i 0x21 0 0

/-- The operation number that marks the FI flit of tile i at its source slot. -/
def fiOp (i : Nat) : Nat := 2 ^ 48 + i

/-- The head of FI goes to its source slot once the one before it has been granted (R476, R477). -/
def Hw.pumpFi (h : Hw) (i : Nat) : Hw :=
  if h.opWaits (fiOp i) then h
  else match (h.port i).fiq with
    | [] => h
    | f :: rest => (h.modPort i (fun p => { p with fiq := rest })).inject (tileNode i) (some (h.tileTenant i)) { f with op := fiOp i }

/-- The injection check of an FI flit (Table 6.4): NO_FLOW or WRONG_OWNER, 0 where it passes. -/
def Hw.fiCause (h : Hw) (i flow : Nat) : Nat :=
  match h.flowSlot (tileNode i) flow with
  | none => 1
  | some s =>
    let c := h.reg .bnFlowCfg (tileNode i) s
    if !bit c 14 then 1 else if fld c 16 6 ≠ h.tileTenant i then 2 else 0

/-- A flit on FI (R476 to R478, R502). -/
def Hw.fabricIn (h : Hw) (i flow : Nat) (last poison : Bool) (data : BitVec 1024) (err : PadErr) : Hw :=
  if !h.portUp i then h
  else if 16 ≤ (h.port i).fiq.length + b2n (h.opWaits (fiOp i)) + (h.port i).held.1 then h.violation i 0x22 0 0
  else
    let e := h.padCheck i 1 err
    let h := e.1
    let drop (h : Hw) : Hw := h.withhold i (fun x => (x.1 + 1, x.2.1, x.2.2))
    if !e.2 then drop h
    else if h.portState i = psDrained then drop (h.violation i scDrained 0 0)
    else
      let h := h.act (tileNode i) 7
      match h.flowOf i flow with
      | none => drop ((h.bDrop (tileNode i) 1 flow).violation i scBadFlow 0 0)
      | some f =>
        let c := h.fiCause i f
        if c ≠ 0 then drop ((h.bDrop (tileNode i) c f).violation i scBadFlow 0 0)
        else (h.modPort i (fun p => { p with fiq := p.fiq ++ [mkFlit f last 0 data false poison] })).pumpFi i

/-- The tile returns FO or CO credits (R464). -/
def Hw.tileCredit (h : Hw) (i : Nat) (co : Bool) (k : Nat) : Hw :=
  if !h.portUp i then h
  else
    let p := h.port i
    let old := if co then p.co else p.fo
    let h := (List.range (old + k - 64)).foldl (fun h _ => h.violation i 0x23 0 0) h
    let v := Nat.min 64 (old + k)
    h.modPort i (fun p => if co then { p with co := v } else { p with fo := v })

/-- A completion leaves on CO and frees its tag (R462, R466, R492, R494). -/
def Hw.completionDeliver (h : Hw) (i : Nat) : Hw :=
  let p := h.port i
  match p.comps with
  | [] => h
  | c :: rest =>
    if p.co < c.words.length then h
    else
      (h.act (tileNode i) 7).modPort i (fun p => { p with
        comps := rest, co := p.co - c.words.length, lastCo := c.words
        cmds := match c.frees with
          | some t => p.cmds.filter (fun d => !(d.tag == t && d.done))
          | none => p.cmds
        ci := if rest.length < compRoom then 32 else p.ci })

/-- The state in which a port comes out of a reset (R455, R515, R516). -/
def Hw.siteMasked (h : Hw) (i : Nat) : Bool :=
  h.nodeMasked (tileNode i) || h.health.tileFail.testBit i || bit (h.reg .tpCfg (tileNode i)) 31

/-- A tile port is reset (R455, R456, R460, R516, Table 2.3). -/
def Hw.tilePortReset (h : Hw) (i : Nat) : Hw :=
  let n := tileNode i
  let s := if h.portState i = psMasked ∨ h.siteMasked i then psMasked else psReset
  let own (e : Nat × List Flit) : Nat × List Flit := if e.1 / 512 = n then (e.1, e.2.filter (fun f => f.op == 0)) else e
  let left (e : Nat × List StalledSend) : Nat × List StalledSend := (e.1, e.2.filter (fun x => x.cmd.all (fun c => c.1 != i)))
  let h := { h with bnet := { h.bnet with inj := (h.bnet.inj.map own).filter (fun e => !e.2.isEmpty) } }
  let h := { h with cnet := { h.cnet with stalled := (h.cnet.stalled.map left).filter (fun e => !e.2.isEmpty) } }
  let h := { h with mem := { h.mem with reqs := h.mem.reqs.filter (fun r => r.tile != i) } }
  let h := h.setPort i { ({} : TilePort) with resetAt := h.now, tclkBad := (h.port i).tclkBad }
  let h := ((h.setReg .tpViolCnt n 0 0#32).setReg .tpViolEvt n 0 0#32).setReg .tpViolLog n 0 0#32
  let h := h.setReg .tpCond n 0 (mkWord [(24, 8, fld (h.reg .tpCond n) 24 8), (8, 1, b2n (bit (h.reg .tpCond n) 8)), (0, 4, s)])
  h.dropRegs (fun r => r.i == n && r.j == 7 && decide (r.id = RegId.pmcEngineBusyLo ∨ r.id = RegId.pmcEngineBusyHi ∨
    r.id = RegId.pmcEngineStallLo ∨ r.id = RegId.pmcEngineStallHi ∨ r.id = RegId.pmcEngineIdleLo ∨ r.id = RegId.pmcEngineIdleHi ∨
    r.id = RegId.pmcEngineSelLo ∨ r.id = RegId.pmcEngineSelHi ∨ r.id = RegId.pmcStallReason))

/-- The start bell of a tile (R458). -/
def startBell : Nat := 2 ^ 16

/-- A launch releases a port: TP_RST_N rises and the initial credits are granted (R458). -/
def Hw.portRelease (h : Hw) (i : Nat) : Hw :=
  let n := tileNode i
  if (h.port i).launch.isSome && h.portState i == psReset && bit (h.reg .nodeTclkMeas n) 16 && h.bar.rest == 0 && h.bar.phase == 0 &&
      decide ((h.port i).resetAt + 2400 ≤ h.now) then
    (h.setPortState i psActive).modPort i (fun p => { p with launch := none, ci := 32, leak := 0 })
  else h

/-- TCLK has not been in range in the 4 bars after a launch (R459). -/
def Hw.tclkStartTimeout (h : Hw) (i : Nat) : Hw :=
  if (h.port i).launch.any (fun k => 4 ≤ k) && h.portState i == psReset && !bit (h.reg .nodeTclkMeas (tileNode i)) 16 then
    (h.modPort i (fun p => { p with launch := none })).tileF1 i 0x0a 0
  else h

/-- The die raises SB_DRAIN_REQ (R500). -/
def Hw.drainRequest (h : Hw) (i : Nat) : Hw :=
  if h.portState i = psActive then
    ((h.setPortState i psDraining).modReg .tpCond (tileNode i) 0 (setBit · 9 true)).modPort i (fun p => { p with drainBars := 0 })
  else h

/-- The tile raises or lowers SB_DRAIN_ACK (R498, R501, R503). -/
def Hw.drainAck (h : Hw) (i : Nat) (level : Bool) : Hw :=
  if !h.portUp i then h
  else
    let n := tileNode i
    let req := bit (h.reg .tpCond n) 9
    if level ≠ req then h.violation i 0x24 0 0
    else
      let h := h.modReg .tpCond n 0 (setBit · 10 level)
      if level then (if h.portState i = psDraining then h.setPortState i psDrained else h)
      else if h.portState i = psActive then h else h.setPortState i psActive

/-- drain_bars bars have passed since SB_DRAIN_REQ rose (R501). -/
def Hw.drainTimeout (h : Hw) (i : Nat) : Hw :=
  if h.portState i = psDraining ∧ fld (h.reg .tpCfg (tileNode i)) 8 5 ≤ (h.port i).drainBars then
    (h.setPortState i psDrained).violation i 0x25 0 0
  else h

/-- The die lowers SB_DRAIN_REQ (R503): the port is ACTIVE once the tile's acknowledge reads 0. -/
def Hw.drainRelease (h : Hw) (i : Nat) : Hw :=
  let n := tileNode i
  if h.portUp i && bit (h.reg .tpCond n) 9 then
    let h := h.modReg .tpCond n 0 (setBit · 9 false)
    if bit (h.reg .tpCond n) 10 then h else h.setPortState i psActive
  else h

/-- The tile raises SB_FAULT with a code (R504); a request that falls early counts HANDSHAKE and gives its event once (R498). -/
def Hw.tileFault (h : Hw) (i code : Nat) (early : Bool) : Hw :=
  if !h.portUp i then h
  else
    let h := (h.modReg .tpCond (tileNode i) 0 (fun w => setBit (setFld w 24 8 code) 11 (!early))).tileF1 i 0x0b code
    if early then h.violation i 0x24 0 0 else h

/-- A handshake violation (R498). A power request released early still gives its event. -/
def Hw.handshake (h : Hw) (i : Nat) : Hw := if h.portUp i then h.violation i 0x24 0 0 else h

/-- SB_CNT_WIN falls after cnt_win_bars bars (R505). -/
def Hw.windowClose (h : Hw) (i : Nat) : Hw :=
  if bit (h.reg .tpCond (tileNode i)) 12 ∧ (h.port i).winBars = 0 then h.modReg .tpCond (tileNode i) 0 (setBit · 12 false) else h

/-- A power request of a tile (R507, R498). -/
def Hw.powerRequest (h : Hw) (i demand draw : Nat) (early : Bool) : Hw :=
  if !h.portUp i then h
  else
    let h := h.modPort i (fun p => { p with demand := some demand, draw := draw })
    if early then h.violation i 0x24 0 0 else h

/-- The rules of TP_CFG, TP_VIOL_LIMIT and the maps (R516, R518). `w` is the word the write would leave. -/
def Hw.tpRegWrite (h : Hw) (p : Path) (addr : Nat) (r : Reg) (w : Word) : Hw :=
  let i := nodeInst r.i
  match r.id with
  | .tpCfg =>
    if fld w 8 5 = 0 ∨ fld w 16 4 = 0 then h.misuse p true 9 addr
    else h.setReg .tpCfg r.i 0 (setBit w 31 (bit w 31 || bit (h.reg .tpCfg r.i) 31))
  | .tpViolLimit => h.setReg .tpViolLimit r.i 0 w
  | _ =>
    let cnt := if r.id = .tpFmap then 512 else if r.id = .tpCmap then 256 else if r.id = .tpSmap then 64 else 16
    let plan (v : Word) : Nat := if r.id = .tpGmap then fld v 0 8 else fld v 16 13
    if h.portState i ≠ psReset then h.misuse p true 4 addr
    else if bit w 31 && (List.range cnt).any (fun k => k != r.j && bit (h.reg r.id r.i k) 31 && plan (h.reg r.id r.i k) == plan w) then
      h.misuse p true 9 addr
    else h.setReg r.id r.i r.j w

end Sys2Proof.Machine
end

