-- ==== Sys2Proof/Machine/Power.lean ====
section
/-! DEFINITION. The power arbiter (chapter 17): windows, sensors, the grant algorithm, adaptation, the sending of grants, and droop
gates. -/

namespace Sys2Proof.Machine

/-- Fields of PWA_SHARE and PWA_ALLOC of a tenant (Table 17.3). -/
def Hw.shareValid (h : Hw) (t : Nat) : Bool := bit (h.reg .pwaShareHi t) 31
def Hw.floor (h : Hw) (t : Nat) : Nat := fld (h.reg .pwaShareLo t) 0 12
def Hw.ceiling (h : Hw) (t : Nat) : Nat := fld (h.reg .pwaShareLo t) 12 12
def Hw.weight (h : Hw) (t : Nat) : Nat := fld (h.reg .pwaShareLo t) 24 8
def Hw.tmax (h : Hw) (t : Nat) : Nat := fld (h.reg .pwaShareHi t) 0 9
def Hw.share (h : Hw) (t : Nat) : Nat := fld (h.reg .pwaAlloc t) 0 12
def Hw.allocOf (h : Hw) (t : Nat) : Nat := fld (h.reg .pwaAlloc t) 16 12
def Hw.limited (h : Hw) (t : Nat) : Bool := bit (h.reg .pwaAlloc t) 31

/-- The tenants with a share record. -/
def Hw.shared (h : Hw) : List Nat := (List.range 64).filter h.shareValid

/-- The tiles of a tenant that receive grants (R749), in ascending order. -/
def Hw.grantedTiles (h : Hw) (t : Nat) : List Nat :=
  if h.active t then (h.partTiles t).filter (fun i => (h.job t).tileMask.testBit i && h.portState i != psMasked) else []

/-- The accounted value of a tile (R750). -/
def Hw.acc (h : Hw) (i : Nat) : Nat :=
  if !h.portUp i then 0 else
    let p := h.port i
    match p.grantNext, p.grantOut with
    | some g, _ => Nat.max p.grant g
    | none, some g => Nat.max p.grant g
    | none, none => p.grant

def Hw.accSum (h : Hw) : Nat := ((List.range 64).map h.acc).sum

/-- The newest grant of a tile: pending, sent or acknowledged. -/
def Hw.newest (h : Hw) (i : Nat) : Nat := let p := h.port i; (p.grantNext.or p.grantOut).getD p.grant

/-- A grant below 3 tokens is sent as 0 (R738). -/
def grantRound (g : Nat) : Nat := if g < 3 then 0 else g

/-- Show whether a grant waits for its handshake (TP_COND.pwr_pending). -/
def Hw.showPending (h : Hw) (i : Nat) : Hw :=
  h.modReg .tpCond (tileNode i) 0 (setBit · 13 (h.port i).grantOut.isSome)

/-- Send a grant to a tile, or hold it pending while a handshake is incomplete; a newer grant replaces a pending one (R508). -/
def Hw.sendGrant (h : Hw) (i g : Nat) : Hw :=
  if !h.portUp i || h.newest i == g then h
  else
    (h.modPort i (fun p =>
      match p.grantOut with
      | some o => { p with grantNext := if o = g then none else some g }
      | none => { p with grantOut := some g, grantAt := h.now, grantLate := false })).showPending i

/-- The pool of the current window (PWA_STATUS.pool). -/
def Hw.pool (h : Hw) : Nat := fld (h.reg .pwaStatus) 20 12

/-- Send the increases that fit in the pool, in ascending tile index (R761). -/
def Hw.sendIncreases (h : Hw) : Hw :=
  h.power.want.foldl (fun h w =>
    let room := h.accSum - h.acc w.1 + Nat.max (h.port w.1).grant w.2
    if h.portUp w.1 && decide (room ≤ h.pool) then
      { (h.sendGrant w.1 w.2) with power := { h.power with want := h.power.want.filter (fun x => x.1 != w.1) } }
    else h) h

/-- The share of `left` that a member of `fill` gets: its weight, never beyond its cap. A member is (key, value, cap, weight). -/
def fillStep (left wsum : Nat) (m : Nat × Nat × Nat × Nat) : Nat :=
  if m.2.1 < m.2.2.1 then Nat.min (left * m.2.2.2 / wsum) (m.2.2.1 - m.2.1) else 0

/-- When every share rounded to 0, one token to each member below its cap in order while any are left. -/
def fillOnes : List (Nat × Nat × Nat × Nat) → Nat → List (Nat × Nat × Nat × Nat)
  | [], _ => []
  | m :: ms, 0 => m :: ms
  | m :: ms, left + 1 =>
    if m.2.1 < m.2.2.1 then (m.1, m.2.1 + 1, m.2.2) :: fillOnes ms left else m :: fillOnes ms (left + 1)

/-- fill of R753: share out up to `left` tokens by weight, never beyond the caps; the members and what is left. Every round gives
at least one token, so `left` rounds are enough. -/
def fill : Nat → List (Nat × Nat × Nat × Nat) → Nat → List (Nat × Nat × Nat × Nat) × Nat
  | 0, ms, left => (ms, left)
  | fuel + 1, ms, left =>
    let u := ms.filter (fun m => decide (m.2.1 < m.2.2.1))
    if left = 0 ∨ u.isEmpty then (ms, left)
    else
      let wsum := (u.map (fun m => m.2.2.2)).sum
      let given := (u.map (fillStep left wsum)).sum
      if given = 0 then
        let k := Nat.min left u.length
        fill fuel (fillOnes ms k) (left - k)
      else fill fuel (ms.map (fun m => (m.1, m.2.1 + fillStep left wsum m, m.2.2))) (left - given)

/-- The floors that a pool allows (R753): in full, or in proportion. -/
def Hw.floors (h : Hw) (pool : Nat) : List (Nat × Nat) :=
  let fsum := (h.shared.map h.floor).sum
  h.shared.map (fun t => (t, if fsum ≤ pool then h.floor t else h.floor t * pool / fsum))

/-- The demand and the reported draw of a tile for the window in progress (R748). -/
def Hw.demandOf (h : Hw) (t i : Nat) : Nat := ((h.power.demands.getD i (none, 0)).1).getD (h.tmax t)
def Hw.drawOf (h : Hw) (i : Nat) : Nat := (h.power.demands.getD i (none, 0)).2

/-- The allocations of a window: for each active partition its allocation and whether it was limited (R753, R754). -/
def Hw.allocations (h : Hw) (pool : Nat) : List (Nat × Nat × Bool) :=
  let fl := h.floors pool
  let left := pool - (fl.map (·.2)).sum
  let ps := (List.range 64).filter h.active
  let dem (t : Nat) : Nat := ((h.grantedTiles t).map (fun i => Nat.min (h.demandOf t i) (h.tmax t))).sum
  let cap1 (t : Nat) : Nat := Nat.min (h.share t) (dem t)
  let cap2 (t : Nat) : Nat := Nat.min (h.ceiling t) (dem t)
  let start := ps.map (fun t => (t, Nat.min (sget fl t 0) (dem t), cap1 t, h.weight t))
  let one := fill left start left
  let two := fill one.2 (one.1.map (fun m => (m.1, m.2.1, cap2 m.1, m.2.2.2))) one.2
  (one.1.zip two.1).map (fun x => (x.1.1, x.2.2.1, decide (cap1 x.1.1 < cap2 x.1.1) && x.1.2.1 == cap1 x.1.1))

/-- The grants of a partition's tiles out of its allocation (R753, R738). -/
def Hw.grants (h : Hw) (t alloc : Nat) : List (Nat × Nat) :=
  ((fill alloc ((h.grantedTiles t).map (fun i => (i, 0, Nat.min (h.demandOf t i) (h.tmax t), 1))) alloc).1).map
    (fun m => (m.1, grantRound m.2.1))

/-- The budget in force (R757). -/
def Hw.budgetNow (h : Hw) : Nat := if h.power.therm then fld h.power.budget 16 12 else fld h.power.budget 0 12
def Hw.dieReserve (h : Hw) : Nat := fld h.power.window 17 9

/-- A power window begins (R739, R741, R748, R757, R758, R755): the sums of the ended window are taken, the registers written in it
come into force, the last requests are taken, and a computation is due. -/
def Hw.powerBar (h : Hw) : Hw :=
  let sums (e : Nat × Adapt) : Nat × Adapt :=
    if h.active e.1 then
      let ts := h.grantedTiles e.1
      (e.1, { drawn := e.2.drawn + (ts.map h.drawOf).sum, granted := e.2.granted + (ts.map h.acc).sum,
              windows := e.2.windows + 1, limited := e.2.limited || h.limited e.1 })
    else e
  let therm := !h.pins.thermN || decide (95 ≤ fld (h.reg .pwaTemp) 0 8)
  let p := h.power
  let power := { p with
    due := true
    last := h.budgetNow
    budget := h.reg .pwaBudget
    window := h.reg .pwaWindow
    droop := h.reg .pwaDroopCfg
    therm := therm
    adapt := p.adapt.map sums
    demands := (List.range 64).map (fun i => if h.portUp i then ((h.port i).demand, (h.port i).draw) else (none, 0)) }
  let h := if therm && !p.therm then h.modReg .pwaGrantEvt 0 0 (setBit · 2 true) else h
  { h with power := power }

/-- What stands for the reading of a sensor without a valid mean (R746, R747). -/
def Hw.sensorStand (h : Hw) (k : Nat) : Nat :=
  if h.power.seen.testBit k then fld (h.reg .pwaSensor k) 0 12
  else if k < 8 then cdiv h.dieReserve 8
  else if 14 ≤ k ∧ k < 22 then ((List.range 8).map (fun c => h.acc ((k - 14) * 8 + c))).sum
  else 0

/-- A sensor's reading at a window's end: mean, highest bar mean, valid (Table 17.3, R746). The register keeps the means of the last
valid window while the sensor is invalid. -/
def Hw.sensorIn (h : Hw) (k : Nat) (s : Nat × Nat × Bool) : Hw :=
  if 22 ≤ k then h
  else if s.2.2 then
    { (h.setReg .pwaSensor k 0 (mkWord [(31, 1, 1), (16, 12, s.2.1), (0, 12, s.1)])) with
      power := { h.power with seen := if h.power.seen.testBit k then h.power.seen else h.power.seen + 2 ^ k } }
  else ((h.modReg .pwaSensor k 0 (setBit · 31 false)).modReg .pwaGrantEvt 0 0 (setBit · 3 true)).logF2

/-- The excess of the last window and its package power (R744, R745): the readings are in the sensor registers. -/
def Hw.packagePower (h : Hw) : Nat :=
  ((List.range 22).map (fun k => if 8 ≤ k ∧ k < 14 then 0
    else if bit (h.reg .pwaSensor k) 31 then fld (h.reg .pwaSensor k) 0 12 else h.sensorStand k)).sum

/-- The grant computation of a window (R740, R753, R760, R761). `sensors` are the readings of the ended window, `temp` the highest
HBM stack temperature at the boundary. -/
def Hw.powerWindow (h : Hw) (sensors : List (Nat × Nat × Bool)) (temp : Nat) : Hw :=
  if !h.power.due || !h.running then h
  else
    let h := (List.range 22).foldl (fun h k => h.sensorIn k (sensors.getD k (0, 0, false))) h
    let h := h.setReg .pwaTemp 0 0 (mkWord [(0, 8, Nat.min 255 temp)])
    let pkg := h.packagePower
    let e := pkg - h.power.last
    let pool := h.budgetNow - h.dieReserve - e
    let cut := decide (pool < (h.shared.map h.floor).sum)
    let al := h.allocations pool
    let h := h.setReg .pwaMeas 0 0 (mkWord [(0, 12, Nat.min 4095 pkg), (16, 12, Nat.min 4095 e)])
    let h := h.setReg .pwaStatus 0 0 (mkWord [(20, 12, pool), (17, 1, b2n cut), (16, 1, b2n h.power.therm), (0, 16, h.stamp.1 / 16)])
    let h := h.modReg .pwaGrantEvt 0 0 (fun w => setBit (setBit w 0 true) 1 (bit w 1 || cut))
    let h := if cut then h.logF2 else h
    let h := (List.range 64).foldl (fun h t =>
      let a := sget al t (0, false)
      h.setReg .pwaAlloc t 0 (mkWord [(0, 12, h.share t), (16, 12, a.1), (31, 1, b2n a.2)])) h
    let gs := al.flatMap (fun a => h.grants a.1 a.2.1)
    let want := (List.range 64).map (fun i => (i, sget gs i 0))
    let down := want.filter (fun w => decide (w.2 < h.newest w.1))
    let up := want.filter (fun w => decide (h.newest w.1 < w.2))
    let h := { h with power := { h.power with due := false, want := up } }
    (down.foldl (fun h w => h.sendGrant w.1 w.2) h).sendIncreases

/-- A partition's adaptive share is adjusted at the end of its adaptation period (R755, R756). -/
def Hw.powerAdapt (h : Hw) (t : Nat) : Hw :=
  match (h.power.adapt.find? (fun e => e.1 == t)).map (·.2) with
  | none => h
  | some a =>
    if fld h.power.window 0 8 ≤ a.windows then
      let step := fld h.power.window 8 9
      let s := if 7 * a.granted ≤ 8 * a.drawn ∧ a.limited then Nat.min (h.share t + step) (h.ceiling t)
        else if 2 * a.drawn < a.granted then Nat.max (h.share t - step) (h.floor t)
        else h.share t
      { (h.modReg .pwaAlloc t 0 (setFld · 0 12 s)) with
        power := { h.power with adapt := h.power.adapt.map (fun e => if e.1 = t then (t, {}) else e) } }
    else h

/-- Every partition whose period has ended is adjusted. -/
def Hw.powerAdaptAll (h : Hw) : Hw := (List.range 64).foldl (fun h t => h.powerAdapt t) h

/-- A partition is admitted: its adaptive share is its floor, and its first period begins (R755). -/
def Hw.powerAdmit (h : Hw) (t : Nat) : Hw :=
  { (h.modReg .pwaAlloc t 0 (setFld · 0 12 (h.floor t))) with
    power := { h.power with adapt := h.power.adapt.filter (fun e => e.1 != t) ++ [(t, {})] } }

/-- The start grants of a partition that has entered STARTING, at a bar boundary (R762). -/
def Hw.startGrant (h : Hw) (t : Nat) : Hw :=
  if h.power.starts.contains t && h.bar.phase == 0 && h.bar.rest == 0 then
    let ts := h.grantedTiles t
    let g := grantRound (Nat.min (sget (h.floors h.pool) t 0 / ts.length) (h.tmax t))
    let h := { h with power := { h.power with starts := h.power.starts.filter (· != t)
                                              want := h.power.want.filter (fun w => !ts.contains w.1) ++
                                                (ts.filter (fun i => !h.portUp i)).map (fun i => (i, g)) } }
    ts.foldl (fun h i => h.sendGrant i g) h
  else h

/-- The tile acknowledges a grant (R508, R509, R761): a late one is a violation, one that answers no grant is ignored (R498). -/
def Hw.grantAck (h : Hw) (i : Nat) : Hw :=
  if !h.portUp i then h
  else match (h.port i).grantOut with
    | none => h.violation i 0x24 0 0
    | some g =>
      let late := decide ((h.port i).grantAt + 4096 < h.now) && !(h.port i).grantLate
      let h := if late then h.violation i 0x26 0 0 else h
      ((h.modPort i (fun p =>
        { p with grant := g, grantOut := p.grantNext, grantNext := none, grantAt := h.now, grantLate := false })).showPending i).sendIncreases

/-- A grant has not been acknowledged within 1 bar (R509): PWR_LATE, once for the grant. -/
def Hw.grantLate (h : Hw) (i : Nat) : Hw :=
  if (h.port i).grantOut.isSome && !(h.port i).grantLate && decide ((h.port i).grantAt + 4096 < h.now) then
    (h.violation i 0x26 0 0).modPort i (fun p => { p with grantLate := true })
  else h

/-- A power request reaches the arbiter (R507, R752): a reported draw above the acknowledged grant is counted. -/
def Hw.powerReport (h : Hw) (i demand draw : Nat) (early : Bool) : Hw :=
  let above := h.portUp i && decide ((h.port i).grant < draw)
  let h := h.powerRequest i demand draw early
  if above then
    h.modReg .pwaGrantEvt 0 0 (fun w => bumpFld (if fld w 16 8 = 0 then setFld w 8 6 i else w) 16 8 1)
  else h

/-- A droop detector trips (R764 to R767). -/
def Hw.droopTrip (h : Hw) (det : Nat) : Hw :=
  if h.running && bit h.power.droop det then
    let stop := h.stamp.1 + fld h.power.droop 16 4 + 1
    let old := sget h.power.gates det 0
    let h := { h with power := { h.power with gates := sset nlt h.power.gates det (Nat.max old stop) 0 } }
    h.logF2.modReg .pwaGrantEvt 0 0 (bumpFld · 24 8 1)
  else h

/-- The movers and the fabric-in lane of a tile go on (R765). -/
def Hw.resumeTile (h : Hw) (i : Nat) : Hw :=
  let h := (h.pump i).pumpFi i
  let h := (h.port i).moves.foldl (fun h m => h.moveRun i m.id (cdiv m.bytes 128)) h
  (h.port i).ccx.foldl (fun h c => h.pumpTail i c.id) h

/-- Droop gates end at the first cycle of their bar (R766): the withheld credits return and the movers go on. -/
def Hw.droopEnd (h : Hw) : Hw :=
  let h := { h with power := { h.power with gates := h.power.gates.filter (fun g => decide (h.stamp.1 < g.2)) } }
  (List.range 64).foldl (fun h i => if h.gated (tileNode i) then h
    else (h.modPort i (fun p => { p with held := (0, 0, 0) })).resumeTile i) h

/-- THERM_N settles at a level (R864). -/
def Hw.thermN (h : Hw) (level : Bool) : Hw := { h with pins := { h.pins with thermN := level } }

/-- ALERT_N is high impedance (R865): the die drives it low in SAFE_HOLD and CLOCK_LOST and in a window whose floors are cut. -/
def Hw.alertN (h : Hw) : Bool :=
  !(h.dieState == stSafeHold || h.dieState == stClockLost || bit (h.reg .pwaStatus) 17)

/-- PWA_GATE (Table 17.3) and PWA_TILE of a tile. -/
def Hw.gateWord (h : Hw) : Word :=
  let gs := h.power.gates.filter (fun g => decide (h.stamp.1 < g.2))
  mkWord [(0, 16, gs.foldl (fun m g => m + 2 ^ g.1) 0), (16, 4, Nat.min 15 (gs.foldl (fun m g => Nat.max m (g.2 - h.stamp.1)) 0))]

def Hw.pwaTileWord (h : Hw) (i : Nat) : Word :=
  let p := h.port i
  mkWord [(0, 9, p.grant), (9, 9, p.demand.getD 0), (18, 9, p.draw), (27, 1, b2n (p.grantOut.isSome || p.grantNext.isSome)),
    (28, 1, b2n p.demand.isSome)]

/-- The write rules of PWA_WINDOW and PWA_DROOP_CFG (R770): a field outside its range makes the write ignored. -/
def Hw.powerRegWrite (h : Hw) (p : Path) (addr : Nat) (r : Reg) (w : Word) : Hw :=
  let ok := if r.id = .pwaWindow then fld w 17 9 ≤ 480 ∧ 1 ≤ fld w 8 9 ∧ fld w 8 9 ≤ 400 ∧ 1 ≤ fld w 0 8
    else 1 ≤ fld w 20 8 ∧ fld w 20 8 ≤ 40 ∧ 1 ≤ fld w 16 4 ∧ fld w 16 4 ≤ 8
  if ok then
    let x := h.lockFilter p addr r.id (h.reg r.id r.i r.j) w
    x.1.setReg r.id r.i r.j x.2
  else h.misuse p true 9 addr

end Sys2Proof.Machine
end

