-- ==== Sys2Proof/Machine/Apply.lean ====
section
/-! DEFINITION. Programming the die from the records of an image or a plan (R124, R785): routes, phase entries, flow slots, endpoints,
channels, fold contexts, collective groups and syncs; and the image's own parts: partitions, leases, power policy, lock bits. -/

namespace Sys2Proof.Machine

/-- How the identifiers of a document map to those of the die: identically for an image, as admission chooses for a plan (R156). -/
structure DieMap where
  tenant : Nat
  gen : Nat
  image : Bool
  flow : Nat → Nat
  remote : Nat → Nat
  route : Nat → Nat
  chan : Nat → Nat
  tree : Nat → Nat
  group : Nat → Nat
  phase : Nat → Nat
  sync : Nat → Nat

/-- The owner fields of a configuration word. -/
def DieMap.owner (m : DieMap) : List (Nat × Nat × Nat) := [(16, 6, m.tenant), (22, 10, m.gen)]

/-- Add output ports to a route-table entry of a router (Table 6.8). -/
def Hw.addRoute (h : Hw) (n r mask : Nat) : Hw :=
  h.modReg .bnRouteTbl n (r / 4) (fun w => w ||| BitVec.ofNat 32 (mask % 32 * 2 ^ (8 * (r % 4))))

/-- Clear a route index in every router. -/
def Hw.clearRoute (h : Hw) (r : Nat) : Hw :=
  (List.range 96).foldl (fun h n => h.modReg .bnRouteTbl n (r / 4) (setFld · (8 * (r % 4)) 8 0)) h

/-- Program the path of a route record into a die route index (R251): its output ports and the local bit at its end. -/
def Hw.putPath (h : Hw) (r : RouteRec) (die : Nat) : Hw :=
  (((h.routeLinks r).getD []).foldl (fun h l => h.addRoute l.1 die (2 ^ l.2)) h).addRoute r.dst die 1

/-- The route records of a document. A multicast flow's first index holds the union of its branches (R254). -/
def Hw.putRoutes (h : Hw) (d : Doc) (m : DieMap) : Hw :=
  let h := d.routes.zipIdx.foldl (fun h r => h.putPath r.1 (m.route r.2)) h
  d.flows.foldl (fun h f => if f.dst = 0xff then (d.branches f).foldl (fun h r => h.putPath r (m.route f.route)) h else h) h

/-- The phase sets that a document's flows name. -/
def Doc.phaseSets (d : Doc) : List Nat := ((d.flows.map (·.phaseSet)).filter (· != 0)).eraseDups

/-- Assign the phase-table entries of a document: every phase starts at 0 (R260). -/
def Hw.putPhases (h : Hw) (d : Doc) (m : DieMap) : Hw :=
  d.phaseSets.foldl (fun h s => h.setReg .bnPhase anchorNode (m.phase s) (mkWord [(31, 1, 1), (24, 6, m.tenant)])) h

/-- The lowest free slot of a node, and what a flow writes into it (Tables 6.8 and 6.9). -/
def Hw.putSlot (h : Hw) (n cfg rate bound phase : Nat) : Hw :=
  let s := ((List.range 512).find? (fun s => !bit (h.reg .bnFlowCfg n s) 13)).getD 511
  let h := ((h.setReg .bnFlowRate n s (BitVec.ofNat 32 rate)).setReg .bnFlowBound n s (BitVec.ofNat 32 bound)).setReg .bnFlowPhase n s
    (BitVec.ofNat 32 phase)
  h.flowCfgSet n s (BitVec.ofNat 32 cfg)

/-- A flow of a document: every sink slot, then its source slot; what its record declares beside them (Table 4.7). -/
def Hw.putFlow (h : Hw) (d : Doc) (m : DieMap) (f : FlowRec) : Hw :=
  let die := m.flow f.flow
  let sinks := d.sinks f
  let rate := (mkWord [(28, 1, b2n (f.route != 0xffff)), (16, 12, if f.route = 0xffff then f.dst else m.route f.route), (13, 3, f.vc),
    (0, 13, f.rate)]).toNat
  let phase := (mkWord [(16, 8, f.phase), (0, 12, if f.phaseSet = 0 then 0 else m.phase f.phaseSet)]).toNat
  let cfg (n : Nat) : Nat := (mkWord (m.owner ++ [(15, 1, b2n (sinks.contains n)), (14, 1, b2n (n == f.src)), (13, 1, 1), (0, 13, die)])).toNat
  let nodes := (sinks.filter (· != f.src)).eraseDups ++ [f.src]
  let h := nodes.foldl (fun h n => h.putSlot n (cfg n) rate f.bound phase) h
  let kind : FlowKind := { kind := f.kind, tree := m.tree f.foldTree, dst := f.dst,
                           remote := if f.rx = 0xff then 0xffff else m.remote f.remoteFlow, detourOk := f.detourOk }
  let h := { h with fold := { h.fold with kinds := nset h.fold.kinds die kind {} } }
  if f.kind = 2 then
    { h with mem := { h.mem with flows := h.mem.flows ++ [⟨die, f.src, f.dst, if m.image then 64 else m.tenant, !m.image⟩] } }
  else h

/-- An endpoint and a channel of a document (Tables 7.9 and 7.10). -/
def Hw.putEndpoint (h : Hw) (m : DieMap) (e : EndpointRec) : Hw :=
  h.setReg .chEpt e.node e.index (mkWord [(15, 1, 1), (8, 6, m.tenant), (0, 8, e.rank)])

def Hw.putChannel (h : Hw) (d : Doc) (m : DieMap) (c : ChannelRec) : Hw :=
  match d.endpoints[c.src]?, d.endpoints[c.dst]? with
  | some a, some b =>
    let die := m.chan c.channel
    let h := h.setReg .chEp die 0 (mkWord [(24, 4, b.index), (16, 7, b.node), (8, 4, a.index), (0, 7, a.node)])
    h.chEnable die (mkWord (m.owner ++ [(15, 1, 1), (14, 1, b2n c.blocking), (13, 1, 1), (8, 4, c.log2Depth)]))
  | _, _ => h

/-- The axis and the sending coordinate that a context behind a torus port expects (R402): those of the module across the port. -/
def Hw.ringExpect (h : Hw) (f : FoldRec) : Nat × Nat :=
  match portOf f.node with
  | some p =>
    if f.inMask.testBit 0 then
      let c := h.topo.across p
      (portAxis p + 1, if portAxis p = 0 then c.1 else if portAxis p = 1 then c.2.1 else c.2.2)
    else (0, 0)
  | none => (0, 0)

/-- A fold unit of a document: the lowest free context of its node (Table 9.10). -/
def Hw.putFold (h : Hw) (m : DieMap) (f : FoldRec) : Hw :=
  let k := ((List.range 64).find? (fun k => !bit (h.reg .fldCfg f.node k) 15)).getD 63
  let ring := h.ringExpect f
  let fmt := mkWord [(24, 3, if f.outPort = 0xff then 0 else f.outPort), (16, 5, f.inMask), (12, 1, b2n f.saturate), (8, 4, f.dstFmt),
    (4, 4, f.carrier), (0, 4, f.inFmt)]
  let link := mkWord [(20, 4, ring.2), (16, 2, ring.1), (0, 13, m.flow f.outFlow)]
  ((h.setReg .fldFmt f.node k fmt).setReg .fldLink f.node k link).foldEnable f.node k (mkWord (m.owner ++ [(15, 1, 1), (0, 12, m.tree f.tree)]))

/-- A ring entry at the lowest free place of a link node (Table 10.11). -/
def Hw.putRing (h : Hw) (m : DieMap) (group n : Nat) (gate : Bool) (flow : Word) : Hw :=
  let r := ((List.range 32).find? (fun r => !bit (h.reg .cqRingCfg n r) 15)).getD 31
  ((h.setReg .cqRingFlow n r flow).setReg .cqRingStatus n r 0#32).setReg .cqRingCfg n r
    (mkWord (m.owner ++ [(15, 1, 1), (14, 1, b2n gate), (0, 8, group)]))

/-- The module is the root module of a group, or the group has scope 0 (R421). -/
def Hw.rootModule (h : Hw) (g : GroupRec) : Bool :=
  let t := h.topo
  g.scope == 0 || (g.rootx == t.x && g.rooty == t.y && g.rootz == t.z)

/-- A collective group of a document: the slots of its member tiles, and for scope 1 its sequencer entry and ring entries (R423, R431,
R433). A group without members on this module is not programmed. -/
def Hw.putGroup (h : Hw) (d : Doc) (m : DieMap) (g : GroupRec) : Hw :=
  if !h.topo.member g then h
  else
    let die := m.group g.group
    let flow := mkWord [(31, 1, b2n (g.bcastFlow != 0xffff)), (16, 13, if g.bcastFlow = 0xffff then 0 else m.flow g.bcastFlow),
      (15, 1, b2n (g.foldTree != 0xffff)), (0, 12, if g.foldTree = 0xffff then 0 else m.tree g.foldTree)]
    let slot (h : Hw) (i : Nat) : Hw :=
      let n := tileNode i
      let k := ((List.range 16).find? (fun k => !bit (h.reg .cqGroupCfg n k) 15)).getD 15
      let cfg := mkWord (m.owner ++ [(15, 1, 1), (14, 1, b2n (i == g.rootTile && h.rootModule g)), (13, 1, g.scope),
        (10, 2, if g.scope = 0 then 0 else g.sequencer),
        (8, 2, g.bcastEsz), (0, 8, die)])
      let h := ((h.setReg .cqGroupFlow n k flow).setReg .cqStatus n k 0#32).setReg .cqGroupCfg n k cfg
      if m.image then h else h.setReg .tpGmap n k (mkWord [(31, 1, 1), (0, 8, g.group)])
    let h := g.rect.tiles.foldl slot h
    if g.scope = 0 then h
    else
      let gates := (d.gates g).map (·.node)
      let relays := d.relays g
      let h := gates.foldl (fun h n => h.putRing m die n true (mkWord [(0, 6, (h.treeCtx n (m.tree g.foldTree)).getD 0)])) h
      let h := relays.foldl (fun h r => h.putRing m die r.1 false (mkWord [(16, 13, m.flow r.2.flow), (0, 13, m.flow g.bcastFlow)])) h
      let ports := ((gates ++ relays.map (·.1)).filterMap portOf).eraseDups
      let q := nodeOf 4 g.sequencer
      let j := ((List.range 64).find? (fun j => !bit (h.reg .cqSeqCfg q j) 15)).getD 63
      let h := h.setReg .cqSeqScope q j (mkWord [(16, 7, g.rect.tiles.length), (0, 6, ports.foldl (fun x p => x + 2 ^ p) 0)])
      ((h.setReg .cqSeqStatus q j 0#32).setSeq q j {}).setReg .cqSeqCfg q j (mkWord (m.owner ++ [(15, 1, 1), (0, 8, die)]))

/-- The join bytes of a member tile node and of the routers from it to the anchor (R337): the member's local bit, and at each parent the
port from which its child arrives. -/
def Hw.joinFrom (h : Hw) (s : Nat) : Nat → Nat → Nat → Hw
  | 0, _, _ => h
  | k + 1, n, port =>
    let h := h.modReg .snJoin n (s / 4) (fun w => w ||| BitVec.ofNat 32 (2 ^ (port + 8 * (s % 4))))
    match if n = anchorNode then none else neighbour n (treePort n) with
    | some p => h.joinFrom s k p (facing (treePort n))
    | none => h

/-- The ring roles of a torus round on an axis (R350, R351, Table 8.6): those of its − and its + port, bit 0 send, 1 receive, 2 root. -/
def ringRoles (n origin size c root : Nat) : Nat × Nat :=
  if size ≤ 1 then (0, 0)
  else if size = n then
    let k := (c + n - root) % n
    let half := n / 2
    if k = 0 then (if half < n - 1 then 6 else 0, 6)
    else if k ≤ half then (1, if k < half then 2 else 0)
    else (if half + 1 < k then 2 else 0, 1)
  else if c = root then (if origin < root then 6 else 0, if root + 1 < origin + size then 6 else 0)
  else if c < root then (if origin < c then 2 else 0, 1)
  else (1, if c + 1 < origin + size then 2 else 0)

/-- The ring bytes of a torus round: an axis has a role where this module's coordinates on the group's earlier axes equal the root's
(R352). -/
def Hw.putRoles (h : Hw) (g : GroupRec) (s : Nat) : Hw :=
  let t := h.topo
  let root (a : Nat) : Nat := if a = 0 then g.rootx else if a = 1 then g.rooty else g.rootz
  let box (a : Nat) : Nat × Nat :=
    if a = 0 then (g.box.bx0, g.box.bsx) else if a = 1 then (g.box.by0, g.box.bsy) else (g.box.bz0, g.box.bsz)
  let put (h : Hw) (p role : Nat) : Hw := h.modReg .snRing (portNode p) (s / 4) (setFld · (8 * (s % 4)) 8 role)
  (List.range 3).foldl (fun h a =>
    if g.axes.testBit a && (List.range a).all (fun b => !g.axes.testBit b || t.coord b == root b) then
      let r := ringRoles (t.size a) (box a).1 (box a).2 (t.coord a) (root a)
      put (put h (2 * a) r.1) (2 * a + 1) r.2
    else put (put h (2 * a) 0) (2 * a + 1) 0) h

/-- The format code of SN_RIMSHOT_CFG for a sync record's (Table 8.7). -/
def rimFmt (fmt : Nat) : Nat := if fmt = 2 then 1 else if fmt = 9 then 2 else if fmt = 7 then 3 else 0

/-- Sync record i of a document: its configuration, join bytes and ring bytes (R338). -/
def Hw.putSync (h : Hw) (d : Doc) (m : DieMap) (i : Nat) : Hw :=
  match d.syncs[i]?, (d.syncs[i]?).bind (fun r => d.groups[r.group]?) with
  | some r, some g =>
    if !h.topo.member g then h
    else
      let s := m.sync i
      let h := (List.range 96).foldl (fun h n => h.modReg .snJoin n (s / 4) (setFld · (8 * (s % 4)) 8 0)) h
      let h := g.rect.tiles.foldl (fun h k => h.joinFrom s 24 (tileNode k) 0) h
      let h := if g.scope = 1 then h.putRoles g s else h
      let cfg := mkWord (m.owner ++ [(15, 1, 1), (14, 1, g.scope), (11, 3, r.bytes / 4 - 1), (8, 3, if r.kind = 0 then 0 else rimFmt r.fmt),
        (0, 8, m.group g.group)])
      (h.setReg (syncStatusId s) anchorNode (s % 256) 0#32).setReg (syncCfgId s) anchorNode (s % 256) cfg
  | _, _ => h

/-- The flows, endpoints, channels, fold units, groups and syncs of a document. -/
def Hw.putResources (h : Hw) (d : Doc) (m : DieMap) : Hw :=
  let h := d.flows.foldl (fun h f => h.putFlow d m f) h
  let h := d.endpoints.foldl (fun h e => h.putEndpoint m e) h
  let h := d.channels.foldl (fun h c => h.putChannel d m c) h
  let h := d.folds.foldl (fun h f => h.putFold m f) h
  let h := d.groups.foldl (fun h g => h.putGroup d m g) h
  (List.range d.syncs.length).foldl (fun h i => h.putSync d m i) h

/-- The identity map of an image: its identifiers are the die's (R157); phase set number k of the document takes entry k + 1. -/
def imageMap (d : Doc) (sys : Nat) : DieMap :=
  ⟨sys, 0, true, id, id, id, id, id, id, fun s => d.phaseSets.findIdx (· == s) + 1,
    fun i => ((d.syncs[i]?).map (fun r => r.id + 256 * r.kind)).getD 0⟩

/-- The default spill flows of the partitions (R168): die flows on the lowest identifiers that the image leaves free, for the memory
accesses of the partition's tenant. -/
def Hw.putSpillFlows (h : Hw) (d : Doc) : Hw :=
  d.partitions.foldl (fun h p =>
    let e := d.envelopeOf p
    (h.spillFlows p e).foldl (fun h x =>
      let used := d.flows.map (·.flow) ++ h.mem.flows.map (·.flow)
      let die := ((List.range 8192).find? (fun k => !used.contains k)).getD 8191
      let own : List (Nat × Nat × Nat) := [(16, 6, h.sysTenant), (13, 1, 1), (0, 13, die)]
      let rate := (mkWord [(16, 7, x.2), (13, 3, e.spillVc), (0, 13, e.spillRate)]).toNat
      let h := h.putSlot x.2 (mkWord (own ++ [(15, 1, 1)])).toNat rate e.spillBound 0
      let h := h.putSlot x.1 (mkWord (own ++ [(14, 1, 1)])).toNat rate e.spillBound 0
      { h with fold := { h.fold with kinds := nset h.fold.kinds die { kind := 2, dst := x.2 } {} }
               mem := { h.mem with flows := h.mem.flows ++ [⟨die, x.1, x.2, p.tenant, false⟩] } }) h) h

/-- A partition's registers (R694, R695, Table 16.8): the partition is IDLE. -/
def Hw.putPartition (h : Hw) (p : PartRec) : Hw :=
  let b := p.box
  let lo := mkWord [(31, 1, 1), (30, 1, b2n (decide (1 < b.bsx * b.bsy * b.bsz))), (16, 8, p.envelope), (12, 2, p.rect.log2h),
    (8, 2, p.rect.log2w), (4, 3, p.rect.ty0), (0, 3, p.rect.tx0)]
  let hi := mkWord [(20, 4, b.bsz - 1), (16, 4, b.bsy - 1), (12, 4, b.bsx - 1), (8, 4, b.bz0), (4, 4, b.by0), (0, 4, b.bx0)]
  ((h.setReg .tntPartCfgLo p.tenant 0 lo).setReg .tntPartCfgHi p.tenant 0 hi).modReg .tntState p.tenant 0 (setFld · 0 4 tsIdle)

/-- The HBM slots of the partitions (R529, R530): SLB_HBASE, SLB_HMAP and the reserved fields of SLB_HLEASE. -/
def Hw.putSlots (h : Hw) (d : Doc) : Hw :=
  let units := (h.placement d).1
  ((d.partitions.zip units).foldl (fun (x : Hw × Nat) pu =>
    let e := d.envelopeOf pu.1
    let t := pu.1.tenant
    let us := pu.2
    let h := x.1.setReg .slbHbase t 0 (mkWord [(16, 16, us.length), (0, 16, x.2)])
    let h := us.zipIdx.foldl (fun h u =>
      (h.setReg .slbHmap (x.2 + u.2) 0 (mkWord [(31, 1, 1), (0, 16, u.1)])).setReg .slbHlease u.1 0
        (mkWord [(16, 6, t), (12, 1, b2n (decide (e.hbmUnits ≤ u.2))), (11, 1, 1)])) h
    (h, x.2 + us.length)) (h, 0)).1

/-- The power policy and the shares (R757, R770). -/
def Hw.putPower (h : Hw) (d : Doc) : Hw :=
  match d.policy.head? with
  | none => h
  | some p =>
    let h := h.setReg .pwaBudget 0 0 (mkWord [(0, 12, p.packageBudget), (16, 12, p.packageBudget)])
    let h := h.setReg .pwaWindow 0 0 (mkWord [(17, 9, p.dieReserve), (8, 9, p.adaptStep), (0, 8, p.adaptWindows)])
    let h := h.modReg .pwaDroopCfg 0 0 (setFld · 16 4 p.droopGateBars)
    d.shares.foldl (fun h s =>
      let tmax := Nat.min 511 (if s.tileMax = 0 then p.tileDefaultMax else s.tileMax)
      (h.setReg .pwaShareLo s.tenant 0 (mkWord [(0, 12, s.floor), (12, 12, s.ceiling), (24, 8, s.weight)])).setReg .pwaShareHi s.tenant 0
        (mkWord [(31, 1, 1), (0, 9, tmax)])) h

/-- The die resources of an image: its routes, phase entries, flows, channels, fold trees, groups and syncs. -/
def Hw.putImage (h : Hw) (d : Doc) : Hw :=
  let m := imageMap d h.sysTenant
  (((h.putRoutes d m).putPhases d m).putResources d m).putSpillFlows d

/-- The loader programs the checked image and sets the lock bits (R124, R125). -/
def Hw.imageApply (h : Hw) : Hw :=
  if h.dieState = stBoot ∧ h.boot.checked ∧ !h.boot.applied ∧ h.doc.isNone then
    let b := h.boot.staged
    let d := imageDoc b
    let h := { h with doc := some d, boot := { h.boot with applied := true } }
    let h := h.putImage d
    let h := d.partitions.foldl (fun h p => h.putPartition p) h
    let h := (h.putSlots d).putPower d
    let h := (List.range 6).foldl (fun h p => h.modReg .lnkRetryCfg p 0 (setFld · 0 16 (h.topo.replayRtt.getD p 0))) h
    let h := h.modReg .ancLock 0 0 (· ||| BitVec.ofNat 32 (2 ||| imageLockMask b % 128))
    let slot := h.boot.cur
    let h := h.modReg .bootErr 0 0 (setFld · (slotErrShift slot) 8 1)
    let h := h.modReg .bootSlot 0 0 (setFld · 4 2 slot)
    let h := h.setReg .bootImageId 0 0 (BitVec.ofNat 32 (u32 b 0x10))
    h.modReg .bootStatus 0 0 (fun w => setBit (setFld w 16 8 (u8 b 0x14)) 8 (!bit (h.reg .fusSecPolicy) 0))
  else h

end Sys2Proof.Machine
end

