-- ==== Sys2Proof/Machine/Host.lean ====
section
/-! DEFINITION. The host interface (chapter 15): the PCIe link, MSI-X, AER, the BAR2 window, host windows, the host relay, the launch
doorbell and its checks before admission, VF resets. -/

namespace Sys2Proof.Machine

/-- The PCIe endpoint starts link training (R94): FUSE_LOAD has ended and PERST_N is high. -/
def Hw.pcieTrain (h : Hw) : Hw :=
  if h.dieState = stColdReset ∨ h.dieState = stFuseLoad then h
  else { h with pins := { h.pins with perstN := true }, host := { h.host with training := true } }

/-- The link reaches L0 at a speed and width (R657, Table 15.10); the configuration space of every function is then at its reset state
(below Table 15.5), the MSI-X tables with it. `ari` is ARI Capable Hierarchy as the host sets it. -/
def Hw.pcieLinkUp (h : Hw) (speed width : Nat) (ari : Bool) : Hw :=
  if !h.host.training || h.pcieUp then h
  else
    let low := decide (speed < 3) || decide (width < 8)
    { h with msix := [], host := { h.host with d3 := false, busMasterOff := [] } }.setReg .hstLinkStatus 0 0
      (mkWord [(11, 1, b2n ari), (10, 1, b2n low), (4, 6, width), (0, 4, speed)])

/-- The link goes down (R55, R675): vectors not yet sent are lost. -/
def Hw.pcieLinkDown (h : Hw) : Hw :=
  { h.setReg .hstLinkStatus 0 0 0#32 with host := { h.host with requested := [] } }

/-- The PF enters D3hot, or returns to D0 with the configuration that it held (R658). -/
def Hw.pfD3hot (h : Hw) : Hw := { h with host := { h.host with d3 := true } }
def Hw.pfD0 (h : Hw) : Hw := { h with host := { h.host with d3 := false } }

/-- The place of a function's MSI-X structures in `Hw.msix`: function 0 is the PF, v a VF. -/
def msixBase (fn : Nat) : Nat := fn * 0x2000

/-- A word of a function's MSI-X table or PBA. -/
def Hw.msixWord (h : Hw) (fn off : Nat) : Word := nget h.msix (msixBase fn + off) (msixReset off)
def Hw.msixPut (h : Hw) (fn off : Nat) (w : Word) : Hw :=
  { h with msix := nset h.msix (msixBase fn + off) w (msixReset off) }

/-- A vector is masked (R673). -/
def Hw.msixMasked (h : Hw) (fn v : Nat) : Bool := bit (h.msixWord fn (16 * v + 12)) 0
def Hw.msixPending (h : Hw) (fn v : Nat) : Bool := bit (h.msixWord fn 0x1000) v

/-- The message of a vector: a write of its data at its address. -/
def Hw.msixMessage (h : Hw) (fn v : Nat) : Hw :=
  let a := (h.msixWord fn (16 * v)).toNat + 2 ^ 32 * (h.msixWord fn (16 * v + 4)).toNat
  { h with host := { h.host with out := h.host.out ++ [⟨fn, a, natLe 4 (h.msixWord fn (16 * v + 8)).toNat⟩] } }

/-- The die may send to the host: the link is up and the PF is in D0 (R658). -/
def Hw.hostReady (h : Hw) : Bool := h.pcieUp && !h.host.d3

/-- A requested vector is sent, or held pending while it is masked (R673). -/
def Hw.msixSend (h : Hw) (fn v : Nat) : Hw :=
  if h.host.requested.contains (fn * 32 + v) && h.hostReady then
    let h := { h with host := { h.host with requested := h.host.requested.erase (fn * 32 + v) } }
    if h.msixMasked fn v then h.msixPut fn 0x1000 (setBit (h.msixWord fn 0x1000) v true) else h.msixMessage fn v
  else h

/-- A vector that is pending and no longer masked is sent (R673). -/
def Hw.msixUnmasked (h : Hw) (fn v : Nat) : Hw :=
  if h.msixPending fn v && !h.msixMasked fn v then
    (h.msixPut fn 0x1000 (setBit (h.msixWord fn 0x1000) v false)).msixMessage fn v
  else h

/-- The host writes a word of a function's MSI-X table; of the vector control only the mask is kept. The PBA is read only. -/
def Hw.msixWrite (h : Hw) (fn off : Nat) (w : Word) : Hw :=
  if off < 0x200 then
    (h.msixPut fn (off / 4 * 4) (if off / 4 % 4 = 3 then w &&& 1#32 else w)).msixUnmasked fn (off / 16)
  else h

/-- The host unmasks a vector. -/
def Hw.msixUnmask (h : Hw) (fn v : Nat) : Hw := h.msixWrite fn (16 * v + 12) 0#32

/-- The function that an AER error is reported on (Table 15.5): the PF, or the function addressed or requesting. -/
def aerFunction (e : AerError) (fn : Nat) : Nat :=
  match e with
  | .poisonedWrite => fn | .poisonedCompletion => fn | .completionTimeout => fn | .ecrc => fn | .unsupportedRequest => fn
  | _ => 0

/-- A PCIe error is reported through AER (R675); what it discards never reaches the die as a command. -/
def Hw.aerReport (h : Hw) (e : AerError) (fn : Nat) : Hw :=
  { h with host := { h.host with aer := h.host.aer ++ [(aerFunction e fn, e)] } }

/-! ## BAR2 -/

/-- What a range of VF BAR2 names (Table 15.3). -/
inductive Bar2 where
  | tenant (a : Nat)
  | table (off : Nat)
  | pba (off : Nat)
  | none
  deriving DecidableEq, Repr

def bar2Target (off len : Nat) : Bar2 :=
  if off + len ≤ slabEnd then .tenant off
  else if 0x10000000 ≤ off ∧ off + len ≤ 0x10000200 then .table (off - 0x10000000)
  else if 0x10001000 ≤ off ∧ off + len ≤ 0x10001008 then .pba (off - 0x10000000)
  else if 0x2000000000 ≤ off ∧ off + len ≤ 0x4000000000 then .tenant (hbmBase + (off - 0x2000000000))
  else .none

/-- VF BAR accesses are answered: RUN with fw_ready (R95), the PF in D0 (R658). -/
def Hw.vfAnswers (h : Hw) : Bool := h.running && bit (h.reg .bootStatus) 10 && !h.host.d3

/-- A BAR2 access reaches its unit: bar2_en, the lease of R528, and for HBM relay flows between the H node and the holder both ways
(R667, R668). -/
def Hw.bar2Ok (h : Hw) (t : Nat) (ref : MemRef) : Bool :=
  bit (h.reg .hstVfCfg t) 1 && h.holds t (h.gen t) ref &&
  (match ref with
   | .hbm _ => (holderNode ref).any (fun m => (h.relayFlow hostNode m).isSome && (h.relayFlow m hostNode).isSome)
   | .slab _ => true
   | _ => false)

/-- A refused access is counted (R667). -/
def Hw.bar2Refuse (h : Hw) (t : Nat) : Hw := h.modReg .hstVfEvt t 0 (bumpFld · 24 8 1)

/-- What a BAR2 read returns. -/
def Hw.bar2Give (h : Hw) (bs : List Byte) (poison : Bool) : Hw := { h with host := { h.host with bar2 := bs, poisoned := poison } }

/-- Bytes of a function's MSI-X structures. -/
def Hw.msixBytes (h : Hw) (fn off len : Nat) : List Byte :=
  (List.range len).map (fun k => BitVec.ofNat 8 (fld (h.msixWord fn ((off + k) / 4 * 4)) (8 * ((off + k) % 4)) 8))

/-- A host read of len bytes of VF t + 1's BAR2 (R666 to R669); `err` is what the memory's check bits show (R519, R520, R524). -/
def Hw.bar2Read (h : Hw) (t off len : Nat) (err : PadErr) : Hw :=
  if !h.vfAnswers then h.bar2Give (List.replicate len 0xFF#8) false
  else match bar2Target off len with
    | .none => h.bar2Give (List.replicate len 0xFF#8) false
    | .table o => h.bar2Give (h.msixBytes (t + 1) o len) false
    | .pba o => h.bar2Give (h.msixBytes (t + 1) o len) false
    | .tenant a =>
      let ref := h.memRef t a
      if !h.bar2Ok t ref then (h.bar2Refuse t).bar2Give (List.replicate len 0#8) false
      else match ref with
        | .slab x =>
          let bs := h.slabRead x len
          (match err with
           | .ok => h.bar2Give bs false
           | .corrected => (h.slabCe (x / pageSize)).bar2Give bs false
           | .uncorrectable => (h.slabUe (x / pageSize)).bar2Give bs true)
        | .hbm x =>
          let bs := h.hbmRead x len
          let n := (holderNode ref).getD anchorNode
          (match err with
           | .ok => h.bar2Give bs false
           | .corrected => ((h.modReg .memEccEvt n 0 (bumpFld · 0 16 1)).logF2).bar2Give bs false
           | .uncorrectable => ((h.modReg .memEccEvt n 0 (bumpFld · 24 8 1)).raiseF1 t (h.gen t) 9 n 0).bar2Give bs true)
        | _ => h

/-- Bytes with some of them replaced: a write's byte enables (R669). -/
def enabled (old : List Byte) (data : List (Option Byte)) : List Byte :=
  (old.zip data).map (fun x => x.2.getD x.1)

/-- A host write to a function's MSI-X table, word by word. -/
def Hw.msixPutBytes (h : Hw) (fn off : Nat) (data : List (Option Byte)) : Hw :=
  let words := (List.range 128).filter (fun k => off < 4 * k + 4 && 4 * k < off + data.length)
  words.foldl (fun h k =>
    let old := natLe 4 (h.msixWord fn (4 * k)).toNat
    let new := old.zipIdx.map (fun b =>
      let p := 4 * k + b.2
      if off ≤ p then ((data[p - off]?).bind id).getD b.1 else b.1)
    h.msixWrite fn (4 * k) (BitVec.ofNat 32 (leNat new))) h

/-- A host write through VF t + 1's BAR2 with its byte enables (R666 to R669). -/
def Hw.bar2Write (h : Hw) (t off : Nat) (data : List (Option Byte)) : Hw :=
  if !h.vfAnswers then h
  else match bar2Target off data.length with
    | .none => h
    | .pba _ => h
    | .table o => h.msixPutBytes (t + 1) o data
    | .tenant a =>
      let ref := h.memRef t a
      if !h.bar2Ok t ref then h.bar2Refuse t
      else match ref with
        | .slab x => h.slabWrite x (enabled (h.slabRead x data.length) data)
        | .hbm x => h.hbmWrite x (enabled (h.hbmRead x data.length) data)
        | _ => h

/-! ## Host windows and the relay -/

/-- A write to a window register (R685 to R687): a change of a window in use withdraws it. -/
def Hw.winWrite (h : Hw) (p : Path) (addr view : Nat) (r : Reg) (v : Word) : Hw :=
  let t := r.i
  let w := r.j
  let size := viewValue .hstWinSize view (h.reg .hstWinSize t w) v
  if r.id = .hstWinSize ∧ bit (h.reg .hstWinBaseLo t w) 0 ∧ size = 0#32 then h.misuse p true 9 addr
  else
    let state (h : Hw) : Word × Word × Word := (h.reg .hstWinBaseLo t w, h.reg .hstWinBaseHi t w, h.reg .hstWinSize t w)
    let h' := h.plainWrite p addr view r v
    if state h' != state h && bit (h.reg .hstWinStatus t w) 0 then
      (h'.modReg .hstWinStatus t w (setBit · 1 true)).modReg .hstVfEvt t 0 (setBit · 4 true)
    else h'

/-- The status of a relay request (HST_RELAY_STATUS): tx below, rx from bit 16. -/
def Hw.relayStatus (h : Hw) (rx : Bool) (code : Nat) (busy : Bool) : Hw :=
  let o := if rx then 16 else 0
  h.modReg .hstRelayStatus 0 0 (fun w => setBit (setFld w o 8 code) (o + 8) busy)

/-- A write to a relay control register (R688). -/
def Hw.relayWrite (h : Hw) (p : Path) (addr : Nat) (rx : Bool) (v : Word) : Hw :=
  if !bit v 31 then h
  else if bit (h.reg .hstRelayStatus) (if rx then 24 else 8) then h.misuse p true 9 addr
  else
    let h := h.modReg .hstRelayStatus 0 0 (setBit · (if rx then 24 else 8) true)
    if rx then { h with host := { h.host with relayRx := some (fld v 0 12) } }
    else { h with host := { h.host with relayTx := some (fld v 0 12) } }

/-- The relay's message, word k in bytes 4k to 4k + 3. -/
def Hw.relayMessage (h : Hw) : BitVec 512 :=
  BitVec.ofNat 512 ((List.range 16).foldl (fun x k => x + (h.reg .hstRelayTx k).toNat * 2 ^ (32 * k)) 0)

/-- The tile number that marks a stalled send of the relay. -/
def relayMark : Nat := 64

/-- The relay carries out a requested send (R688): a blocking channel without a credit keeps it busy (R305). -/
def Hw.relaySend (h : Hw) : Hw :=
  match h.host.relayTx with
  | none => h
  | some c =>
    let h := { h with host := { h.host with relayTx := none } }
    if !h.chValid c || (h.chSrc c).1 != hostNode then h.relayStatus false 0x19 false
    else match h.chSend hostNode (h.chSrc c).2 none c h.relayMessage (some (relayMark, 0)) with
      | (h, .accepted) => h.relayStatus false 0 false
      | (h, .full) => h.relayStatus false 0x05 false
      | (h, .dropped _) => h.relayStatus false 0x19 false
      | (h, .stalled) => h

/-- The relay carries out a requested dequeue (R688); `merge` is that of R303 for the credit it returns. -/
def Hw.relayDequeue (h : Hw) (merge : Bool) : Hw :=
  match h.host.relayRx with
  | none => h
  | some c =>
    let h := { h with host := { h.host with relayRx := none } }
    if !h.chValid c || (h.chDst c).1 != hostNode then h.relayStatus true 0x19 false
    else match h.chDequeue hostNode (h.chDst c).2 c merge with
      | (h, .message m) =>
        ((List.range 16).foldl (fun h k => h.setReg .hstRelayRx k 0 (BitVec.ofNat 32 (m.toNat / 2 ^ (32 * k)))) h).relayStatus true 0 false
      | (h, .empty) => h.relayStatus true 0x04 false
      | (h, _) => h.relayStatus true 0x19 false

/-! ## Launching -/

/-- The steward that holds a duty; none while it is vacant (Table 18.11, R783). -/
def Hw.dutyHolder (h : Hw) (d : Nat) : Option Nat :=
  let b := fld (h.reg .stwDuty) (8 * d) 8
  if b.testBit 7 then none else some (b % 8)

/-- The holder of a duty works: it is released, has not failed and is not halted (R788). -/
def Hw.dutyRuns (h : Hw) (d : Nat) : Bool :=
  (h.dutyHolder d).any (fun k => h.stw.active.testBit k && !h.stw.failed.testBit k && !h.stw.halted.testBit k)

/-- The duty that admits a tenant's launches (Table 18.2). -/
def launchDuty (t : Nat) : Nat := if t < 32 then 1 else 2

/-- The launch that its duty's holder works on: the first in the order of R786; 64 + t is a relaunch of tenant t. -/
def Hw.launchTurn (h : Hw) (x : Nat) : Bool :=
  let d := launchDuty (x % 64)
  h.dutyRuns d && h.stw.launches.find? (fun y => launchDuty (y % 64) == d) == some x

/-- A write of 1 to HST_LAUNCH_DB (R676, R677). The launch owns its partition only where it finds it IDLE (R181). The VF is then a bus
master (R690). -/
def Hw.launchDoorbell (h : Hw) (t : Nat) : Hw :=
  if bit (h.reg .hstLaunchStatus t) 8 then h.modReg .hstVfEvt t 0 (setBit · 5 true)
  else
    let own := h.tntState t == tsIdle
    let h := h.modReg .hstLaunchStatus t 0 (setBit · 8 true)
    let h := h.modJob t (fun j => { j with desc := (List.range 8).map (fun k => h.reg .hstLaunchDesc t k), copy := []
                                           stage := .read, stopHeld := if own then false else j.stopHeld })
    let h := { h with stw := { h.stw with launches := h.stw.launches ++ [t] }
                      host := { h.host with busMasterOff := h.host.busMasterOff.erase t } }
    if own then h.modReg .tntState t 0 (setFld · 0 4 tsAdmitting) else h

/-- Post a launch result (R678): result code and cookie; an ADMITTED result carries the new generation. `busy` is what busy then reads. -/
def Hw.postResult (h : Hw) (t code : Nat) (cookie : Word) (busy : Bool) : Hw :=
  let g := h.gen t
  let h := h.modReg .hstLaunchStatus t 0 (fun w =>
    let w := setBit (setFld w 0 8 code) 8 busy
    if code = 0 then setFld w 16 10 g else w)
  (h.setReg .hstLaunchCookie t 0 cookie).vfEvent t 0

/-- A launch is over: it leaves its duty's order, and the partition that it owned is IDLE again unless it was admitted (R38). -/
def Hw.launchOver (h : Hw) (t code : Nat) : Hw :=
  let j := h.job t
  let own := h.tntState t == tsAdmitting && !j.relaunching
  let h := { h with stw := { h.stw with launches := h.stw.launches.erase t } }
  let h := h.setJob t { j with stage := .none, held := if own then false else j.held }
  let h := if own && code != 0 then h.modReg .tntState t 0 (setFld · 0 4 tsIdle) else h
  h.postResult t code (j.desc.getD 3 0#32) false

/-- Steps 1 to 3 of Table 15.7. -/
def Hw.launchCheck (h : Hw) (t : Nat) : Option Nat :=
  let w (k : Nat) : Word := (h.job t).desc.getD k 0#32
  let cfg := h.reg .hstVfCfg t
  let n := (w 2).toNat
  if !bit cfg 0 then some 0x74
  else if !h.partValid t then some 0x73
  else if fld (w 0) 0 6 != 0 || n < 0x100 || 0x40000 < n || n % 8 != 0 || fld (w 4) 4 28 != 0 || w 5 != 0#32 || w 6 != 0#32 ||
      w 7 != 0#32 || fld cfg 8 4 < fld (w 4) 0 4 then some 0x72
  else none

/-- The plan's read completes or fails (R679, R691), after the checks before it: steps 1 to 5 of Table 15.7. -/
def Hw.planRead (h : Hw) (t : Nat) (bytes : List Byte) (ok : Bool) : Hw :=
  if !h.launchTurn t || (h.job t).stage != .read then h
  else match h.launchCheck t with
    | some c => h.launchOver t c
    | none =>
      let n := ((h.job t).desc.getD 2 0#32).toNat
      if !ok || !h.hostReady || h.host.busMasterOff.contains t || bytes.length != n then h.launchOver t 0x71
      else if leAt bytes 8 4 ≠ n then h.launchOver t 0x24
      else h.modJob t (fun j => { j with copy := bytes, stage := .checks })

/-- The host clears Bus Master on a VF (R691): a plan read that has not completed fails. -/
def Hw.busMasterClear (h : Hw) (t : Nat) : Hw :=
  let h := { h with host := { h.host with busMasterOff := if h.host.busMasterOff.contains t then h.host.busMasterOff
                                                          else h.host.busMasterOff ++ [t] } }
  h.planRead t [] false

/-- A write of 1 to HST_JOB_CTL.stop (R683): F1 with cause REQUESTED while a job runs, held while a launch is being admitted. -/
def Hw.jobStop (h : Hw) (t : Nat) : Hw :=
  if h.active t then h.raiseF1 t (h.gen t) 0x10 anchorNode 0 1
  else if h.tntState t = tsAdmitting then h.modJob t (fun j => { j with stopHeld := true })
  else h

/-- A VF function-level reset (R692): the VF's configuration and MSI-X table and its tenant page, HST_JOB_STATUS apart, return to
reset; a launch being admitted is abandoned; the partition reset of R77 runs. DEDUCED (log entry 38). -/
def Hw.vfReset (h : Hw) (t : Nat) : Hw :=
  let h := h.dropRegs (fun r => decide (r.i = t) && [RegId.hstLaunchDesc, RegId.hstLaunchStatus, RegId.hstLaunchCookie, RegId.hstVfEvt, RegId.hstViewSel].contains r.id)
  let h := { h with msix := h.msix.filter (fun e => e.1 / 0x2000 != t + 1)
                    host := { h.host with requested := h.host.requested.filter (fun k => k / 32 != t + 1)
                                          busMasterOff := if h.host.busMasterOff.contains t then h.host.busMasterOff
                                                          else h.host.busMasterOff ++ [t] }
                    stw := { h.stw with launches := h.stw.launches.filter (fun x => x % 64 != t) } }
  let h := h.modJob t (fun j => { j with stage := .none, held := false, relaunching := false, stopHeld := false })
  let h := if h.tntState t = tsAdmitting then h.modReg .tntState t 0 (setFld · 0 4 tsIdle) else h
  if h.partValid t then h.raiseF1 t (h.gen t) 0x11 anchorNode 0 else h

end Sys2Proof.Machine
end

