-- ==== Sys2Proof/Machine/Phy.lean ====
section
/-! DEFINITION. The physical layer of the torus ports (chapter 13): training, lane sets, bursts, quality, isolation, sleep. -/

namespace Sys2Proof.Machine

def Hw.phyOf (h : Hw) (p : Nat) : PhyPort := nget h.phy p {}
def Hw.setPhy (h : Hw) (p : Nat) (v : PhyPort) : Hw := { h with phy := nset h.phy p v {} }
def Hw.modPhy (h : Hw) (p : Nat) (f : PhyPort → PhyPort) : Hw := h.setPhy p (f (h.phyOf p))

/-- The index of a lane's registers and of a port's common registers behind IDX (Table 13.10). -/
def laneIx (p k : Nat) : Nat := p * 256 + k
def commonIx (p : Nat) : Nat := p * 256 + 255

/-- Training states (Table 13.7). -/
def phOff : Nat := 0
def phCal : Nat := 1
def phSbAcq : Nat := 2
def phDataEq : Nat := 3
def phSelect : Nat := 4
def phActive : Nat := 5
def phWait : Nat := 6
def phDown : Nat := 7

def Hw.phyState (h : Hw) (p : Nat) : Nat := fld (h.reg .phyPortStatus (commonIx p)) 0 4
def Hw.setPhyState (h : Hw) (p s : Nat) : Hw := h.modReg .phyPortStatus (commonIx p) 0 (setFld · 0 4 s)

/-- Lane states (Table 13.11). The state shown is that of the lane's receiver; tx_on is that of its driver. -/
def laOff : Nat := 0
def laTrain : Nat := 1
def laActive : Nat := 2
def laStandby : Nat := 3
def laSleep : Nat := 4
def laWake : Nat := 5
def laIsolated : Nat := 6
def laFused : Nat := 7

def Hw.laneState (h : Hw) (p k : Nat) : Nat := fld (h.reg .phyLaneStatus (laneIx p k)) 0 4
def Hw.modLane (h : Hw) (p k : Nat) (f : Word → Word) : Hw := h.modReg .phyLaneStatus (laneIx p k) 0 f
def Hw.setLane (h : Hw) (p k s : Nat) : Hw := h.modLane p k (setFld · 0 4 s)
def Hw.laneTx (h : Hw) (p k : Nat) (on : Bool) : Hw := h.modLane p k (setBit · 6 on)
def Hw.laneEvt (h : Hw) (p k b : Nat) : Hw := h.modReg .phyLaneEvt (laneIx p k) 0 (setBit · b true)
def Hw.phyEvt (h : Hw) (p b : Nat) : Hw := h.modReg .phyPortEvt (commonIx p) 0 (setBit · b true)

/-- Lane sets as numbers with a bit for each lane. -/
def Hw.fusedLanes (h : Hw) (p : Nat) : Nat := fld (h.reg .fusLaneRepair p) 0 18
def Hw.peerFused (h : Hw) (p : Nat) : Nat := fld (h.reg .phyPeerFuse (commonIx p)) 0 18
def Hw.rxIsol (h : Hw) (p : Nat) : Nat := fld (h.reg .phyRxIsol (commonIx p)) 0 18
def Hw.txIsol (h : Hw) (p : Nat) : Nat := fld (h.reg .phyTxIsol (commonIx p)) 0 18
def Hw.txLanes (h : Hw) (p : Nat) : Nat := fld (h.reg .phyTxLanes (commonIx p)) 0 18
def Hw.rxLanes (h : Hw) (p : Nat) : Nat := fld (h.reg .phyRxLanes (commonIx p)) 0 18
def Hw.setLanes (h : Hw) (p : Nat) (tx : Bool) (m : Nat) : Hw :=
  h.setReg (if tx then .phyTxLanes else .phyRxLanes) (commonIx p) 0 (BitVec.ofNat 32 (m % 2 ^ 18))
def Hw.minLanes (h : Hw) (p : Nat) : Nat := fld (h.reg .phyPortCfg (commonIx p)) 0 5

/-- A set without a lane. -/
def dropLane (m k : Nat) : Nat := if m.testBit k then m - 2 ^ k else m

/-- Data lanes of a direction in use: its lanes but the one in the sideband role. -/
def dataLanes (m sb : Nat) : Nat := dropLane m sb
def Hw.txData (h : Hw) (p : Nat) : Nat := dataLanes (h.txLanes p) (h.phyOf p).txSb
def Hw.rxData (h : Hw) (p : Nat) : Nat := dataLanes (h.rxLanes p) (h.phyOf p).rxSb

/-- Lane 17 goes into a mode: it takes up the CTLE code, gain and coefficients kept for that mode (R574). -/
def Hw.lane17Mode (h : Hw) (p : Nat) (nrz : Bool) : Hw :=
  let q := h.phyOf p
  let i := laneIx p 17
  let h := h.modLane p 17 (setBit · 5 nrz)
  if q.nrz17 = nrz then h
  else
    let now := (h.reg .phyLaneStatus i &&& 0xFF00#32) :: ((List.range 12).map (fun k => h.reg .phyFfe i k) ++ (List.range 4).map (fun k => h.reg .phyDfe i k))
    let get (k : Nat) : Word := q.other17.getD k 0#32
    let h := h.modReg .phyLaneStatus i 0 (fun w => merge 0xFF00#32 w (get 0))
    let h := (List.range 12).foldl (fun h k => h.setReg .phyFfe i k (get (k + 1))) h
    let h := (List.range 4).foldl (fun h k => h.setReg .phyDfe i k (get (k + 13))) h
    h.setPhy p { q with nrz17 := nrz, other17 := now }

/-- Every lane goes into a state with its driver on or off; fused lanes stay FUSED (R554) and isolated ones ISOLATED (R586). -/
def Hw.lanesTo (h : Hw) (p : Nat) (ks : List Nat) (s : Nat) (tx : Bool) : Hw :=
  ks.foldl (fun h k =>
    if (h.fusedLanes p).testBit k then (h.setLane p k laFused).laneTx p k false
    else
      let h := (h.setLane p k (if (h.rxIsol p).testBit k then laIsolated else s)).modLane p k (setBit · 4 false)
      h.laneTx p k (tx && !(h.txIsol p).testBit k)) h

def allLanes : List Nat := List.range 18

/-- Every driver of a port goes off, and it carries no lane. -/
def Hw.phyStop (h : Hw) (p s : Nat) : Hw :=
  let h := (h.lanesTo p allLanes laOff false).setPhyState p s
  let h := (h.setLanes p true 0).setLanes p false 0
  h.modPhy p (fun q => { q with asleep := false, wakeReq := false, peer := none })

/-- Lanes 16 and 17 ramp up and send training units in NRZ mode (Table 13.7, R582). -/
def Hw.phySbAcq (h : Hw) (p : Nat) : Hw :=
  let h := ((h.setPhyState p phSbAcq).lane17Mode p true).modLane p 16 (setBit · 5 true)
  h.lanesTo p [16, 17] laTrain true

/-- A training begins (R580): a cold one in CAL with drivers off, a warm one in SB_ACQ. -/
def Hw.phyTrain (h : Hw) (p : Nat) (cold : Bool) : Hw :=
  let h := (h.phyStop p phCal).modPhy p (fun q => { q with cold := cold, pllLost := false, began := h.now, rxOk := 0, spareNrz := false })
  if cold then h else h.phySbAcq p

/-- A port finishes receiver calibration (R580, Table 13.7). -/
def Hw.calDone (h : Hw) (p : Nat) : Hw := if h.phyState p = phCal then h.phySbAcq p else h

/-- The CRC-8 of R581 over bits [55:0] of a unit. -/
def crc8 (w : BitVec 64) : Nat :=
  (List.range 56).foldl (fun c i => Nat.xor (c * 2 % 256) (if (c / 128 == 1) != bit w i then 7 else 0)) 0

def crc8Ok (w : BitVec 64) : Bool := crc8 w == fld w 56 8

/-- The training unit a port sends, but for its count (Table 13.8): state, seen, warm, rx_ok, fuse_bad, spare_nrz_ok and check. -/
def Hw.trainingUnit (h : Hw) (p seq : Nat) : BitVec 64 :=
  let q := h.phyOf p
  let w : BitVec 64 := setFld (setBit (setBit (setFld 0#64 0 4 (h.phyState p)) 4 q.peer.isSome) 5 (!q.cold)) 6 18 q.rxOk
  let w := setFld (setBit (setFld w 24 18 (h.fusedLanes p)) 42 q.spareNrz) 48 8 seq
  setFld w 56 8 (crc8 w)

/-- A training unit with a good check arrives from the peer (R581, R582); one with a bad check is ignored. -/
def Hw.trainUnit (h : Hw) (p : Nat) (u : BitVec 64) : Hw :=
  if crc8Ok u && [phSbAcq, phDataEq, phSelect].contains (h.phyState p) then
    (h.setReg .phyPeerFuse (commonIx p) 0 (BitVec.ofNat 32 (fld u 24 18))).modPhy p (fun q => { q with peer := some u })
  else h

/-- ⌊√x⌋ rounded to the nearest whole number. -/
def sqrtNear (x : Nat) : Nat := let r := Nat.sqrt x; if r * r + r < x then r + 1 else r

/-- (num / den)^e ≥ 10^k. -/
def powAtLeast (num den e : Nat) (k : Int) : Bool :=
  if 0 ≤ k then decide (10 ^ k.toNat * den ^ e ≤ num ^ e) else decide (den ^ e ≤ 10 ^ (-k).toNat * num ^ e)

/-- The mean square of the decision error over the squared amplitude T, as a fraction (R577). -/
def evmSquared (errSq samples t : Nat) : Nat × Nat := (errSq, samples * (t * t))

/-- EVM in units of 0.01 %, rounded to nearest. -/
def evmCenti (e : Nat × Nat) : Nat := sqrtNear (e.1 * 100000000 / e.2)

/-- 20 log10(EVM) in units of 0.1 dB, rounded to nearest: 100 log10(EVM²). -/
def evmDb (e : Nat × Nat) : Int :=
  (((List.range 2048).map (fun (k : Nat) => (k : Int) - 1500)).reverse.find? (fun k => powAtLeast e.1 e.2 200 (2 * k - 1))).getD (-1500)

/-- q_evm = clamp(round(8 × (−20 log10(EVM) − 8)), 0, 255), from the unrounded EVM. -/
def qEvm (e : Nat × Nat) : Nat :=
  ((List.range 256).reverse.find? (fun (k : Nat) => powAtLeast e.2 e.1 160 (2 * (k : Int) + 127))).getD 0

/-- g* of R575: the gain step that brings the mean magnitude sum/count of the outer samples to the target T. -/
def gainIdeal (g t sum count : Nat) : Nat :=
  let up := ((List.range 16).reverse.find? (fun (k : Nat) => powAtLeast (t * count) sum 40 (2 * (k : Int) - 1))).getD 0
  let down := ((List.range 16).reverse.find? (fun (k : Nat) => powAtLeast sum (t * count) 40 (2 * (k : Int) - 1))).getD 0
  if 0 < up then Nat.min 15 (g + up) else g - down

/-- EVM, pmm, q_evm and LQI of a lane go into its registers (R577). Without an error sample EVM is 0, whose logarithm the spec does
not give. DESIGN CHOICE (log entry 8). -/
def Hw.laneQuality (h : Hw) (p k errSq samples pmmSum steps : Nat) : Hw :=
  let i := laneIx p k
  let t := fld (h.reg .phyGainCfg i) 8 8
  let e := evmSquared errSq samples t
  let pmm := Nat.min 255 (pmmSum / steps)
  let q := if e.1 = 0 then 255 else qEvm e
  let lqi := Nat.min q pmm
  let db := if e.1 = 0 then h.fresh.1.toNat else ofSigned 16 (evmDb e)
  let h := if e.1 = 0 then h.fresh.2 else h
  let h := h.setReg .phyEvm i 0 (mkWord [(0, 16, Nat.min 65535 (evmCenti e)), (16, 16, db)])
  let h := h.setReg .phyQual i 0 (mkWord [(0, 8, pmm), (8, 8, q), (16, 8, lqi)])
  h.setReg .lnkLqi p k (mkWord [(0, 8, lqi)])

def Hw.laneGain (h : Hw) (p k : Nat) : Nat := fld (h.reg .phyLaneStatus (laneIx p k)) 8 4

/-- The equaliser's settings after adaptation (Table 13.6): in adapt mode those it has found, in manual mode the written CTLE code,
else those held. `sweep`: a cold training chooses the CTLE code. -/
def Hw.laneEq (h : Hw) (p k : Nat) (m : LaneMeas) (sweep : Bool) : Hw :=
  let i := laneIx p k
  let cfg := h.reg .phyEqCfg i
  match fld cfg 0 2 with
  | 0 =>
    let h := if sweep then h.modLane p k (setFld · 12 4 m.ctle.toNat) else h
    let h := if bit (h.reg .phyLaneStatus i) 5 then h
      else (List.range 12).foldl (fun h j => h.setReg .phyFfe i j ((m.ffe.getD j 0#8).setWidth 32)) h
    (List.range 4).foldl (fun h j => h.setReg .phyDfe i j ((m.dfe.getD j 0#7).setWidth 32)) h
  | 2 => h.modLane p k (setFld · 12 4 (fld cfg 4 4))
  | _ => h

/-- The gain of a lane (R575): manual_db, the ideal step in training, one step toward it at a bar's end. -/
def Hw.laneGainStep (h : Hw) (p k : Nat) (m : LaneMeas) (training : Bool) : Hw :=
  let cfg := h.reg .phyGainCfg (laneIx p k)
  let g := h.laneGain p k
  let g' := if !bit cfg 0 then fld cfg 4 4
    else if m.magCount = 0 ∨ m.magSum = 0 then g
    else
      let s := gainIdeal g (fld cfg 8 8) m.magSum m.magCount
      if training then s else if g + 2 ≤ s then g + 1 else if s + 2 ≤ g then g - 1 else g
  h.modLane p k (setFld · 8 4 g')

/-- A measured offset lies within ±0.03 % (R576), in units of 0.1 ppm. -/
def freqOk (f : BitVec 16) : Bool := f.toInt.natAbs ≤ 3000

/-- A lane's quality reaches what the port asks for (Table 13.8, rx_ok). -/
def Hw.laneOk (h : Hw) (p k : Nat) : Bool :=
  fld (h.reg .phyPortCfg (commonIx p)) 8 8 ≤ fld (h.reg .phyQual (laneIx p k)) 16 8 &&
  freqOk ((h.reg .phyFreq (laneIx p k)).setWidth 16)

/-- A lane is fused or isolated for the receiver (R586). -/
def Hw.laneOut (h : Hw) (p k : Nat) : Bool := (h.fusedLanes p).testBit k || (h.rxIsol p).testBit k

/-- What a port measured of a lane in training: frequency offset, quality, gain and equaliser. -/
def Hw.laneTrained (h : Hw) (p : Nat) (m : LaneMeas) : Hw :=
  let k := m.lane.val
  if h.laneOut p k || m.samples = 0 || m.steps = 0 then h
  else
    let h := h.setReg .phyFreq (laneIx p k) 0 (m.freq.setWidth 32)
    let h := if freqOk m.freq then h else h.laneEvt p k 3
    ((h.laneEq p k m (h.phyOf p).cold).laneGainStep p k m true).laneQuality p k m.errSq m.samples m.pmmSum m.steps

/-- The lanes that a port receives well, among those it measured. -/
def Hw.laneSetOk (h : Hw) (p : Nat) (ks : List Nat) (ms : List LaneMeas) : Nat :=
  ks.foldl (fun a k => if !h.laneOut p k && ms.any (fun m => m.lane.val == k) && h.laneOk p k then a + 2 ^ k else a) 0

/-- The port has received the peer's units with seen = 1 (R582): SB_ACQ ends. `ms` is what it measured of lanes 16 and 17. -/
def Hw.sbAcqDone (h : Hw) (p : Nat) (ms : List LaneMeas) : Hw :=
  match (h.phyOf p).peer with
  | none => h
  | some u =>
    if h.phyState p ≠ phSbAcq ∨ !bit u 4 then h
    else
      let ms := ms.filter (fun m => 16 ≤ m.lane.val)
      let h := ms.foldl (fun h m => h.laneTrained p m) h
      let ok := h.laneSetOk p [16, 17] ms
      let sb := if fld u 22 1 = 1 then 16 else 17
      let h := h.modPhy p (fun q => { q with rxOk := ok, spareNrz := ok.testBit 17, txSb := sb })
      let h := (h.setPhyState p phDataEq).lane17Mode p false
      h.lanesTo p ((List.range 16) ++ [17]) laTrain true

/-- Every lane has adapted, or the time bound has passed (R582): the port enters SELECT. -/
def Hw.dataEqDone (h : Hw) (p : Nat) (ms : List LaneMeas) : Hw :=
  if h.phyState p ≠ phDataEq then h
  else
    let ms := ms.filter (fun m => m.lane.val ≠ 16)
    let h := ms.foldl (fun h m => h.laneTrained p m) h
    let ok := h.laneSetOk p ((List.range 16) ++ [17]) ms
    (h.modPhy p (fun q => { q with rxOk := ok + (if q.rxOk.testBit 16 then 2 ^ 16 else 0) })).setPhyState p phSelect

/-- The lane set of a direction (R583): lanes in use, the lane in the sideband role and the role of the spare; none where the direction
fails. `bad` are the lanes either end has fused or isolated. -/
def laneSet (rxOk : Nat) (spareNrz : Bool) (bad minLanes : Nat) : Option (Nat × Nat × Nat) :=
  let good (k : Nat) : Bool := !bad.testBit k
  let sb := if rxOk.testBit 16 && good 16 then 16 else if spareNrz && good 17 then 17 else 31
  let data := (List.range 16).filter (fun k => good k && rxOk.testBit k)
  let spareOk := sb == 16 && rxOk.testBit 17 && good 17
  let asData := spareOk && data.length < 16
  let n := data.length + b2n asData
  if sb = 31 ∨ n < minLanes then none
  else
    let m := data.foldl (fun a k => a + 2 ^ k) 0 + (if asData then 2 ^ 17 else 0) + 2 ^ sb
    some (m, sb, if sb = 17 then 3 else if asData then 2 else if spareOk then 1 else 0)

/-- Both ends derive the lane set of each direction (R583); a failure of either sends the port to WAIT. -/
def Hw.laneSelect (h : Hw) (p : Nat) : Hw :=
  match (h.phyOf p).peer with
  | none => h
  | some u =>
    if h.phyState p ≠ phSelect ∨ fld u 0 4 ≠ phSelect then h
    else
      let q := h.phyOf p
      let fuses := Nat.lor (h.fusedLanes p) (fld u 24 18)
      let tx := laneSet (fld u 6 18) (bit u 42) (Nat.lor fuses (h.txIsol p)) (h.minLanes p)
      let rx := laneSet q.rxOk q.spareNrz (Nat.lor fuses (h.rxIsol p)) (h.minLanes p)
      match tx, rx with
      | some t, some r =>
        let h := (h.setLanes p true t.1).setLanes p false r.1
        h.modPhy p (fun q => { q with txSb := t.2.1, txSpare := t.2.2, rxSb := r.2.1, rxSpare := r.2.2 })
      | _, _ => ((h.phyStop p phWait).phyEvt p 0).modPhy p (fun q => { q with began := h.now })

/-- The lanes of a direction that start a burst: those in use and a standby spare (R584). -/
def burstLanes (m spare : Nat) : List Nat := allLanes.filter (fun k => m.testBit k || (k == 17 && spare == 1))

/-- A port enters ACTIVE when both ends report SELECT with seen = 1 (R584): each direction starts its bursts, lanes outside the set
ramp down. -/
def Hw.phyActivate (h : Hw) (p : Nat) : Hw :=
  let q := h.phyOf p
  let h := (h.setPhyState p phActive).lane17Mode p (q.rxSpare == 3)
  let h := (h.lanesTo p allLanes laOff false)
  let h := (burstLanes (h.rxLanes p) q.rxSpare).foldl (fun h k => h.setLane p k laWake) h
  let h := (burstLanes (h.txLanes p) q.txSpare).foldl (fun h k => h.laneTx p k true) h
  h.setReg .phyTrainTime (commonIx p) 0 (BitVec.ofNat 32 (Nat.min (2 ^ 32 - 1) ((h.now - q.began) / 2400)))

def Hw.phyReady (h : Hw) (p : Nat) : Bool :=
  h.phyState p == phSelect && h.txLanes p != 0 &&
  (match (h.phyOf p).peer with | some u => fld u 0 4 == phSelect && bit u 4 | none => false)

/-- 16 ms in WAIT have passed (Table 13.7). -/
def Hw.waitExpiry (h : Hw) (p : Nat) : Hw := if h.phyState p = phWait then h.phyTrain p true else h

/-- The preamble (R561): 127 bits of the LFSR x^7 + x^6 + 1 from all ones, its oldest bit first, then a 0. -/
def lfsrBits : Nat → Nat → List Bool
  | 0, _ => []
  | k + 1, s => s.testBit 6 :: lfsrBits k (s * 2 % 128 + b2n (s.testBit 6 != s.testBit 5))

def preamble : List Bool := lfsrBits 127 127 ++ [false]

/-- The sync word and the marker, bit 63 first (R562). -/
def syncWord : BitVec 64 := 0xC2D93A6B85F14E27#64
def markerWord : BitVec 64 := 0x3D26C5947A0EB1D8#64

/-- A word's bits as they are sent, bit 63 first. -/
def sentBits (w : BitVec 64) : List Bool := (List.range 64).map (fun i => bit w (63 - i))

/-- The Hamming distance of two bit sequences. -/
def hamming (a b : List Bool) : Nat := ((a.zip b).filter (fun x => x.1 != x.2)).length

/-- The sync word begins at some symbol of the window, within the tolerance (R564). -/
def syncIn (tol : Nat) : Nat → List Bool → Bool
  | 0, _ => false
  | k + 1, s => (64 ≤ s.length && hamming (s.take 64) (sentBits syncWord) ≤ tol) || syncIn tol k (s.drop 1)

/-- A lane waits for a burst (R563, R566). -/
def Hw.laneWaits (h : Hw) (p k : Nat) : Bool := h.laneState p k == laSleep || h.laneState p k == laWake

/-- A waiting lane's correlator over its last 128 symbols reaches the threshold (R563). -/
def Hw.preambleSeen (h : Hw) (p : Nat) (signs : List Bool) : Bool :=
  fld (h.reg .phyPreambleCfg (commonIx p)) 0 8 + 2 * hamming signs preamble ≤ 128

/-- Symbols of a word of a lane (Table 13.1). -/
def Hw.symbols (h : Hw) (p k : Nat) : Nat := if bit (h.reg .phyLaneStatus (laneIx p k)) 5 then 16 else 64

/-- The sync word lies in the search window. -/
def Hw.syncFound (h : Hw) (p k : Nat) (win : List Bool) : Bool :=
  let cfg := h.reg .phySyncCfg (commonIx p)
  syncIn (fld cfg 0 4) (fld cfg 8 4 * h.symbols p k) win

/-- A lane's burst starts: the lane is synced and in its role (R564, R573). -/
def Hw.burstStart (h : Hw) (p k : Nat) : Hw :=
  (h.setLane p k (if (h.rxLanes p).testBit k then laActive else laStandby)).modLane p k (setBit · 4 true)

/-- Two words match the marker (R566). -/
def Hw.markers (h : Hw) (p : Nat) (w1 w2 : BitVec 64) : Bool :=
  let tol := fld (h.reg .phySyncCfg (commonIx p)) 0 4
  [w1, w2].all (fun w => hamming (sentBits w) (sentBits markerWord) ≤ tol)

def Hw.laneLive (h : Hw) (p k : Nat) : Bool := h.laneState p k == laActive || h.laneState p k == laStandby

/-- A burst ends: the lane enters its receive sleep state (R566, R602). -/
def Hw.burstOver (h : Hw) (p k : Nat) : Hw := (h.setLane p k laSleep).modLane p k (setBit · 4 false)
def Hw.burstEnd (h : Hw) (p k : Nat) (w1 w2 : BitVec 64) : Hw := if h.laneLive p k && h.markers p w1 w2 then h.burstOver p k else h

/-- A lane that receives data in a bar reports its quality at the bar's end and steps its gain (R575 to R577). -/
def Hw.laneBar (h : Hw) (m : LaneMeas) : Hw :=
  let p := m.port.val
  let k := m.lane.val
  if h.laneLive p k && h.phyState p == phActive && m.samples != 0 && m.steps != 0 then
    let h := h.setReg .phyFreq (laneIx p k) 0 (m.freq.setWidth 32)
    let h := if freqOk m.freq then h else h.laneEvt p k 2
    ((h.laneEq p k m false).laneQuality p k m.errSq m.samples m.pmmSum m.steps).laneGainStep p k m false
  else h

/-- A lane is out: it reports LQI 0 (R578). -/
def Hw.laneDead (h : Hw) (p k : Nat) : Hw :=
  (h.modReg .phyQual (laneIx p k) 0 (setFld · 16 8 0)).setReg .lnkLqi p k 0#32

/-- The data lanes in use in either direction number fewer than min_lanes: the port enters DOWN (R595). -/
def Hw.belowMin (h : Hw) (p : Nat) : Hw :=
  if h.phyState p = phActive ∧ (popCount 18 (h.txData p) < h.minLanes p ∨ popCount 18 (h.rxData p) < h.minLanes p) then
    (h.phyStop p phDown).phyEvt p 1
  else h

/-- The spare of a direction may take the sideband role (R591). -/
def Hw.spareFree (h : Hw) (p : Nat) (tx : Bool) : Bool :=
  !(h.fusedLanes p).testBit 17 && !(if tx then h.txIsol p else h.rxIsol p).testBit 17 && (if tx then (h.phyOf p).txSpare else (h.phyOf p).rxSpare) != 0

/-- The receiver isolates lane k (R589, R591). -/
def Hw.isolateRx (h : Hw) (p k : Nat) : Hw :=
  let q := h.phyOf p
  let h := (h.setReg .phyRxIsol (commonIx p) 0 (setBit (h.reg .phyRxIsol (commonIx p)) k true)).setLane p k laIsolated
  let h := ((h.modLane p k (setBit · 4 false)).setLanes p false (dropLane (h.rxLanes p) k)).laneDead p k
  let h :=
    if q.rxSb = k then
      if k = 16 ∧ h.spareFree p false then
        let h := (h.lane17Mode p true).setLane p 17 laWake
        (h.setLanes p false (Nat.lor (h.rxLanes p) (2 ^ 17))).modPhy p (fun q => { q with rxSb := 17, rxSpare := 3 })
      else h.modPhy p (fun q => { q with rxSb := 31, rxSpare := if k = 17 then 0 else q.rxSpare })
    else if k = 17 then h.modPhy p (fun q => { q with rxSpare := 0 })
    else if k < 16 ∧ q.rxSpare = 1 then
      let h := if h.laneState p 17 = laStandby then h.setLane p 17 laActive else h
      (h.setLanes p false (Nat.lor (h.rxLanes p) (2 ^ 17))).modPhy p (fun q => { q with rxSpare := 2 })
    else h
  h.belowMin p

/-- The transmitter obeys ISOLATE k (R590 to R592). -/
def Hw.isolateTx (h : Hw) (p k : Nat) : Hw :=
  let q := h.phyOf p
  let h := (h.setReg .phyTxIsol (commonIx p) 0 (setBit (h.reg .phyTxIsol (commonIx p)) k true)).laneTx p k false
  let h := h.setLanes p true (dropLane (h.txLanes p) k)
  let h :=
    if q.txSb = k then
      if k = 16 ∧ h.spareFree p true then
        ((h.laneTx p 17 true).setLanes p true (Nat.lor (h.txLanes p) (2 ^ 17))).modPhy p (fun q => { q with txSb := 17, txSpare := 3 })
          |>.phyEvt p 3
      else h.modPhy p (fun q => { q with txSb := 31, txSpare := if k = 17 then 0 else q.txSpare })
    else if k = 17 then h.modPhy p (fun q => { q with txSpare := 0 })
    else if k < 16 ∧ q.txSpare = 1 then
      ((h.laneTx p 17 true).setLanes p true (Nat.lor (h.txLanes p) (2 ^ 17))).modPhy p (fun q => { q with txSpare := 2 })
    else h
  h.belowMin p

/-- A lane command names a lane of the port and a known op (R588). -/
def laneCmdOk (c : BitVec 32) : Bool :=
  (fld c 0 4 == 1 || fld c 0 4 == 2) && fld c 8 5 < 18 && (c &&& 0xFFFFE0F0#32) == 0#32

/-- Slots of a link node whose flits it transmits across its port (R596). -/
def Hw.crossSlots (h : Hw) (p : Nat) : List Nat :=
  let n := portNode p
  (List.range 512).filter (fun s => let c := h.reg .bnFlowCfg n s
    bit c 13 && bit c 15 && (h.flowKind (fld c 0 13)).remote != 0xffff)

/-- A slot's flow can receive tokens in this bar, or in the next, judged from the phase table as it stands (R597). `stage` is the
entry's bars to its switch: 1 in its gap bar, 2 in the bar before it. -/
def Hw.slotTokens (h : Hw) (p s : Nat) : Bool :=
  let ph := h.reg .bnFlowPhase (portNode p) s
  let e := fld ph 0 12
  let w := h.reg .bnPhase anchorNode e
  let stage := nget h.bnet.phaseSw e 0
  let active := fld w 8 8 == fld ph 16 8
  let now := stage != 1 && active
  let next := if stage = 2 then false else if stage = 1 then fld w 0 8 == fld ph 16 8 else active
  e == 0 || now || next

/-- No slot of R596 can receive tokens in this bar or the next. -/
def Hw.noTokens (h : Hw) (p : Nat) : Bool := (h.crossSlots p).all (fun s => !h.slotTokens p s)

/-- PHY_RAMP_CFG.sleep_allowed: the wake latency is at most 180 ns (R600). -/
def sleepAllowed (w : Word) : Bool := fld w 0 4 ≤ 4

/-- A quiet direction sleeps: its data lanes and a standby spare ramp down (R598). `idle` is the link layer's report (R652). -/
def Hw.phySleep (h : Hw) (p : Nat) (idle : Bool) : Hw :=
  let q := h.phyOf p
  let cfg := h.reg .phyRampCfg (commonIx p)
  if h.bar.rest == 0 && h.bar.phase == 0 && h.noTokens p && idle && bit cfg 8 && sleepAllowed cfg && h.phyState p == phActive &&
     !q.asleep && !q.wakeReq then
    let h := (burstLanes (h.txData p) (if q.txSpare = 1 then 1 else 0)).foldl (fun h k => h.laneTx p k false) h
    h.modPhy p (fun q => { q with asleep := true })
  else h

/-- A sleeping direction wakes for planned tokens at a bar's start, or as the link layer asks (R599). -/
def Hw.phyWake (h : Hw) (p : Nat) : Hw :=
  let q := h.phyOf p
  if q.asleep && (q.wakeReq || (h.bar.rest == 0 && h.bar.phase == 0 && !h.noTokens p)) then
    let h := (burstLanes (h.txData p) (if q.txSpare = 1 then 1 else 0)).foldl (fun h k => h.laneTx p k true) h
    h.modPhy p (fun q => { q with asleep := false, wakeReq := false })
  else h

/-- A bar ends for a port: a transmit direction that sleeps counts it. -/
def Hw.sleepBar (h : Hw) (p : Nat) : Hw :=
  if (h.phyOf p).asleep && !h.frozen && bit (h.reg .pmcCtl) 0 then h.modReg .phySleepBars (commonIx p) 0 (bumpFld · 0 32 1) else h

/-- The write rules of the PHY registers (R604); `w` is the word the write would leave. -/
def Hw.phyRegWrite (h : Hw) (p : Path) (addr : Nat) (r : Reg) (v w : Word) : Hw :=
  let bad : Bool := match r.id with
    | .phyEqCfg => fld w 0 2 == 3 || 8 < fld w 8 4
    | .phyPortCfg => fld w 0 5 == 0 || 16 < fld w 0 5 || fld w 8 8 == 0
    | .phySyncCfg => 8 < fld w 0 4 || fld w 8 4 == 0
    | .phyPreambleCfg => fld w 0 8 < 64 || 128 < fld w 0 8
    | .phyFfe => 256 ≤ v.toNat
    | .phyDfe => 128 ≤ v.toNat
    | _ => false
  if bad then h.misuse p true 9 addr
  else if r.id = .phyFfe ∧ r.j = 3 then h
  else
    let h := h.setReg r.id r.i r.j w
    let k := r.i % 256
    match r.id with
    | .phyGainCfg => if bit w 0 then h else h.modLane (r.i / 256) k (setFld · 8 4 (fld w 4 4))
    | .phyEqCfg => if fld w 0 2 = 2 then h.modLane (r.i / 256) k (setFld · 12 4 (fld w 4 4)) else h
    | _ => h

end Sys2Proof.Machine
end

