-- ==== Sys2Proof/Machine/Link.lean ====
section
/-! DEFINITION. The link layer of the torus ports (chapter 14): frames, replay, credits, delivery, error counts, the sideband stream,
identity, ports going down and their detours. -/

namespace Sys2Proof.Machine

def Hw.linkOf (h : Hw) (p : Nat) : LinkPort := nget h.link p {}
def Hw.setLink (h : Hw) (p : Nat) (v : LinkPort) : Hw := { h with link := nset h.link p v {} }
def Hw.modLink (h : Hw) (p : Nat) (f : LinkPort → LinkPort) : Hw := h.setLink p (f (h.linkOf p))

/-- Link states (Table 14.7). -/
def lsOff : Nat := 0
def lsTraining : Nat := 1
def lsIdent : Nat := 2
def lsUp : Nat := 3
def lsDown : Nat := 4

def Hw.linkState (h : Hw) (p : Nat) : Nat := fld (h.reg .lnkPortStatus p) 0 3
def Hw.setLinkState (h : Hw) (p s : Nat) : Hw := h.modReg .lnkPortStatus p 0 (setFld · 0 3 s)
def Hw.linkEvt (h : Hw) (p b : Nat) : Hw := h.modReg .lnkPortEvt p 0 (setBit · b true)
def Hw.replayRtt (h : Hw) (p : Nat) : Nat := fld (h.reg .lnkRetryCfg p) 0 16
def Hw.sbTimeout (h : Hw) (p : Nat) : Nat := fld (h.reg .lnkRetryCfg p) 24 8

/-- a − b modulo 65,536 (R610). -/
def seqSub (a b : Nat) : Nat := (a + 65536 - b) % 65536

/-- The other port of a port's axis (R643). -/
def otherPort (p : Nat) : Nat := if p % 2 = 0 then p + 1 else p - 1

/-- The size of a port's axis, and this module's coordinate on it (R639). -/
def Hw.axisSize (h : Hw) (p : Nat) : Nat := let t := h.topo; if portAxis p = 0 then t.xs else if portAxis p = 1 then t.ys else t.zs
def Hw.axisCoord (h : Hw) (p : Nat) : Nat := let t := h.topo; if portAxis p = 0 then t.x else if portAxis p = 1 then t.y else t.z

/-- The coordinates of the neighbour across a port (R639). -/
def Hw.neighbourAt (h : Hw) (p : Nat) : Nat × Nat × Nat :=
  let t := h.topo
  let n := h.axisSize p
  let c := if portPlus p = 1 then (h.axisCoord p + 1) % n else (h.axisCoord p + n - 1) % n
  if portAxis p = 0 then (c, t.y, t.z) else if portAxis p = 1 then (t.x, c, t.z) else (t.x, t.y, c)

/-- The port that carries the detour of a port, if the image declares one (R644). -/
def Hw.detourVia (h : Hw) (p : Nat) : Option Nat :=
  (h.doc.bind (fun d => d.detours.find? (fun r => r.downPort == p))).map (·.viaPort)

/-- The port whose detour a port carries. -/
def Hw.detoured (h : Hw) (q : Nat) : Option Nat :=
  (List.range 6).find? (fun p => h.linkState p == lsDown && h.detourVia p == some q)

/-- Frame bytes (Tables 14.1 and 14.2). -/
structure FrameTail where
  ack : Nat
  prev : Nat
  cred : Nat × Nat
  nak : Option Nat

def headerBytes (type rvc count seq : Nat) (t : FrameTail) (body : List Byte) (relay orig : Nat) : List Byte :=
  let b := natLe 1 (type + 16 * rvc) ++ natLe 1 count ++ natLe 2 seq ++ natLe 2 t.ack ++ natLe 2 t.prev ++ natLe 1 t.cred.1 ++
    natLe 1 t.cred.2 ++ body ++ natLe 2 (t.nak.getD 0) ++ natLe 1 (b2n t.nak.isSome) ++ natLe 1 relay ++ natLe 2 orig
  b ++ natLe 4 (crc32c b)

/-- Close a frame: its CRC, then zero bytes up to the end of its last 14-byte word (R606). -/
def closeFrame (b : List Byte) : List Byte :=
  let b := b ++ natLe 4 (crc32c b)
  b ++ List.replicate ((14 - b.length % 14) % 14) 0#8

/-- The bytes of a DATA or DTR frame. -/
def Frame.bytes (f : Frame) (t : FrameTail) : List Byte :=
  let d (i : Nat) : Nat := f.diffs.getD i 0
  let body := natLe 2 f.flow ++ natLe 2 (f.tenant + 64 * f.gen) ++ natLe 4 (f.deadline + 2 ^ 25 * f.fseq) ++
    natLe 2 (d 0 + 16 * d 1 + 256 * d 2 + 4096 * f.last) ++ natLe 2 f.cid
  closeFrame (headerBytes (if f.dtr then 3 else 1) f.rvc f.flits.length f.seq t body f.relay f.orig ++ f.flits.flatMap payloadBytes)

/-- The bytes of an SBF with its units (R606, R631). -/
def sbfBytes (us : List (BitVec 64)) (t : FrameTail) : List Byte :=
  closeFrame (headerBytes 2 0 us.length 0 t (List.replicate 12 0#8) 0 0 ++ us.flatMap (fun u => natLe 8 u.toNat))

/-- The bytes of a control word (Table 14.3). -/
def controlBytes (t : FrameTail) : List Byte :=
  let b := natLe 1 8 ++ natLe 1 (b2n t.nak.isSome) ++ natLe 2 t.ack ++ natLe 2 t.prev ++ natLe 1 t.cred.1 ++ natLe 1 t.cred.2 ++
    natLe 2 (t.nak.getD 0)
  b ++ natLe 4 (crc32c b)

/-- A DATA or DTR frame read from its bytes. -/
def parseFrame (b : List Byte) : Frame :=
  let u16 (o : Nat) : Nat := leAt b o 2
  let dl := leAt b 14 4
  let ds := u16 18
  { dtr := leAt b 0 1 % 16 == 3, rvc := leAt b 0 1 / 16 % 2, seq := u16 2, flow := u16 10 % 8192,
    tenant := u16 12 % 64, gen := u16 12 / 64, deadline := dl % 2 ^ 25, fseq := dl / 2 ^ 25,
    diffs := [ds % 16, ds / 16 % 16, ds / 256 % 16], last := ds / 4096, cid := u16 20, relay := leAt b 25 1 % 16, orig := u16 26,
    flits := (List.range (leAt b 1 1)).map (fun i => payload ((b.drop (32 + 128 * i)).take 128)) }

/-- A reserved field or bit of a frame header is not 0 (R606). -/
def reservedSet (b : List Byte) : Bool :=
  let t := leAt b 0 1 % 16
  leAt b 0 1 / 32 != 0 || leAt b 24 1 / 2 != 0 ||
  (if t = 2 then leAt b 0 1 / 16 != 0 || leAt b 2 2 != 0 || !allZero ((b.drop 10).take 12) || !allZero ((b.drop 25).take 3)
   else if t = 1 then leAt b 10 2 / 8192 != 0 || !allZero ((b.drop 25).take 3)
   else leAt b 10 2 / 8192 != 0 || leAt b 25 1 / 16 != 0)

/-- Payload bytes of a frame by its type and count. -/
def payloadLen (type count : Nat) : Nat := if type = 2 then 8 * count else 128 * count

/-- count lies in the range of the frame's type (Table 14.2). -/
def countOk (type count : Nat) : Bool :=
  if type = 1 then 1 ≤ count && count ≤ 4 else if type = 3 then count ≤ 4 else 1 ≤ count && count ≤ 8

/-- Queue an LCTL unit (Table 14.6). -/
def Hw.lctl (h : Hw) (p : Nat) (body : Nat) : Hw := h.modLink p (fun l => { l with lctl := l.lctl ++ [BitVec.ofNat 36 body] })

/-- A peer violation (R654): counted, the first recorded; beyond the limit the port is to be declared down. -/
def Hw.peerViol (h : Hw) (p code : Nat) : Hw :=
  let h := h.modReg .lnkViolEvt p 0 (fun w => if fld w 16 16 = 0 then mkWord [(16, 16, 1), (0, 8, code)] else bumpFld w 16 16 1)
  let h := h.modReg .lnkViolCnt p 0 (bumpFld · 0 16 1)
  if fld (h.reg .lnkPortCfg p) 0 8 < fld (h.reg .lnkViolCnt p) 0 16 then h.modLink p (fun l => { l with downDue := if l.downDue = 0 then 2 else l.downDue })
  else h

/-- leak_bars bars have ended: LNK_VIOL_CNT falls by 1 (R654). -/
def Hw.peerLeak (h : Hw) (p : Nat) : Hw :=
  let k := fld (h.reg .lnkPortCfg p) 8 8
  if k ≠ 0 ∧ k ≤ (h.linkOf p).leak then
    (h.modReg .lnkViolCnt p 0 (fun w => setFld w 0 16 (fld w 0 16 - 1))).modLink p (fun l => { l with leak := l.leak - k })
  else h

def Hw.laneEc (h : Hw) (p k : Nat) : Nat := fld (h.reg .lnkLaneEc p k) 0 8

/-- A fused or isolated lane does not count errors (R626). -/
def Hw.laneCounts (h : Hw) (p k : Nat) : Bool := !(h.fusedLanes p).testBit k && !(h.rxIsol p).testBit k

/-- An error of a receiving lane: ec rises by 8, with the actions of Table 14.4 but the isolation, which LANE_ISOLATE makes. -/
def Hw.laneError (h : Hw) (p k : Nat) : Hw :=
  if !h.laneCounts p k then h
  else
    let w := h.reg .lnkLaneEc p k
    let old := fld w 0 8
    let new := satAdd 8 old 8
    let fire := old < 128 && 128 ≤ new && !bit w 9
    let w := setBit (setFld w 0 8 new) 8 (96 ≤ new)
    let h := h.setReg .lnkLaneEc p k (if fire then setBit w 9 true else w)
    let h := if 96 ≤ new then (h.linkEvt p 6).logF2 else h
    if fire then h.lctl p (2 + 256 * k) else h

/-- A good frame, or a run of 16 good control words or sideband units: ec falls by 1 (R626). -/
def Hw.laneGood (h : Hw) (p k : Nat) : Hw :=
  if !h.laneCounts p k then h
  else h.modReg .lnkLaneEc p k (fun w =>
    let ec := fld w 0 8 - 1
    let w := setBit (setFld w 0 8 ec) 8 (96 ≤ ec)
    if ec < 96 then setBit w 9 false else w)

/-- A failed header check (Table 14.4): the lane's words are discarded until the next sync word, and REWAKE is sent at once. -/
def Hw.headerFail (h : Hw) (p k : Nat) : Hw :=
  let due := h.laneEc p k < 128 && 120 ≤ h.laneEc p k && !bit (h.reg .lnkLaneEc p k) 9
  let h := h.laneError p k
  let h := if due then h else h.lctl p (2 + 256 * k)
  h.modLink p (fun l => { l with desync := Nat.lor l.desync (2 ^ k) })

/-- A torus port that takes part in a port reset: its link or its PHY is not down (R637). -/
def Hw.portIsDown (h : Hw) (p : Nat) : Bool := h.linkState p == lsDown || h.phyState p == phDown

/-- A port reset of torus port p (R78, Table 2.3): sequence numbers, replay buffer, lane error counts and LQI are cleared, and the port
trains again (R580, R635). Sideband units that have not been acknowledged are kept: no Class 0 packet is lost. -/
def Hw.torusPortReset (h : Hw) (p : Nat) : Hw :=
  if h.portIsDown p || h.phyState p == phOff then h
  else
    let l := h.linkOf p
    let q := h.phyOf p
    let us := (l.unacked.zip (List.range l.unacked.length)).map (fun x => { x.1 with useq := x.2 })
    let h := h.setLink p { queue := l.queue, relay := l.relay, lctl := [], fwd := l.fwd, cur0 := l.cur0, cur1 := l.cur1, turn := l.turn,
                           unacked := us, useq := us.length, resend := if us.isEmpty then none else some 0,
                           back := some (h.now, q.pllLost) }
    let h := h.dropRegs (fun r => (decide (r.id = RegId.lnkLaneEc) || decide (r.id = RegId.lnkLqi) || decide (r.id = RegId.lnkRtt) ||
      decide (r.id = RegId.lnkPeer)) && r.i == p)
    let h := (List.range 18).foldl (fun h k => h.modReg .phyQual (laneIx p k) 0 (setFld · 16 8 0)) h
    let h := h.dropRegs (fun r => decide (r.id = RegId.phySleepBars) && r.i == commonIx p)
    let h := (h.setLinkState p lsTraining).linkEvt p 0
    h.phyTrain p q.pllLost

/-- A frame's replay falls due; a ninth one resets the port (R617). -/
def Hw.replayDue (h : Hw) (p : Nat) (pick : TxFrame → Bool) : Hw :=
  let l := h.linkOf p
  let due := l.replay.filter (fun t => pick t && !t.due)
  if due.any (fun t => 8 ≤ t.replays) then (h.linkEvt p 4).torusPortReset p
  else if due.isEmpty then h
  else
    let h := h.modLink p (fun l => { l with replay := l.replay.map (fun t => if pick t then { t with due := true } else t) })
    if (h.phyOf p).asleep then h.modPhy p (fun q => { q with wakeReq := true }) else h

/-- An ack or a NAK that names a seq not yet sent (R616). -/
def LinkPort.ahead (l : LinkPort) (x : Nat) (strict : Bool) : Bool :=
  let d := seqSub x l.old
  let out := seqSub l.next l.old
  (if strict then out ≤ d else out < d) && d < 32768

/-- The ack, credits and NAK of a unit with a good CRC (R616, R618, R619). -/
def Hw.ackIn (h : Hw) (p ack : Nat) (cred : Option (Nat × Nat)) (nak : Option Nat) : Hw :=
  let l := h.linkOf p
  let d := seqSub ack l.old
  let l := if d < 32768 then { l with replay := l.replay.filter (fun t => d ≤ seqSub t.frame.seq l.old), old := ack } else l
  let h := h.setLink p { l with seen := cred.getD l.seen }
  match nak with
  | some n => h.replayDue p (fun t => t.frame.seq == n)
  | none => h

/-- lane_prev names a frame in the window that is not stored: it is lost, and a NAK names it, at most one in replay_rtt cycles (R615). -/
def Hw.lanePrev (h : Hw) (p lp : Nat) : Hw :=
  let l := h.linkOf p
  let recent := l.nakAt.any (fun e => e.1 == lp && h.now < e.2 + h.replayRtt p)
  if seqSub lp l.expected < 256 && !l.stored.any (fun f => f.seq == lp) && !recent then
    h.setLink p { l with nak := some lp, nakAt := l.nakAt.filter (fun e => e.1 != lp && h.now < e.2 + h.replayRtt p) ++ [(lp, h.now)] }
  else h

/-- A, the lowest seq not yet received, moves past the frames that are stored (R612). -/
def advanceA : Nat → List Frame → Nat → Nat
  | 0, _, a => a
  | k + 1, fs, a => if fs.any (fun f => f.seq == a) then advanceA k fs ((a + 1) % 65536) else a

/-- Frames of a ring VC that fill its receive buffer: stored, or delivered and not yet released (R619 to R621). -/
def LinkPort.buffered (l : LinkPort) (v : Nat) : Nat :=
  (l.stored.filter (fun f => f.rvc == v)).length + (l.held.filter (fun e => e.2 == v)).length

/-- A DATA or DTR frame with a good CRC is stored, discarded as a duplicate, or a violation (R612, R613, R621, R635). -/
def Hw.frameStore (h : Hw) (p : Nat) (f : Frame) : Hw :=
  let l := h.linkOf p
  let d := seqSub f.seq l.expected
  let dup := (h.modReg .lnkRxEvt p 0 (bumpFld · 24 8 1)).modLink p (fun l => { l with dack := true })
  if h.linkState p ≠ lsUp then h.peerViol p 7
  else if d < 256 then
    if l.stored.any (fun g => g.seq == f.seq) then dup
    else if 128 ≤ l.buffered f.rvc then h.peerViol p 6
    else
      let fs := l.stored ++ [f]
      h.setLink p { l with stored := fs, expected := advanceA 256 fs l.expected, dack := true }
  else if 65280 ≤ d then dup
  else h.peerViol p 4

/-- The receiver of a lane takes units from it: the lane is in a burst, aligned, below the isolation count, and the port is in IDENT or
UP (R589, R635, Table 14.4). -/
def Hw.laneTakes (h : Hw) (p k : Nat) : Bool :=
  h.laneLive p k && !(h.linkOf p).desync.testBit k && h.laneEc p k < 255 && (h.linkState p == lsIdent || h.linkState p == lsUp) &&
  (h.linkOf p).downDue == 0

/-- A packet that came over the sideband: delivered, or passed on by the detour (R647). -/
def Hw.sbPacket (h : Hw) (p : Nat) (i : SbIn) : Hw :=
  match i.relay with
  | none => { h with snet := { h.snet with rx := h.snet.rx ++ [(p, i.kind, i.words)] } }
  | some 0 => { h with snet := { h.snet with rx := h.snet.rx ++ [(otherPort p, i.kind, i.words)] } }
  | some (k + 1) => h.modLink (otherPort p) (fun l => { l with fwd := l.fwd ++ [(k, i.kind, i.words)] })

/-- An S-net word of a SNET or CLASS0 unit (R628). -/
def Hw.sbWord (h : Hw) (p type : Nat) (body : BitVec 36) : Hw :=
  let l := h.linkOf p
  let cur := if type = 2 then l.in0 else l.in1
  let first := cur.words.isEmpty
  let i : SbIn := ⟨if first then l.detourIn else cur.relay, if first then fld body 32 3 else cur.kind, cur.words ++ [BitVec.ofNat 32 (fld body 0 32)]⟩
  let l := if first then { l with detourIn := none } else l
  let rest : SbIn := if bit body 35 then {} else i
  let h := h.setLink p (if type = 2 then { l with in0 := rest } else { l with in1 := rest })
  if bit body 35 then h.sbPacket p i else h

/-- Time in eighths of a cycle, modulo 2^24 (R633). -/
def Hw.eighths (h : Hw) (part : Nat) : Nat := (h.now * 8 + part) % 2 ^ 24

/-- Bits of an LCTL body that Table 14.6 names for an op; none for an unknown op. -/
def lctlMask (op : Nat) : Option Nat :=
  if op = 1 ∨ op = 2 then some 0x1f0f else if op = 3 then some 0xf else if op = 4 then some 0xf0f else if op = 6 then some 0xfffffffff
  else if op = 7 then some 0x7ffff else if op = 8 ∨ op = 9 then some 0xffffff00f
  else if op = 10 then some 0xfffffffff else if op = 11 then some 0xfffff else none

/-- An LCTL unit (Table 14.6). Lane commands wait for the PHY; `part` is the arrival time's fraction in eighths of a cycle. -/
def Hw.lctlIn (h : Hw) (p part : Nat) (b : BitVec 36) : Hw :=
  let op := fld b 0 4
  match lctlMask op with
  | none => h.peerViol p 8
  | some m =>
    if op ≠ 1 ∧ op ≠ 2 ∧ b.toNat ≠ Nat.land b.toNat m then h.peerViol p 3
    else
      let l := h.linkOf p
      match op with
      | 1 => h.setLink p { l with cmds := l.cmds ++ [b.setWidth 32] }
      | 2 => h.setLink p { l with cmds := l.cmds ++ [b.setWidth 32] }
      | 3 => (h.setLink p { l with downDue := if l.downDue = 0 then 5 else l.downDue }).linkEvt p 7
      | 4 => h.setLink p { l with detourIn := some (fld b 8 4) }
      | 6 => h.setLink p { l with peer0 := some (BitVec.ofNat 32 (fld b 4 32)) }
      | 7 => h.setLink p { l with peer1 := some (BitVec.ofNat 32 (fld b 4 32)) }
      | 8 => h.setLink p { l with echo := some (fld b 12 24, h.now) }
      | 9 => h.setLink p { l with reply := some (fld b 12 24, h.eighths part) }
      | 10 => if l.ahead (fld b 4 16) false then h.peerViol p 5 else h.ackIn p (fld b 4 16) (some (fld b 20 8, fld b 28 8)) none
      | _ => if l.ahead (fld b 4 16) true then h.peerViol p 5 else h.ackIn p l.old none (some (fld b 4 16))

/-- uack acknowledges every unit before it (R629). -/
def Hw.uackIn (h : Hw) (p uack : Nat) : Hw :=
  let l := h.linkOf p
  match l.unacked with
  | [] => h
  | u :: _ =>
    let d := (uack + 256 - u.useq) % 256
    if d = 0 ∨ l.unacked.length < d then h
    else
      let rest := l.unacked.drop d
      let resend := l.resend.bind (fun r => if rest.any (fun u => u.useq == r) then some r else none)
      h.setLink p { l with unacked := rest, resend := resend, sbAdv := h.now }

/-- A sideband unit with a good check (R628, R629): accepted in useq order, else discarded with a NAK at most once in sb_timeout. -/
def Hw.sbAccept (h : Hw) (p part : Nat) (u : BitVec 64) : Hw :=
  let l := h.linkOf p
  let type := fld u 36 4
  let body : BitVec 36 := BitVec.ofNat 36 (fld u 0 36)
  if fld u 40 8 ≠ l.sbNext then
    if l.sbNakAt.any (fun t => h.now < t + h.sbTimeout p) then h else h.setLink p { l with sbNak := true, sbNakAt := some h.now }
  else
    let h := h.uackIn p (fld u 48 8)
    let h := if type = 0 then h else h.modLink p (fun l => { l with sbNext := (l.sbNext + 1) % 256 })
    match type with
    | 0 => if body = 0#36 then h else h.peerViol p 3
    | 1 => h.sbWord p 1 body
    | 2 => h.sbWord p 2 body
    | 3 => h.lctlIn p part body
    | 4 =>
      if fld body 8 28 ≠ 0 then h.peerViol p 3
      else h.modLink p (fun l => { l with resend := if l.unacked.any (fun u => u.useq == fld body 0 8) then some (fld body 0 8) else l.resend })
    | _ => h.peerViol p 1

/-- A sideband unit arrives on a lane (R626, R629): a bad check is an error of the lane. -/
def Hw.sbUnitRx (h : Hw) (p k part : Nat) (u : BitVec 64) : Hw :=
  if !(h.laneTakes p k && (h.phyOf p).rxSb == k) then h
  else if !crc8Ok u then (h.modLink p (fun l => { l with goodSb := 0 })).laneError p k
  else
    let run := (h.linkOf p).goodSb + 1
    let h := h.modLink p (fun l => { l with goodSb := run % 16 })
    ((if run = 16 then h.laneGood p k else h).sbAccept p part u).act (portNode p) 9

/-- A frame arrives on a lane (R606, R607, R612 to R618, R626, R627, Table 14.8). -/
def Hw.frameRx (h : Hw) (p k : Nat) (b : List Byte) : Hw :=
  if !h.laneTakes p k || (h.phyOf p).rxSb == k then h
  else
    let h := (h.modLink p (fun l => { l with goodCtl := serase l.goodCtl k })).act (portNode p) 9
    let type := leAt b 0 1 % 16
    let count := leAt b 1 1
    if crc32c (b.take 28) ≠ leAt b 28 4 ∨ b.length < 32 then h.headerFail p k
    else if !([1, 2, 3].contains type) then h.peerViol p 1
    else if !countOk type count then h.peerViol p 2
    else
      let n := 32 + payloadLen type count
      if crc32c (b.take n) ≠ leAt b n 4 ∨ b.length < n + 4 then (h.modReg .lnkRxEvt p 0 (bumpFld · 0 8 1)).laneError p k
      else
        let h := h.laneGood p k
        let nak := if leAt b 24 1 % 2 = 1 then some (leAt b 22 2) else none
        if reservedSet b then h.peerViol p 3
        else if (h.linkOf p).ahead (leAt b 4 2) false || nak.any (fun x => (h.linkOf p).ahead x true) then h.peerViol p 5
        else
          let h := h.ackIn p (leAt b 4 2) (some (leAt b 8 1, leAt b 9 1)) nak
          let h := h.lanePrev p (leAt b 6 2)
          if type = 2 then
            (List.range count).foldl (fun h i =>
              let u := BitVec.ofNat 64 (leAt b (32 + 8 * i) 8)
              if crc8Ok u then h.sbAccept p 0 u else h.laneError p k) h
          else h.frameStore p (parseFrame b)

/-- A control word arrives (R607, R615 to R618, R626). -/
def Hw.controlRx (h : Hw) (p k : Nat) (b : List Byte) : Hw :=
  if !h.laneTakes p k || (h.phyOf p).rxSb == k then h
  else if crc32c (b.take 10) ≠ leAt b 10 4 ∨ b.length < 14 then
    (h.modLink p (fun l => { l with goodCtl := serase l.goodCtl k })).laneError p k
  else
    let run := nget (h.linkOf p).goodCtl k 0 + 1
    let h := h.modLink p (fun l => { l with goodCtl := nset l.goodCtl k (run % 16) 0 })
    let h := if run = 16 then h.laneGood p k else h
    let nak := if leAt b 1 1 % 2 = 1 then some (leAt b 8 2) else none
    if leAt b 0 1 % 16 ≠ 8 then h.peerViol p 1
    else if leAt b 0 1 / 16 ≠ 0 ∨ leAt b 1 1 / 2 ≠ 0 then h.peerViol p 3
    else if (h.linkOf p).ahead (leAt b 2 2) false || nak.any (fun x => (h.linkOf p).ahead x true) then h.peerViol p 5
    else ((h.ackIn p (leAt b 2 2) (some (leAt b 6 1, leAt b 7 1)) nak).lanePrev p (leAt b 4 2))

/-- A link node's source slot hands its flits to a fold context or a ring relay of the node (R400, R431). -/
def Hw.ringStream (h : Hw) (n flow : Nat) : Bool :=
  let k := h.flowKind flow
  (k.kind == 1 && k.dst == n) ||
  (List.range 32).any (fun r => h.ringValid n r && !h.ringGate n r && fld (h.reg .cqRingFlow n r) 0 13 == flow)

/-- The link node's checks of a flit that a torus port delivers, and its hand-over to the receiving flow (R271, R624, R625). -/
def Hw.flitIn (h : Hw) (p : Nat) (f : Flit) : Hw :=
  let n := portNode p
  match h.flowSlot n f.flow with
  | none => h.bDrop n 1 f.flow
  | some s =>
    let cfg := h.reg .bnFlowCfg n s
    let key := n * 512 + s
    let took (h : Hw) : Hw := { h with bnet := { h.bnet with linkSeq := nset h.bnet.linkSeq key ((f.seq + 1) % 128) 0 } }
    if !bit cfg 14 then h.bDrop n 1 f.flow
    else if f.tenant ≠ fld cfg 16 6 then (h.bDrop n 2 f.flow).peerViol p 9
    else if f.gen ≠ fld cfg 22 10 then (h.bDrop n 3 f.flow).stale f.tenant 1
    else if f.seq ≠ nget h.bnet.linkSeq key 0 then
      (((took (h.modReg .bnFlowState n s (setBit · 21 true))).foldStop f.flow).bDrop n 5 f.flow).raiseOwner f.tenant f.gen 2 n f.flow
    else if h.isLate (f.deadline + 32) then (took h).bLate n f
    else
      let h := took h
      if h.ringStream n f.flow then
        { h with fold := { h.fold with ring := nset h.fold.ring (n * 8192 + f.flow) (nget h.fold.ring (n * 8192 + f.flow) [] ++ [f]) [] } }
      else h.setWaiting n s (h.waiting n s ++ [f])

/-- Flit i of a frame as its receiving flow sees it (R624); `id` marks the frame whose buffer it leaves. -/
def Frame.flit (f : Frame) (i id : Nat) (d : BitVec 1024) : Flit :=
  let dl := f.deadline + (if i = 0 then 0 else f.diffs.getD (i - 1) 0)
  let m := mkFlit f.flow (f.last.testBit i) f.cid d true
  { m with tag := setFld (setFld (setFld (setFld m.tag 13 6 f.tenant) 19 10 f.gen) 32 25 dl) 57 7 (f.fseq + i), op := id }

/-- The next frame in seq order is delivered (R614, R624): the flits of a DATA frame go to their flow, a DTR frame to the bridge. -/
def Hw.frameDeliver (h : Hw) (p : Nat) : Hw :=
  let l := h.linkOf p
  match takeFirst (fun f : Frame => f.seq == l.deliver) l.stored with
  | none => h
  | some (f, rest) =>
    let next := (l.deliver + 1) % 65536
    if f.dtr then h.setLink p { l with stored := rest, deliver := next, bridge := l.bridge ++ [f] }
    else
      let id := h.newId
      let h := id.2.setLink p { l with stored := rest, deliver := next, held := l.held ++ [(id.1, f.rvc)] }
      (f.flits.zip (List.range f.flits.length)).foldl (fun h x => h.flitIn p (f.flit x.2 id.1 x.1)) h

/-- A released frame of a ring VC (R620). -/
def Hw.release (h : Hw) (p v : Nat) : Hw :=
  h.modLink p (fun l => { l with
    dack := true
    released := if v = 0 then ((l.released.1 + 1) % 256, l.released.2) else (l.released.1, (l.released.2 + 1) % 256) })

/-- Every flit of a delivered frame has left the receive buffer, by injection or by a drop: a credit is released (R620). -/
def Hw.frameRelease (h : Hw) (p : Nat) : Hw :=
  let l := h.linkOf p
  let n := portNode p
  let waits (id : Nat) : Bool :=
    h.bnet.inj.any (fun e => e.1 / 512 == n && e.2.any (fun f => f.op == id)) ||
    h.fold.ring.any (fun e => e.1 / 8192 == n && e.2.any (fun f => f.op == id))
  match takeFirst (fun e : Nat × Nat => !waits e.1) l.held with
  | none => h
  | some (e, rest) => (h.setLink p { l with held := rest }).release p e.2

/-- A detour frame crosses the axis bridge (R645, R646): with relays left it goes on by the other port, else it enters the receive state
of that port in orig_seq order. -/
def Hw.dtrRx (h : Hw) (p : Nat) : Hw :=
  let l := h.linkOf p
  match l.bridge with
  | [] => h
  | f :: rest =>
    let h := (h.setLink p { l with bridge := rest }).release p f.rvc
    let q := otherPort p
    if 0 < f.relay then h.modLink q (fun l => { l with relay := l.relay ++ [{ f with relay := f.relay - 1 }] })
    else
      let m := h.linkOf q
      if seqSub f.orig m.expected < 32768 && !m.stored.any (fun g => g.seq == f.orig) then
        let fs := m.stored ++ [{ f with dtr := false, seq := f.orig }]
        h.setLink q { m with stored := fs, expected := advanceA 256 fs m.expected }
      else h.modReg .lnkRxEvt q 0 (bumpFld · 24 8 1)

/-- Flits of a flow that may go into one frame after its first: consecutive seq, one cid, deadlines at most 15 later (R609). -/
def packMore (f0 : Flit) : Nat → Nat → List Flit → List Flit
  | 0, _, _ => []
  | _, _, [] => []
  | k + 1, i, f :: fs =>
    if f.seq = (f0.seq + i) % 128 ∧ f.cid = f0.cid ∧ (f.deadline + 2 ^ 25 - f0.deadline) % 2 ^ 25 ≤ 15 then f :: packMore f0 k (i + 1) fs
    else []

/-- A frame of a flow's waiting flits, and how many flits it takes. -/
def Hw.packFrame (h : Hw) (fs : List Flit) (frameMax seq : Nat) : Option (Frame × Nat) :=
  match fs with
  | [] => none
  | f0 :: rest =>
    let all := f0 :: packMore f0 (frameMax - 1) 1 rest
    some ({ dtr := false, rvc := f0.vc % 2, seq := seq, flow := (h.flowKind f0.flow).remote % 8192, tenant := f0.tenant, gen := f0.gen,
            deadline := f0.deadline, fseq := f0.seq, diffs := (all.drop 1).map (fun f => (f.deadline + 2 ^ 25 - f0.deadline) % 2 ^ 25),
            last := (all.zip (List.range 4)).foldl (fun m x => if x.1.last then m + 2 ^ x.2 else m) 0, cid := f0.cid, relay := 0, orig := 0,
            flits := all.map (·.data) }, all.length)

/-- Remove the first k flits of a flow from a queue. -/
def dropFlow (flow : Nat) : Nat → List Flit → List Flit
  | 0, fs => fs
  | _, [] => []
  | k + 1, f :: fs => if f.flow = flow then dropFlow flow k fs else f :: dropFlow flow (k + 1) fs

/-- The flow that sends next: lowest VC first, round-robin over flows within it, among those whose ring VC has a credit (R609, R619). -/
def LinkPort.nextFlow (l : LinkPort) (ok : Nat → Bool) : Option (Nat × Nat) :=
  (List.range 8).findSome? fun v =>
    if !ok (v % 2) then none
    else
      let flows := (l.queue.filter (fun f => f.vc == v)).map (·.flow)
      let ptr := nget l.rr v 0
      let pick (xs : List Nat) : Option Nat := xs.foldl (fun a x => match a with | none => some x | some y => some (Nat.min x y)) none
      ((pick (flows.filter (fun f => ptr ≤ f))).orElse (fun _ => pick flows)).map (fun f => (v, f))

/-- Credits of a ring VC (R619). -/
def LinkPort.credits (l : LinkPort) (v : Nat) : Nat :=
  let s := if v = 0 then l.sent.1 else l.sent.2
  let r := if v = 0 then l.seen.1 else l.seen.2
  128 - (s + 256 - r) % 256

/-- The fields that every unit carries (R612, R615, R619), for a lane; the lane that has sent no frame yet gives an open lane_prev.
DESIGN CHOICE (log entry 9). -/
def Hw.unitTail (h : Hw) (p k : Nat) : FrameTail × Hw :=
  let l := h.linkOf p
  let prev : Nat × Hw := match l.prev.find? (fun e => e.1 == k) with
    | some e => (e.2, h)
    | none => (h.fresh.1.toNat % 65536, h.fresh.2)
  let h := prev.2.setLink p { l with nak := none }
  (⟨l.expected, prev.1, l.released, l.nak⟩, if l.nak.isSome then h.modReg .lnkRxEvt p 0 (bumpFld · 16 8 1) else h)

def Hw.frameMax (h : Hw) (p : Nat) : Nat := fld (h.reg .lnkPortCfg p) 16 4

/-- The next new frame of a port, taken from what waits for it: detour frames to pass on, its own flits, the flits of the port whose
detour it carries (R609, R619, R622, R644). -/
def Hw.newFrame (h : Hw) (p : Nat) : Option (Frame × Bool × Hw) :=
  let l := h.linkOf p
  let ok (v : Nat) : Bool := 0 < l.credits v
  if h.linkState p ≠ lsUp ∨ 256 ≤ seqSub l.next l.old then none
  else match l.relay with
    | f :: rest => if ok 1 then some ({ f with dtr := true, rvc := 1, seq := l.next }, true, h.setLink p { l with relay := rest }) else none
    | [] =>
      match l.nextFlow ok with
      | some (v, flow) =>
        match h.packFrame (l.queue.filter (fun f => f.flow == flow)) (h.frameMax p) l.next with
        | some (f, k) => some (f, (h.flowKind flow).detourOk,
            h.setLink p { l with queue := dropFlow flow k l.queue, rr := nset l.rr v (flow + 1) 0 })
        | none => none
      | none =>
        match h.detoured p with
        | none => none
        | some d =>
          let m := h.linkOf d
          match m.nextFlow (fun _ => ok 1) with
          | none => none
          | some (v, flow) =>
            match h.packFrame (m.queue.filter (fun f => f.flow == flow)) (h.frameMax p) l.next with
            | some (f, k) => some ({ f with dtr := true, rvc := 1, relay := h.axisSize p - 2, orig := m.next }, true,
                h.setLink d { m with queue := dropFlow flow k m.queue, rr := nset m.rr v (flow + 1) 0, next := (m.next + 1) % 65536 })
            | none => none

/-- A frame starts on a lane. -/
def Hw.frameOut (h : Hw) (p k : Nat) (f : Frame) : Hw :=
  let t := h.unitTail p k
  (t.2.modLink p (fun l => { l with sentFrame := some (k, f.bytes t.1), prev := nset l.prev k f.seq 65536 })).act (portNode p) 8

/-- Words of one sideband packet of a class as units: a packet of the detour is preceded by DETOUR (R628, R647). -/
def packetUnits (type kind : Nat) (ws : List Word) (relay : Option Nat) : List (Nat × BitVec 36) :=
  (match relay with | some r => [(3, BitVec.ofNat 36 (4 + 256 * r))] | none => []) ++
  (ws.zip (List.range ws.length)).map (fun x =>
    (type, BitVec.ofNat 36 (x.1.toNat + 2 ^ 32 * kind + (if x.2 + 1 = ws.length then 2 ^ 35 else 0))))

/-- A port's sideband role goes the other way round the ring: it is down with a detour, or it is being reset (R631, R647). -/
def Hw.sbDetour (h : Hw) (p : Nat) : Option Nat :=
  if h.linkState p = lsDown then h.detourVia p
  else if h.linkState p = lsTraining ∧ (h.linkOf p).back.isSome ∧ 2 < h.axisSize p then some (otherPort p)
  else none

/-- The next packet of a class for a port: one it relays, one of its own, one of the port whose detour it carries. -/
def Hw.nextPacket (h : Hw) (p type : Nat) : Option (List (Nat × BitVec 36) × Hw) :=
  let mine (k : Nat) : Bool := (k == kGong) == (type == 2)
  let l := h.linkOf p
  match takeFirst (fun e : Nat × Nat × List Word => mine e.2.1) l.fwd with
  | some (e, rest) => some (packetUnits type e.2.1 e.2.2 (some e.1), h.setLink p { l with fwd := rest })
  | none =>
    match takeFirst (fun e : Nat × Nat × List Word => e.1 == p && mine e.2.1) h.snet.tx with
    | some (e, rest) => some (packetUnits type e.2.1 e.2.2 none, { h with snet := { h.snet with tx := rest } })
    | none =>
      match takeFirst (fun e : Nat × Nat × List Word => h.sbDetour e.1 == some p && mine e.2.1) h.snet.tx with
      | some (e, rest) => some (packetUnits type e.2.1 e.2.2 (some (h.axisSize p - 2)), { h with snet := { h.snet with tx := rest } })
      | none => none

/-- Load the packet in progress of a class. -/
def Hw.loadPacket (h : Hw) (p type : Nat) : Hw :=
  let l := h.linkOf p
  if !(if type = 2 then l.cur0 else l.cur1).isEmpty then h
  else match h.nextPacket p type with
    | some (us, h) => h.modLink p (fun l => if type = 2 then { l with cur0 := us } else { l with cur1 := us })
    | none => h

/-- The word of a sideband unit (Table 14.5). -/
def sbWordOf (type useq uack : Nat) (body : BitVec 36) : BitVec 64 :=
  let w : BitVec 64 := setFld (setFld (setFld (setFld 0#64 0 36 body.toNat) 36 4 type) 40 8 useq) 48 8 uack
  setFld w 56 8 (crc8 w)

/-- A new numbered unit goes out and is kept until it is acknowledged. -/
def Hw.sbNumber (h : Hw) (p type : Nat) (body : BitVec 36) : BitVec 64 × Hw :=
  let l := h.linkOf p
  let body := if type = 3 ∧ fld body 0 4 = 8 then BitVec.ofNat 36 (8 + 4096 * h.eighths 0) else body
  (sbWordOf type l.useq l.sbNext body,
   h.setLink p { l with unacked := l.unacked ++ [⟨l.useq, type, body⟩], useq := (l.useq + 1) % 256,
                        sbAdv := if l.unacked.isEmpty then h.now else l.sbAdv })

/-- The next sideband unit in the order of R630, with the acknowledgements of a sleeping direction (R652); IDLE when nothing waits. -/
def Hw.sbNextUnit (h : Hw) (p : Nat) : BitVec 64 × Hw :=
  let l := h.linkOf p
  match l.resend.bind (fun r => l.unacked.find? (fun u => u.useq == r)) with
  | some u =>
    let n := (u.useq + 1) % 256
    (sbWordOf u.type u.useq l.sbNext u.body, h.setLink p { l with resend := if l.unacked.any (fun v => v.useq == n) then some n else none })
  | none =>
    let room := l.unacked.length < 64
    let asleep := (h.phyOf p).asleep
    if room && l.sbNak then (h.setLink p { l with sbNak := false }).sbNumber p 4 (BitVec.ofNat 36 l.sbNext)
    else match (if room then l.lctl else []) with
      | b :: rest => (h.setLink p { l with lctl := rest }).sbNumber p 3 b
      | [] =>
        match (if room && asleep then l.nak else none) with
        | some s =>
          ((h.setLink p { l with nak := none }).modReg .lnkRxEvt p 0 (bumpFld · 16 8 1)).sbNumber p 3 (BitVec.ofNat 36 (11 + 16 * s))
        | none =>
          if room && asleep && l.dack then
            (h.setLink p { l with dack := false }).sbNumber p 3
              (BitVec.ofNat 36 (10 + 16 * l.expected + 2 ^ 20 * l.released.1 + 2 ^ 28 * l.released.2))
          else
            let h := (h.loadPacket p 2).loadPacket p 1
            let l := h.linkOf p
            let c0 := if room then l.cur0 else []
            let c1 := if l.unacked.length < 48 then l.cur1 else []
            let use0 := !c0.isEmpty && (c1.isEmpty || !l.turn)
            match (if use0 then c0 else c1) with
            | [] => (sbWordOf 0 l.useq l.sbNext 0#36, h)
            | u :: rest =>
              let keep := u.1 == 3
              (h.setLink p (if use0 then { l with cur0 := rest, turn := !keep } else { l with cur1 := rest, turn := keep })).sbNumber p u.1 u.2

/-- A unit other than IDLE waits for the sideband. -/
def Hw.sbDue (h : Hw) (p : Nat) : Bool := fld (h.sbNextUnit p).1 36 4 != 0

/-- Up to k sideband units for one SBF. -/
def Hw.sbUnits (h : Hw) (p : Nat) : Nat → List (BitVec 64) × Hw
  | 0 => ([], h)
  | k + 1 =>
    if h.sbDue p then
      let u := h.sbNextUnit p
      let r := Hw.sbUnits u.2 p k
      (u.1 :: r.1, r.2)
    else ([], h)

/-- The lowest-numbered lane of a set. -/
def lowestLane (m : Nat) : Option Nat := allLanes.find? (fun k => m.testBit k)

/-- A replay that may start on a lane: due, lowest seq first, not on the lane of its previous copy while another is in use (R608). -/
def Hw.replayFor (h : Hw) (p k : Nat) : Option TxFrame :=
  (h.linkOf p).replay.find? (fun t => t.due && (t.lane != k || popCount 18 (h.txData p) ≤ 1))

/-- A free lane starts its next unit (R605, R608, R609, R630): on the sideband lane a unit; on a data lane an SBF, a replay, a new frame,
else a control word. -/
def Hw.frameTransmit (h : Hw) (p k : Nat) : Hw :=
  let q := h.phyOf p
  let state := h.linkState p
  if h.phyState p ≠ phActive ∨ (state ≠ lsIdent ∧ state ≠ lsUp) ∨ (h.linkOf p).downDue ≠ 0 then h
  else if q.txSb = k then
    let u := h.sbNextUnit p
    u.2.modLink p (fun l => { l with sentUnit := some u.1 })
  else if !(h.txData p).testBit k || q.asleep then h
  else if q.txSb = 31 && lowestLane (h.txData p) == some k && h.sbDue p then
    let us := h.sbUnits p 8
    let t := us.2.unitTail p k
    (t.2.modLink p (fun l => { l with sentFrame := some (k, sbfBytes us.1 t.1) })).act (portNode p) 8
  else match h.replayFor p k with
    | some t =>
      let h := (h.frameOut p k t.frame).modReg .lnkRxEvt p 0 (bumpFld · 8 8 1)
      h.modLink p (fun l => { l with replay := l.replay.map (fun x =>
        if x.frame.seq == t.frame.seq then { x with lane := k, replays := x.replays + 1, at' := h.now, due := false } else x) })
    | none =>
      match h.newFrame p with
      | some (f, ok, h) =>
        let h := h.modLink p (fun l => { l with
          next := (l.next + 1) % 65536, replay := l.replay ++ [⟨f, k, 0, h.now, false, ok⟩],
          sent := if f.rvc = 0 then ((l.sent.1 + 1) % 256, l.sent.2) else (l.sent.1, (l.sent.2 + 1) % 256) })
        h.frameOut p k f
      | none =>
        let t := h.unitTail p k
        t.2.modLink p (fun l => { l with sentFrame := some (k, controlBytes t.1) })

/-- replay_rtt has passed since the latest copy of the oldest unacknowledged frame began (R616). -/
def Hw.replayTimeout (h : Hw) (p : Nat) : Hw :=
  let l := h.linkOf p
  match l.replay.find? (fun t => t.frame.seq == l.old) with
  | none => h
  | some t =>
    if t.due || (h.linkState p ≠ lsUp) then h
    else { h with now := max h.now (t.at' + h.replayRtt p) }.replayDue p (fun x => x.frame.seq == t.frame.seq)

/-- sb_timeout passes without uack advancing: the sideband resends from its oldest unit (R629). -/
def Hw.sbTimedOut (h : Hw) (p : Nat) : Hw :=
  let l := h.linkOf p
  match l.unacked with
  | [] => h
  | u :: _ =>
    let t := max h.now (l.sbAdv + h.sbTimeout p)
    { h with now := t }.setLink p { l with resend := some u.useq, sbAdv := t }

/-- The link layer enters IDENT as the PHY enters ACTIVE (R635): it sends IDENT0 and IDENT1. -/
def Hw.linkIdent (h : Hw) (p : Nat) : Hw :=
  let t := h.topo
  let h := (h.setLinkState p lsIdent).modLink p (fun l => { l with peer0 := none, peer1 := none, desync := 0 })
  (h.lctl p (6 + 16 * t.clusterId)).lctl p (7 + 16 * t.x + 2 ^ 8 * t.y + 2 ^ 12 * t.z + 2 ^ 16 * p)

/-- Both ends report SELECT with seen = 1 (R584, R635). -/
def Hw.portActive (h : Hw) (p : Nat) : Hw :=
  if h.phyReady p then
    let h := (h.phyActivate p).linkIdent p
    if (h.phyOf p).txSb = 31 then h.linkEvt p 5 else h
  else h

/-- Flows carried across a port (R638): slot owner and generation, and whether detour_ok. -/
def Hw.carried (h : Hw) (p : Nat) : List (Nat × Nat × Nat × Bool) :=
  (h.crossSlots p).map (fun s => let c := h.reg .bnFlowCfg (portNode p) s
    (fld c 0 13, fld c 16 6, fld c 22 10, (h.flowKind (fld c 0 13)).detourOk))

/-- A port is declared down (R636 to R638, R644). -/
def Hw.declareDown (h : Hw) (p cause : Nat) : Hw :=
  if h.linkState p = lsDown then h
  else
    let n := portNode p
    let hadSb := (h.phyOf p).txSb != 31 && h.phyState p == phActive
    let h := if hadSb then
        let u := h.sbNumber p 3 3#36
        u.2.modLink p (fun l => { l with sentUnit := some u.1 })
      else h
    let h := (h.setReg .lnkPortStatus p 0 (mkWord [(0, 3, lsDown), (4, 3, cause), (8, 1, b2n (h.detourVia p).isSome)])).linkEvt p 1
    let h := (h.phyStop p phDown).modLink p (fun l => { l with downDue := 0, back := none })
    match h.detourVia p with
    | none => h.raiseF0 0x4b n p
    | some q =>
      let bad := (h.carried p).filter (fun c => !c.2.2.2)
      let owners := (bad.map (fun c => (c.2.1, c.2.2.1))).eraseDups
      let h := owners.foldl (fun h o => h.raiseOwner o.1 o.2 0x0e n p 0x4b) h
      let l := h.linkOf p
      let lost := l.queue.filter (fun f => !(h.flowKind f.flow).detourOk)
      let h := lost.foldl (fun h f => h.bDrop n 9 f.flow) h
      let dtr (t : TxFrame) : Frame :=
        { t.frame with dtr := true, relay := h.axisSize p - 2, orig := t.frame.seq, flits := if t.detourOk then t.frame.flits else [] }
      let h := h.setLink p { l with queue := l.queue.filter (fun f => (h.flowKind f.flow).detourOk) }
      h.modLink q (fun m => { m with relay := m.relay ++ l.replay.map dtr })

/-- A cause to declare a port down that has come about: its PHY entered DOWN, the violation limit, PORT_DOWN from the peer (R636). -/
def Hw.downNow (h : Hw) (p : Nat) : Hw :=
  let due := (h.linkOf p).downDue
  if h.linkState p = lsDown ∨ h.linkState p = lsOff then h
  else if h.phyState p = phDown then h.declareDown p 1
  else if due ≠ 0 then h.declareDown p due
  else h

/-- The port has not returned to UP in time after a port reset: 1 ms after a warm, 4 ms after a cold training (R636). -/
def Hw.returnTimeout (h : Hw) (p : Nat) : Hw :=
  match (h.linkOf p).back with
  | none => h
  | some (t, cold) => { h with now := max h.now (t + (if cold then 9600000 else 2400000)) }.declareDown p 4

/-- The peer's IDENT units are checked (R635, R619, R633, R650); `rtt` is the measured round trip of the replayed test frame. -/
def Hw.identRx (h : Hw) (p rtt : Nat) : Hw :=
  let l := h.linkOf p
  match l.peer0, l.peer1 with
  | some c, some w =>
    if h.linkState p ≠ lsIdent then h
    else
      let n := h.neighbourAt p
      let ok := c.toNat == h.topo.clusterId % 2 ^ 32 && fld w 0 4 == n.1 && fld w 4 4 == n.2.1 && fld w 8 4 == n.2.2 && fld w 12 3 == otherPort p
      let h := h.setReg .lnkPeer p 0 (mkWord [(0, 12, fld w 0 12), (12, 3, fld w 12 3), (15, 1, b2n ok)])
      if !ok then (h.linkEvt p 2).declareDown p 3
      else
        let h := (h.setLinkState p lsUp).modLink p (fun l => { l with sent := (0, 0), seen := (0, 0), released := (0, 0), back := none })
        let h := (h.modReg .lnkRtt p 0 (setFld · 0 16 (Nat.min 65535 rtt))).lctl p 8
        if h.replayRtt p < rtt then (h.linkEvt p 3).logF2 else h
  | _, _ => h

/-- An ECHO is answered 64 cycles after it arrived; an ECHO_REPLY measures the one-way delay (R633). -/
def Hw.echoStep (h : Hw) (p : Nat) : Hw :=
  let l := h.linkOf p
  match l.echo, l.reply with
  | some (ts, t), _ => ({ h with now := max h.now (t + 64) }.setLink p { l with echo := none }).lctl p (9 + 4096 * ts)
  | none, some (ts, t) =>
    (h.setLink p { l with reply := none }).modReg .lnkRtt p 0 (setFld · 16 16 (((t + 2 ^ 25 - ts - 512) % 2 ^ 24) / 2))
  | none, none => h

/-- A waiting lane detects a preamble and searches its window (R563 to R565): its burst starts, or sync_fail is an error of the lane. -/
def Hw.preambleRx (h : Hw) (p k : Nat) (signs win : List Bool) : Hw :=
  if !h.laneWaits p k || !h.preambleSeen p signs then h
  else if h.syncFound p k win then
    (h.burstStart p k).modLink p (fun l => { l with desync := l.desync - (if l.desync.testBit k then 2 ^ k else 0) })
  else (h.laneEvt p k 0).laneError p k

/-- A lane's signal disappears without a marker (R566). -/
def Hw.laneLos (h : Hw) (p k : Nat) : Hw := if h.laneLive p k then ((h.burstOver p k).laneEvt p k 1).laneError p k else h

/-- The sideband receiver has lost its signal and sees no preamble: the port follows its peer into a warm training (R587). -/
def Hw.sbLost (h : Hw) (p : Nat) : Hw :=
  let q := h.phyOf p
  if h.phyState p = phActive ∧ q.rxSb < 18 ∧ h.laneWaits p q.rxSb ∧ bit (h.reg .phyLaneEvt (laneIx p q.rxSb)) 1 then
    (((h.setLinkState p lsTraining).linkEvt p 0).phyEvt p 4).phyTrain p false
  else h

/-- The PHY of a port entered DOWN. -/
def Hw.phyDownDue (h : Hw) (p : Nat) : Hw := if h.phyState p = phDown then h.modLink p (fun l => { l with downDue := 1 }) else h

/-- The receiving end isolates a lane whose count has reached 255 (R589, R592, R627). -/
def Hw.laneIsolate (h : Hw) (p k : Nat) : Hw :=
  if h.laneEc p k < 255 || !h.laneCounts p k || h.phyState p ≠ phActive then h
  else
    let h := (h.isolateRx p k).modReg .lnkLaneEc p k (setBit · 10 true)
    (h.lctl p (1 + 256 * k)).phyDownDue p

/-- Take the lane command at the front if it satisfies c. -/
def Hw.takeCmd (h : Hw) (p : Nat) (c : BitVec 32 → Bool) : Option (Nat × Hw) :=
  match (h.linkOf p).cmds with
  | w :: rest => if c w then some (fld w 8 5, h.modLink p (fun l => { l with cmds := rest })) else none
  | [] => none

/-- Lane command ISOLATE at the transmitter (R590 to R592, R617, R631). -/
def Hw.isolateCmd (h : Hw) (p : Nat) : Hw :=
  match h.takeCmd p (fun w => laneCmdOk w && fld w 0 4 == 1) with
  | none => h
  | some (k, h) =>
    let sb := (h.phyOf p).txSb
    let h := h.isolateTx p k
    let h := if sb != 31 && (h.phyOf p).txSb == 31 then h.linkEvt p 5 else h
    (h.replayDue p (fun t => t.lane == k)).phyDownDue p

/-- Lane command REWAKE at the transmitter (R594): it restarts the lane's burst; a sleeping direction wakes. -/
def Hw.rewakeCmd (h : Hw) (p : Nat) : Hw :=
  match h.takeCmd p (fun w => laneCmdOk w && fld w 0 4 == 2) with
  | none => h
  | some (k, h) =>
    if (h.txIsol p).testBit k || (h.fusedLanes p).testBit k then h
    else if (h.phyOf p).asleep && (h.txData p).testBit k then (h.modPhy p (fun q => { q with wakeReq := true })).phyWake p
    else h.laneTx p k true

/-- A lane command with an unknown op or lane (R588): bad_cmd, and the violation BAD_LCTL. -/
def Hw.badCmd (h : Hw) (p : Nat) : Hw :=
  match h.takeCmd p (fun w => !laneCmdOk w) with
  | none => h
  | some (_, h) => (h.phyEvt p 2).peerViol p 8

/-- The link layer reports a transmit direction idle (R652). -/
def Hw.txIdle (h : Hw) (p : Nat) : Bool :=
  let l := h.linkOf p
  l.queue.isEmpty && l.relay.isEmpty && l.replay.isEmpty && !((h.phyOf p).txSb == 31 && h.sbDue p)

/-- A NAK in a sideband or lane unit makes the transmitter replay a frame (R616): the frames named as due go out again. -/
def Hw.nakIn (h : Hw) (p seq : Nat) : Hw :=
  if (h.linkOf p).ahead seq true then h.peerViol p 5 else h.replayDue p (fun t => t.frame.seq == seq)

/-- Flits enter a port's transmit queue; a sleeping direction is asked to wake (R653). -/
def Hw.linkEnqueue (h : Hw) (p : Nat) (f : Flit) : Hw :=
  let h := h.modLink p (fun l => { l with queue := l.queue ++ [f] })
  if (h.phyOf p).asleep then h.modPhy p (fun q => { q with wakeReq := true }) else h

/-- Write rules of the link registers (R655). -/
def Hw.linkRegWrite (h : Hw) (p : Path) (addr : Nat) (r : Reg) (w : Word) : Hw :=
  let bad := match r.id with
    | .lnkPortCfg => fld w 16 4 == 0 || 4 < fld w 16 4
    | .lnkRetryCfg => fld w 24 8 == 0
    | _ => false
  if bad then h.misuse p true 9 addr else h.setReg r.id r.i r.j w

/-- The status words of the link layer (Tables 14.9 and 14.10). -/
def Hw.linkStatus (h : Hw) (p : Nat) : Word :=
  let q := h.phyOf p
  let sb := if h.linkState p = lsDown && (h.detourVia p).isSome then 3 else if q.txSb = 16 then 0 else if q.txSb = 17 then 1 else if h.phyState p = phActive then 2 else 0
  let w := h.reg .lnkPortStatus p
  setBit (setBit (setFld w 9 2 sb) 11 (h.txIdle p)) 12 q.asleep
def Hw.linkSeqWord (h : Hw) (p : Nat) : Word := let l := h.linkOf p; mkWord [(0, 16, l.next), (16, 16, l.old)]
def Hw.linkRxWord (h : Hw) (p : Nat) : Word := let l := h.linkOf p; mkWord [(0, 16, l.expected), (16, 16, l.deliver)]
def Hw.linkCreditWord (h : Hw) (p : Nat) : Word :=
  let l := h.linkOf p
  mkWord [(0, 8, l.credits 0), (8, 8, l.credits 1), (16, 9, l.stored.length + l.held.length)]

/-- PHY_PORT_STATUS (Table 13.10). -/
def Hw.phyStatusWord (h : Hw) (i : Nat) : Word :=
  let p := i / 256
  let q := h.phyOf p
  mkWord [(0, 4, h.phyState p), (8, 5, popCount 18 (h.txData p)), (16, 5, popCount 18 (h.rxData p)), (24, 1, b2n (q.txSb == 17)),
    (25, 1, b2n (q.rxSb == 17))]

end Sys2Proof.Machine
end

