-- ==== Sys2Proof/Machine/Observe.lean ====
section
/-! DEFINITION. Observation (chapter 19): what each engine waits for, the wait registers, the engine counters, the hang watchdog,
captures, the wait-for graph and the counter dump. -/

namespace Sys2Proof.Machine

/-- Stall reasons (Table 19.2). -/
def rsCredit : Nat := 1
def rsToken : Nat := 2
def rsArb : Nat := 3
def rsPeer : Nat := 4
def rsTile : Nat := 5
def rsOrder : Nat := 6
def rsMemory : Nat := 8
def rsHost : Nat := 9
def rsDequeue : Nat := 0xa
def rsLink : Nat := 0xb
def rsGate : Nat := 0xc
def rsHeld : Nat := 0xd
def rsOther : Nat := 0xf

/-- What an engine waits for (Tables 19.8 and 19.9): reason, target node and engine, object and its kind, owner. -/
structure Wait where
  reason : Nat
  node : Nat
  eng : Nat
  kind : Nat
  obj : Nat
  tenant : Nat
  gen : Nat
  deriving DecidableEq, Repr

/-- Words 0 and 1 of a wait record (Table 19.9). -/
def Wait.word0 (w : Wait) : Word := mkWord [(0, 4, w.reason), (4, 4, w.eng), (8, 7, w.node), (15, 1, 1)]
def Wait.word1 (w : Wait) : Word := mkWord [(0, 13, w.obj), (13, 3, w.kind), (16, 6, w.tenant), (22, 10, w.gen)]

/-- A wait without a target (Table 19.8). -/
def Wait.plain (reason kind obj tenant gen : Nat) : Wait := ⟨reason, 0x7f, 0xf, kind, obj, tenant, gen⟩

/-- Engine e exists at node n (Table 19.1, R814). -/
def engineExists (n e : Nat) : Bool :=
  let c := nodeClass n
  match e with
  | 0 => true
  | 1 | 2 | 3 | 4 => (neighbour n e).isSome
  | 5 => true
  | 6 => c == 0 || c == 1 || c == 5
  | 7 => c == 0
  | 8 | 9 => c == 2
  | 10 => c == 4
  | 11 => true
  | _ => false

/-- The engines of a node. -/
def enginesOf (n : Nat) : List Nat := (List.range 12).filter (fun e => engineExists n e)

/-- Flits at the heads of a node's input queues that are routed to an output, with their VC. -/
def Hw.headsFor (h : Hw) (n out : Nat) : List (Nat × Flit) :=
  allQueues.filterMap (fun q => match (h.bq n q.1 q.2).head? with
    | some f => if (h.headLeft n f).testBit out then some (q.2, f) else none
    | none => none)

/-- Waits of a router output (R813, R815). A flit of a fold stream at a fold input waits in the fold unit, not at the local output. -/
def Hw.outputWaits (h : Hw) (n out : Nat) : List Wait :=
  (h.headsFor n out).filterMap (fun (x : Nat × Flit) =>
    let f := x.2
    if out = 0 then
      if (h.flowKind f.flow).kind = 1 then none
      else if nodeClass n = 0 ∧ (h.flowKind f.flow).kind ≠ 2 then some ⟨rsTile, n, 0xe, 1, f.flow, f.tenant, f.gen⟩
      else some (Wait.plain rsOther 1 f.flow f.tenant f.gen)
    else match neighbour n out with
      | none => none
      | some m =>
        if 8 ≤ h.bUsed (qKey m (facing out) x.1) then some ⟨rsCredit, m, 0xf, 1, f.flow, f.tenant, f.gen⟩
        else some (Wait.plain rsArb 1 f.flow f.tenant f.gen))

/-- Where the producer of a context's input is: a child context, the peer module's stream, the tail of the node's member. -/
def ctxProducer (n port : Nat) : Nat × Nat :=
  match port with
  | 0 => if nodeClass n = 2 then (n, 0xd) else if nodeClass n = 0 then (n, 7) else (n, 0xf)
  | p => ((neighbour n p).getD n, 5)

/-- The contexts that a node holds valid. -/
def Hw.validCtxs (h : Hw) (n : Nat) : List Nat :=
  (h.regs.filter (fun e => decide (e.1.id = RegId.fldCfg) && e.1.i == n && bit e.2 15)).map (fun e => e.1.j)

/-- A context's tail has started at its node (R813). -/
def Hw.tailStarted (h : Hw) (n k : Nat) : Bool :=
  nodeClass n == 0 && (h.port (nodeInst n)).ccx.any (fun c =>
    c.phase == 2 && c.reduce && !c.combined && h.localCtx (nodeInst n) c.slot == some k)

/-- An input of a context has its block of the current operation. -/
def Hw.inputHas (h : Hw) (n k port : Nat) : Bool :=
  if port = 0 ∧ nodeClass n ≠ 2 then (h.tailBlock n k).isSome else (h.foldBlock n k port).isSome

/-- Waits of the fold unit (R813, Table 19.8). -/
def Hw.foldWaits (h : Hw) (n : Nat) : List Wait :=
  (h.validCtxs n).flatMap (fun k =>
    let cfg := h.reg .fldCfg n k
    let t := fld cfg 16 6
    let g := fld cfg 22 10
    let ports := (List.range 5).filter (fun p => (h.ctxMask n k).testBit p)
    let missing := ports.filter (fun p => !h.inputHas n k p)
    let begun := missing.length < ports.length || h.tailStarted n k
    if h.ctxStopped n k || !begun then []
    else if !missing.isEmpty then
      missing.map (fun p => let x := ctxProducer n p; ⟨rsPeer, x.1, x.2, 4, k, t, g⟩)
    else if h.fenced t g then [Wait.plain rsHeld 1 (h.ctxOut n k) t g]
    else if !h.ctxFree n k then [Wait.plain rsToken 1 (h.ctxOut n k) t g]
    else [])

/-- The tag of an operation of a tile. -/
def TilePort.tagOf (p : TilePort) (id : Nat) : Nat :=
  match p.sends.find? (fun s => s.id == id) with
  | some s => s.tag
  | none => match p.recvs.find? (fun s => s.id == id) with
    | some s => s.tag
    | none => match p.moves.find? (fun s => s.id == id) with
      | some s => s.tag
      | none => ((p.ccx.find? (fun c => c.id == id)).map (fun c => c.tag)).getD 0

/-- The reason of an access over the memory path. -/
def Hw.memReason (h : Hw) (t a : Nat) : Nat :=
  match h.memRef t a with
  | .window _ _ => rsHost
  | _ => rsMemory

/-- Waits of a mover (R813). At a T node: accesses on the memory path, flits that wait for a token, reads that a gate or the fence
stops. At an M or the H node: accesses to be performed there. -/
def Hw.moverWaits (h : Hw) (n : Nat) : List Wait :=
  if nodeClass n = 0 then
    let i := nodeInst n
    let p := h.port i
    let t := h.tileTenant i
    let g := h.tileGen i
    let stop : Option Nat := if h.gated n then some rsGate else if h.fenced t g then some rsHeld else none
    (h.mem.reqs.filter (fun r => r.tile == i)).map (fun r => Wait.plain (h.memReason r.tenant r.addr) 6 (p.tagOf r.op) r.tenant r.gen) ++
    p.sends.filterMap (fun s =>
      if s.waiting then none
      else if h.opWaits s.id then some (Wait.plain rsToken 1 s.flow t g)
      else if s.sent < s.units then stop.map (fun r => Wait.plain r 6 s.tag t g) else none) ++
    p.moves.filterMap (fun m => if !m.waiting ∧ m.done < m.bytes then stop.map (fun r => Wait.plain r 6 m.tag t g) else none) ++
    p.allocs.map (fun a => Wait.plain rsMemory 6 a.1 t g)
  else
    (h.mem.reqs.filter (fun r => r.ready && holderNode (h.memRef r.tenant r.addr) == some n)).map (fun r =>
      Wait.plain (h.memReason r.tenant r.addr) 6 ((h.port r.tile).tagOf r.op) r.tenant r.gen)

/-- Waits of the tails of a tile port (R813, Table 19.8). -/
def Hw.tailWait (h : Hw) (n i t g : Nat) (c : CcxOp) : Option Wait :=
  let p := h.port i
  if c.phase = 0 then
    if !c.released then some ⟨rsTile, n, 0xe, 6, c.tag, t, g⟩
    else match (p.ccx.takeWhile (fun x => x.id != c.id)).find? (fun x => x.slot == c.slot) with
      | some x => some ⟨rsOrder, n, 0xf, 6, x.tag, t, g⟩
      | none => if h.fenced t g || h.portState i == psDrained then some (Wait.plain rsHeld 6 c.tag t g) else none
  else if c.phase = 1 then (h.countSyncOf i c).map (fun s => ⟨rsPeer, n, 11, 3, s, t, g⟩)
  else if c.phase = 2 then
    if (h.tailResult i c).isSome then none
    else if c.reduce then (h.localCtx i c.slot).map (fun k => ⟨rsPeer, n, 5, 4, k, t, g⟩)
    else if h.receiver i c then
      (h.slotBcast i c.slot).map (fun f =>
        match h.flowSource f with
        | some (m, _) => if nodeClass m = 2 then ⟨rsPeer, m, 0xd, 1, f, t, g⟩ else ⟨rsPeer, m, 7, 1, f, t, g⟩
        | none => ⟨rsPeer, 0x7f, 0xf, 1, f, t, g⟩)
    else none
  else none

/-- Waits of a tile port: completions without credits, held tails, rounds, blocking sends, credits that a gate withholds. -/
def Hw.portWaits (h : Hw) (n : Nat) : List Wait :=
  let i := nodeInst n
  let p := h.port i
  let t := h.tileTenant i
  let g := h.tileGen i
  (match p.comps with
    | c :: _ => if p.co < c.words.length then [⟨rsTile, n, 0xe, 6, c.frees.getD 0, t, g⟩] else []
    | [] => []) ++
  p.ccx.filterMap (fun c => h.tailWait n i t g c) ++
  p.syncs.map (fun s => if h.fenced t g && !s.sent then Wait.plain rsHeld 3 s.sync t g else ⟨rsPeer, n, 11, 3, s.sync, t, g⟩) ++
  h.cnet.stalled.flatMap (fun e =>
    (e.2.filter (fun s => s.cmd.any (fun x => x.1 == i))).map (fun _ =>
      if h.chFenced e.1 then Wait.plain rsHeld 2 e.1 (h.chTenant e.1) (h.chGen e.1)
      else
        let d := (h.chDst e.1).1
        ⟨rsDequeue, d, if nodeClass d = 0 then 7 else 0xf, 2, e.1, h.chTenant e.1, h.chGen e.1⟩)) ++
  (if p.held = (0, 0, 0) then [] else [Wait.plain rsGate 0 0 t g])

/-- Waits of a torus port's transmitter: a replay that is due, detour frames, queued flits (R813). -/
def Hw.txWaits (h : Hw) (n : Nat) : List Wait :=
  let p := nodeInst n
  let l := h.linkOf p
  if h.linkState p ≠ lsUp then
    l.queue.head?.toList.map (fun f => Wait.plain rsLink 1 f.flow f.tenant f.gen)
  else
    (l.replay.filter (fun x => x.due)).map (fun x => Wait.plain rsLink 1 x.frame.flow x.frame.tenant x.frame.gen) ++
    (match l.queue with
      | [] => []
      | f :: _ => if (h.newFrame p).isSome then [Wait.plain rsLink 1 f.flow f.tenant f.gen]
          else [⟨rsCredit, n, 0xd, 1, f.flow, f.tenant, f.gen⟩])

/-- Waits of a torus port's receiver: stored frames behind a missing one (R612, R813). -/
def Hw.rxWaits (h : Hw) (n : Nat) : List Wait :=
  let p := nodeInst n
  let l := h.linkOf p
  if l.stored.any (fun f => f.seq == l.deliver) then []
  else l.stored.map (fun f => ⟨rsPeer, n, 0xd, 1, f.flow, f.tenant, f.gen⟩)

/-- The tile nodes that hold a member of a sequenced group. -/
def Hw.seqMembers (h : Hw) (q j : Nat) : List Nat :=
  let c := h.reg .cqSeqCfg q j
  (h.regs.filter (fun e => decide (e.1.id = RegId.cqGroupCfg) && bit e.2 15 && bit e.2 13 && fld e.2 0 8 == fld c 0 8 &&
    fld e.2 16 16 == fld c 16 16)).map (fun e => e.1.i)

/-- Waits of a sequencer: an operation in progress and no report (R813). -/
def Hw.seqWaits (h : Hw) (q : Nat) : List Wait :=
  if h.coll.reports.any (fun r => r.q == q) then []
  else
    (List.range 64).flatMap (fun j =>
      let c := h.reg .cqSeqCfg q j
      let s := h.seqState q j
      let t := fld c 16 6
      let g := fld c 22 10
      if !bit c 15 || !s.tiles.any (fun x => decide (s.ops < x.2.1)) then []
      else
        let done (m : Nat) : Bool := s.tiles.any (fun x => x.1 == m && decide (s.ops < x.2.2))
        let rest := (h.seqMembers q j).filter (fun m => !done m)
        if rest.isEmpty then
          ((h.groupEntries q j).filter (fun e => h.ringArmed (portNode e.1) e.2)).map (fun e =>
            ⟨rsPeer, portNode e.1, 0xf, 7, e.2, t, g⟩)
        else rest.map (fun m => ⟨rsPeer, m, 7, 5, j, t, g⟩))

/-- Waits of an S-net router: a packet that waits for another input of its round, at the anchor also for the torus stage (R813). -/
def Hw.snetWaits (h : Hw) (n : Nat) : List Wait :=
  let held := (h.snet.up.filter (fun e => e.1 / 512 / 5 == n)).map (fun e => e.1 % 512)
  held.eraseDups.flatMap (fun s =>
    let c := h.syncCfg s
    let t := fld c 16 6
    let g := fld c 22 10
    (((List.range 5).filter (fun p => (h.joinByte n s).testBit p && (h.upAt n p s).isNone)).map (fun p =>
      if p = 0 then (⟨rsPeer, n, 7, 3, s, t, g⟩ : Wait) else ⟨rsPeer, (neighbour n p).getD n, 11, 3, s, t, g⟩))) ++
  (if n = anchorNode then
    h.snet.torus.flatMap (fun r =>
      let s := r.pkt.sync
      ([2 * r.axis, 2 * r.axis + 1].filter (fun q => (h.ringRole q s).testBit 1 && (h.partialAt q s).isNone)).map (fun q =>
        (⟨rsPeer, portNode q, 0xd, 3, s, r.pkt.tenant, r.pkt.gen⟩ : Wait)))
  else [])

/-- Everything that engine e of node n waits for now. -/
def Hw.waits (h : Hw) (n e : Nat) : List Wait :=
  match e with
  | 0 | 1 | 2 | 3 | 4 => h.outputWaits n e
  | 5 => h.foldWaits n
  | 6 => h.moverWaits n
  | 7 => h.portWaits n
  | 8 => h.txWaits n
  | 9 => h.rxWaits n
  | 10 => h.seqWaits n
  | 11 => h.snetWaits n
  | _ => []

/-- The record of engine e of node n: word w. -/
def Hw.waitWord (h : Hw) (n e w : Nat) : Word := h.reg .pmcWait n (4 * e + w)

/-- The record of a stopped context is kept (R833). -/
def Hw.waitKept (h : Hw) (n e : Nat) : Bool :=
  e == 5 && bit (h.waitWord n e 0) 15 && fld (h.waitWord n e 1) 13 3 == 4 && h.ctxStopped n (fld (h.waitWord n e 1) 0 13 % 64) &&
  bit (h.reg .fldCfg n (fld (h.waitWord n e 1) 0 13 % 64)) 15

/-- The unit that has waited longest: the one the record names while it still waits, else any of those that wait (a free value chooses).
DESIGN CHOICE (log entry 11). -/
def Hw.oldestWait (h : Hw) (n e : Nat) : Option Wait :=
  let ws := h.waits n e
  match ws.find? (fun w => w.word0 == h.waitWord n e 0 && w.word1 == h.waitWord n e 1) with
  | some w => some w
  | none =>
    match ws.find? (fun w => bit (h.waitWord n e 0) 15 && w.word1 == h.waitWord n e 1) with
    | some w => some w
    | none => ws[(Config.freeWord (h.free + n * 12 + e)).toNat % ws.length]?

/-- The wait record of an engine as it stands in this cycle (R831): four words. -/
def Hw.liveWait (h : Hw) (n e : Nat) : List Word :=
  let old := (List.range 4).map (fun w => h.waitWord n e w)
  if h.waitKept n e then old
  else match (if engineExists n e then h.oldestWait n e else none) with
    | none => [0#32, 0#32, 0#32, 0#32]
    | some w =>
      if w.word0 == old.getD 0 0#32 && w.word1 == old.getD 1 0#32 then old
      else [w.word0, w.word1, 0#32, BitVec.ofNat 32 h.barTime]

/-- Every engine's wait record is brought up to date. -/
def Hw.refreshWaits (h : Hw) : Hw :=
  let h' := (List.range 96).foldl (fun (h' : Hw) n =>
    (enginesOf n).foldl (fun (h' : Hw) e =>
      let ws := h.liveWait n e
      (List.range 4).foldl (fun (h' : Hw) w => h'.setReg .pmcWait n (4 * e + w) (ws.getD w 0#32)) h') h') h
  { h' with free := h.free + 1152 }

/-- A bar has been completed: the ages of the valid records rise (R831, Table 19.9). -/
def Hw.ageWaits (h : Hw) : Hw :=
  (h.regs.filter (fun e => decide (e.1.id = RegId.pmcWait) && e.1.j % 4 == 0 && bit e.2 15)).foldl (fun h e =>
    h.modReg .pmcWait e.1.i (e.1.j + 2) (bumpFld · 0 32 1)) h

/-- What enables the counting of an engine (Table 19.5). -/
def Hw.engineCounts (h : Hw) (n e : Nat) : Bool :=
  !h.frozen &&
  (if nodeClass n = 0 ∧ (e = 6 ∨ e = 7) then
    match h.tileOwner (nodeInst n) with
    | some t => if h.active t then h.countsTenant t else bit (h.reg .pmcCtl) 0
    | none => bit (h.reg .pmcCtl) 0
  else bit (h.reg .pmcCtl) 0)

/-- Add the stalled cycles of a mover to the bin of the command it works on (R824). -/
def Hw.binStall (h : Hw) (n k : Nat) : Hw :=
  let i := nodeInst n
  let w1 := h.waitWord n 6 1
  if fld w1 13 3 ≠ 6 then h
  else match (h.port i).cmd (fld w1 0 13) with
    | some c => if c.mode = 1 ∧ h.counts (h.tileTenant i) (h.tileGen i) then h.add64 .pmcBinStallLo .pmcBinStallHi n c.bin k else h
    | none => h

/-- An engine counts k cycles in which nothing but its acts since the last advance of time has happened (R814, R816). With acts among
several cycles, how many of the other cycles were stalled is free. DESIGN CHOICE (log entry 11). -/
def Hw.engineCount (h : Hw) (k n e : Nat) : Hw :=
  let acts := nget h.busy (n * 16 + e) 0
  let busy := Nat.min k acts
  let rest := k - busy
  let valid := bit (h.waitWord n e 0) 15
  let x : Nat × Hw :=
    if rest = 0 then (0, h)
    else if acts = 0 ∨ k = 1 then (if valid then rest else 0, h)
    else let f := h.fresh; (f.1.toNat % (rest + 1), f.2)
  let h := x.2
  let stall := x.1
  let h := if busy = 0 then h else h.add64 .pmcEngineBusyLo .pmcEngineBusyHi n e busy
  let h := if rest - stall = 0 then h else h.add64 .pmcEngineIdleLo .pmcEngineIdleHi n e (rest - stall)
  if stall = 0 then h
  else
    let r := fld (h.waitWord n e 0) 0 4
    let h := (h.add64 .pmcEngineStallLo .pmcEngineStallHi n e stall).modReg .pmcStallReason n e (setBit · (16 + r) true)
    let h := if bit (h.reg .pmcReasonSel) r then h.add64 .pmcEngineSelLo .pmcEngineSelHi n e stall else h
    if e = 6 ∧ nodeClass n = 0 then h.binStall n stall else h

/-- k FCLK cycles pass for the wait records and the engine counters. -/
def Hw.observeTime (h : Hw) (k : Nat) : Hw :=
  let h := h.refreshWaits
  let h := if h.frozen || fld (h.reg .pmcCtl) 0 2 = 0 then h
    else (List.range 96).foldl (fun (h : Hw) n => (enginesOf n).foldl (fun (h : Hw) e =>
      if h.engineCounts n e then h.engineCount k n e else h) h) h
  { h with busy := [] }

/-- A capture (R837 to R840): every wait record is copied, and the anchor notes tenant, cause and time; while one is held, it is counted
as missed (R838). -/
def Hw.capture (h : Hw) (t cause : Nat) : Hw :=
  let st := h.reg .pmcHangStatus
  if bit st 0 then h.setReg .pmcHangStatus 0 0 (bumpFld st 24 8 1)
  else
    let h := h.refreshWaits
    let h := (List.range 96).foldl (fun (h : Hw) n => (List.range 48).foldl (fun (h : Hw) j =>
      h.setReg .pmcWcap n j (h.reg .pmcWait n j)) h) h
    let h := h.setReg .pmcHangStatus 0 0 (mkWord [(0, 1, 1), (8, 6, t), (16, 8, cause), (24, 8, fld st 24 8)])
    let h := h.setReg .pmcHangTime 0 0 (mkWord [(12, 20, h.stamp.1), (0, 12, h.stamp.2)])
    let h := { h with obs := { h.obs with due := true, bar := h.stamp.1 % 2 ^ 32, gen := if cause = 0 then 0 else h.gen t } }
    if bit (h.reg .pmcCtl) 2 then h.gongTimed 1 3 false true else h

/-- The limit of a tenant (R834). -/
def Hw.hangLimit (h : Hw) (t : Nat) : Nat :=
  let l := fld (h.reg .pmcTntHang t) 0 20
  if l = 0 then fld (h.reg .pmcHangCfg) 0 20 else l

/-- The hang watchdog trips on the record of engine e of node n (R834). -/
def Hw.hangTrip (h : Hw) (n e : Nat) : Hw :=
  let w0 := h.waitWord n e 0
  let w1 := h.waitWord n e 1
  let t := fld w1 16 6
  let g := fld w1 22 10
  if bit (h.reg .pmcHangCfg) 31 && bit w0 15 && !([rsTile, rsHeld, rsGate].contains (fld w0 0 4)) && g != 0 &&
      !bit (h.reg .pmcTntHang t) 31 && (h.tntState t == tsRunning || h.tntState t == tsHalted) &&
      decide (h.hangLimit t ≤ (h.waitWord n e 2).toNat) then
    (h.modReg .pmcHangEvt 0 0 (fun w => bumpFld (if fld w 24 8 = 0 then setFld w 8 6 t else w) 24 8 1)).raiseF1 t g 0x13 n 0
  else h

/-- A die wait reaches the limit (R835). -/
def Hw.dieWaitLimit (h : Hw) (n e : Nat) : Hw :=
  if bit (h.waitWord n e 0) 15 && fld (h.waitWord n e 1) 22 10 == 0 && (h.waitWord n e 2).toNat == fld (h.reg .pmcHangCfg) 0 20 then
    (((h.modReg .pmcHangEvt 0 0 (bumpFld · 16 8 1)).logF2).capture h.sysTenant 0)
  else h

/-- PMC_HANG_REL.release (R838). -/
def Hw.hangRelease (h : Hw) : Hw := h.modReg .pmcHangStatus 0 0 (setBit · 0 false)

/-- A vertex of the wait-for graph: node × 16 + engine, with the words of its capture, or those that a waiter gives it. -/
structure Vertex where
  key : Nat
  pseudo : Bool
  word0 : Word
  word1 : Word
  age : Word
  deriving DecidableEq, Repr

/-- The captured record of an engine, if valid. -/
def Hw.captured (h : Hw) (n e : Nat) : Option Vertex :=
  let w (k : Nat) : Word := h.reg .pmcWcap n (4 * e + k)
  if bit (w 0) 15 then some ⟨n * 16 + e, false, w 0, w 1, w 2⟩ else none

/-- Every valid capture, in ascending order of node and engine. -/
def Hw.captures (h : Hw) : List Vertex :=
  (List.range 96).flatMap (fun n => (List.range 12).filterMap (fun e => h.captured n e))

/-- A vertex that is no capture: it carries its waiter's owner. -/
def Vertex.bare (w : Vertex) (key : Nat) (pseudo : Bool) : Vertex := ⟨key, pseudo, 0#32, w.word1 &&& 0xFFFF0000#32, 0#32⟩

/-- What a captured wait points to (R841). -/
def edgesOf (caps : List Vertex) (v : Vertex) : List Vertex :=
  if !bit v.word0 15 then []
  else
    let m := fld v.word0 8 7
    let f := fld v.word0 4 4
    if f = 0xe ∨ f = 0xd then [v.bare (m * 16 + f) true]
    else if m = 0x7f then []
    else match caps.find? (fun c => c.key == m * 16 + f) with
      | some c => [c]
      | none =>
        match caps.filter (fun c => c.key / 16 == m && c.key != v.key && fld c.word1 16 16 == fld v.word1 16 16) with
        | [] => [v.bare (m * 16 + f) false]
        | cs => cs

/-- Add vertices that are not there yet. -/
def addVertices (vs new : List Vertex) : List Vertex :=
  new.foldl (fun a v => if a.any (fun x => x.key == v.key) then a else a ++ [v]) vs

/-- The vertices reached from some in k steps. -/
def reachVertices (caps : List Vertex) : Nat → List Vertex → List Vertex
  | 0, vs => vs
  | k + 1, vs => reachVertices caps k (addVertices vs (vs.flatMap (edgesOf caps)))

/-- Put a vertex in its place in ascending order. -/
def insertVertex (v : Vertex) : List Vertex → List Vertex
  | [] => [v]
  | x :: rest => if v.key ≤ x.key then v :: x :: rest else x :: insertVertex v rest

/-- Put a number in its place in ascending order. -/
def insertNat (v : Nat) : List Nat → List Nat
  | [] => [v]
  | x :: rest => if v ≤ x then v :: x :: rest else x :: insertNat v rest

/-- The index of a vertex. -/
def vertexIx (vs : List Vertex) (key : Nat) : Nat := (vs.takeWhile (fun v => v.key != key)).length

/-- The places reached from some over edges between indices, in k steps. -/
def reachIx (es : List (Nat × Nat)) : Nat → List Nat → List Nat
  | 0, xs => xs
  | k + 1, xs => reachIx es k (xs ++ ((es.filter (fun e => xs.contains e.1 && !xs.contains e.2)).map (fun e => e.2))).eraseDups

/-- The wait-for report of the capture (R841, R842, Tables 19.10 to 19.12). -/
def Hw.hangReportBytes (h : Hw) : List Byte :=
  let st := h.reg .pmcHangStatus
  let t := fld st 8 6
  let caps := h.captures
  let mine := caps.filter (fun c => fld c.word1 16 6 == t)
  let vs := (reachVertices caps (caps.length + 1) mine).foldr insertVertex []
  let es : List (Nat × Nat) := (vs.zipIdx).flatMap (fun (x : Vertex × Nat) =>
    (((edgesOf caps x.1).map (fun y => vertexIx vs y.key)).foldr insertNat []).map (fun d => (x.2, d)))
  let cyclic (i : Nat) : Bool := (reachIx es vs.length ((es.filter (fun e => e.1 == i)).map (fun e => e.2))).contains i
  let root (i : Nat) : Bool := !es.any (fun e => e.1 == i)
  let anyCycle := (List.range vs.length).any cyclic
  let roots := ((List.range vs.length).filter root).length
  let vb : List Byte := vs.zipIdx.flatMap (fun (x : Vertex × Nat) =>
    natLe 1 (x.1.key / 16) ++ natLe 1 (x.1.key % 16) ++ natLe 1 (fld x.1.word0 0 4) ++
    natLe 1 (b2n (root x.2) + 2 * b2n (cyclic x.2) + 4 * b2n x.1.pseudo + 8 * b2n (fld x.1.word1 16 6 != t)) ++
    natLe 2 (fld x.1.word1 0 16) ++ natLe 2 (fld x.1.word1 16 6) ++ natLe 4 (fld x.1.word1 22 10) ++ natLe 4 x.1.age.toNat)
  let eb : List Byte := es.flatMap (fun e =>
    natLe 2 e.1 ++ natLe 2 e.2 ++ natLe 4 (((vs[e.1]?).map (fun v => fld v.word0 0 4)).getD 0))
  let m := h.module
  natLe 4 0x47575642 ++ natLe 2 1 ++ natLe 2 vs.length ++ natLe 2 es.length ++ natLe 1 (b2n anyCycle) ++ natLe 1 roots ++
  natLe 1 (m % 16) ++ natLe 1 (m / 16 % 16) ++ natLe 1 (m / 256 % 16) ++ natLe 1 t ++ natLe 2 h.obs.gen ++ natLe 1 (fld st 16 8) ++
  natLe 1 0 ++ natLe 4 h.obs.bar ++ natLe 2 (fld (h.reg .pmcHangTime) 0 12) ++ natLe 2 0 ++
  natLe 4 (32 + 16 * vs.length + 8 * es.length) ++ vb ++ eb

/-- A report cut to a capacity (R845): the whole vertices, then the whole edges that fit, with truncated set. -/
def cutReport (b : List Byte) (cap : Nat) : List Byte :=
  if b.length ≤ cap then b
  else if cap < 32 then []
  else
    let nv := u16 b 6
    let v := Nat.min nv ((cap - 32) / 16)
    let e := if v < nv then 0 else (cap - 32 - 16 * nv) / 8
    let len := 32 + 16 * v + 8 * e
    b.take 6 ++ natLe 2 v ++ natLe 2 e ++ natLe 1 (u8 b 10 ||| 2) ++ (b.drop 11).take 17 ++ natLe 4 len ++ (b.drop 32).take (len - 32)

/-- The reference firmware assembles the report of the capture, keeps the last four, sends vector 4 of the tenant's VF and clears held
(R843). -/
def Hw.hangAssemble (h : Hw) : Hw :=
  if !h.obs.due || !bit (h.reg .pmcHangStatus) 0 then h
  else
    let t := fld (h.reg .pmcHangStatus) 8 6
    let rs := h.obs.reports ++ [(t, h.hangReportBytes)]
    let h := { h with obs := { h.obs with due := false, reports := rs.drop (rs.length - 4) } }
    (h.vector (t + 1) 4).hangRelease

/-- A tag bin's cmds word is written with valid = 0 (R825). -/
def Hw.binFree (h : Hw) (n b : Nat) : Hw :=
  [RegId.pmcBinKey, .pmcBinCmds, .pmcBinBusyLo, .pmcBinBusyHi, .pmcBinStallLo, .pmcBinStallHi, .pmcBinBytesLo, .pmcBinBytesHi].foldl
    (fun (h : Hw) id => h.setReg id n b 0#32) h

/-- The counters of the tenant's tile nodes (R821): its mover's and tile port's engine blocks, tag bins, records and tile counters. -/
def tileCounter (r : Reg) : Bool :=
  ([RegId.pmcRecHead, .pmcTcStatus, .pmcTcLo, .pmcTcHi, .pmcBinKey, .pmcBinCmds, .pmcBinBusyLo, .pmcBinBusyHi, .pmcBinStallLo,
    .pmcBinStallHi, .pmcBinBytesLo, .pmcBinBytesHi, .pmcRecId, .pmcRecLength].contains r.id) ||
  ([RegId.pmcRecSrcLo, .pmcRecSrcHi, .pmcRecDstLo, .pmcRecDstHi, .pmcRecStart, .pmcRecEnd].contains r.id) ||
  ((r.j == 6 || r.j == 7) && [RegId.pmcEngineBusyLo, .pmcEngineBusyHi, .pmcEngineStallLo, .pmcEngineStallHi, .pmcEngineIdleLo,
    .pmcEngineIdleHi, .pmcEngineSelLo, .pmcEngineSelHi, .pmcStallReason].contains r.id)

/-- Counters of a partition's tile nodes are zero (R821). -/
def Hw.clearCounters (h : Hw) (tiles : List Nat) : Hw :=
  h.dropRegs (fun r => tiles.any (fun i => tileNode i == r.i) && tileCounter r)

/-- Low words of the 64-bit counters (R812), of the banks and of the channels. -/
def counterLows : List RegId :=
  [.pmcEngineBusyLo, .pmcEngineStallLo, .pmcEngineIdleLo, .pmcEngineSelLo, .pmcBinBusyLo, .pmcBinStallLo, .pmcBinBytesLo]

/-- The counters of one node in ascending address, with their offsets in the bank. -/
def nodeCounters (n : Nat) : List Reg :=
  let block (e : Nat) : List Reg := if nodeClass n = 0 ∨ engineExists n e ∨ e < 5 then
      [⟨.pmcEngineBusyLo, n, e⟩, ⟨.pmcEngineStallLo, n, e⟩, ⟨.pmcEngineIdleLo, n, e⟩, ⟨.pmcEngineSelLo, n, e⟩] else []
  let bins : List Reg := if nodeClass n = 0 then
      (List.range 32).flatMap (fun b => [⟨.pmcBinBusyLo, n, b⟩, ⟨.pmcBinStallLo, n, b⟩, ⟨.pmcBinBytesLo, n, b⟩]) else []
  if nodeClass n = 0 then
    ([0, 1, 2, 3, 4, 5, 8, 9, 10, 11] : List Nat).flatMap block ++ ([6, 7] : List Nat).flatMap block ++ bins
  else (List.range 12).flatMap (fun e => [⟨.pmcEngineBusyLo, n, e⟩, ⟨.pmcEngineStallLo, n, e⟩, ⟨.pmcEngineIdleLo, n, e⟩, ⟨.pmcEngineSelLo, n, e⟩])

/-- The counters of a dump (R845): all of the die, or those that a tenant's VF may read (R822). -/
def Hw.dumpRegs (h : Hw) (tenant : Option Nat) : List Reg :=
  let chs := (List.range 4096).filter (fun c => match tenant with | some t => h.vfChannel t c | none => true)
  let ch : List Reg := chs.flatMap (fun c => [⟨.chMsgCntLo, c, 0⟩, ⟨.chStallCntLo, c, 0⟩])
  match tenant with
  | none => ch ++ (List.range 96).flatMap nodeCounters
  | some t =>
    let nodes := (h.partTiles t).map tileNode
    ch ++ nodes.flatMap (fun n => (nodeCounters n).filter (fun r => r.id != .pmcEngineBusyLo && r.id != .pmcEngineStallLo &&
      r.id != .pmcEngineIdleLo && r.id != .pmcEngineSelLo || r.j == 6 || r.j == 7))

/-- The bytes of a counter dump (R845). -/
def Hw.counterDump (h : Hw) (tenant : Option Nat) (live : Bool) : List Byte :=
  let rs := h.dumpRegs tenant
  natLe 4 0x44435642 ++ natLe 2 1 ++ natLe 2 0 ++ natLe 4 rs.length ++ natLe 4 (h.reg .ancSnapStatus).toNat ++
  rs.flatMap (fun r =>
    let hi : Reg := ⟨r.id.other, r.i, r.j⟩
    let word (x : Reg) : Word := if live then h.reg x.id x.i x.j else sget h.banks x 0#32
    natLe 4 (Reg.addr r) ++ natLe 4 0 ++ natLe 4 (word r).toNat ++ natLe 4 (word hi).toNat)

end Sys2Proof.Machine
end

