-- ==== Sys2Proof/Machine/Admit.lean ====
section
/-! DEFINITION. Admission (chapters 4, 16 and 18): the checks of a plan against its envelope and the die (Table 4.24 from step 14), the
choice of die resources (R156, R901), and programming in the order of R785. -/

namespace Sys2Proof.Machine

/-- Fields of the plan header (Table 4.22). -/
def planSpillOk (b : List Byte) : Bool := u8 b 7 % 2 == 1
def planSlabPages (b : List Byte) : Nat := u16 b 0x1c
def planHbmUnits (b : List Byte) : Nat := u16 b 0x1e
def planTileMask (b : List Byte) : Nat := leAt b 0x20 8

/-- The document of the loaded image. -/
def Hw.image (h : Hw) : Doc := h.doc.getD {}

/-- The envelope of a tenant's partition, all zero without one. -/
def Hw.quota (h : Hw) (t : Nat) : Envelope := (h.envelope t).getD ⟨0, 0, 0, 0, 0, 0, 0, 0, 0, 0, 0, 0, 0, 0, 0, 0, 0, 0⟩

/-- The partition of a tenant as a record. -/
def Hw.partOf (h : Hw) (t : Nat) : PartRec := ⟨t, h.partRect t, h.partBox t, fld (h.reg .tntPartCfgLo t) 16 8⟩

/-! ## Steps 14 to 23 of Table 4.24 -/

/-- The nodes that a plan may name (R176). -/
def Hw.planReach (h : Hw) (t : Nat) (d : Doc) : List Nat :=
  (h.partTiles t).map tileNode ++ ((List.range 12).filter (fun i => (h.quota t).memMask.testBit i)).map (nodeOf 1) ++
  (if h.partMulti t then ((List.range 6).filter (fun p => h.topo.portEnable.testBit p)).map portNode else []) ++
  (d.groups.filter (fun g => g.scope == 1 && decide (g.sequencer ≤ 3))).map (fun g => nodeOf 4 g.sequencer)

/-- A plan reaches outside its partition (step 14). -/
def Hw.planOutside (h : Hw) (t : Nat) (b : List Byte) (d : Doc) : Bool :=
  let ok (n : Nat) : Bool := (h.planReach t d).contains n
  (bitsOf 64 (planTileMask b)).any (fun i => !(h.partTiles t).contains i) ||
  d.flows.any (fun f => !ok f.src || (f.dst != 0xff && !ok f.dst)) ||
  d.routes.any (fun r => !ok r.src || !ok r.dst) ||
  d.endpoints.any (fun e => !ok e.node) || d.folds.any (fun f => !ok f.node)

/-- Some record of the given types fails. -/
def Doc.anyBad (d : Doc) (types : List Nat) (bad : Nat → Nat → Bool) : Bool := (d.places types types).any (fun x => bad x.1 x.2)

/-- A plan uses a resource that R99 covers (step 15). -/
def Hw.planMasked (h : Hw) (b : List Byte) (d : Doc) : Bool :=
  (bitsOf 64 (planTileMask b)).any (fun i => !h.usable (tileNode i)) || d.anyBad [6, 7, 9, 10] (h.maskedUse d)

/-- A plan's load exceeds the partition's allowance (step 17, R177, R900). -/
def Hw.planOverload (h : Hw) (t : Nat) (d : Doc) : Bool :=
  let img := h.image
  let e := h.quota t
  let es := d.flows.flatMap (h.flowLoads d)
  let rs := ((img.reservations.drop e.resvFirst).take e.resvCount).flatMap (h.resvLoads img)
  let inner := (h.partRect t).links
  ((es.map (fun l => (l.link, l.vc))).eraseDups).any (fun x =>
    let own := if inner.contains x.1 && e.vcMask.testBit x.2 then e.internalRate else 0
    let allow := (rs.filter (fun l => l.link == x.1 && l.vc == x.2)).foldl (fun a l => a + l.rate) own
    decide (allow < loadOn es x.1 (fun v => v == x.2)))

/-- The number of live words of a register at a node. -/
def Hw.liveAt (h : Hw) (id : RegId) (n valid : Nat) : Nat :=
  (h.regs.filter (fun e => decide (e.1.id = id) && e.1.i == n && bit e.2 valid)).length

/-- What a node has left of a resource of Table 3.6 (R901). -/
def Hw.nodeFree (h : Hw) (k : Nat × Nat) : Nat :=
  let n := k.2
  match k.1 with
  | 4 => nodeCap 4 - h.liveAt .bnFlowCfg n 13
  | 5 => nodeCap 5 - fld (h.reg .chStore n) 0 11
  | 6 => nodeCap 6 - h.liveAt .fldCfg n 15
  | 7 => nodeCap 7 - h.liveAt .cqGroupCfg n 15
  | 8 => nodeCap 8 - h.liveAt .cqSeqCfg n 15
  | 9 => nodeCap 9 - h.liveAt .cqRingCfg n 15
  | _ => 0

/-- The values of a field over the live words of a register. -/
def Hw.liveIds (h : Hw) (id : RegId) (valid lo len : Nat) : List Nat :=
  (h.regs.filter (fun e => decide (e.1.id = id) && bit e.2 valid)).map (fun e => fld e.2 lo len)

/-- The jobs that other tenants run. -/
def Hw.otherJobs (h : Hw) (t : Nat) : List (Nat × JobState) := h.jobs.filter (fun e => e.1 != t && e.2.doc.isSome)

/-- Die identifiers in use (R901): flows, channels, route indices, phase-table entries, trees, groups, barriers, Rimshot groups. -/
def Hw.usedFlows (h : Hw) : List Nat :=
  h.image.flows.map (·.flow) ++ h.mem.flows.map (·.flow) ++ h.liveIds .bnFlowCfg 13 0 13
def Hw.usedChans (h : Hw) : List Nat :=
  h.image.channels.map (·.channel) ++ (h.regs.filter (fun e => decide (e.1.id = RegId.chCfg) && bit e.2 15)).map (·.1.i)
def Hw.usedRoutes (h : Hw) : List Nat := List.range h.image.routes.length ++ h.jobs.flatMap (fun e => e.2.routes)
def Hw.usedPhases (h : Hw) : List Nat :=
  0 :: (h.regs.filter (fun e => decide (e.1.id = RegId.bnPhase) && bit e.2 31)).map (·.1.j) ++ h.jobs.flatMap (fun e => e.2.phases)
def Hw.usedTrees (h : Hw) : List Nat := h.image.folds.map (·.tree) ++ h.liveIds .fldCfg 15 0 12
def Hw.usedGroups (h : Hw) : List Nat :=
  h.image.groups.map (·.group) ++ h.liveIds .cqGroupCfg 15 0 8 ++ h.liveIds .cqSeqCfg 15 0 8
def Hw.usedSyncs (h : Hw) (kind : Nat) : List Nat :=
  (h.image.syncs.filter (fun s => s.kind == kind)).map (·.id) ++
  (h.regs.filter (fun e => decide (e.1.id = (if kind = 0 then RegId.snBarrierCfg else RegId.snRimshotCfg)) && bit e.2 15)).map (·.1.j)

/-- n identifiers have k free ones beside the used. -/
def enough (n k : Nat) (used : List Nat) : Bool := decide (k ≤ ((List.range n).filter (fun x => !used.contains x)).length)

/-- The distinct trees of a document. -/
def Doc.trees (d : Doc) : List Nat := (d.folds.map (·.tree)).eraseDups

/-- A plan exceeds its envelope, or the die has no free resource for it (step 18, R156, R901). -/
def Hw.planOver (h : Hw) (t : Nat) (b : List Byte) (d : Doc) : Bool :=
  let e := h.quota t
  decide (e.flowEntries < d.flows.length) || decide (e.channels < d.channels.length) || decide (e.foldUnits < d.folds.length) ||
  decide (e.groups < d.groups.length) || decide (e.sync < d.syncs.length) || decide (e.hbmUnits < planHbmUnits b) ||
  d.endpoints.any (fun x => decide (x.rank < e.rankLo) || decide (e.rankHi < x.rank)) ||
  d.flows.any (fun f => !e.vcMask.testBit f.vc || decide (e.flowEntries ≤ f.flow)) ||
  d.channels.any (fun c => decide (e.channels ≤ c.channel)) || d.folds.any (fun f => decide (e.foldUnits ≤ f.tree)) ||
  d.groups.any (fun g => decide (e.groups ≤ g.group)) || d.syncs.any (fun s => decide (e.sync ≤ s.id)) ||
  (tallyUp (fun ty i => d.nodeUses h.topo ty i) h.nodeFree (fun _ _ => false) (d.places [6, 8, 9, 10] [6, 8, 9, 10]) []).isSome ||
  !(enough 8192 d.flows.length h.usedFlows && enough 4096 d.channels.length h.usedChans && enough 4096 d.routes.length h.usedRoutes &&
    enough 4096 d.phaseSets.length h.usedPhases && enough 4096 d.trees.length h.usedTrees &&
    enough 256 d.groups.length h.usedGroups && enough 256 (d.syncs.filter (fun s => s.kind == 0)).length (h.usedSyncs 0) &&
    enough 256 (d.syncs.filter (fun s => s.kind == 1)).length (h.usedSyncs 1))

/-- The flows that may share an input with a plan's (R406, R428): its own under their own numbers, then those of the image and of the
other jobs. -/
def Hw.planInputs (h : Hw) (t : Nat) (d : Doc) : List (Nat × Nat × List (Nat × Nat)) :=
  h.flowInputs d 0 ++ h.flowInputs h.image 8192 ++ h.spillInputs h.image 16384 ++
  (h.otherJobs t).flatMap (fun e => (e.2.doc.map (fun x => h.flowInputs x (24576 + 8192 * e.1))).getD [])

/-- A multi-module plan does not begin with the barrier of its start round (R705). -/
def Hw.startSyncBad (h : Hw) (t : Nat) (d : Doc) : Bool :=
  h.partMulti t && !((d.syncs.head?).any (fun s => s.kind == 0 && (d.groups[s.group]?).any (fun g =>
    g.scope == 1 && g.rect == h.partRect t && g.box == h.partBox t)))

/-- The windows that take a number of pages in record order, with what each holds (R538); none where they cannot. -/
def takeWindows (size : Nat → Nat) : List Nat → Nat → Option (List Nat)
  | [], r => if r = 0 then some [] else none
  | w :: ws, r =>
    if r = 0 then some [] else if size w = 0 then takeWindows size ws r else (takeWindows size ws (r - size w)).map (w :: ·)

/-- The registered size of a window in pages (R685). -/
def Hw.winPages (h : Hw) (t w : Nat) : Nat := if bit (h.reg .hstWinBaseLo t w) 0 then (h.reg .hstWinSize t w).toNat else 0

/-- A spill mapping (R538): pages in HBM, pages in host windows, the windows used. -/
def Hw.spillMap (h : Hw) (t : Nat) (b : List Byte) (d : Doc) : Option (Nat × Nat × List Nat) :=
  let o := planSlabPages b - (h.quota t).slabPages
  if o = 0 then some (0, 0, [])
  else if !planSpillOk b then none
  else
    let hb := Nat.min o (32 * (h.spillUnits t).length)
    (takeWindows (h.winPages t) d.windows (o - hb)).map (fun ws => (hb, o - hb, ws))

/-- The kind-2 flows that carry a plan's memory accesses (R179, R539). -/
def Hw.planPaths (h : Hw) (t : Nat) (d : Doc) : List (Nat × Nat) :=
  let own := (d.flows.filter (fun f => f.kind == 2)).map (fun f => (f.src, f.dst))
  if own.isEmpty then (h.mem.flows.filter (fun f => f.tenant == t && !f.plan)).map (fun f => (f.src, f.dst)) else own

/-- A tile node reaches a holder (R541). -/
def Hw.reaches (h : Hw) (ps : List (Nat × Nat)) (n m : Nat) : Bool :=
  let path (x : Nat) : Bool := ps.contains (n, x) && ps.contains (x, n)
  path m || ((List.range 12).map (nodeOf 1)).any (fun x => path x && (h.relayFlow x m).isSome && (h.relayFlow m x).isSome)

/-- A plan's memory does not fit, or cannot be reached (step 23, R178, R179, R541). -/
def Hw.planOversize (h : Hw) (t : Nat) (b : List Byte) (d : Doc) : Bool :=
  match h.spillMap t b d with
  | none => true
  | some (hb, hw, _) =>
    let ps := h.planPaths t d
    let units := ((List.range (planHbmUnits b)).filterMap (h.slotUnit t)).filter (fun u => !h.unitRetired u) ++
      (h.spillUnits t).take (cdiv hb 32)
    let holders := (units.map (fun u => nodeOf 1 (u / 512 / 8)) ++ (if hw = 0 then [] else [hostNode])).eraseDups
    (decide (0 < hb + hw) && ps.isEmpty) ||
    (bitsOf 64 (planTileMask b)).any (fun i => holders.any (fun m => !h.reaches ps (tileNode i) m))

/-- The checks of admission from step 2 on: the code of the first that fails (R180, Table 4.24). -/
def Hw.planFails (h : Hw) (t : Nat) (b : List Byte) : Option Nat :=
  match (h.planHeaderBad t b).or (planBad b) with
  | some c => some c
  | none =>
    let d := planDoc b
    let topo := h.topo
    [ (fun _ => h.planOutside t b d, ckOutside),
      (fun _ => h.planMasked b d, ckMasked),
      (fun _ => d.anyBad [5, 6, 8] (h.routeBad d topo), ckRoute),
      (fun _ => h.planOverload t d, ckLoad),
      (fun _ => h.planOver t b d, ckEnvelope),
      (fun _ => d.anyBad [8] (fun _ i => d.rankBad i), ckCycle),
      (fun _ => d.anyBad [9] (fun _ i => h.foldBad d (h.planInputs t d) i), ckFold),
      (fun _ => h.startSyncBad t d || d.anyBad [10] (fun _ i => h.groupBad d topo (h.planInputs t d) 0 (some (h.partOf t)) i), ckGroup),
      (fun _ => d.anyBad [6] (fun _ i => h.retryBad d topo (h.imageLoads h.image) i), ckRetry),
      (fun (_ : Unit) => h.planOversize t b d, ckOversize) ].findSome? (fun x => if x.1 () then some x.2 else none)

/-! ## Choosing die resources -/

/-- k identifiers below n beside the used ones, each a free choice among those that are free (R156, R901).
DESIGN CHOICE (log entry 12). -/
def pickFree (n : Nat) : Nat → List Nat → Hw → List Nat × Hw
  | 0, _, h => ([], h)
  | k + 1, used, h =>
    let free := (List.range n).filter (fun x => !used.contains x)
    let x := h.fresh
    let id := free.getD (x.1.toNat % free.length) 0
    let r := pickFree n k (id :: used) x.2
    (id :: r.1, r.2)

/-- The number that stands beside a key in a list. -/
def assoc (ks vs : List Nat) (k : Nat) : Nat := (((ks.zip vs).find? (fun e => e.1 == k)).map (·.2)).getD 0

/-- The die identifiers of a plan. The flow that continues one of its flows on the peer module is the peer's choice: a free value.
DESIGN CHOICE (log entry 12). -/
def Hw.planMap (h : Hw) (t g : Nat) (d : Doc) : DieMap × Hw :=
  let flows := pickFree 8192 d.flows.length h.usedFlows h
  let remote := pickFree 8192 (d.flows.filter (fun f => f.rx != 0xff)).length [] flows.2
  let chans := pickFree 4096 d.channels.length h.usedChans remote.2
  let routes := pickFree 4096 d.routes.length h.usedRoutes chans.2
  let phases := pickFree 4096 d.phaseSets.length h.usedPhases routes.2
  let trees := pickFree 4096 d.trees.length h.usedTrees phases.2
  let groups := pickFree 256 d.groups.length h.usedGroups trees.2
  let bars := pickFree 256 (d.syncs.filter (fun s => s.kind == 0)).length (h.usedSyncs 0) groups.2
  let rims := pickFree 256 (d.syncs.filter (fun s => s.kind == 1)).length (h.usedSyncs 1) bars.2
  let bids := (d.syncs.filter (fun s => s.kind == 0)).map (·.id)
  let rids := (d.syncs.filter (fun s => s.kind == 1)).map (·.id)
  (⟨t, g, false, assoc (d.flows.map (·.flow)) flows.1, assoc ((d.flows.filter (fun f => f.rx != 0xff)).map (·.remoteFlow)) remote.1,
    fun r => routes.1.getD r 0, assoc (d.channels.map (·.channel)) chans.1, assoc d.trees trees.1, assoc (d.groups.map (·.group)) groups.1,
    assoc d.phaseSets phases.1,
    fun i => match d.syncs[i]? with
      | some s => if s.kind = 0 then assoc bids bars.1 s.id else 256 + assoc rids rims.1 s.id
      | none => 0⟩, rims.2)

/-! ## Programming -/

/-- The first entries of a tile-port map (Table 11.9). -/
def Hw.putMap (h : Hw) (id : RegId) (n cnt planLen dieLen : Nat) (es : List (Nat × Nat)) : Hw :=
  (es.take cnt).zipIdx.foldl (fun h x =>
    h.setReg id n x.2 (mkWord [(31, 1, 1), (16, planLen, x.1.1), (0, dieLen, x.1.2)])) h

/-- The maps of a tile: the plan's flows and channels that start or end there, the syncs of its groups, the phase sets of its flows
(R484, R785 step 7). -/
def Hw.putMaps (h : Hw) (d : Doc) (m : DieMap) (i : Nat) : Hw :=
  let n := tileNode i
  let at' (e : Nat) : Bool := (d.endpoints[e]?).any (fun x => x.node == n)
  let h := h.putMap .tpFmap n 512 13 13
    ((d.flows.filter (fun f => f.src == n || (d.sinks f).contains n)).map (fun f => (f.flow, m.flow f.flow)))
  let h := h.putMap .tpCmap n 256 12 12
    ((d.channels.filter (fun c => at' c.src || at' c.dst)).map (fun c => (c.channel, m.chan c.channel)))
  let syncs := ((d.syncs.zipIdx.filter (fun s => (d.groups[s.1.group]?).any (fun g => h.topo.member g && g.rect.tiles.contains i))).map
    (fun s => (s.1.id, m.sync s.2)))
  let h := h.putMap .tpSmap n 64 8 9 (syncs.foldl (fun a s => if a.any (fun x => x.1 == s.1) then a else a ++ [s]) [])
  h.putMap .tpPmap n 16 8 12
    ((((d.flows.filter (fun f => f.src == n)).map (·.phaseSet)).filter (· != 0)).eraseDups.map (fun p => (p, m.phase p)))

/-- The leases and the spill mapping of an admitted plan (R538, R686, R785 step 2). -/
def Hw.putSpill (h : Hw) (t g : Nat) (b : List Byte) (d : Doc) : Hw :=
  let x := (h.spillMap t b d).getD (0, 0, [])
  let used := (h.spillUnits t).take (cdiv x.1 32)
  let wins := x.2.2.map (fun w => (w, h.winBase t w, h.winPages t w))
  let h := used.foldl (fun h u => h.leaseUnit g u) h
  let h := h.setReg .memSpillCfg t 0 (mkWord [(0, 16, x.1), (16, 16, x.2.1)])
  let h := { h with mem := { h.mem with units := nset h.mem.units t (planHbmUnits b) 0, windows := nset h.mem.windows t wins [] } }
  x.2.2.foldl (fun h w => h.modReg .hstWinStatus t w (setBit · 0 true)) h

/-- A generation value may be assigned: 16 ms have passed since the tenant was last given it (R698). -/
def genGuard : Nat := 38400000
def Hw.genFree (h : Hw) (t g : Nat) : Bool := (h.job t).genTimes.all (fun e => e.1 != g || decide (e.2 + genGuard ≤ h.now))

/-- The generation that the next admission assigns (R697). -/
def Hw.nextGen (h : Hw) (t : Nat) : Nat := h.gen t % 1023 + 1

/-- A plan that passed its checks is admitted: it is programmed in the order of R785, its tile ports wait for their release, and the
partition is STARTING. -/
def Hw.program (h : Hw) (t : Nat) (b : List Byte) : Hw :=
  let d := planDoc b
  let g := h.nextGen t
  let mask := planTileMask b
  let tiles := bitsOf 64 mask
  let h := h.modReg .tntGen t 0 (fun w => bumpFld (setFld w 0 10 g) 16 16 1)
  let h := h.modReg .tntState t 0 (fun w => setFld (setFld w 8 3 (if mask = 0 then 4 else 0)) 0 4 tsStarting)
  let h := h.modJob t (fun j => { j with genTimes := j.genTimes.filter (fun e => e.1 != g) ++ [(g, h.now)] })
  let h := h.putSpill t g b d
  let x := h.planMap t g d
  let m := x.1
  let h := ((x.2.putRoutes d m).putPhases d m).putResources d m
  let h := tiles.foldl (fun h i => h.putMaps d m i) h
  let h := tiles.foldl (fun h i => h.modPort i (fun p => { p with launch := some 0 })) h
  let h := h.modJob t (fun j => { j with doc := some d, plan := b, tileMask := mask, doneSet := 0, startBar := Option.none, startSync := m.sync 0, held := false, step := RestartStep.none, routes := (List.range d.routes.length).map m.route, phases := d.phaseSets.map m.phase })
  let h := h.powerAdmit t
  { h with power := { h.power with starts := h.power.starts.filter (· != t) ++ [t] }
           fault := { h.fault with forwarded := h.fault.forwarded.filter (fun e => e.1 != t) } }

/-- A stop that was held during an admission applies once it has succeeded (R683). -/
def Hw.heldStop (h : Hw) (t : Nat) : Hw :=
  if (h.job t).stopHeld then (h.modJob t (fun j => { j with stopHeld := false })).jobStop t else h

/-- ANC_FAULT_COND.f0_restart (R725). -/
def Hw.f0Restart (h : Hw) : Bool := bit (h.reg .ancFaultCond) 7

/-- Step 1 of Table 4.24 fails: the launch did not find its partition IDLE, or an F0 restart is in progress (R181, R724, R725). -/
def Hw.partBusy (h : Hw) (t : Nat) : Bool := h.tntState t != tsAdmitting || (h.job t).relaunching || h.f0Restart

/-- Admission of the launch that the tenant's duty works on (R180, R785, Table 15.7). A reused generation value holds it (R698). -/
def Hw.admission (h : Hw) (t : Nat) : Hw :=
  if !h.launchTurn t then h
  else
    let j := h.job t
    match j.stage with
    | .none => h
    | .read => (match h.launchCheck t with | some c => h.launchOver t c | none => h)
    | .checks =>
      if h.partBusy t then h.launchOver t 0x01
      else match h.planFails t j.copy with
        | some c => h.launchOver t c
        | none =>
          if !h.genFree t (h.nextGen t) then h.modJob t (fun j => { j with held := true })
          else
            let h := h.program t j.copy
            let h := h.modJob t (fun x => { x with cookie := j.desc.getD 3 0#32, relaunchMax := fld (j.desc.getD 4 0#32) 0 4, relaunches := 0 })
            (h.launchOver t 0).heldStop t

/-- A relaunch is over: it leaves its duty's order and posts its result with the launch's cookie (R682). -/
def Hw.relaunchOver (h : Hw) (t code : Nat) : Hw :=
  let h := { h with stw := { h.stw with launches := h.stw.launches.erase (64 + t) } }
  let h := h.modJob t (fun j => { j with relaunching := false, held := false })
  let h := if code = 0 then h
    else ((h.modJob t (fun j => { j with stopHeld := false, doc := Option.none })).modReg .tntState t 0 (setFld · 0 4 tsIdle)).vfEvent t 1
  h.postResult t code (h.job t).cookie (bit (h.reg .hstLaunchStatus t) 8)

/-- The steward re-admits its copy of the plan after a fault (R682). -/
def Hw.relaunch (h : Hw) (t : Nat) : Hw :=
  let j := h.job t
  if !h.launchTurn (64 + t) || !j.relaunching || h.tntState t != tsAdmitting then h
  else match h.planFails t j.plan with
    | some c => h.relaunchOver t c
    | none =>
      if !h.genFree t (h.nextGen t) then h.modJob t (fun j => { j with held := true })
      else ((h.program t j.plan).relaunchOver t 0).heldStop t

/-- The reuse guard of R698 has passed: the held admission continues. -/
def Hw.genWaitExpiry (h : Hw) (t : Nat) : Hw :=
  if (h.job t).held && h.genFree t (h.nextGen t) then (if (h.job t).relaunching then h.relaunch t else h.admission t) else h

/-! ## Starting -/

/-- Every port of the plan's tiles has been released (R458). -/
def Hw.portsReleased (h : Hw) (t : Nat) : Bool :=
  (bitsOf 64 (h.job t).tileMask).all (fun i => (h.port i).launch.isNone && h.portUp i)

/-- The firmware writes TNT_CTL.start: the module joins the start round (R706). -/
def Hw.startJoin (h : Hw) (t : Nat) : Hw :=
  if h.partMulti t && h.tntState t == tsStarting && (h.job t).startBar.isNone then
    let sid := (h.job t).startSync
    let h := h.modReg .tntState t 0 (setBit · 9 true)
    let h := h.modJob t (fun j => { j with startBar := some 0 })
    let h := { h with snet := { h.snet with start := h.snet.start ++ [(sid, t)] } }
    h.anchorDone ⟨sid, 0, t, h.gen t, []⟩
  else h

end Sys2Proof.Machine
end

