-- ==== Sys2Proof/Machine/Tenant.lean ====
section
/-! DEFINITION. Partitions at run time (chapters 16 and 18): breakpoints and their drain, the start of a job, fault notices and their
acceptance, the restart sequence, the restart after an F0. -/

namespace Sys2Proof.Machine

/-! ## Halted cores -/

/-- The duties that a core holds (STW_DUTY). -/
def Hw.dutiesOf (h : Hw) (k : Nat) : List Nat := (List.range 4).filter (fun d => h.dutyHolder d == some k)

/-- A halted core affects a partition (R804, Table 18.9). -/
def Hw.affects (h : Hw) (k t : Nat) : Bool :=
  let scope := fld (h.reg .stwBreakCtl) 0 2
  (h.dutiesOf k).any (fun d => scope == 2 || (scope == 1 && (if d = 1 then decide (t < 32) else if d = 2 then decide (32 ≤ t) else true)))

/-- Some halted core affects a partition. -/
def Hw.haltedFor (h : Hw) (t : Nat) : Bool := (List.range 5).any (fun k => h.stw.halted.testBit k && h.affects k t)

/-- A partition enters HALTED: its ports drain (R805). -/
def Hw.haltPart (h : Hw) (t : Nat) : Hw :=
  (h.partTiles t).foldl (fun h i => h.drainRequest i) (h.modReg .tntState t 0 (setFld · 0 4 tsHalted))

/-- A partition leaves HALTED (R806). -/
def Hw.resumePart (h : Hw) (t : Nat) : Hw :=
  (h.partTiles t).foldl (fun h i => h.drainRelease i) (h.modReg .tntState t 0 (setFld · 0 4 tsRunning))

/-- Partitions enter and leave HALTED as the halted cores and the drain scope have it now (R805, R806). -/
def Hw.haltRefresh (h : Hw) : Hw :=
  (List.range 64).foldl (fun h t =>
    if h.tntState t = tsRunning ∧ h.haltedFor t then h.haltPart t
    else if h.tntState t = tsHalted ∧ !h.haltedFor t then h.resumePart t else h) h

/-- A port of a draining partition that is ACTIVE again raises SB_DRAIN_REQ (R500). -/
def Hw.drainDue (h : Hw) (i : Nat) : Hw :=
  if (h.tileOwner i).any (fun t => h.tntState t == tsQuiesce || h.tntState t == tsHalted) then h.drainRequest i else h

/-- SB_DRAIN_REQ falls at a port whose partition is not draining (R503). -/
def Hw.drainOver (h : Hw) (i : Nat) : Hw :=
  if (h.tileOwner i).any (fun t => h.tntState t == tsQuiesce || h.tntState t == tsHalted) then h else h.drainRelease i

/-! ## The start of a job -/

/-- The start bells ring (R708, R710): the ports are released, and a multi-module partition's start round has completed. -/
def Hw.startBells (h : Hw) (t : Nat) : Hw :=
  if h.tntState t == tsStarting && h.portsReleased t && (!h.partMulti t || h.snet.startDown.contains t) then
    let tiles := bitsOf 64 (h.job t).tileMask
    let h := { h with snet := { h.snet with startDown := h.snet.startDown.filter (· != t) } }
    let h := h.modJob t (fun j => { j with startBar := Option.none })
    let h := h.modReg .tntState t 0 (fun w => setBit (setFld w 0 4 tsRunning) 9 false)
    let h := tiles.foldl (fun h i => h.ringBell (tileNode i) startBell) h
    if h.haltedFor t then h.haltPart t else h
  else h

/-- The start round has not completed start_bars bars after the module joined it (R709). -/
def Hw.startTimeout (h : Hw) (t : Nat) : Hw :=
  if h.tntState t == tsStarting && (h.job t).startBar.any (fun k => decide (fld (h.reg .tntCfg t) 0 16 ≤ k)) &&
      !h.snet.startDown.contains t then
    (h.modJob t (fun j => { j with startBar := Option.none })).raiseF1 t (h.gen t) 0x12 anchorNode 0
  else h

/-! ## The end of a job -/

/-- Step 1 and the start of step 2 of Table 16.5: the partition is fenced and its ports drain; starts and grants that wait are dropped. -/
def Hw.beginEnd (h : Hw) (t cause t0 : Nat) : Hw :=
  let h := h.modReg .tntState t 0 (fun w => setFld (setFld w 8 3 1) 0 4 tsQuiesce)
  let h := h.modJob t (fun j => { j with step := RestartStep.drain, t0 := t0, endCause := cause, startBar := Option.none })
  let h := { h with snet := { h.snet with start := h.snet.start.filter (fun e => e.2 != t), startDown := h.snet.startDown.filter (· != t) }
                    power := { h.power with starts := h.power.starts.filter (· != t) } }
  (h.partTiles t).foldl (fun h i => (h.modPort i (fun p => { p with launch := Option.none })).drainRequest i) h

/-- TNT_FAULT_REC0 to 2 of a job that ends (Table 16.8). -/
def Hw.recordEnd (h : Hw) (t cause gen node origin bar phase detail source : Nat) (remote f0 : Bool) : Hw :=
  ((h.setReg .tntFaultRec t 0 (mkWord [(20, 12, origin), (10, 10, gen), (9, 1, b2n remote), (8, 1, b2n f0), (0, 8, cause)])).setReg
    .tntFaultRec t 1 (mkWord [(16, 16, bar), (8, 2, if cause = 0x10 then source else 0), (0, 7, node)])).setReg
    .tntFaultRec t 2 (mkWord [(16, 16, detail), (0, 12, phase)])

/-- TNT_FAULT_EVT: the first fault since the last read, and the count (Table 16.8, R716). -/
def Hw.faultEvt (h : Hw) (t cause gen : Nat) (f0 remote : Bool) : Hw :=
  h.modReg .tntFaultEvt t 0 (fun w =>
    if fld w 24 8 = 0 then mkWord [(24, 8, 1), (16, 8, cause), (13, 1, b2n f0), (12, 1, b2n remote), (0, 10, gen)] else bumpFld w 24 8 1)

/-- The end_cause of an F1 (R702). -/
def endCauseOf (x : Notice) : Nat :=
  if x.f0 then 4 else if x.cause = 0x10 ∧ x.source = 1 then 2 else if x.cause = 0x11 then 5 else 3

/-- The ending of an active partition by an accepted notice (R714, R715). -/
def Hw.endBy (h : Hw) (t : Nat) (x : Notice) : Hw :=
  let g := h.gen t
  let h := h.faultEvt t x.cause g x.f0 x.remote
  let h := h.recordEnd t x.cause g x.node x.origin x.bar x.phase x.detail x.source x.remote x.f0
  (h.vfEvent t 2).beginEnd t (endCauseOf x) (if x.remote then h.now else x.t0)

/-! ## Notices -/

/-- The order in which the anchor takes notices: earlier ones first; of one cycle local before remote, then by origin node (R713). -/
def Notice.before (a b : Notice) : Bool :=
  decide (a.t0 < b.t0) || (a.t0 == b.t0 && ((!a.remote && b.remote) || (a.remote == b.remote && decide (a.node < b.node))))

def firstNotice : List Notice → Option Notice
  | [] => none
  | x :: xs => match firstNotice xs with
    | some y => if y.before x then some y else some x
    | none => some x

/-- Some partition that a fault affects spans several modules (R361). -/
def Hw.affectsTorus (h : Hw) (x : Notice) : Bool :=
  if x.f0 then (List.range 64).any (fun t => h.partValid t && h.partMulti t) else h.partValid x.tenant && h.partMulti x.tenant

/-- A notice reaches the anchor (R361, R717): the first of a tenant and generation, and the first F0 since the last F0 restart, is
forwarded. A later F0 is discarded. -/
def Hw.noticeTo (h : Hw) (x : Notice) : Hw :=
  let take (h : Hw) : Hw := { h with fault := { h.fault with atAnchor := h.fault.atAnchor ++ [x] } }
  let w := h.gongWords 3 x.f0 (h.affectsTorus x) x.tenant x.gen x.cause x.node
  let send (h : Hw) : Hw := h.gongSend 3 x.f0 (h.affectsTorus x) x.tenant x.gen x.cause x.node
  if x.remote then take h
  else
  let h := h.gongTaken w.1 w.2
  if x.f0 then
    if h.fault.f0Forwarded then h.gongDup
    else take (send { h with fault := { h.fault with f0Forwarded := true } })
  else if h.fault.forwarded.contains (x.tenant, x.gen) then take h
  else take (send { h with fault := { h.fault with forwarded := h.fault.forwarded ++ [(x.tenant, x.gen)] } })

/-- The anchor takes the next notice (R713). -/
def Hw.faultNotice (h : Hw) : Hw :=
  match firstNotice h.fault.notices with
  | none => h
  | some x => { h with fault := { h.fault with notices := h.fault.notices.erase x } }.noticeTo x

/-- The origin module of a GONG packet lies in a partition's box. -/
def Hw.boxHas (h : Hw) (t origin : Nat) : Bool := h.partValid t && (h.partBox t).has (origin % 16) (origin / 16 % 16) (origin / 256 % 16)

/-- A notice that a remote fault raises for a local partition (R366); `source` keeps the cause at the origin. -/
def Hw.remoteNotice (h : Hw) (t gen cause node origin : Nat) : Hw :=
  h.notify ⟨false, t, gen, 0x0f, node, origin, true, 0, cause, h.stamp.1, h.stamp.2, h.now⟩

/-- A FAULT notice from another module arrives through port q (R364, R366). -/
def Hw.remoteFault (h : Hw) (q : Nat) : Hw :=
  match h.snet.rx.find? (fun e => e.1 == q && e.2.1 == kGong) with
  | some (_, _, [w0, w1]) =>
    if fld w0 0 2 ≠ 3 then h
    else match h.torusRx q [kGong] with
      | none => h
      | some (_, _, h) =>
        match h.gongRemote w0 w1 with
        | none => h.gongDup
        | some h =>
          let h := h.gongTaken w0 w1
          let t := fld w0 4 6
          let g := fld w0 10 10
          let node := fld w1 12 7
          let origin := fld w1 0 12
          let cause := fld w0 20 8
          if bit w0 2 then
            ((List.range 64).filter (fun t => h.boxHas t origin && h.partMulti t)).foldl (fun h t => h.remoteNotice t (h.gen t) cause node origin) h
          else if !h.boxHas t origin then h
          else if g = h.gen t then h.remoteNotice t g cause node origin
          else h.stale t 1
  | _ => h

/-- An F1 notice at the anchor is accepted or discarded (R714, R716). LATE and HANG start a capture (R837). -/
def Hw.acceptF1 (h : Hw) (x : Notice) : Hw :=
  let t := x.tenant
  if x.gen ≠ h.gen t then h.stale t 1
  else if h.active t then
    let late := [0x01, 0x13].contains (if x.remote then x.source else x.cause)
    (if late then h.capture t x.cause else h).endBy t x
  else
    let h := h.gongDup
    if h.tntState t = tsQuiesce ∨ h.tntState t = tsScrub then h.faultEvt t x.cause x.gen false x.remote else h

/-- The anchor accepts the F1 at the head of its notices. -/
def Hw.faultAccept (h : Hw) : Hw :=
  match h.fault.atAnchor with
  | x :: rest => if x.f0 then h else { h with fault := { h.fault with atAnchor := rest } }.acceptF1 x
  | [] => h

/-- An F0 is accepted (R715, R716, R725): every active partition restarts, and launches are refused until all are ready. -/
def Hw.acceptF0 (h : Hw) (x : Notice) : Hw :=
  let h := h.recordF0 x.cause x.node x.bar
  let h := { h.modReg .ancFaultCond 0 0 (setBit · 7 true) with fault := { h.fault with reapply := true } }
  (List.range 64).foldl (fun h t =>
    if h.active t then (h.endBy t x).modJob t (fun j => { j with f0 := true })
    else if h.tntState t = tsQuiesce ∨ h.tntState t = tsScrub then
      (h.faultEvt t x.cause (h.gen t) true false).modJob t (fun j => { j with f0 := true })
    else h) h

/-- The anchor accepts the F0 at the head of its notices. -/
def Hw.f0Accept (h : Hw) : Hw :=
  match h.fault.atAnchor with
  | x :: rest => if x.f0 then { h with fault := { h.fault with atAnchor := rest } }.acceptF0 x else h
  | [] => h

/-- The restart sequence of a partition reset (R77) or a VF reset (R692) begins: its recorded request is forwarded and accepted. -/
def Hw.partitionReset (h : Hw) (t : Nat) : Hw :=
  let mine (x : Notice) : Bool := !x.f0 && !x.remote && x.tenant == t && (x.cause == 0x10 || x.cause == 0x11)
  match h.fault.atAnchor.find? mine with
  | some x => { h with fault := { h.fault with atAnchor := h.fault.atAnchor.erase x } }.acceptF1 x
  | none => match h.fault.notices.find? mine with
    | some x =>
      let h := { h with fault := { h.fault with notices := h.fault.notices.erase x } }.noticeTo x
      { h with fault := { h.fault with atAnchor := h.fault.atAnchor.erase x } }.acceptF1 x
    | none => h

/-- The firmware writes TNT_CTL.end (R702, R703): a job in RUNNING ends with completion, unless a fault for it is at the anchor. -/
def Hw.jobComplete (h : Hw) (t : Nat) : Hw :=
  if h.tntState t = tsRunning ∧ !h.fault.atAnchor.any (fun x => x.f0 || (x.tenant == t && x.gen == h.gen t)) then
    (h.recordEnd t 0 (h.gen t) anchorNode h.module h.stamp.1 h.stamp.2 0 0 false false).beginEnd t 1 h.now
  else h

/-! ## The restart sequence -/

/-- The words of a register whose valid bit is set and which a tenant owns with a generation that is not 0. -/
def Hw.ownedBy (h : Hw) (id : RegId) (valid t : Nat) : List (Nat × Nat) :=
  (h.regs.filter (fun e => decide (e.1.id = id) && bit e.2 valid && fld e.2 16 6 == t && fld e.2 22 10 != 0)).map (fun e => (e.1.i, e.1.j))

/-- The tile-port maps of a tile are cleared (R721). -/
def Hw.clearMaps (h : Hw) (tiles : List Nat) : Hw :=
  h.dropRegs (fun r => [RegId.tpFmap, .tpCmap, .tpSmap, .tpPmap, .tpGmap].contains r.id && tiles.any (fun i => tileNode i == r.i))

/-- The sweep of the B-net: the tenant's flow slots with what waits at them, and its die flows (R721, R722). -/
def Hw.sweepFlows (h : Hw) (t : Nat) : Hw :=
  (h.ownedBy .bnFlowCfg 13 t).foldl (fun h x =>
    let w := h.reg .bnFlowCfg x.1 x.2
    let die := fld w 0 13
    let h := h.flowCfgSet x.1 x.2 (setBit w 13 false)
    { h with bnet := { h.bnet with inj := serase h.bnet.inj (x.1 * 512 + x.2) }
             fold := { h.fold with kinds := serase h.fold.kinds die, ring := h.fold.ring.filter (fun e => e.1 % 8192 != die) } }) h

/-- The sweep of the wait records of a tenant. -/
def Hw.sweepWaits (h : Hw) (t : Nat) : Hw :=
  let mine := (h.regs.filter (fun e => decide (e.1.id = RegId.pmcWait) && e.1.j % 4 == 1 && fld e.2 16 6 == t && fld e.2 22 10 != 0)).map
    (fun e => (e.1.i, e.1.j / 4))
  mine.foldl (fun h x => (List.range 4).foldl (fun h k => h.setReg .pmcWait x.1 (4 * x.2 + k) 0#32) h) h

/-- The sweep of collective slots, ring entries and sequencer entries. -/
def Hw.sweepGroups (h : Hw) (t : Nat) : Hw :=
  let h := (h.ownedBy .cqGroupCfg 15 t).foldl (fun h x =>
    (h.modReg .cqGroupCfg x.1 x.2 (setBit · 15 false)).slotDiscard (nodeInst x.1) x.2) h
  let h := (h.ownedBy .cqRingCfg 15 t).foldl (fun h x =>
    (h.modReg .cqRingCfg x.1 x.2 (setBit · 15 false)).modReg .cqRingStatus x.1 x.2 (fun w => setBit (setBit w 8 false) 0 false)) h
  let h := (h.ownedBy .cqSeqCfg 15 t).foldl (fun h x => (h.modReg .cqSeqCfg x.1 x.2 (setBit · 15 false)).setSeq x.1 x.2 {}) h
  { h with coll := { h.coll with reports := h.coll.reports.filter (fun r => r.tenant != t) } }

/-- Every node invalidates the state of a tenant, and the tile ports of its partition enter RESET (R721, R722, R455). -/
def Hw.sweep (h : Hw) (t : Nat) : Hw :=
  let j := h.job t
  let tiles := h.partTiles t
  let h := h.sweepFlows t
  let h := (h.ownedBy .chCfg 15 t).foldl (fun h x => h.chDisable x.1) h
  let h := ((j.doc.map (·.endpoints)).getD []).foldl (fun h e =>
    if fld (h.reg .chEpt e.node e.index) 8 6 = t then h.setReg .chEpt e.node e.index 0#32 else h) h
  let h := (h.ownedBy .fldCfg 15 t).foldl (fun h x => h.foldClear x.1 x.2) h
  let h := h.sweepGroups t
  let h := (h.ownedBy .snBarrierCfg 15 t).foldl (fun h x => h.syncDisable x.2) h
  let h := (h.ownedBy .snRimshotCfg 15 t).foldl (fun h x => h.syncDisable (256 + x.2)) h
  let h := h.clearMaps tiles
  let h := j.routes.foldl (fun h r => h.clearRoute r) h
  let h := j.phases.foldl (fun h e => (h.setReg .bnPhase anchorNode e 0#32).setPhaseStage e 0) h
  let h := { h with mem := { h.mem with flows := h.mem.flows.filter (fun f => !(f.plan && f.tenant == t)) } }
  let h := tiles.foldl (fun h i => (h.tilePortReset i).setReg .nodeBell (tileNode i) 0 0#32) h
  h.sweepWaits t

/-- Every tile port of a partition has drained. -/
def Hw.drained (h : Hw) (t : Nat) : Bool := (h.partTiles t).all (fun i => h.portState i != psActive && h.portState i != psDraining)

/-- The drain of a restart is over: the sweep runs and the fence falls (Table 16.5 steps 2 and 3). -/
def Hw.drainDone (h : Hw) (t : Nat) : Hw :=
  if (h.job t).step == RestartStep.drain && h.drained t then
    ((h.sweep t).modReg .tntState t 0 (setBit · 8 false)).modJob t (fun j => { j with step := RestartStep.sweep, routes := [], phases := [] })
  else h

/-- Microseconds from t0 to now, rounded up, as TNT_RESTART_TIME holds them. -/
def Hw.restartUs (h : Hw) (t : Nat) : Nat := Nat.min 65535 (cdiv (h.now - (h.job t).t0) 2400)

/-- The tenant releases its leases and its spill mapping, and the zero maps of its slots set (R543). -/
def Hw.releaseAll (h : Hw) (t : Nat) : Hw :=
  let held (id : RegId) : List Nat :=
    (h.regs.filter (fun e => decide (e.1.id = id) && bit e.2 15 && fld e.2 16 6 == t)).map (·.1.i)
  let h := (held .slbLease).foldl (fun h p => h.freePage p) h
  let h := (held .slbHlease).foldl (fun h u => (h.freeUnit u).setReg .slbHzero u 0 0xFFFFFFFF#32) h
  let wins := h.jobWindows t
  let h := { h.setReg .memSpillCfg t 0 0#32 with mem := { h.mem with units := nset h.mem.units t 0 0, windows := nset h.mem.windows t [] [] } }
  wins.foldl (fun h w => h.modReg .hstWinStatus t w.1 (fun x => setFld x 0 2 0)) h

/-- The sweep is over: quiesce is complete and the scrub begins (Table 16.5 step 4, R543, R821). -/
def Hw.sweepDone (h : Hw) (t : Nat) : Hw :=
  if (h.job t).step == RestartStep.sweep then
    let us := h.restartUs t
    let h := h.setReg .tntRestartTime t 0 (mkWord [(0, 16, us)])
    let h := h.modReg .tntState t 0 (setFld · 0 4 tsScrub)
    let h := (h.releaseAll t).clearCounters (h.partTiles t)
    h.modJob t (fun j => { j with step := RestartStep.scrub })
  else h

/-- f0_restart clears when every partition of an F0 restart is ready and the die's resources are in force again (R726). -/
def Hw.f0Settled (h : Hw) : Hw :=
  if h.f0Restart && !h.fault.reapply && !h.jobs.any (fun e => e.2.f0) then
    { h.modReg .ancFaultCond 0 0 (setBit · 7 false) with fault := { h.fault with f0Forwarded := false } }
  else h

/-- The scrub is over and the partition is ready (Table 16.5 step 5, R682): after a fault a relaunch follows while the launch has any
left, otherwise the partition is IDLE. -/
def Hw.restartReady (h : Hw) (t : Nat) : Hw :=
  if (h.job t).step == RestartStep.scrub then
    let h := (h.mem.zeroing.filter (fun p => (h.partTiles t).contains (p / 64))).foldl (fun h p => h.pageZeroDone p) h
    let us := h.restartUs t
    let h := h.modReg .tntRestartTime t 0 (setFld · 16 16 us)
    let h := h.vfEvent t 3
    let j := h.job t
    let h := h.modJob t (fun j => { j with step := RestartStep.none, f0 := false, doc := Option.none, tileMask := 0, doneSet := 0 })
    let h := h.f0Settled
    if (j.endCause = 3 ∨ j.endCause = 4) ∧ j.relaunches < j.relaunchMax then
      let h := h.modJob t (fun j => { j with relaunches := j.relaunches + 1, relaunching := true })
      { h.modReg .tntState t 0 (setFld · 0 4 tsAdmitting) with stw := { h.stw with launches := h.stw.launches ++ [64 + t] } }
    else (h.modReg .tntState t 0 (setFld · 0 4 tsIdle)).vfEvent t 1
  else h

/-- Die resources of a register: valid, with generation 0. -/
def Hw.dieOwned (h : Hw) (id : RegId) (valid : Nat) : List (Nat × Nat × Word) :=
  (h.regs.filter (fun e => decide (e.1.id = id) && bit e.2 valid && fld e.2 22 10 == 0)).map (fun e => (e.1.i, e.1.j, e.2))

/-- A flow of the image, or a default spill flow, crosses a mesh link that the F0 took out of use (R726, R158, R253). -/
def Hw.dieFlowCut (h : Hw) (die : Nat) : Bool :=
  match h.image.flows.find? (fun f => f.flow == die) with
  | some f => (h.flowLinks h.image f).isNone
  | none => h.mem.flows.any (fun f => f.flow == die && !f.plan && (h.xyRoute f.src f.dst).isNone)

/-- The anchor re-applies the image's die flows, channels, fold trees and syncs after the sweeps of an F0 restart (R726). A flow or
channel whose route crosses a link that is down, and a fold unit at a node that is out of use, stay disabled. -/
def Hw.f0Reapply (h : Hw) : Hw :=
  if h.fault.reapply && !h.jobs.any (fun e => e.2.f0 && (e.2.step == RestartStep.drain || e.2.step == RestartStep.sweep)) then
    let h := (h.dieOwned .bnFlowCfg 13).foldl (fun h x =>
      let off := h.flowCfgSet x.1 x.2.1 (setBit x.2.2 13 false)
      if h.dieFlowCut (fld x.2.2 0 13) then off else off.flowCfgSet x.1 x.2.1 x.2.2) h
    let h := { h with mem := { h.mem with flows := h.mem.flows.filter (fun f => f.plan || !h.dieFlowCut f.flow) } }
    let cut := h.image.channels.filter (fun c => h.chanBad h.image c)
    let h := (h.dieOwned .chCfg 15).foldl (fun h x =>
      if cut.any (fun c => c.channel == x.1) then h.chDisable x.1 else (h.chDisable x.1).chEnable x.1 x.2.2) h
    let h := (h.dieOwned .fldCfg 15).foldl (fun h x =>
      if h.usable x.1 then (h.foldClear x.1 x.2.1).foldEnable x.1 x.2.1 x.2.2 else h.foldClear x.1 x.2.1) h
    let sync (id : RegId) (base : Nat) (h : Hw) : Hw := (h.dieOwned id 15).foldl (fun h x =>
      (h.syncDisable (base + x.2.1)).setReg id anchorNode x.2.1 x.2.2) h
    let h := sync .snRimshotCfg 256 (sync .snBarrierCfg 0 h)
    { h with fault := { h.fault with reapply := false } }.f0Settled
  else h

end Sys2Proof.Machine
end

