-- ==== Sys2Proof/Machine/Steward.lean ====
section
/-! DEFINITION. Steward cores and the reference firmware's services (chapter 18): heartbeats, failure and takeover, the mailbox, the
services over mailbox and relay, VF interrupts, the machine timer, halts. -/

namespace Sys2Proof.Machine

/-! ## Heartbeats, failure and takeover -/

/-- STW_STATUS (Table 18.11). -/
def Hw.stwStatusWord (h : Hw) : Word := mkWord [(0, 5, h.stw.active), (8, 5, h.stw.failed), (16, 5, h.stw.halted)]

/-- Core k records a heartbeat (R778). -/
def Hw.heartbeat (h : Hw) (k : Nat) (v : Word) : Hw :=
  { h.setReg .stwHeartbeat k 0 (v &&& 0xFFFFFF00#32) with stw := { h.stw with fresh := h.stw.fresh ||| 2 ^ k } }

/-- A bar ends for the heartbeats of the active cores (R778): the age rises unless the heartbeat was written in this bar. -/
def Hw.heartbeatBar (h : Hw) : Hw :=
  let h := (List.range 5).foldl (fun h k =>
    if h.stw.active.testBit k && !h.stw.fresh.testBit k then h.modReg .stwHeartbeat k 0 (bumpFld · 0 8 1) else h) h
  { h with stw := { h.stw with fresh := 0 } }

/-- A number with one bit cleared. -/
def clearBit (m k : Nat) : Nat := if m.testBit k then m - 2 ^ k else m

/-- A duty passes to a core; none leaves it vacant (R781, R783). -/
def Hw.giveDuty (h : Hw) (d : Nat) (k : Option Nat) : Hw :=
  match k with
  | some k => { h.modReg .stwDuty 0 0 (setFld · (8 * d) 8 k) with stw := { h.stw with active := h.stw.active ||| 2 ^ k } }
  | none => h.modReg .stwDuty 0 0 (setFld · (8 * d) 8 0x80)

/-- The core that the takeover byte of a duty names, or the lowest that has not failed (R730, R783). -/
def Hw.takeover (h : Hw) (d : Nat) : Option Nat :=
  let named := ((h.image.steward.head?).map (fun s => s.takeover.getD d 0)).getD 0
  if !h.stw.failed.testBit named then some named else (List.range 5).find? (fun k => !h.stw.failed.testBit k)

/-- Core k fails (R779, R781, R905, R730): it is held in reset; its duties pass to S4 while that is free, else by the takeover table with
F0; the failure of an S4 without duties is logged. -/
def Hw.coreFail (h : Hw) (k : Nat) : Hw :=
  if h.stw.failed.testBit k then h
  else
    let duties := h.dutiesOf k
    let free := k != 4 && !h.stw.failed.testBit 4 && (h.dutiesOf 4).isEmpty
    let h := { h with stw := { h.stw with failed := h.stw.failed ||| 2 ^ k, active := clearBit h.stw.active k
                                          halted := clearBit h.stw.halted k } }
    let h :=
      if duties.isEmpty then (if k = 4 then h.logF2 else h)
      else if free then (duties.foldl (fun h d => h.giveDuty d (some 4)) h).logF2
      else
        let h : Hw := duties.foldl (fun (h : Hw) d => h.giveDuty d (h.takeover d)) h
        let h : Hw := if h.stw.active = 0 then h.modReg .bootStatus 0 0 (setBit · 10 false) else h
        h.raiseF0 0x4a (nodeOf 3 k) 0
    h.haltRefresh

/-- A core is checked: it is active, holds a duty and is not halted (R779, R780, R905). -/
def Hw.checkedCore (h : Hw) (k : Nat) : Bool :=
  h.stw.active.testBit k && !(h.dutiesOf k).isEmpty && !h.stw.halted.testBit k

/-- The age of a core's heartbeat has reached 4 (R779, R32). -/
def Hw.heartbeatFail (h : Hw) (k : Nat) : Hw :=
  if h.checkedCore k && decide (4 ≤ fld (h.reg .stwHeartbeat k) 0 8) then h.coreFail k else h

/-- An uncorrectable error in a core, or in the shared L2 or the firmware SRAM, found at a node (R774). -/
def Hw.coreUe (h : Hw) (core : Option Nat) (n : Nat) : Hw :=
  if !h.running then h
  else match core with
    | some k => h.coreFail k
    | none => h.raiseF0 0x4c n 0

/-! ## The timer -/

/-- STW_MTIME (R775). -/
def Hw.mtime (h : Hw) : Nat := (h.now - h.stw.mtime0) / 12 % 2 ^ 64

/-- STW_MTIMECMPk. -/
def Hw.mtimecmp (h : Hw) (k : Nat) : Nat := (h.reg .stwMtimecmpLo k).toNat + 2 ^ 32 * (h.reg .stwMtimecmpHi k).toNat

/-- The timer interrupt of core k stands as the compare has it (R775). -/
def Hw.timerRefresh (h : Hw) (k : Nat) : Hw :=
  { h with stw := { h.stw with mtip := if h.mtimecmp k ≤ h.mtime then h.stw.mtip ||| 2 ^ k else clearBit h.stw.mtip k } }

/-- STW_MTIME reaches the compare value of core k (R775). -/
def Hw.timerDue (h : Hw) (k : Nat) : Hw := if h.mtimecmp k ≤ h.mtime then h.timerRefresh k else h

/-! ## Halts -/

/-- Core k halts (R804, R805): FUS_DEBUG.hart_debug permits it. -/
def Hw.coreHalt (h : Hw) (k : Nat) : Hw :=
  if h.running && bit h.fusDebugEff 2 && !h.stw.failed.testBit k then
    { h with stw := { h.stw with halted := h.stw.halted ||| 2 ^ k } }.haltRefresh
  else h

/-- Core k resumes: its heartbeat's age restarts at 0 (R780, R806). -/
def Hw.coreResume (h : Hw) (k : Nat) : Hw :=
  if h.stw.halted.testBit k then
    ({ h with stw := { h.stw with halted := clearBit h.stw.halted k } }.modReg .stwHeartbeat k 0 (setFld · 0 8 0)).haltRefresh
  else h

/-- A write to STW_BREAK_CTL (R804, R805, R806, R208). -/
def Hw.breakWrite (h : Hw) (p : Path) (addr view : Nat) (r : Reg) (v : Word) : Hw :=
  if fld (viewValue .stwBreakCtl view (h.reg .stwBreakCtl) v) 0 2 = 3 then h.misuse p true 9 addr
  else (h.plainWrite p addr view r v).haltRefresh

/-! ## The mailbox and VF interrupts -/

/-- A write of STW_MBOX_DB (R789). -/
def Hw.mboxDoorbell (h : Hw) (p : Path) (v : Word) : Hw :=
  if !bit v 0 then h
  else if bit (h.reg .stwMboxStatus) 0 then h.modReg .stwMboxStatus 0 0 (setBit · 2 true)
  else h.modReg .stwMboxStatus 0 0 (fun w => setBit (setBit (setBit w 0 true) 1 false) 4 (p == .debug))

/-- A write to a request word (R789). -/
def Hw.mboxWrite (h : Hw) (p : Path) (addr view : Nat) (r : Reg) (v : Word) : Hw :=
  if bit (h.reg .stwMboxStatus) 0 then h.misuse p true 4 addr else h.plainWrite p addr view r v

/-- A steward write of STW_MBOX_DONE (R790). -/
def Hw.mboxDone (h : Hw) (v : Word) : Hw :=
  if bit v 0 then (h.modReg .stwMboxStatus 0 0 (fun w => setBit (setBit w 0 false) 1 true)).ringBell hostNode (2 ^ 17) else h

/-- A steward write of STW_VF_IRQ (R797). -/
def Hw.vfIrq (h : Hw) (p : Path) (addr : Nat) (v : Word) : Hw :=
  if fld v 8 5 < 4 then h.misuse p true 9 addr else h.vector (fld v 0 6 + 1) (fld v 8 5)

/-! ## Services -/

/-- The duty whose node an endpoint lies at (Table 18.2). -/
def dutyOf (n : Nat) : Option Nat := (List.range 4).find? (fun d => [13, 25, 22, 34].getD d 96 == n)

/-- The request that a service answers: in the mailbox, or the oldest message of a relay channel whose response channel has no response
waiting (R789, R791). Its holder works. -/
def Hw.request (h : Hw) (via : Option (Nat × Nat)) : Option (List Byte) :=
  match via with
  | none => if h.dutyRuns 0 && bit (h.reg .stwMboxStatus) 0
      then some ((List.range 16).flatMap (fun k => natLe 4 (h.reg .stwMbox k).toNat)) else none
  | some (c, r) =>
    let n := (h.chDst c).1
    if h.chValid c && (h.chSrc c).1 == hostNode && (dutyOf n).any h.dutyRuns && h.chValid r && (h.chSrc r).1 == n &&
        (h.chDst r).1 == hostNode && !h.chBlocking r && !h.stw.posts.any (fun e => e.1 == r) then
      ((h.chFifo c).head?).map (fun m => natLe 64 m.toNat)
    else none

/-- Post a response on a relay channel; CH_FULL leaves it to be posted again (R791). -/
def Hw.postReply (h : Hw) (r : Nat) (m : BitVec 512) : Hw :=
  match h.chSend (h.chSrc r).1 (h.chSrc r).2 none r m none with
  | (h, .full) => { h with stw := { h.stw with posts := h.stw.posts ++ [(r, m)] } }
  | (h, _) => h

/-- Responses that met CH_FULL are posted again, once per bar (R791). -/
def Hw.repost (h : Hw) : Hw :=
  h.stw.posts.foldl (fun h e => h.postReply e.1 e.2) { h with stw := { h.stw with posts := [] } }

/-- The response of a service (Table 18.4). -/
def replyBytes (req : List Byte) (status : Nat) (results : List Byte) : List Byte :=
  (req.take 4 ++ [BitVec.ofNat 8 status, 0#8, 0#8, 0#8] ++ results ++ List.replicate 56 0#8).take 64

/-- A service answers its request. -/
def Hw.reply (h : Hw) (via : Option (Nat × Nat)) (b : List Byte) : Hw :=
  match via with
  | none =>
    ((List.range 16).foldl (fun h k => h.setReg .stwMboxRsp k 0 (BitVec.ofNat 32 (u32 b (4 * k)))) h).mboxDone 1#32
  | some (c, r) =>
    ((h.chDequeue (h.chDst c).1 (h.chDst c).2 c false).1).postReply r (BitVec.ofNat 512 (leNat b))

/-- Service codes (Tables 18.5 and 19.13) and statuses (Table 18.6). -/
def serviceCodes : List Nat := [0x01, 0x10, 0x11, 0x12, 0x20, 0x40, 0x41]
def ssOk : Nat := 0
def ssBadService : Nat := 1
def ssBadArg : Nat := 2
def ssProtected : Nat := 3
def ssNvm : Nat := 4
def ssHost : Nat := 5

/-- What a service comes to: the state, its status, its results. -/
abbrev Served := Hw × Nat × List Byte

/-- Serve the request if it names the service; reserved bytes that are not 0 give BAD_ARG (R792, R793). -/
def Hw.serve (h : Hw) (via : Option (Nat × Nat)) (code : Nat) (f : Hw → List Byte → Served) : Hw :=
  match h.request via with
  | none => h
  | some b =>
    if u16 b 0 ≠ code then h
    else
      let r : Served := if leAt b 4 4 ≠ 0 then (h, ssBadArg, []) else f h b
      r.1.reply via (replyBytes b r.2.1 r.2.2)

/-- INFO (Table 18.5). -/
def Hw.serviceInfo (h : Hw) (via : Option (Nat × Nat)) : Hw :=
  h.serve via 0x01 (fun h _ =>
    (h, ssOk, natLe 4 (((h.image.steward.head?).map (·.fwVersion)).getD 0) ++ natLe 4 (h.reg .bootImageId).toNat ++
      natLe 4 (h.reg .stwDuty).toNat ++ natLe 4 h.stwStatusWord.toNat))

/-- A request for an unknown service (R793). -/
def Hw.serviceBad (h : Hw) (via : Option (Nat × Nat)) : Hw :=
  match h.request via with
  | none => h
  | some b => if serviceCodes.contains (u16 b 0) then h else h.reply via (replyBytes b ssBadService [])

/-- The die writes bytes to host memory with the PF's routing ID (R794). -/
def Hw.toHost (h : Hw) (a : Nat) (bs : List Byte) : Hw :=
  { h with host := { h.host with out := h.host.out ++ [⟨0, a, bs⟩] } }

/-- The largest transfer of NVM_READ and NVM_WRITE. -/
def mib : Nat := 2 ^ 20

/-- NVM_READ (R794): `ok` says that the host takes the data, `timeout` that an NVM command times out. -/
def Hw.serviceNvmRead (h : Hw) (via : Option (Nat × Nat)) (ok timeout : Bool) : Hw :=
  h.serve via 0x10 (fun h b =>
    let a := u32 b 8
    let n := u32 b 12
    if n = 0 ∨ mib < n ∨ h.nvm.size < a + n then (h, ssBadArg, [])
    else if h.nvmBlocked || timeout then (h, ssNvm, [])
    else if !ok || !h.hostReady then (h, ssHost, [])
    else (h.toHost (leAt b 16 8) (h.nvmRead a n), ssOk, []))

/-- A range overlaps the slot that the running image was loaded from (R795). -/
def Hw.overSlot (h : Hw) (a n : Nat) : Bool :=
  match h.slotPlace (fld (h.reg .bootSlot) 4 2) with
  | some (base, cap) => decide (a < base + cap) && decide (base < a + n)
  | none => false

/-- Program whole pages of an NVM write. -/
def Hw.nvmPages (h : Hw) (a : Nat) (bs : List Byte) : Hw :=
  { h with nvm := { h.nvm with cells := nvmProgram h.nvm.cells a bs } }

/-- What an NVM command that was cut off leaves behind is open. -/
def Hw.nvmSpoil (h : Hw) (a span : Nat) : Hw :=
  { h with nvm := { h.nvm with cells := nvmOpen span a h.free h.nvm.cells }, free := h.free + span }

/-- NVM_WRITE (R794, R795): `data` is what host memory holds; `stop` is the number of pages programmed before the run ends early, by a
host request that fails (true) or an NVM command that times out. -/
def Hw.serviceNvmWrite (h : Hw) (via : Option (Nat × Nat)) (data : List Byte) (stop : Option (Nat × Bool)) : Hw :=
  h.serve via 0x11 (fun h b =>
    let a := u32 b 8
    let n := u32 b 12
    let data := (data ++ List.replicate n 0xFF#8).take n
    if n = 0 ∨ mib < n ∨ n % 256 ≠ 0 ∨ a % 256 ≠ 0 ∨ h.nvm.size < a + n then (h, ssBadArg, [])
    else if u8 b 24 = 0 ∧ h.overSlot a n then (h, ssProtected, [])
    else if !h.hostReady then (h, ssHost, [])
    else if h.nvmBlocked then (h, ssNvm, [])
    else match stop with
      | none => (h.nvmPages a data, ssOk, [])
      | some (k, host) =>
        let k := Nat.min k (n / 256 - 1)
        let h := h.nvmPages a (data.take (256 * k))
        if host then (h, ssHost, []) else (h.nvmSpoil (a + 256 * k) 256, ssNvm, []))

/-- The erase commands of a range (R794): 64 KiB blocks where it allows, 4 KiB sectors elsewhere. -/
def eraseCmds : Nat → Nat → Nat → List (Nat × Nat)
  | 0, _, _ => []
  | k + 1, a, n =>
    if n = 0 then []
    else if a % 0x10000 = 0 ∧ 0x10000 ≤ n then (a, 0x10000) :: eraseCmds k (a + 0x10000) (n - 0x10000)
    else (a, 0x1000) :: eraseCmds k (a + 0x1000) (n - 0x1000)

/-- NVM_ERASE (R794, R795); `stop` is the number of erase commands that end before one times out. -/
def Hw.serviceNvmErase (h : Hw) (via : Option (Nat × Nat)) (stop : Option Nat) : Hw :=
  h.serve via 0x12 (fun h b =>
    let a := u32 b 8
    let n := u32 b 12
    if n % 4096 ≠ 0 ∨ a % 4096 ≠ 0 ∨ h.nvm.size < a + n then (h, ssBadArg, [])
    else if u8 b 24 = 0 ∧ h.overSlot a n then (h, ssProtected, [])
    else if h.nvmBlocked && n != 0 then (h, ssNvm, [])
    else
      let cmds := eraseCmds (n / 4096) a n
      let run (h : Hw) (xs : List (Nat × Nat)) : Hw :=
        xs.foldl (fun h x => { h with nvm := { h.nvm with cells := memClear h.nvm.cells x.1 x.2 } }) h
      match stop.bind (fun k => cmds[k]?) with
      | none => (run h cmds, ssOk, [])
      | some x => ((run h (cmds.take (stop.getD 0))).nvmSpoil x.1 x.2, ssNvm, []))

/-- RETIRE_SITE (R793, R516). -/
def Hw.serviceRetire (h : Hw) (via : Option (Nat × Nat)) : Hw :=
  h.serve via 0x20 (fun h b =>
    if 64 ≤ u8 b 8 then (h, ssBadArg, []) else (h.modReg .tpCfg (tileNode (u8 b 8)) 0 (setBit · 31 true), ssOk, []))

/-- The results of an observation service: bytes written and needed. -/
def written (k n : Nat) : List Byte := natLe 4 k ++ natLe 4 n

/-- COUNTER_DUMP (R844, R845). -/
def Hw.serviceDump (h : Hw) (via : Option (Nat × Nat)) (ok : Bool) : Hw :=
  h.serve via 0x40 (fun h b =>
    if 2 ≤ u8 b 8 ∨ 2 ≤ u8 b 10 ∨ (u8 b 8 = 1 ∧ 64 ≤ u8 b 9) then (h, ssBadArg, [])
    else
      let dump := h.counterDump (if u8 b 8 = 1 then some (u8 b 9) else none) (u8 b 10 == 1)
      if u32 b 24 < dump.length then (h, ssBadArg, written 0 dump.length)
      else if !ok || !h.hostReady then (h, ssHost, [])
      else (h.toHost (leAt b 16 8) dump, ssOk, written dump.length dump.length))

/-- HANG_REPORT (R844, R845). -/
def Hw.serviceHang (h : Hw) (via : Option (Nat × Nat)) (ok : Bool) : Hw :=
  h.serve via 0x41 (fun h b =>
    match (h.obs.reports.filter (fun r => u8 b 8 == 0xff || r.1 == u8 b 8)).getLast? with
    | none => (h, ssBadArg, [])
    | some r =>
      let cut := cutReport r.2 (u32 b 24)
      if !ok || !h.hostReady then (h, ssHost, [])
      else ((if cut.isEmpty then h else h.toHost (leAt b 16 8) cut), ssOk, written cut.length r.2.length))

end Sys2Proof.Machine
end

