-- ==== Sys2Proof/Machine/Bringup.lean ====
section
/-! DEFINITION. From the applied image to RUN (chapter 3): a fault while applying, the slab scrub, the entry into RUN, fw_ready. -/

namespace Sys2Proof.Machine

/-- The registers that applying an image programs. -/
def appliedRegs : List RegId :=
  [.bnRouteTbl, .bnPhase, .bnFlowCfg, .bnFlowRate, .bnFlowBound, .bnFlowPhase, .bnFlowState, .chEpt, .chEp, .chCfg, .chStatus, .chStore,
   .fldFmt, .fldLink, .fldCfg, .fldStatus, .fldBlocks, .cqGroupCfg, .cqGroupFlow, .cqStatus, .cqRingCfg, .cqRingFlow, .cqRingStatus,
   .cqSeqCfg, .cqSeqScope, .cqSeqStatus, .snJoin, .snRing, .snBarrierCfg, .snBarrierStatus, .snRimshotCfg, .snRimshotStatus,
   .tntPartCfgLo, .tntPartCfgHi, .tntState, .slbHbase, .slbHmap, .slbHlease, .pwaBudget, .pwaWindow, .pwaDroopCfg, .pwaShareLo,
   .pwaShareHi, .lnkRetryCfg, .ancLock, .bootImageId]

/-- An uncorrectable error while applying an image (R127): what was applied is cleared, the attempt fails with APPLY_FAULT, and the
loader goes on to the next slot. -/
def Hw.applyFault (h : Hw) : Hw :=
  if h.dieState = stBoot ∧ h.boot.applied then
    let h := h.dropRegs (fun r => appliedRegs.contains r.id)
    let h := { h with doc := none, bnet := {}, cnet := {}, snet := {}, fold := {}, mem := { h.mem with flows := [] }
                      coll := {}, boot := { h.boot with applied := false } }
    let h := h.modReg .bootSlot 0 0 (setFld · 4 2 0)
    let h := h.modReg .bootStatus 0 0 (fun w => setBit (setFld w 16 8 0) 8 false)
    h.failSlot 0x5c 0xff 0
  else h

/-- The slab scrub of a warm reset finishes (R101). -/
def Hw.scrubDone (h : Hw) : Hw :=
  if h.boot.scrubbed then h
  else { h with boot := { h.boot with scrubbed := true }, mem := { h.mem with slab := [], zeroing := [] } }

/-- The stewards start (R98, R124, R126): S0 to S3 are released, S4 in place of one that is masked or failed BIST. -/
def Hw.releaseStewards (h : Hw) : Hw :=
  let out := h.stewardsOut
  let lost := (List.range 4).filter (fun k => out.testBit k)
  let act : Nat := (List.range 4).foldl (fun (m : Nat) (k : Nat) => if out.testBit k then m else m + 2 ^ k) 0
  let h : Hw := { h with stw := { h.stw with failed := out, active := act } }
  lost.foldl (fun h d => h.giveDuty d (some 4)) h

/-- The torus ports that the image uses start their training (R128). -/
def Hw.startPorts (h : Hw) : Hw :=
  ((List.range 6).filter (fun p => h.topo.portEnable.testBit p)).foldl (fun h p => (h.setLinkState p lsTraining).phyTrain p true) h

/-- BOOT_TIME: whole µs, rounded up and saturated, since the cold-reset cause ended or the warm reset started (R137, R140). A µs has 2,400 FCLK
cycles. -/
def Hw.bootTime (h : Hw) : BitVec 32 := BitVec.ofNat 32 (min 4294967295 (cdiv (h.now - h.rst.start) 2400))

/-- The arbiter starts in this cycle when it is the first of a window (R742). -/
def Hw.firstWindow (h : Hw) : Hw :=
  if h.bar.phase == 0 && h.bar.rest == 0 && h.bar.bar.toNat % 16 == 0 then h.powerBar else h

/-- The die enters RUN (R124): the image is applied and the slabs are scrubbed. The arbiter starts at once where a window begins in this
cycle (R742). A follower of the downbeat is not aligned until a measurement says so (R60). -/
def Hw.runEntry (h : Hw) : Hw :=
  if h.dieState = stBoot ∧ h.boot.applied ∧ h.boot.scrubbed then
    let h := h.setPhase 8
    let h := h.setReg .bootTime 0 0 h.bootTime
    let h := (h.setDieState stRun).releaseStewards.startPorts
    let h := if h.isSource then h else h.modReg .clkStatus 0 0 (setBit · 16 false)
    ({ h with bar := { h.bar with lostBars := 0 } } : Hw).firstWindow
  else h

/-- Firmware accepts launches (R129): BOOT_STATUS.fw_ready, and the PF hears of it. -/
def Hw.fwReady (h : Hw) : Hw :=
  if h.running && h.stw.active != 0 && !bit (h.reg .bootStatus) 10 then (h.modReg .bootStatus 0 0 (setBit · 10 true)).pfEvent 1 else h

end Sys2Proof.Machine
end

