-- ==== Sys2Proof/Machine/Bar.lean ====
section
/-! DEFINITION. The bar counter (R56 to R62, R893) and what happens at the end and the start of a bar. -/

namespace Sys2Proof.Machine

/-- CH_STALL_CNT counts the CCLK cycles, each two FCLK cycles, in which a blocking send waits for a credit (R310). -/
def Hw.stallTime (h : Hw) (k : Nat) : Hw :=
  let d := (h.now + k) / 2 - h.now / 2
  (h.cnet.stalled.filter (fun e => !e.2.isEmpty && h.chCredits e.1 == 0 && h.chBlocking e.1)).foldl
    (fun (h : Hw) e => h.chCount .chStallCntLo .chStallCntHi e.1 d) h

/-- Time passes: k FCLK cycles. -/
def Hw.advance (h : Hw) (k : Nat) : Hw :=
  let h := (h.observeTime k).stallTime k
  { h with now := h.now + k }

/-- The TCLK count of a tile in a bar (R72, R73). A site that fuses mask is not measured. `tclkBad` counts bars out of range: 2 when R73
is due, 3 once it has acted in this run. -/
def Hw.tclkBar (h : Hw) (i count : Nat) : Hw :=
  let n := tileNode i
  if h.nodeMasked n then h
  else
    let ok := decide (845 ≤ count ∧ count ≤ 3447)
    let h := h.setReg .nodeTclkMeas n 0 (mkWord [(0, 13, count), (16, 1, b2n ok), (17, 1, b2n (count == 0))])
    let h := h.modReg .tpCond n 0 (setBit · 8 ok)
    h.modPort i (fun p => { p with tclkBad := if ok then 0 else if p.tclkBad < 2 then p.tclkBad + 1 else p.tclkBad })

/-- TCLK has been out of range in two consecutive bars (R73): tclk_range, a reset of the tile port, and F1 for the partition that holds
the site. -/
def Hw.tclkOutOfRange (h : Hw) (i : Nat) : Hw :=
  if (h.port i).tclkBad = 2 then
    let h := h.modReg .clkEvt 0 0 (setBit · 18 true)
    let h := (h.tileF1 i 0x0a 0).tilePortReset i
    h.modPort i (fun p => { p with tclkBad := 3 })
  else h

/-- The bar counts of a tile port: the wait for its release, the leak of its violations, its drain, its counter-report window. -/
def Hw.portBar (h : Hw) (i : Nat) : Hw :=
  h.modPort i (fun p => { p with
    launch := p.launch.map (· + 1)
    leak := if h.portUp i && fld (h.reg .tpViolLimit (tileNode i)) 16 8 != 0 then p.leak + 1 else p.leak
    drainBars := if h.portState i == psDraining then p.drainBars + 1 else p.drainBars
    winBars := p.winBars - 1 })

/-- The bar counts of a torus port. -/
def Hw.linkBar (h : Hw) (p : Nat) : Hw :=
  if fld (h.reg .lnkPortCfg p) 8 8 = 0 then h else h.modLink p (fun l => { l with leak := l.leak + 1 })

/-- What the end of a bar does, in its last cycle. `tclk` gives the TCLK counts of tile sites (a site that is not listed keeps the count
of the bar before), `lanes` what the receiving lanes measured. DEDUCED (log entry 35). -/
def Hw.barEnd (h : Hw) (tclk : List (Nat × Nat)) (lanes : List LaneMeas) : Hw :=
  let h := (tclk.foldl (fun (h : Hw) x => h.tclkBar x.1 x.2) h)
  let seen := tclk.map (·.1)
  let h := ((List.range 64).filter (fun i => !seen.contains i)).foldl
    (fun (h : Hw) i => h.tclkBar i (fld (h.reg .nodeTclkMeas (tileNode i)) 0 13)) h
  let h := lanes.foldl (fun (h : Hw) m => h.laneBar m) h
  let h := (List.range 6).foldl (fun (h : Hw) p => (h.sleepBar p).linkBar p) h
  let h := (List.range 64).foldl (fun (h : Hw) i => h.portBar i) h
  let h : Hw := { h with jobs := h.jobs.map (fun e => (e.1, { e.2 with startBar := e.2.startBar.map (· + 1) })) }
  h.linkErrorBar.heartbeatBar.ageWaits.phaseBar

/-- The rest cycles chosen after a bar (R58, R59, R61, R374). -/
def Hw.restChoice (h : Hw) : Nat :=
  if h.isSource then 1
  else match h.bar.jumpTo with
    | some j => j.2
    | none => if bit (h.reg .snDbStatus anchorNode) 0 then 1 else (1 + min (max h.bar.e (-1)) 2).toNat

/-- The choice of the rest cycles after a bar takes effect: the remaining error falls (R59), or the counter jumps (R61). -/
def Hw.restBegins (h : Hw) : Hw :=
  let c := h.restChoice
  match (if h.isSource then none else h.bar.jumpTo) with
  | some j =>
    let first := !h.bar.jumped
    let h := { h with bar := { h.bar with c := c, e := 0, jumped := true, jumpTo := none, target := some j.1 } }
    let h := h.modReg .clkEvt 0 0 (setBit · 17 true)
    if first then h else h.raiseF0 0x49 anchorNode 0
  | none => { h with bar := { h.bar with c := c, e := if h.isSource then 0 else h.bar.e - ((c : Int) - 1), jumpTo := none } }

/-- What the start of a bar does, in its first cycle: the new bar number, the bars without a BEAT (R374), the regulators (R256), the power
window (R742), responses posted again (R791). -/
def Hw.barStart (h : Hw) : Hw :=
  let num := h.bar.target.getD ((h.bar.bar.toNat + 1) % 2 ^ 48)
  let lost := if h.running && !h.isSource then (if h.bar.beatSeen then 0 else h.bar.lostBars + 1) else 0
  let h : Hw := { h with bar := { h.bar with bar := BitVec.ofNat 48 num, phase := 0, rest := 0, target := none, beatSeen := false, lostBars := lost } }
  let h := if h.isSource then h else h.modReg .snDbStatus anchorNode 0 (setFld · 16 16 (min 65535 lost))
  let h := h.tokenRefill.repost
  if h.running then h.firstWindow else h

/-- A bar ends (R56 to R61): time passes to its last cycle, and then through the rest cycles that follow; the next bar begins. With
`rest` the block stays in that rest cycle, if the bar is followed by as many. In a rest cycle, the command goes on to the next bar. -/
def Hw.barBoundary (h : Hw) (tclk : List (Nat × Nat)) (lanes : List LaneMeas) (rest : Nat) : Hw :=
  if !h.bar.running || h.dieState == stClockLost then h
  else if h.bar.rest = 0 then
    let h := h.advance (4096 - h.bar.phase)
    let h : Hw := { h with bar := { h.bar with phase := 4095 } }
    let h := (h.barEnd tclk lanes).restBegins
    if rest ≠ 0 ∧ rest ≤ h.bar.c then
      let h := h.advance (rest - 1)
      { h with bar := { h.bar with rest := rest } }
    else (h.advance h.bar.c).barStart
  else (h.advance (h.bar.c + 1 - h.bar.rest)).barStart

/-- One FCLK cycle passes while no command waits: within a bar up to its last cycle, which only BAR_BOUNDARY ends, and through rest
cycles into the next bar. DESIGN CHOICE (log entry 2). -/
def Hw.tick (h : Hw) : Hw :=
  if !h.bar.running || h.dieState == stClockLost then { h with now := h.now + 1 }
  else if h.bar.rest = 0 then
    if h.bar.phase < 4095 then
      let h := h.advance 1
      { h with bar := { h.bar with phase := h.bar.phase + 1 } }
    else h
  else
    let h := h.advance 1
    if h.bar.rest < h.bar.c then { h with bar := { h.bar with rest := h.bar.rest + 1 } } else h.barStart

end Sys2Proof.Machine
end

