-- ==== Sys2Proof/Machine/Read.lean ====
section
/-! DEFINITION. Register reads with their side effects (R194, R199, R202, R223, R227), and the registers whose words are computed
from the rest of the state. -/

namespace Sys2Proof.Machine

/-- TP_PAGE word w of a tile: its slab pages that the tenant's current generation holds (R470). -/
def Hw.pageWord (h : Hw) (i w : Nat) : Word :=
  BitVec.ofNat 32 ((List.range 32).foldl (fun (m : Nat) b => if h.lanePage i (32 * w + b) then m + 2 ^ b else m) 0)

/-- TPF_LINES: the sideband levels at the pads (Table 11.11). Each handshake of the tile completes within its command, so the lines of a
power request and the acknowledge of a grant read 0. -/
def Hw.linesWord (h : Hw) (i : Nat) : Word :=
  let c := h.reg .tpCond (tileNode i)
  mkWord [(0, 1, b2n (bit c 9)), (1, 1, b2n (bit c 10)), (2, 1, b2n (bit c 11)), (3, 1, b2n (bit c 11)),
    (6, 1, b2n (h.port i).grantOut.isSome), (8, 1, b2n (bit c 12))]

/-- CQ_STATUS of a slot: its stored fields with state and queued (Table 10.11). -/
def Hw.cqStatusWord (h : Hw) (n k : Nat) : Word :=
  let i := nodeInst n
  let held := ((h.port i).ccx.filter (fun c => c.slot == k && c.phase == 0)).length
  setFld (setFld (h.reg .cqStatus n k) 12 4 (h.cqState i k)) 16 5 held

/-- SLB_USE of a tenant: the pages and slots that it holds (Table 12.5). -/
def Hw.slabUseWord (h : Hw) (t : Nat) : Word :=
  let held (id : RegId) : Nat := (h.regs.filter (fun e => decide (e.1.id = id) && bit e.2 15 && fld e.2 16 6 == t)).length
  mkWord [(0, 13, held .slbLease), (16, 16, held .slbHlease)]

/-- MEM_ZERO_STATUS of memory node Mi: granules still to zero in held units (R533). -/
def Hw.zeroWord (h : Hw) (m : Nat) : Word :=
  let todo := (h.regs.filter (fun e => decide (e.1.id = RegId.slbHzero) && e.1.i / 4096 == m && bit (h.reg .slbHlease e.1.i) 15)).map
    (fun e => popCount 32 e.2.toNat)
  mkWord [(0, 16, min 65535 todo.sum)]

/-- HST_JOB_STATUS of a tenant (Tables 15.8 and 16.1). -/
def Hw.jobWord (h : Hw) (t : Nat) : Word :=
  let j := h.job t
  let s := h.tntState t
  let state := if s = tsNone ∨ s = tsIdle then 0 else if s = tsAdmitting then 1 else if s = tsQuiesce ∨ s = tsScrub then
    (if j.endCause = 1 ∨ j.endCause = 2 then 4 else 3) else 2
  mkWord [(0, 3, state), (8, 3, j.endCause), (16, 10, h.gen t), (28, 4, j.relaunches)]

/-- The tenants whose launches, stops and job ends a duty handles (Table 18.2). -/
def dutyTenants (d : Nat) : List Nat := (List.range 64).filter (fun t => launchDuty t == d)

/-- STW_CAUSEk (Table 18.2): the sources of the duties that the core holds. -/
def Hw.causeWord (h : Hw) (k : Nat) : Word :=
  let ds := h.dutiesOf k
  let job (t : Nat) : Bool := bit (h.reg .hstLaunchStatus t) 8 || (h.job t).stopHeld || bit (h.reg .tntState t) 10
  let faults := h.stw.active.testBit k && (List.range 64).any (fun t => h.reg .tntFaultEvt t != 0#32)
  mkWord [(0, 1, b2n (ds.contains 0 && bit (h.reg .stwMboxStatus) 0)),
    (1, 1, b2n (ds.any (fun d => (dutyTenants d).any job))),
    (2, 1, b2n (ds.any (fun d => h.reg .nodeBell (nodeOf 3 d) != 0#32))),
    (3, 1, b2n faults),
    (4, 1, b2n (ds.contains 3 && bit (h.reg .pmcHangStatus) 0)),
    (5, 1, b2n (ds.contains 3 && h.frozen))]

/-- STW_LAUNCH_PENDw. -/
def Hw.launchPendWord (h : Hw) (w : Nat) : Word :=
  BitVec.ofNat 32 ((List.range 32).foldl (fun (m : Nat) b => if bit (h.reg .hstLaunchStatus (32 * w + b)) 8 then m + 2 ^ b else m) 0)

/-- STW_DRAIN_STATUS (Table 18.11). -/
def Hw.drainWord (h : Hw) : Word :=
  let cores := (List.range 5).filter (fun k => h.stw.halted.testBit k && !(h.dutiesOf k).isEmpty)
  let parts := (List.range 64).filter (fun t => h.tntState t == tsHalted)
  let ports := parts.flatMap (fun t => (h.partTiles t).filter (fun i => h.portUp i))
  mkWord [(0, 5, cores.foldl (fun m k => m + 2 ^ k) 0), (8, 1, b2n (!parts.isEmpty)),
    (9, 1, b2n (!parts.isEmpty && ports.all (fun i => h.portState i == psDrained))), (16, 8, parts.length)]

/-- ANC_FAULT_COND (Table 16.9). -/
def Hw.faultCondWord (h : Hw) : Word :=
  let w := h.reg .ancFaultCond
  let w := setBit w 0 (h.dieState == stClockLost)
  let w := setBit w 1 (h.stw.failed.testBit 4 || !(h.dutiesOf 4).isEmpty)
  let w := setBit w 2 (h.running && h.stw.active == 0)
  let w := setBit w 5 ((List.range 6).any (fun p => h.linkState p == lsDown))
  setBit w 6 ((List.range 64).any (fun t => h.tntState t == tsQuiesce || h.tntState t == tsScrub))

/-- IRQ_PF_PEND and IRQ_VF_PEND (R853): vectors requested and not yet sent. -/
def Hw.pendWord (h : Hw) (fn : Nat) : Word :=
  BitVec.ofNat 32 ((List.range 32).foldl (fun (m : Nat) v => if h.host.requested.contains (fn * 32 + v) then m + 2 ^ v else m) 0)

/-- PMC_BIN_STATUS of a tile node: valid bins. -/
def Hw.binsWord (h : Hw) (n : Nat) : Word :=
  BitVec.ofNat 32 ((List.range 32).foldl (fun (m : Nat) b => if bit (h.reg .pmcBinCmds n b) 31 then m + 2 ^ b else m) 0)

/-- The reason for which an engine stalls in this cycle, 0 for none (R816). -/
def Hw.reasonNow (h : Hw) (n e : Nat) : Nat := fld ((h.liveWait n e).getD 0 0#32) 0 4

/-- BIST has initialised and trained the HBM stacks (Table 3.2). -/
def Hw.hbmTrained (h : Hw) : Bool := stBoot ≤ h.dieState

/-- The value a path reads in a register word, before any side effect of the read. -/
def Hw.value (h : Hw) (p : Path) (r : Reg) : Word :=
  let d := r.id.desc
  match r.id with
  | .nodeId => nodeIdWord r.i (h.nodeMasked r.i)
  | .bnLinkStatus => (h.reg .bnLinkStatus r.i &&& 0xF0#32) ||| mkWord [(8, 4, linkExists r.i), (0, 4, h.linksUp 0 r.i)]
  | .fusDebug => h.fusDebugEff
  | .clkStatus => setBit (h.reg .clkStatus) 17 h.namedSource
  | .clkBarLo => BitVec.ofNat 32 h.bar.bar.toNat
  | .clkBarHi => (h.path p).barHi
  | .clkBarPhase => mkWord [(12, 2, if h.bar.rest = 0 then h.bar.c else h.bar.rest), (0, 12, h.bar.phase)]
  | .clkBarErr => mkWord [(16, 2, h.bar.c), (0, 12, ofSigned 12 (max (-2047) (min 2047 h.bar.e)))]
  | .idxAddr => (h.path p).idxAddr
  | .idxCtl => (h.path p).idxCtl
  | .idxStatus => mkWord [(0, 1, b2n (h.path p).idxWrite.isSome)]
  | .idxEvt => (h.path p).idxEvt
  | .ancMisuseAddr => (h.path p).misuseAddr
  | .ancFaultCond => h.faultCondWord
  | .tpPage => h.pageWord (nodeInst r.i) r.j
  | .tpOut => mkWord [(0, 7, (h.port (nodeInst r.i)).cmds.length), (16, 5, ((h.port (nodeInst r.i)).ccx.filter (fun c => c.phase == 0)).length)]
  | .tpfState => mkWord [(0, 4, h.portState (r.i % 256)), (8, 1, b2n (!h.portUp (r.i % 256)))]
  | .tpfLines => h.linesWord (r.i % 256)
  | .tpfCredits => let q := h.port (r.i % 256); mkWord [(0, 8, q.co), (8, 8, q.fo), (16, 8, q.ci)]
  | .cqStatus => h.cqStatusWord r.i r.j
  | .slbLease => setBit (setBit (h.reg .slbLease r.i) 13 (h.pageRetired r.i)) 14 (h.mem.zeroing.contains r.i)
  | .slbHlease => setBit (setBit (h.reg .slbHlease r.i) 13 (h.unitRetired r.i)) 14 (h.reg .slbHzero r.i != 0#32)
  | .slbUse => h.slabUseWord r.i
  | .slbScrub => setBit (h.reg .slbScrub r.i) 15 (h.mem.zeroing.any (fun q => q / 64 == nodeInst r.i))
  | .memZeroStatus => h.zeroWord (nodeInst r.i)
  | .memPhyPair => Config.hbmPhy r.i h.now &&& 0xFFFF00#32 ||| mkWord [(0, 1, b2n h.hbmTrained)]
  | .memPhyStack => Config.hbmPhy r.i h.now &&& 0xFFFFFF00#32 |||
      mkWord [(0, 1, b2n h.hbmTrained), (1, 1, b2n (bit (h.reg .clkStatus) (8 + r.i % 16)))]
  | .phyFfe => if r.j = 3 then 0x40#32 else h.reg .phyFfe r.i r.j
  | .phyPortStatus => h.phyStatusWord r.i
  | .lnkPortStatus => h.linkStatus r.i
  | .lnkSeqStatus => h.linkSeqWord r.i
  | .lnkSeqRx => h.linkRxWord r.i
  | .lnkCredit => h.linkCreditWord r.i
  | .hstJobStatus => h.jobWord r.i
  | .pwaStatus => setBit (h.reg .pwaStatus) 18 ((List.range 16).any (fun k => bit h.gateWord k))
  | .pwaGate => h.gateWord
  | .pwaTile => h.pwaTileWord r.i
  | .stwStatus => h.stwStatusWord
  | .stwDrainStatus => h.drainWord
  | .stwMtimeLo => BitVec.ofNat 32 h.mtime
  | .stwCause => h.causeWord r.i
  | .stwLaunchPend => h.launchPendWord r.i
  | .pmcStatus => mkWord [(0, 3, fld (h.reg .snGongStatus anchorNode) 0 3)]
  | .pmcTntStatus => mkWord [(0, 1, b2n (h.countsTenant r.i))]
  | .pmcWait => (h.liveWait r.i (r.j / 4)).getD (r.j % 4) 0#32
  | .pmcStallReason => setFld (h.reg .pmcStallReason r.i r.j) 0 4 (h.reasonNow r.i r.j)
  | .pmcBinStatus => h.binsWord r.i
  | .irqPfPend => h.pendWord 0
  | .irqVfPend => h.pendWord (r.i + 1)
  | _ =>
    match d.access with
    | .wo | .grd => 0#32
    | _ => if d.half == .hi then sget (h.path p).hold r 0#32 else h.reg r.id r.i r.j

/-- The high word that a read of a low word latches (R202). -/
def Hw.highWord (h : Hw) (r : Reg) : Word :=
  match r.id with
  | .stwMtimeLo => BitVec.ofNat 32 (h.mtime / 2 ^ 32)
  | _ => h.reg r.id.other r.i r.j

/-- The side effect of a register read in the normal view: an event register clears (R194), ANC_MISUSE_EVT latches the address
of the reported misuse (R223), a low word latches the high word (R202), CLK_BAR_LO latches CLK_BAR_HI (R87). -/
def Hw.readEffect (h : Hw) (p : Path) (r : Reg) : Hw :=
  match r.id with
  | .idxEvt => h.setPath p { h.path p with idxEvt := 0#32 }
  | .ancMisuseEvt =>
    let at' := if fld (h.reg .ancMisuseEvt) 24 8 = 0 then 0#32 else h.fault.misuseAt
    let h := h.setReg .ancMisuseEvt 0 0 0#32
    h.setPath p { h.path p with misuseAddr := at' }
  | .clkBarLo => h.setPath p { h.path p with barHi := BitVec.ofNat 32 (h.bar.bar.toNat / 2 ^ 32) }
  | _ =>
    match r.id.desc.access with
    | .rc => h.setReg r.id r.i r.j 0#32
    | _ =>
      if r.id.desc.half == .lo then
        let hi : Reg := ⟨r.id.other, r.i, r.j⟩
        h.setPath p { h.path p with hold := sset Reg.lt (h.path p).hold hi (h.highWord r) 0#32 }
      else h

end Sys2Proof.Machine
end

