-- ==== Sys2Proof/Machine/Idx.lean ====
section
/-! DEFINITION. Indirect registers behind IDX (R216 to R222, R857, R897), and 32-bit reads of every path (R188, R190, R227, R852, R896). -/

namespace Sys2Proof.Machine

/-- Registers of the indirect space (Table 20.5). -/
def farRegs : List RegId :=
  [.phyLaneStatus, .phyEqCfg, .phyGainCfg, .phyEvm, .phyQual, .phyFreq, .phyLaneEvt, .phyFfe, .phyDfe, .phyPortStatus, .phyPortCfg,
   .phyTxLanes, .phyRxLanes, .phyRxIsol, .phyTxIsol, .phyPeerFuse, .phySyncCfg, .phyPreambleCfg, .phyRampCfg, .phySleepBars, .phyPortEvt,
   .phyTrainTime, .tpfState, .tpfLines, .tpfCredits, .tpfEcc, .memPhyPair, .memPhyStack]

/-- The register at an offset of a port and lane. -/
def findFar (port lane off : Nat) : Option Reg :=
  farRegs.findSome? (fun id =>
    let d := id.desc
    let step := if d.s2 = 0 then 4 else d.s2
    if d.port0 ≤ port ∧ port < d.port0 + d.ports ∧ d.lane0 ≤ lane ∧ lane < d.lane0 + d.lanes ∧ d.base ≤ off ∧ (off - d.base) % step = 0 ∧
        (off - d.base) / step < d.n2 then some ⟨id, port * 256 + lane, (off - d.base) / step⟩ else none)

/-- A port and lane that Table 5.5 assigns. -/
def farLane (port lane : Nat) : Bool :=
  if port < 6 then lane < 18 || lane == 255
  else if port = 6 then lane < 64
  else port == 7 && (lane < 96 || (decide (0xf0 ≤ lane) && decide (lane < 0xf6)))

/-- The privilege region of a far space (Table 5.5). -/
def farRegion (port : Nat) : Nat := if port < 6 then 20 else if port = 6 then 21 else 22

/-- The far side answers: the tile site is neither masked nor failed, the HBM PHY is not mapped out (R220). -/
def Hw.farThere (h : Hw) (port lane : Nat) : Bool :=
  if port = 6 then !h.nodeMasked (tileNode lane) && !h.health.tileFail.testBit lane
  else if port = 7 then (if lane < 96 then h.pairUsable lane else (List.range 16).any (fun q => h.pairUsable ((lane - 0xf0) * 16 + q)))
  else true

/-- The checks of an IDX_DATA access in the order of R897: the register, or the misuse cause of the first failure. -/
def Hw.idxCheck (h : Hw) (p : Path) (write : Bool) : Except Nat Reg :=
  let a := (h.path p).idxAddr
  let port := fld a 20 4
  let lane := fld a 12 8
  let off := fld a 0 12
  if off % 4 ≠ 0 ∨ !farLane port lane then .error 0x0b
  else match findFar port lane off with
    | none => .error 0x03
    | some r =>
      if write && !h.mayWrite p (farRegion port) false then .error 0x02
      else if !write && !h.mayRead p (farRegion port) then .error 0x01
      else if !h.farThere port lane then .error 0x0b
      else .ok r

/-- IDX_ADDR.offset advances after an IDX_DATA access (R219). -/
def Hw.idxAdvance (h : Hw) (p : Path) : Hw :=
  let s := h.path p
  if bit s.idxCtl 0 then
    h.setPath p { s with idxAddr := setFld s.idxAddr 0 12 (fld s.idxAddr 0 12 + (if bit s.idxCtl 1 then 8 else 4)) }
  else h

/-- An IDX_DATA access that makes no far access: its event, its misuse and its answer (R220, R222, R857). -/
def Hw.idxRefuse (h : Hw) (p : Path) (write : Bool) (cause addr : Nat) : Hw :=
  let h := h.setPath p { h.path p with idxEvt := setBit (h.path p).idxEvt (if cause = 1 ∨ cause = 2 then 2 else 0) true }
  let h := h.misuse p write cause addr
  let fault := (cause == 1 || cause == 2) && (match p with | .steward _ => true | .debug => true | _ => false)
  if write then h.setPath p { h.path p with accessFault := fault } else h.refuse p fault

/-- The far register's value returns and completes the path's read (R218). -/
def Hw.idxFarReadDone (h : Hw) (p : Path) : Hw :=
  match (h.path p).idxRead with
  | none => h
  | some a =>
    let h := h.setPath p { h.path p with idxRead := none }
    match findFar (a / 2 ^ 20 % 16) (a / 2 ^ 12 % 256) (a % 2 ^ 12) with
    | some r => (h.readEffect p r).answer p (h.value p r)
    | none => h

/-- A write to a far register is performed there: access type, lock, the register's own rules (R196, R208, R604). -/
def Hw.farWrite (h : Hw) (p : Path) (r : Reg) (v : Word) (addr : Nat) : Hw :=
  if !r.id.writable then h.misuse p true 4 addr
  else
    let x := h.lockFilter p addr r.id (h.reg r.id r.i r.j) (viewValue r.id 0 (h.reg r.id r.i r.j) v)
    x.1.phyRegWrite p addr r v x.2

/-- The address of IDX_DATA as a path issues it. -/
def idxDataAddr : Nat := 0x4008

/-- A posted far write is performed (R218). -/
def Hw.idxFarWriteDone (h : Hw) (p : Path) : Hw :=
  match (h.path p).idxWrite with
  | none => h
  | some (a, v) =>
    let h := h.setPath p { h.path p with idxWrite := none }
    match findFar (a / 2 ^ 20 % 16) (a / 2 ^ 12 % 256) (a % 2 ^ 12) with
    | some r => h.farWrite p r v idxDataAddr
    | none => h

/-- A far access is abandoned (R221). -/
def Hw.idxTimeout (h : Hw) (p : Path) : Hw :=
  let s := h.path p
  if s.idxRead.isSome then
    (h.setPath p { s with idxRead := none, idxEvt := setBit s.idxEvt 1 true }).answer p 0xFFFFFFFF#32
  else if s.idxWrite.isSome then h.setPath p { s with idxWrite := none, idxEvt := setBit s.idxEvt 1 true }
  else h

/-- A read of IDX_DATA that has reached the IDX block (R218, R219). -/
def Hw.idxRead (h : Hw) (p : Path) (addr : Nat) : Hw :=
  (match h.idxCheck p false with
   | .ok _ => h.setPath p { h.path p with idxRead := some (h.path p).idxAddr.toNat }
   | .error c => h.idxRefuse p false c addr).idxAdvance p

/-- A write of IDX_DATA that has reached the IDX block (R218, R219): posted. -/
def Hw.idxPost (h : Hw) (p : Path) (addr : Nat) (v : Word) : Hw :=
  (match h.idxCheck p true with
   | .ok _ => h.setPath p { h.path p with idxWrite := some ((h.path p).idxAddr.toNat, v) }
   | .error c => h.idxRefuse p true c addr).idxAdvance p

/-- Registers of a path's IDX set. -/
def idxRegs : List RegId := [.idxAddr, .idxCtl, .idxData, .idxStatus, .idxEvt]

/-- A host path reaches the die unless the PF is in D3hot (R658). -/
def Hw.hostReaches (h : Hw) (p : Path) : Bool :=
  match p with
  | .pf => !h.host.d3
  | .vf _ => !h.host.d3
  | _ => true

/-- A 32-bit read of a path at an address of its own view (R188, R189, R199, R227, R852, R896). A path whose IDX_DATA read is held
has it answered first (R190); an access to the IDX set waits for the path's earlier far write (R218). -/
def Hw.busRead (h : Hw) (p : Path) (addr : Nat) : Hw :=
  let isStw := match p with | .steward _ => true | _ => false
  let isDbg := p == .debug
  let h := h.idxFarReadDone p
  if !h.hostReaches p then h
  else match h.resolve p addr with
  | (view, a, t) =>
    if !h.answers p a then h.refuse p false
    else if addr % 4 ≠ 0 then (h.misuse p false 8 addr).refuse p isStw
    else match t with
      | .none => (h.misuse p false 3 addr).refuse p false
      | .msix o => h.answer p (nget h.msix o (msixReset o))
      | .reserved => if h.mayRead p (regionOf a) then h.answer p 0#32 else (h.misuse p false 1 addr).refuse p (isStw || isDbg)
      | .bank r =>
        if !h.mayRead p (regionOf a) then (h.misuse p false 1 addr).refuse p (isStw || isDbg)
        else if view ≠ 0 then h.answer p 0#32
        else if r.id.desc.half == .hi then h.answer p (sget (h.path p).hold ⟨r.id, r.i + 0x100000, r.j⟩ 0#32)
        else
          let h := if r.id.desc.half == .lo then
              let hi : Reg := ⟨r.id.other, r.i, r.j⟩
              h.setPath p { h.path p with
                hold := sset Reg.lt (h.path p).hold ⟨hi.id, hi.i + 0x100000, hi.j⟩ (sget h.banks hi 0#32) 0#32 }
            else h
          h.answer p (sget h.banks r 0#32)
      | .reg r =>
        if !h.mayRead p (regionOf a) then (h.misuse p false 1 addr).refuse p (isStw || isDbg)
        else if view ≠ 0 then h.answer p 0#32
        else
          let h := if idxRegs.contains r.id then h.idxFarWriteDone p else h
          if r.id = .idxData then h.idxRead p addr else (h.readEffect p r).answer p (h.value p r)

/-- The length and byte enables of a request are legal (R189). -/
def requestOk (addr len : Nat) (enables : Bool) : Bool := enables && addr % 4 == 0 && len % 4 == 0 && decide (4 ≤ len) && decide (len ≤ 64)

/-- A path misses the rule of R189: the request is not performed. -/
def Hw.badRequest (h : Hw) (p : Path) (write : Bool) (addr : Nat) : Hw :=
  let isStw := match p with | .steward _ => true | _ => false
  match h.resolve p addr with
  | (_, a, _) =>
    if !h.hostReaches p then h
    else if !h.answers p a then (if write then h else h.refuse p false)
    else
      let h := h.misuse p write 8 addr
      if write then h.setPath p { h.path p with accessFault := isStw } else h.refuse p isStw

/-- The answer of one 32-bit read of a request is kept while the next one runs. -/
def Hw.keepAnswer (h : Hw) (p : Path) (k : Nat) : Hw :=
  if k = 0 then h.setPath p { h.path p with earlier := [] }
  else
    let h := h.idxFarReadDone p
    h.setPath p { h.path p with earlier := (h.path p).earlier ++ [(h.path p).resp] }

/-- A read request of `len` bytes (R189): its 32-bit reads in ascending address order. -/
def Hw.readRequest (h : Hw) (p : Path) (addr len : Nat) (enables : Bool) : Hw :=
  if requestOk addr len enables then (List.range (len / 4)).foldl (fun (h : Hw) k => (h.keepAnswer p k).busRead p (addr + 4 * k)) h
  else h.badRequest p false addr

end Sys2Proof.Machine
end

