-- ==== Sys2Proof/Machine/RegWrite.lean ====
section
/-! DEFINITION. A 32-bit write of a path with all its effects: the checks, then the rule of the register that it reaches. -/

namespace Sys2Proof.Machine

/-- SN_GONG_CTL as PMC_FREEZE_REQ writes it (R830): op 1 or 2, lead 3 to 15. -/
def Hw.freezeReq (h : Hw) (p : Path) (addr : Nat) (v : Word) : Hw :=
  if fld v 0 2 = 0 ∨ fld v 0 2 = 3 ∨ fld v 8 4 < 3 then h.misuse p true 9 addr
  else if bit v 31 then h.gongTimed (fld v 0 2) (fld v 8 4) (bit v 4) (bit v 12) else h

/-- A steward write of TNT_CTL (R702, R706, R732). -/
def Hw.tntCtl (h : Hw) (p : Path) (addr t : Nat) (v : Word) : Hw :=
  let h := if bit v 0 then (if h.partMulti t && h.tntState t == tsStarting then h.startJoin t else h.misuse p true 9 addr) else h
  if bit v 1 then h.jobComplete t else h

/-- A write to a register whose value decides whether it is taken: `w` is the word the write would leave (R732, R847, R549). -/
def Hw.guardedWrite (h : Hw) (p : Path) (addr view : Nat) (r : Reg) (v : Word) (ok : Word → Bool) : Hw :=
  if ok (viewValue r.id view (h.reg r.id r.i r.j) v) then h.plainWrite p addr view r v else h.misuse p true 9 addr

/-- A write to a register of the IDX set (R216 to R218): it waits for the path's earlier far write. -/
def Hw.idxWrite (h : Hw) (p : Path) (addr view : Nat) (r : Reg) (v : Word) : Hw :=
  let h := h.idxFarWriteDone p
  let s := h.path p
  match r.id with
  | .idxAddr => h.setPath p { s with idxAddr := viewValue .idxAddr view s.idxAddr v }
  | .idxCtl => h.setPath p { s with idxCtl := viewValue .idxCtl view s.idxCtl v }
  | _ => h.idxPost p addr v

/-- A write that has passed the checks of writeGate, by the rules of its register. `dev` is what the NVM device answers where the write starts
a probe (R134). -/
def Hw.regWrite (h : Hw) (p : Path) (addr view : Nat) (r : Reg) (v : Word) (dev : NvmDevice) : Hw :=
  let w := viewValue r.id view (h.reg r.id r.i r.j) v
  match r.id with
  | .ancResetCtl => h.cplValue p .reset v addr
  | .ancLock => h.cplValue p .lock v addr
  | .pwaBudget => h.cplValue p .budget v addr
  | .fusProgCtl => h.cplValue p .fuse v addr
  | .ancResetGuard => h.guardWrite p .reset v addr
  | .ancLockGuard => h.guardWrite p .lock v addr
  | .pwaBudgetGuard => h.guardWrite p .budget v addr
  | .fusProgGuard => h.guardWrite p .fuse v addr
  | .ancSnapshot => if bit v 0 then h.takeSnapshot else h
  | .idxAddr | .idxCtl | .idxData => h.idxWrite p addr view r v
  | .bootProgCtl => h.progStart p (fld v 0 3) dev.jedec.toNat (dev.sfdp.map (fun s => (s.1.toNat, s.2.1.toNat, s.2.2.toNat)))
  | .bnFlowCfg | .bnFlowRate | .bnFlowBound | .bnFlowPhase => h.flowRegWrite p addr r w
  | .bnPhase => h.phaseRegWrite p addr r w
  | .chCfg | .chEp | .chEpt => h.chRegWrite p addr r w
  | .nodeBell => h.clearBells r.i (v &&& 0xFFFFFF#32).toNat
  | .nodeBellRing => h.ringBell r.i (v &&& 0xFF0000#32).toNat
  | .snGongCtl => h.gongCtl p addr w
  | .snBarrierCfg | .snRimshotCfg => h.syncRegWrite p addr r w
  | .fldCfg | .fldFmt | .fldLink => h.foldRegWrite p addr r w
  | .cqGroupCfg | .cqGroupFlow | .cqRingCfg | .cqRingFlow | .cqSeqCfg | .cqSeqScope => h.cqRegWrite p addr r w
  | .tpCfg | .tpViolLimit | .tpFmap | .tpCmap | .tpSmap | .tpPmap | .tpGmap => h.tpRegWrite p addr r w
  | .slbLease | .slbHlease => h.leaseWrite p addr r w
  | .memSpillCfg => h.guardedWrite p addr view r v (fun _ => h.partValid r.i)
  | .lnkPortCfg | .lnkRetryCfg => h.linkRegWrite p addr r w
  | .hstRelayTxCtl => h.relayWrite p addr false v
  | .hstRelayRxCtl => h.relayWrite p addr true v
  | .hstLaunchDb => if bit v 0 then h.launchDoorbell r.i else h
  | .hstJobCtl => if bit v 0 then h.jobStop r.i else h
  | .hstWinBaseLo | .hstWinBaseHi | .hstWinSize => h.winWrite p addr view r v
  | .tntCfg => h.guardedWrite p addr view r v (fun w => fld w 0 16 != 0)
  | .tntCtl => h.tntCtl p addr r.i v
  | .pwaWindow | .pwaDroopCfg => h.powerRegWrite p addr r w
  | .stwHeartbeat => h.heartbeat r.i w
  | .stwBreakCtl => h.breakWrite p addr view r v
  | .stwVfIrq => h.vfIrq p addr v
  | .stwMtimecmpLo | .stwMtimecmpHi => (h.plainWrite p addr view r v).timerRefresh r.i
  | .stwMbox => h.mboxWrite p addr view r v
  | .stwMboxDb => h.mboxDoorbell p v
  | .stwMboxDone => h.mboxDone v
  | .pmcTagMode => h.guardedWrite p addr view r v (fun w => fld w 0 2 != 3)
  | .pmcHangCfg => h.guardedWrite p addr view r v (fun w => fld w 0 20 != 0)
  | .pmcFreezeReq => h.freezeReq p addr v
  | .pmcHangRel => if bit v 0 then h.hangRelease else h
  | .pmcBinCmds => if bit w 31 then h.plainWrite p addr view r v else h.binFree r.i r.j
  | _ => h.plainWrite p addr view r v

/-- A 32-bit write of a path at an address of its own view. A write to the MSI-X structures of the PF goes to its vectors (R850). -/
def Hw.busWrite (h : Hw) (p : Path) (addr : Nat) (v : Word) (dev : NvmDevice) : Hw :=
  let h := h.idxFarReadDone p
  let h := h.setPath p { h.path p with accessFault := false }
  if !h.hostReaches p then h
  else match h.writeGate p addr with
  | .done h => h
  | .msix o => h.msixWrite 0 o v
  | .go view r => h.regWrite p addr view r v dev

/-- A write request (R189): its 32-bit writes in ascending address order. -/
def Hw.writeWords (h : Hw) (p : Path) (addr : Nat) (dev : NvmDevice) : List Word → Hw
  | [] => h
  | v :: vs => (h.busWrite p addr v dev).writeWords p (addr + 4) dev vs

/-- A write request with its length and byte enables (R189). -/
def Hw.writeRequest (h : Hw) (p : Path) (addr : Nat) (data : List Word) (enables : Bool) (dev : NvmDevice) : Hw :=
  if requestOk addr (4 * data.length) enables then h.writeWords p addr dev data else h.badRequest p true addr

/-- The address at which a path reaches a register of PF BAR0 through an alias view (R187, R197). -/
def aliasAddr (p : Path) (view addr : Nat) : Nat :=
  match p with
  | .vf _ => addr + view * 0x40000
  | _ => addr + view * 0x4000000

/-- A device that answers nothing: all ones, without SFDP. -/
def noDevice : NvmDevice := ⟨0xFFFFFF#24, none⟩

/-- A write of a path through an alias view. -/
def Hw.aliasWrite (h : Hw) (p : Path) (view addr : Nat) (v : Word) : Hw := h.busWrite p (aliasAddr p view addr) v noDevice

/-- The address at which a path finds the PF offset a (Tables 20.1 and 20.3): a VF its own tenant page, endpoint and envelope registers; what its
view does not hold, at an address that names no register (R854). -/
def pathAddr (p : Path) (a : Nat) : Nat :=
  match p with
  | .vf t =>
    let t := t.val
    if 0x41000 + t * 0x1000 ≤ a ∧ a < 0x42000 + t * 0x1000 then a - (0x41000 + t * 0x1000)
    else if 0x10000 + t * 0x400 ≤ a ∧ a < 0x10400 + t * 0x400 then a - (0x10000 + t * 0x400) + 0x1000
    else if 0x21000 + t * 0x100 ≤ a ∧ a < 0x21100 + t * 0x100 then a - (0x21000 + t * 0x100) + 0x1400
    else if a = 0x8100 + t * 4 then 0x1500
    else 0x3f000
  | _ => a

/-- A write of a path at a register. -/
def Hw.writeAt (h : Hw) (p : Path) (r : Reg) (v : Word) : Hw := h.busWrite p (pathAddr p r.addr) v noDevice

/-! ## Register packets on the C-net (R316 to R318) -/

/-- The entry node of a path (Table 5.1). -/
def entryNode : Path → Nat
  | .pf => hostNode
  | .vf _ => hostNode
  | .steward k => nodeOf 3 k.val
  | .debug => nodeOf 8 0

/-- The node whose block holds an address of the normal view. -/
def blockNode (a : Nat) : Nat :=
  if 0x40000 ≤ a ∧ a < 0xfe000 then hostNode
  else if 0x100000 ≤ a ∧ a < 0x700000 then (a - 0x100000) / 0x10000
  else if 0xc00000 ≤ a ∧ a < 0xc60000 then portNode ((a - 0xc00000) / 0x10000)
  else if 0x2000000 ≤ a ∧ a < 0x2600000 then (a - 0x2000000) / 0x10000
  else if 0x3000000 ≤ a ∧ a < 0x3600000 then (a - 0x3000000) / 0x10000
  else anchorNode

/-- The tenant that a register packet carries (R318). -/
def Hw.packetTenant (h : Hw) (p : Path) : Nat :=
  match p with
  | .vf t => t.val
  | _ => h.sysTenant

/-- A register access leaves its entry node, crosses the C-net, is performed at its target and is answered (R316 to R318); the answer is on
its way back. At most 16 requests of a path are outstanding, and a read waits for the path's earlier writes (R317). -/
def Hw.regRequest (h : Hw) (p : Path) (addr : Nat) (write : Option Word) (errs : List CErr) (crossed : Bool) : Hw :=
  let mine := h.cnet.regRsp.filter (fun x => x.1.path == pathCode p)
  if 16 ≤ mine.length || (write.isNone && mine.any (fun x => x.1.write)) then h
  else
    let (_, a, _) := h.resolve p addr
    let n := blockNode a
    let tag := ((List.range 256).find? (fun k => mine.all (fun x => x.1.tag != k))).getD 0
    let req : RegReq := { path := pathCode p, node := n, write := write.isSome, addr := addr, data := write.getD 0#32, tag := tag }
    let pkt := mkCPkt 3 (entryNode p) n (h.packetTenant p) 0 (pathCode p) 0
      (BitVec.ofNat 512 (addr % 2 ^ 28 + (if write.isSome then 2 ^ 28 else 0) + (write.getD 0#32).toNat * 2 ^ 32 + tag * 2 ^ 72))
    match h.cCross pkt errs crossed with
    | (h, none) => h
    | (h, some pkt) =>
      let before := h.path p
      let h := if pkt.poison then h.refuse p false else match write with
        | some v => h.busWrite p addr v noDevice
        | none => h.busRead p addr
      let after := h.path p
      let word := if write.isSome then 0#32 else after.resp
      let h := h.setPath p { after with resp := before.resp, accessFault := before.accessFault }
      { h with cnet := { h.cnet with regRsp := h.cnet.regRsp ++ [(req, word, after.accessFault)] } }

/-- The oldest answer of a path comes back to its entry node and completes the access (R317); a poisoned one carries any word.
DESIGN CHOICE (log entry 10). -/
def Hw.regResponse (h : Hw) (p : Path) (errs : List CErr) (crossed : Bool) : Hw :=
  match takeFirst (fun x : RegReq × Word × Bool => x.1.path == pathCode p) h.cnet.regRsp with
  | none => h
  | some ((req, w, fault), rest) =>
    let h := { h with cnet := { h.cnet with regRsp := rest } }
    let pkt := mkCPkt 1 req.node (entryNode p) (h.packetTenant p) 0 (pathCode p) 0
      (BitVec.ofNat 512 (w.toNat + req.tag * 2 ^ 32 + (if fault then 2 ^ 40 else 0)))
    match h.cCross pkt errs crossed with
    | (h, none) => h
    | (h, some pkt) =>
      let f := h.fresh
      let h := if pkt.poison then f.2 else h
      let word := if pkt.poison then f.1.setWidth 32 else w
      if req.write then h.setPath p { h.path p with accessFault := fault }
      else h.setPath p { h.path p with resp := word, accessFault := fault }

end Sys2Proof.Machine
end

