-- ==== Sys2Proof/Machine/Delivery.lean ====
section
/-! DEFINITION. Router outputs and sinks of the B-net with what stands behind them (R243 to R258, R264 to R271, R479, R540, R638, R722), the
arrival of channel credits (R304, R305), and sends and dequeues by an endpoint's agent (R302, R777). -/

namespace Sys2Proof.Machine

/-- A router output serves one flit (R245); the output engine acts (Table 19.1). An uncorrectable error in the router's own route table or
control state is an F0, and nothing moves. -/
def Hw.hop (h : Hw) (n out : Nat) (err : MeshErr) : Hw :=
  if err = .router then h.raiseF0 0x45 n 0
  else match neighbour n out with
  | none => h
  | some m =>
    let served := ((h.bCleanAll n).arbitrate n out (fun _ vc _ => (h.bCleanAll n).bUsed (qKey m (facing out) vc) < 8)).isSome
    let h := h.flitHop n out err
    if served then h.act n out else h

/-- A source slot of a node is granted a token (R257, R258); the movers and the fabric-in lane behind it go on. -/
def Hw.grant (h : Hw) (n : Nat) : Hw :=
  let h := (h.flitInject (h.gated n) n).pumpNode n
  if nodeClass n = 0 then h.pumpFi (nodeInst n) else h

/-- A valid relay entry of a link node takes flow f from its queue (R431). -/
def Hw.relayed (h : Hw) (n f : Nat) : Bool :=
  nodeClass n == 2 && (List.range 32).any (fun r => h.ringValid n r && !h.ringGate n r && fld (h.reg .cqRingFlow n r) 0 13 == f)

/-- A flow leaves the module at a link node's torus port. -/
def Hw.crosses (h : Hw) (n f : Nat) : Bool := nodeClass n == 2 && (h.flowKind f).remote != 0xffff

/-- The local output of a node can take the flit at a head (R265, R405, R431, R479, R722): a flit that a sink check drops, one that leaves by
the torus port, one of a memory flow, or one whose RECV is there. A flit of a fold stream or of a relay leaves its queue otherwise, unless its
flow's slot has gone. -/
def Hw.sinkReady (h : Hw) (n : Nat) (f : Flit) : Bool :=
  let c := (h.sinkCheck n f).1
  let k := (h.flowKind f.flow).kind
  if c = 1 || h.crosses n f.flow then true
  else if k = 1 || h.relayed n f.flow then false
  else if c ≠ 0 || k = 2 then true
  else if nodeClass n = 0 then
    let i := nodeInst n
    match h.cursor i f.flow with
    | some r => !r.toLane || (h.portUp i && decide (0 < (h.port i).fo))
    | none => false
  else false

/-- A flit leaves by the torus port of its link node (R609, R638): without detour_ok it is dropped while the port is down. -/
def Hw.toLink (h : Hw) (n : Nat) (f : Flit) : Hw :=
  let p := nodeInst n
  if h.linkState p = lsDown && !(h.flowKind f.flow).detourOk then h.bDrop n 9 f.flow else h.linkEnqueue p { f with left := 0, op := 0 }

/-- The page of the slab that a flit's write to its receive cursor reads an uncorrectable word of (R520). -/
def Hw.sinkPage (h : Hw) (n : Nat) (f : Flit) : Option Nat :=
  if nodeClass n ≠ 0 then none
  else match h.cursor (nodeInst n) f.flow with
    | some r => if r.toLane || remoteAddr (r.dst + r.got) then none else some ((r.dst + r.got) / pageSize)
    | none => none

/-- A flit is delivered at a sink that has passed it. -/
def Hw.deliver (h : Hw) (n : Nat) (f : Flit) : Hw :=
  if h.crosses n f.flow then h.toLink n f
  else if (h.flowKind f.flow).kind = 2 then h.memSink n f
  else
    let i := nodeInst n
    match h.cursor i f.flow with
    | some r =>
      let h := h.deliverRecv i { r with cap := h.recvCap i r } (h.planOf i f.flow) f
      if r.toLane then h.act n 7 else h
    | none => h

/-- The local output of a node serves one flit (R245, R265): it is checked and delivered, or dropped with a cause. `ue`: the flow sink reads an
uncorrectable word of the slab, which poisons the flit (R520). -/
def Hw.sinkDeliver (h : Hw) (n : Nat) (ue : Bool) : Hw :=
  let h := h.bCleanAll n
  match h.arbitrate n 0 (fun _ _ f => h.sinkReady n f) with
  | none => h
  | some (port, vc) =>
    match h.bq n port vc with
    | [] => h
    | f :: _ =>
      let chk := h.sinkCheck n f
      let h := ((h.arbitrated n 0 port vc).bTook n port vc 0).act n 0
      if chk.1 ≠ 0 then h.sinkChecked n f chk.1 chk.2
      else match (if ue then h.sinkPage n f else none) with
        | some pg => (h.slabUe pg).sinkChecked n f 7 chk.2
        | none => (h.sinkChecked n f 0 chk.2).deliver n f

/-- A flit at the head of a queue of a node has reached its deadline and is dropped (R268 to R270): of an input queue (port 0 to 4 and VC), or of
the ring stream of flow `sel` at a link node's local port (port 5). -/
def Hw.flitLate (h : Hw) (n port sel : Nat) : Hw :=
  match (if port = 5 then h.foldHead n 0 sel else (h.bq n port sel).head?) with
  | none => h
  | some f =>
    if !h.isLate f.deadline then h
    else if port = 5 then (h.bLate n f).foldPop n 0 sel else h.bClean n port sel

/-! ## Channels -/

/-- A stalled send has been accepted: the tile command or relay request that waits for it completes, or its agent hears of it (R305, R688). -/
def Hw.sendAccepted (h : Hw) (c : Nat) (cmd : Option (Nat × Nat)) : Hw :=
  match cmd with
  | some (i, tag) => if i = relayMark then h.relayStatus false 0 false else h.finish i tag 0 [] 64
  | none => h.setResp (h.chSrc c).1 (h.chSrc c).2 .accepted

/-- Stalled sends of a channel are accepted while credits are there (R305). -/
def Hw.unstall (h : Hw) (c : Nat) : Nat → Hw
  | 0 => h
  | k + 1 =>
    match h.chUnstall c with
    | (h, some cmd) => (h.sendAccepted c cmd).unstall c k
    | (h, none) => h

/-- A credit packet of a channel reaches its source (R304). -/
def Hw.creditArrival (h : Hw) (c : Nat) (errs : List CErr) (crossed : Bool) : Hw :=
  match h.cTake ccCredit c with
  | none => h
  | some (p, h) =>
    match h.cCross p errs crossed with
    | (h, none) => h
    | (h, some p) =>
      let h := h.chCredit p
      h.unstall c (h.chStalled c).length

/-- The tenant for whom the agent of an endpoint injects: the partition of a tile; stewards and the relay act for the die. -/
def Hw.agentTenant (h : Hw) (n : Nat) : Option Nat := if nodeClass n = 0 then some (h.tileTenant (nodeInst n)) else none

/-- The agent of endpoint k of node n sends a message on channel c (R302, R305, R306). -/
def Hw.agentSend (h : Hw) (n k c : Nat) (data : BitVec 512) : Hw :=
  if !hasEndpoints n then h
  else match h.chSend n k (h.agentTenant n) c data none with
    | (h, .accepted) => h.setResp n k .accepted
    | (h, .stalled) => h.setResp n k .stalled
    | (h, .full) => h.setResp n k .chFull
    | (h, .dropped _) => h.setResp n k .dropped

/-- The agent of endpoint k of node n dequeues from channel c (R302, R307, R309). -/
def Hw.agentDequeue (h : Hw) (n k c : Nat) (merge : Bool) : Hw :=
  if !hasEndpoints n then h
  else
    let x := h.chDequeue n k c merge
    x.1.setResp n k x.2

end Sys2Proof.Machine
end

