-- ==== Sys2Proof/Machine/Debug.lean ====
section
/-! DEFINITION. The debug node D0 (chapter 18): the TAP and its instructions, boundary scan, the debug module and its system bus. What Table 18.8
does not say of the debug module's words is PRESUMED from the RISC-V External Debug Support specification 0.13.2 that R802 names (log entry 26). -/

namespace Sys2Proof.Machine

/-! ## The TAP (R800, R801, R808) -/

/-- The IDCODE of the die (R801). -/
def idcode : BitVec 64 := 0x00B015AF#64

/-- A TAP instruction is enabled by its fuse (Table 18.7). -/
def Hw.tapEnabled (h : Hw) (code : Nat) : Bool :=
  if code = 1 ∨ code = 0xff then true
  else if 2 ≤ code ∧ code ≤ 5 then bit h.fusDebugEff 1
  else (code == 0x10 || code == 0x11) && bit h.fusDebugEff 0

/-- An instruction enters the TAP: a disabled or unlisted one selects the bypass register (R800). The data register captures `dr`; the bypass
register captures 0. -/
def Hw.tapSelect (h : Hw) (code : Nat) (dr : BitVec 64) : Hw :=
  if h.tapEnabled code then { h with dbg := { h.dbg with tap := code, captured := if code = 0xff then 0#64 else dr } }
  else { h with dbg := { h.dbg with tap := 0xff, captured := 0#64 } }

/-- The TAP is reset: IDCODE is selected (R800). -/
def Hw.tapReset (h : Hw) : Hw := { h with dbg := { h.dbg with tap := 1, captured := idcode } }

/-- What the boundary register captures (Table 18.10). The levels of the NVM pins come from outside the block: `nvm` holds the outputs NVM_RESET_N, SCK, CS_N and
the output and control cells of the data pins as the controller drives them, bit k for cell 6 + k; `dq` the inputs NVM_DQ0 to 7 and NVM_DQS. -/
def Hw.boundarySample (h : Hw) (nvm : BitVec 12) (nvmOn : Bool) (dq : BitVec 9) : Nat :=
  b2n h.pins.rstN + 2 * b2n h.pins.perstN + 4 * b2n h.pins.pwrGood + 8 * b2n h.pins.thermN + 0x20 * b2n (!h.alertN) +
    nvm.toNat * 0x40 + b2n nvmOn * 2 ^ 26 + dq.toNat % 256 * 2 ^ 18 + dq.toNat / 256 * 2 ^ 27

/-- SAMPLE/PRELOAD: the boundary register captures the pins, and its update latch takes what was shifted in (R808). -/
def Hw.samplePreload (h : Hw) (nvm : BitVec 12) (nvmOn : Bool) (dq : BitVec 9) (load : BitVec 28) : Hw :=
  if h.tapEnabled 2 then
    let h := h.tapSelect 2 (BitVec.ofNat 64 (h.boundarySample nvm nvmOn dq))
    { h with dbg := { h.dbg with boundary := load } }
  else h.tapSelect 2 0#64

/-- EXTEST: the pins are driven from the boundary register, which captures them and takes what is shifted in (R808, R810). -/
def Hw.extest (h : Hw) (nvm : BitVec 12) (nvmOn : Bool) (dq : BitVec 9) (load : Option (BitVec 28)) : Hw :=
  if h.tapEnabled 3 then
    let h := h.tapSelect 3 (BitVec.ofNat 64 (h.boundarySample nvm nvmOn dq))
    match load with
    | some b => { h with dbg := { h.dbg with boundary := b } }
    | none => h
  else h.tapSelect 3 0#64

/-- CLAMP and HIGHZ select the bypass register and drive, or disable, the boundary outputs (R808, R810). -/
def Hw.clamp (h : Hw) : Hw := h.tapSelect 4 0#64
def Hw.highz (h : Hw) : Hw := h.tapSelect 5 0#64

/-! ## The debug module (R802, R803, Table 18.8) -/

/-- Words of the debug module by their DMI address; three words beyond it: harts whose reset was acknowledged, harts that resumed, and the select. -/
def Hw.dm (h : Hw) (a : Nat) : Word := nget h.dbg.dm a 0#32
def Hw.setDm (h : Hw) (a : Nat) (v : Word) : Hw := { h with dbg := { h.dbg with dm := nset h.dbg.dm a v 0#32 } }
def dmAcked : Nat := 0x90
def dmResumed : Nat := 0x91

/-- The selected hart, if there is one: 0 to 4, while hart_debug reads 1 (R803). -/
def Hw.dmHart (h : Hw) : Option Nat :=
  let k := fld (h.dm 0x10) 16 3
  if k < 5 && bit h.fusDebugEff 2 then some k else none

/-- dmstatus (R803). -/
def Hw.dmStatus (h : Hw) : Word :=
  let both (o : Nat) (b : Bool) : List (Nat × Nat × Nat) := [(o, 1, b2n b), (o + 1, 1, b2n b)]
  mkWord ([(0, 4, 2), (7, 1, 1), (22, 1, 1)] ++
    (match h.dmHart with
     | none => both 14 true
     | some k =>
       let out := !h.stw.active.testBit k || h.stw.failed.testBit k
       let halted := h.stw.halted.testBit k
       both 8 (halted && !out) ++ both 10 (!halted && !out) ++ both 12 out ++ both 16 (bit (h.dm dmResumed) k) ++
         both 18 (!bit (h.dm dmAcked) k)))

/-- sbcs: sbasize reads 0 while sysbus reads 0 (R803). -/
def Hw.sbcs (h : Hw) : Word :=
  let on := bit h.fusDebugEff 3
  (h.dm 0x38 &&& 0x00717000#32) ||| mkWord [(29, 3, 1), (17, 3, fld (h.dm 0x38) 17 3), (5, 7, if on then 32 else 0), (2, 1, b2n on)]

/-- Set sberror. -/
def Hw.sbError (h : Hw) (e : Nat) : Hw := h.setDm 0x38 (setFld (h.dm 0x38) 12 3 e)

/-- An access of the system bus to the register space (R232, Table 18.8): sberror 4 where the size is not 32 bits, 3 at a misaligned address, 2 beyond the space,
7 on a privilege denial. The word it reads goes to sbdata0. -/
def Hw.sbAccess (h : Hw) (addr : Nat) (write : Option Word) : Hw :=
  if !bit h.fusDebugEff 3 || fld (h.dm 0x38) 12 3 != 0 then h
  else if fld (h.dm 0x38) 17 3 ≠ 2 then h.sbError 4
  else if addr % 4 ≠ 0 then h.sbError 3
  else if 0x10000000 ≤ addr then h.sbError 2
  else
    let h := h.setPath .debug { h.path .debug with accessFault := false }
    let h := match write with
      | some v => h.busWrite .debug addr v noDevice
      | none => h.busRead .debug addr
    if (h.path .debug).accessFault then h.sbError 7
    else
      let h := if write.isNone then h.setDm 0x3c (h.path .debug).resp else h
      if bit (h.dm 0x38) 16 then h.setDm 0x39 (h.dm 0x39 + 4#32) else h

/-- The debug module's registers after a DMI reset by dmactive = 0. -/
def Hw.dmReset (h : Hw) : Hw :=
  { h with dbg := { h.dbg with dm := [(0x38, 0x40000#32)] ++ (h.dbg.dm.filter (fun e => e.1 == dmAcked)) } }

/-- A write of dmcontrol: hart select, halt and resume requests (R803, Table 18.8). -/
def Hw.dmControl (h : Hw) (v : Word) : Hw :=
  if !bit v 0 then h.dmReset
  else
    let h := h.setDm 0x10 (mkWord [(0, 1, 1), (16, 3, fld v 16 3)])
    match h.dmHart with
    | none => h
    | some k =>
      let h := if bit v 28 then h.setDm dmAcked (setBit (h.dm dmAcked) k true) else h
      if bit v 31 then h.coreHalt k
      else if bit v 30 && h.stw.halted.testBit k then (h.coreResume k).setDm dmResumed (setBit (h.dm dmResumed) k true)
      else h

/-- An abstract command (Table 18.8): Access Register of a halted hart. The registers of the cores lie outside the block: what it reads is free.
DESIGN CHOICE (log entry 13). -/
def Hw.dmCommand (h : Hw) (v : Word) : Hw :=
  let err (e : Nat) : Hw := h.setDm 0x16 (setFld (h.dm 0x16) 8 3 e)
  if fld (h.dm 0x16) 8 3 ≠ 0 then h
  else if fld v 24 8 ≠ 0 ∨ (bit v 17 ∧ fld v 20 3 ≠ 2 ∧ fld v 20 3 ≠ 3) then err 2
  else match h.dmHart with
    | none => err 4
    | some k =>
      if !h.stw.halted.testBit k then err 4
      else if bit v 17 && !bit v 16 then
        let f := h.fresh
        let h := f.2.setDm 4 (f.1.setWidth 32)
        if fld v 20 3 = 3 then h.setDm 5 ((f.1 >>> 32).setWidth 32) else h
      else h

/-- A DMI write (R802). -/
def Hw.dmiWrite (h : Hw) (a : Nat) (v : Word) : Hw :=
  if a = 0x10 then h.dmControl v
  else if !bit (h.dm 0x10) 0 then h
  else if a = 4 ∨ a = 5 ∨ (0x20 ≤ a ∧ a < 0x28) then h.setDm a v
  else if a = 0x16 then h.setDm 0x16 (h.dm 0x16 &&& ~~~(v &&& 0x700#32))
  else if a = 0x17 then h.dmCommand v
  else if a = 0x38 then h.setDm 0x38 ((v &&& 0x1F8000#32) ||| (h.dm 0x38 &&& 0x7000#32 &&& ~~~v))
  else if a = 0x39 then
    let h := h.setDm 0x39 v
    if bit (h.dm 0x38) 20 then h.sbAccess v.toNat none else h
  else if a = 0x3c then (h.setDm 0x3c v).sbAccess (h.dm 0x39).toNat (some v)
  else h

/-- A DMI read (R802): its word, and the effect of reading sbdata0. -/
def Hw.dmiRead (h : Hw) (a : Nat) : Hw × Word :=
  if a = 0x10 then (h, h.dm 0x10)
  else if a = 0x11 then (h, h.dmStatus)
  else if a = 0x16 then (h, h.dm 0x16 ||| mkWord [(0, 4, 2), (24, 5, 8)])
  else if a = 0x38 then (h, h.sbcs)
  else if a = 0x3c then (if bit (h.dm 0x38) 15 then h.sbAccess (h.dm 0x39).toNat none else h, h.dm 0x3c)
  else if a = 0x40 then (h, BitVec.ofNat 32 (if bit h.fusDebugEff 2 then h.stw.halted else 0))
  else if a = 4 ∨ a = 5 ∨ (0x20 ≤ a ∧ a < 0x28) ∨ a = 0x39 then (h, h.dm a)
  else (h, 0#32)

/-- A DMI access through the JTAG debug transport (R802): the instruction DMI is selected, which FUS_DEBUG.tap enables; the data register then holds
the word that was read. -/
def Hw.dmi (h : Hw) (a : BitVec 7) (write : Option Word) : Hw :=
  if !h.tapEnabled 0x11 then h.tapSelect 0x11 0#64
  else match write with
    | some v => (h.dmiWrite a.toNat v).tapSelect 0x11 0#64
    | none =>
      let x := h.dmiRead a.toNat
      x.1.tapSelect 0x11 (x.2.setWidth 64)

/-- A system-bus access of the debug module at an address of the PF BAR0 layout (R232). -/
def Hw.debugAccess (h : Hw) (addr : Nat) (write : Option Word) : Hw :=
  (h.setDm 0x38 (setFld (h.dm 0x38) 17 3 2)).sbAccess addr write

end Sys2Proof.Machine
end

