-- ==== Sys2Proof/Machine/Pins.lean ====
section
/-! DEFINITION. Events on the module's pins and clocks and what they start (R50 to R55, R75 to R85, R866); effects that several commands share. -/

namespace Sys2Proof.Machine

/-- The FCLK, SCLK and CCLK functions of the die, which CLOCK_LOST holds stopped (R51). -/
def Hw.clocked (h : Hw) (f : Hw → Hw) : Hw := if h.dieState = stClockLost then h else f h

/-! ## Pins -/

/-- PWR_GOOD goes low (R75): CLK_STATUS, the reset causes and everything else a cold reset clears. -/
def Hw.pwrGoodLow (h : Hw) : Hw := { h with pins := { h.pins with pwrGood := false } }.coldReset (oneBit rcPowerOn) true

/-- RST_N has been low for 8 REFCLK cycles (R75). -/
def Hw.rstNLow (h : Hw) : Hw := { h with pins := { h.pins with rstN := false } }.coldReset (oneBit rcRstN) true

/-- REFCLK has no edge for 1 µs (R50, R75). -/
def Hw.refclkLoss (h : Hw) : Hw := { h with pins := { h.pins with refclk := false } }.coldReset (oneBit rcRefclk) true

/-- A cold reset that was accepted through ANC_RESET_CTL begins (R80, R85). -/
def Hw.coldBegins (h : Hw) : Hw := if h.rst.coldReq then h.coldReset 0#32 false else h

/-- A warm reset that was accepted through ANC_RESET_CTL begins (R79, R85, R89), unless a cold one is pending. -/
def Hw.warmBegins (h : Hw) : Hw := if h.rst.warmReq && !h.rst.coldReq then h.warmReset 0#32 false else h

/-- The PCIe endpoint is reset (R894, Table 15.5): its configuration space and MSI-X structures, and requests not yet sent. -/
def Hw.endpointReset (h : Hw) : Hw :=
  { h with msix := [], host := { h.host with d3 := false, busMasterOff := [], requested := [] } }

/-- PERST_N falls (R76, R866): the endpoint is held in reset, its link is down, and a warm-reset cause has come. -/
def Hw.perstLow (h : Hw) : Hw :=
  if !h.pins.perstN then h
  else
    let h := h.pcieLinkDown.endpointReset
    { h with pins := { h.pins with perstN := false }, host := { h.host with training := false } }.warmCause rcPerst true

/-- A function-level reset of the PF (R76, R894). -/
def Hw.pfFlr (h : Hw) : Hw := h.endpointReset.warmCause rcPerst false

/-! ## Clocks -/

/-- A PLL locks (R49); the root PLL that does so in CLOCK_LOST regains lock (R51). -/
def Hw.pllLocks (h : Hw) (w : PllId) : Hw := if w = .root then h.rootRelock else h.pllLock w

/-- The PHY PLL of a torus port loses lock (R53): the port is reset, unless it is off or down; it trains cold once the PLL is back. -/
def Hw.phyPllUnlock (h : Hw) (p : Port) : Hw :=
  let h := h.pllUnlock (.phy p)
  if h.portIsDown p || h.phyState p == phOff then h
  else (h.modPhy p (fun q => { q with pllLost := true })).torusPortReset p

/-- The PLL of HBM stack s loses lock (R54): the pairs of its two memory nodes are mapped out, and F0 HBM_STACK is raised. -/
def Hw.hbmPllUnlock (h : Hw) (s : Fin 6) : Hw :=
  let h := h.pllUnlock (.hbm s)
  if h.dieState = stColdReset then h
  else
    let h := (List.range 16).foldl (fun (h : Hw) k => if h.pairUsable (16 * s.val + k) then h.pairOut (16 * s.val + k) true else h) h
    (h.modReg .ancFaultCond 0 0 (setBit · 4 true)).raiseF0 0x47 (nodeOf 1 (2 * s.val)) 0

/-- The PCIe PLL loses lock (R55): the link goes down. -/
def Hw.pciePllUnlock (h : Hw) : Hw := (h.pllUnlock .pcie).pcieLinkDown

/-! ## Resets and guarded writes -/

/-- A port reset that was accepted through ANC_RESET_CTL begins (R78, R85). -/
def Hw.portReset (h : Hw) (p : PortId) : Hw :=
  match p with
  | .torus p => if h.rst.portResets.contains p.val then (h.portResetBegins p).torusPortReset p else h
  | .tile i => if h.rst.portResets.contains (16 + i.val) then (h.portResetBegins (16 + i)).tilePortReset i else h

/-- A path writes the guard of a CPL register with the complement of the value that is pending there (R211). -/
def Hw.guardComplement (h : Hw) (p : Path) (c : CplReg) : Hw :=
  match h.cplPend c with
  | some q => h.writeAt p ⟨cplGuardId c, 0, 0⟩ (~~~q.value)
  | none => h

/-- The guard write of a reset request of one kind (R85): nothing where the pending value is of another kind. -/
def Hw.resetRequest (h : Hw) (p : Path) (kind : Nat) : Hw :=
  match h.cplPend .reset with
  | some q => if fld q.value 0 3 = kind then h.guardComplement p .reset else h
  | none => h

/-- A write of SN_GONG_CTL with go and an op (R362, R363): the other fields are those of v. -/
def Hw.gongWrite (h : Hw) (p : Path) (op : Nat) (v : Word) : Hw :=
  h.writeAt p ⟨.snGongCtl, anchorNode, 0⟩ (setBit (setFld v 0 2 op) 31 true)

/-- A write of PMC_FREEZE_REQ with go and an op (R830). -/
def Hw.pmcGongWrite (h : Hw) (p : Path) (op : Nat) (v : Word) : Hw :=
  h.writeAt p ⟨.pmcFreezeReq, 0, 0⟩ (setBit (setFld v 0 2 op) 31 true)

/-- A path writes BOOT_PROG_CTL (R134); `dev` is what the NVM device answers where that starts a probe. -/
def Hw.progWrite (h : Hw) (p : Path) (v : Word) (dev : NvmDevice) : Hw :=
  h.busWrite p (pathAddr p (Reg.addr ⟨.bootProgCtl, 0, 0⟩)) v dev

/-- BIST ends with its findings (R97); a mesh link is one of both its directions. -/
def Hw.bistFound (h : Hw) (f : BistFindings) : Hw :=
  let link (l : LinkRef) : MeshDown := ⟨l.net, l.node, l.dir⟩
  h.bist (f.routers.map (·.val)) (f.linksDown.map link) (f.linksRepaired.map link) (f.pages.map (·.val)) f.stewards.toNat f.sram
    ((List.range 96).filter (fun q => f.pairs.getLsbD q)) f.tiles.toNat

/-- A path writes a relay control register with go and a channel (R688), or none does. -/
def Hw.relayWrites (h : Hw) (rx : Bool) (w : Option (Path × BitVec 12)) : Hw :=
  match w with
  | some x => h.writeAt x.1 ⟨if rx then .hstRelayRxCtl else .hstRelayTxCtl, 0, 0⟩ (0x80000000#32 ||| x.2.setWidth 32)
  | none => h

/-- The next granule of memory node Mi is zeroed (R533). -/
def Hw.zeroNext (h : Hw) (m : Nat) : Hw :=
  match h.nextGranule m with
  | some x => h.granuleZero x.1 x.2
  | none => h

/-- VFs disappear as VF Enable clears or NumVFs falls (R662): each is reset. -/
def Hw.vfDisable (h : Hw) (vfs : List Tenant) : Hw := vfs.foldl (fun (h : Hw) t => h.vfReset t.val) h

end Sys2Proof.Machine
end

