-- ==== Sys2Proof/Machine/State.lean ====
section
/-! DEFINITION. The state of the machine: the block, and the commands that wait, first in, first out. -/

namespace Sys2Proof.Machine

/-- The block with its queue of waiting commands. -/
structure State where
  hw : Hw
  pending : List Instr
  deriving DecidableEq, Repr

/-- The reasons for which the machine would stop with a fault: there is none. Every command has an effect in every state, by the spec's own
rules, and what the block finds wrong it records in its registers. -/
inductive Fault where
  deriving DecidableEq, Repr

/-- The reasons for which a command is refused. -/
inductive Refusal where
  /-- A command without a meaning, by its mnemonic in the opcode table. Raised by `exec` for an arm that is not written; none is left. Safe. -/
  | notModelled (mnemonic : String)
  deriving DecidableEq, Repr

/-- The block just after PWR_GOOD has gone low and the supplies have come back (R75, R80, Table 2.3): every register at its reset value,
ANC_STATE COLD_RESET, ANC_RESET_CAUSE power_on; nothing in any memory, buffer or queue. DESIGN CHOICE (log entry 4). -/
def Hw.powerOn : Hw := ({} : Hw).setReg .ancResetCause 0 0 1#32

/-- The machine right after reset; no command waits. -/
def State.reset : State := ⟨Hw.powerOn, []⟩

end Sys2Proof.Machine
end

