-- ==== Sys2Proof/Machine/Act.lean ====
section
/-! DEFINITION. A command's effect on the state: it changes the block and leaves the queue of waiting commands. -/

namespace Sys2Proof.Machine

/-- The block changes by f; the queue stays. -/
def State.does (s : State) (f : Hw → Hw) : Host.Outcome State Fault Refusal := .next { s with hw := f s.hw }

end Sys2Proof.Machine
end

