-- ==== Sys2Proof/Machine/ExecAccess.lean ====
section
/-! DEFINITION. The meanings of the commands of register accesses (chapter 5): each is the block's own operation for it, on everything but the queue. -/

namespace Sys2Proof.Machine

/-- REGISTER_WRITE (R196). -/
def execRegisterWrite (p : Path) (addr : BitVec 28) (data : List Word) (enables : Bool) (d : NvmDevice)
    (s : State) : Host.Outcome State Fault Refusal :=
  s.does (fun h => h.writeRequest p addr.toNat data enables d)

/-- ALIAS_SET (R197). -/
def execAliasSet (p : Path) (addr : BitVec 26) (v : Word) (s : State) : Host.Outcome State Fault Refusal :=
  s.does (fun h => h.aliasWrite p 1 addr.toNat v)

/-- ALIAS_CLR (R197). -/
def execAliasClr (p : Path) (addr : BitVec 26) (v : Word) (s : State) : Host.Outcome State Fault Refusal :=
  s.does (fun h => h.aliasWrite p 2 addr.toNat v)

/-- ALIAS_TGL (R197). -/
def execAliasTgl (p : Path) (addr : BitVec 26) (v : Word) (s : State) : Host.Outcome State Fault Refusal :=
  s.does (fun h => h.aliasWrite p 3 addr.toNat v)

/-- EVT_READ (R194). -/
def execEvtRead (p : Path) (addr : BitVec 28) (len : BitVec 7) (enables : Bool) (s : State) : Host.Outcome State Fault Refusal :=
  s.does (fun h => h.readRequest p addr.toNat len.toNat enables)

/-- MISUSE_EVT_READ (R223). -/
def execMisuseEvtRead (p : Path) (s : State) : Host.Outcome State Fault Refusal :=
  s.does (fun h => h.busRead p (pathAddr p (Reg.addr ⟨.ancMisuseEvt, 0, 0⟩)))

/-- LOW_WORD_READ (R202). -/
def execLowWordRead (p : Path) (addr : BitVec 28) (s : State) : Host.Outcome State Fault Refusal :=
  s.does (fun h => h.busRead p addr.toNat)

/-- CLK_BAR_LO_READ (R87). -/
def execClkBarLoRead (p : Path) (s : State) : Host.Outcome State Fault Refusal :=
  s.does (fun h => h.busRead p (pathAddr p (Reg.addr ⟨.clkBarLo, 0, 0⟩)))

/-- HIGH_WORD_WRITE (R203). -/
def execHighWordWrite (p : Path) (addr : BitVec 28) (v : Word) (s : State) : Host.Outcome State Fault Refusal :=
  s.does (fun h => h.busWrite p addr.toNat v noDevice)

/-- LOW_WORD_WRITE (R203). -/
def execLowWordWrite (p : Path) (addr : BitVec 28) (v : Word) (s : State) : Host.Outcome State Fault Refusal :=
  s.does (fun h => h.busWrite p addr.toNat v noDevice)

/-- SNAPSHOT (R204). -/
def execSnapshot (p : Path) (s : State) : Host.Outcome State Fault Refusal :=
  s.does (fun h => h.writeAt p ⟨.ancSnapshot, 0, 0⟩ 1#32)

/-- IDX_DATA_READ (R218). -/
def execIdxDataRead (p : Path) (s : State) : Host.Outcome State Fault Refusal :=
  s.does (fun h => h.busRead p (pathAddr p idxDataAddr))

/-- IDX_DATA_WRITE (R218). -/
def execIdxDataWrite (p : Path) (v : Word) (s : State) : Host.Outcome State Fault Refusal :=
  s.does (fun h => h.busWrite p (pathAddr p idxDataAddr) v noDevice)

/-- IDX_FAR_WRITE_DONE (R218). -/
def execIdxFarWriteDone (p : Path) (s : State) : Host.Outcome State Fault Refusal :=
  s.does (fun h => h.clocked (·.idxFarWriteDone p))

/-- IDX_FAR_TIMEOUT (R221). -/
def execIdxFarTimeout (p : Path) (s : State) : Host.Outcome State Fault Refusal :=
  s.does (fun h => h.idxTimeout p)

/-- IDX_FAR_READ_DONE (R218). -/
def execIdxFarReadDone (p : Path) (s : State) : Host.Outcome State Fault Refusal :=
  s.does (fun h => h.clocked (·.idxFarReadDone p))

end Sys2Proof.Machine
end

