-- ==== Sys2Proof/Machine/ExecBoot.lean ====
section
/-! DEFINITION. The meanings of the commands of start-up, the programmer and the bar counter (chapters 2 and 3): each is the block's own operation for it, on everything but the queue. -/

namespace Sys2Proof.Machine

/-- FUSE_LOAD_DONE (R93). -/
def execFuseLoadDone (ue : Bool) (corrected : BitVec 8) (s : State) : Host.Outcome State Fault Refusal :=
  s.does (fun h => h.fuseLoad ue corrected.toNat)

/-- PCIE_TRAINING_START (R94). -/
def execPcieTrainingStart (s : State) : Host.Outcome State Fault Refusal :=
  s.does (fun h => h.pcieTrain)

/-- BIST_DONE (R97). -/
def execBistDone (f : BistFindings) (s : State) : Host.Outcome State Fault Refusal :=
  s.does (fun h => h.bistFound f)

/-- BOOT_START (R892). -/
def execBootStart (s : State) : Host.Outcome State Fault Refusal :=
  s.does (fun h => h.bootStart)

/-- NVM_PROBE (R103). -/
def execNvmProbe (d : NvmDevice) (s : State) : Host.Outcome State Fault Refusal :=
  s.does (fun h => h.nvmProbe d.jedec.toNat (d.sfdp.map (fun x => (x.1.toNat, x.2.1.toNat, x.2.2.toNat))))

/-- NVM_COMMAND_TIMEOUT (R107). -/
def execNvmCommandTimeout (copy : Fin 2) (s : State) : Host.Outcome State Fault Refusal :=
  s.does (fun h => h.nvmTimeout copy)

/-- SLOT_TABLE_SELECT (R113). -/
def execSlotTableSelect (s : State) : Host.Outcome State Fault Refusal :=
  s.does (fun h => h.slotTable)

/-- SLOT_ATTEMPT (R118). -/
def execSlotAttempt (errs : List (Nat × Byte)) (again : List (Nat × Byte)) (s : State) : Host.Outcome State Fault Refusal :=
  s.does (fun h => h.slotAttempt errs again)

/-- IMAGE_APPLY (R124). -/
def execImageApply (s : State) : Host.Outcome State Fault Refusal :=
  s.does (fun h => h.imageApply)

/-- APPLY_FAULT (R127). -/
def execApplyFault (s : State) : Host.Outcome State Fault Refusal :=
  s.does (fun h => h.applyFault)

/-- WARM_SCRUB_DONE (R101). -/
def execWarmScrubDone (s : State) : Host.Outcome State Fault Refusal :=
  s.does (fun h => h.scrubDone)

/-- RUN_ENTRY (R124). -/
def execRunEntry (s : State) : Host.Outcome State Fault Refusal :=
  s.does (fun h => h.runEntry)

/-- FW_READY (R129). -/
def execFwReady (s : State) : Host.Outcome State Fault Refusal :=
  s.does (fun h => h.fwReady)

/-- PROG_READ (R135). -/
def execProgRead (p : Path) (d : NvmDevice) (s : State) : Host.Outcome State Fault Refusal :=
  s.does (fun h => h.progWrite p 1#32 d)

/-- PROG_PROGRAM (R135). -/
def execProgProgram (p : Path) (d : NvmDevice) (s : State) : Host.Outcome State Fault Refusal :=
  s.does (fun h => h.progWrite p 2#32 d)

/-- PROG_ERASE_SECTOR (R135). -/
def execProgEraseSector (p : Path) (d : NvmDevice) (s : State) : Host.Outcome State Fault Refusal :=
  s.does (fun h => h.progWrite p 3#32 d)

/-- PROG_ERASE_BLOCK (R135). -/
def execProgEraseBlock (p : Path) (d : NvmDevice) (s : State) : Host.Outcome State Fault Refusal :=
  s.does (fun h => h.progWrite p 4#32 d)

/-- PROG_UNKNOWN_COMMAND (R135). -/
def execProgUnknownCommand (p : Path) (v : Word) (d : NvmDevice) (s : State) : Host.Outcome State Fault Refusal :=
  s.does (fun h => h.progWrite p v d)

/-- PROG_COMMAND_DONE (R135). -/
def execProgCommandDone (timeout : Bool) (s : State) : Host.Outcome State Fault Refusal :=
  s.does (fun h => h.progDone timeout)

/-- BAR_BOUNDARY (R56). -/
def execBarBoundary (tclk : List (Tile × BitVec 13)) (lanes : List LaneMeas) (rest : Fin 4)
    (s : State) : Host.Outcome State Fault Refusal :=
  s.does (fun h => h.barBoundary (tclk.map (fun x => (x.1.val, x.2.toNat))) lanes rest)

/-- TCLK_OUT_OF_RANGE (R73). -/
def execTclkOutOfRange (tile : Tile) (s : State) : Host.Outcome State Fault Refusal :=
  s.does (fun h => h.clocked (·.tclkOutOfRange tile))

end Sys2Proof.Machine
end

