-- ==== Sys2Proof/Machine/ExecBulk.lean ====
section
/-! DEFINITION. The meanings of the commands of the bulk network (chapter 6): each is the block's own operation for it, on everything but the queue. -/

namespace Sys2Proof.Machine

/-- FLIT_INJECT (R267). -/
def execFlitInject (n : Node) (s : State) : Host.Outcome State Fault Refusal :=
  s.does (fun h => h.clocked (·.grant n))

/-- FLIT_HOP (R252). -/
def execFlitHop (n : Node) (out : Fin 5) (err : MeshErr) (s : State) : Host.Outcome State Fault Refusal :=
  s.does (fun h => h.clocked (·.hop n out err))

/-- FLIT_SINK_DELIVERY (R265). -/
def execFlitSinkDelivery (n : Node) (ue : Bool) (s : State) : Host.Outcome State Fault Refusal :=
  s.does (fun h => h.clocked (·.sinkDeliver n ue))

/-- FLIT_LATE (R270). -/
def execFlitLate (n : Node) (port : Fin 6) (sel : BitVec 13) (s : State) : Host.Outcome State Fault Refusal :=
  s.does (fun h => h.clocked (·.flitLate n port sel.toNat))

/-- BNET_CREDIT_RETURN (R243). -/
def execBnetCreditReturn (n : Node) (port : Fin 5) (vc : Fin 8) (s : State) : Host.Outcome State Fault Refusal :=
  s.does (fun h => h.clocked (·.bCreditReturn n port vc))

/-- PHASE_TARGET_WRITE (R261). -/
def execPhaseTargetWrite (p : Path) (e : BitVec 12) (v : Word) (s : State) : Host.Outcome State Fault Refusal :=
  s.does (fun h => h.writeAt p ⟨.bnPhase, anchorNode, e.toNat⟩ v)

/-- PHASE_SWITCH (R261). -/
def execPhaseSwitch (e : BitVec 12) (s : State) : Host.Outcome State Fault Refusal :=
  s.does (fun h => h.clocked (·.phaseSwitch e.toNat))

/-- FLOW_SLOT_ENABLE (R278). -/
def execFlowSlotEnable (p : Path) (n : Node) (k : BitVec 9) (v : Word) (s : State) : Host.Outcome State Fault Refusal :=
  s.does (fun h => h.writeAt p ⟨.bnFlowCfg, n, k.toNat⟩ v)

end Sys2Proof.Machine
end

