-- ==== Sys2Proof/Machine/ExecChannel.lean ====
section
/-! DEFINITION. The meanings of the commands of channels, bells and register packets (chapter 7): each is the block's own operation for it, on everything but the queue. -/

namespace Sys2Proof.Machine

/-- CHANNEL_SEND (R302). -/
def execChannelSend (n : Node) (k : BitVec 4) (c : BitVec 12) (data : BitVec 512) (s : State) : Host.Outcome State Fault Refusal :=
  s.does (fun h => h.clocked (·.agentSend n k.toNat c.toNat data))

/-- CHANNEL_CREDIT_ARRIVAL (R304). -/
def execChannelCreditArrival (c : BitVec 12) (errs : List CErr) (crossed : Bool) (s : State) : Host.Outcome State Fault Refusal :=
  s.does (fun h => h.clocked (·.creditArrival c.toNat errs crossed))

/-- CHANNEL_MSG_ARRIVAL (R319). -/
def execChannelMsgArrival (c : BitVec 12) (errs : List CErr) (crossed : Bool) (s : State) : Host.Outcome State Fault Refusal :=
  s.does (fun h => h.clocked (·.chMsgArrival c.toNat errs crossed))

/-- CHANNEL_DEQUEUE (R302). -/
def execChannelDequeue (n : Node) (k : BitVec 4) (c : BitVec 12) (merge : Bool) (s : State) : Host.Outcome State Fault Refusal :=
  s.does (fun h => h.clocked (·.agentDequeue n k.toNat c.toNat merge))

/-- CHANNEL_ENABLE (R323). -/
def execChannelEnable (p : Path) (c : BitVec 12) (v : Word) (s : State) : Host.Outcome State Fault Refusal :=
  s.does (fun h => h.writeAt p ⟨.chCfg, c.toNat, 0⟩ (setBit v 15 true))

/-- CHANNEL_DISABLE (R324). -/
def execChannelDisable (p : Path) (c : BitVec 12) (v : Word) (s : State) : Host.Outcome State Fault Refusal :=
  s.does (fun h => h.writeAt p ⟨.chCfg, c.toNat, 0⟩ (setBit v 15 false))

/-- NODE_BELL_CLEAR (R313). -/
def execNodeBellClear (p : Path) (n : Node) (v : Word) (s : State) : Host.Outcome State Fault Refusal :=
  s.does (fun h => h.writeAt p ⟨.nodeBell, n, 0⟩ v)

/-- BELL_RING (R314). -/
def execBellRing (p : Path) (n : Node) (v : Word) (s : State) : Host.Outcome State Fault Refusal :=
  s.does (fun h => h.writeAt p ⟨.nodeBellRing, n, 0⟩ v)

/-- REG_REQUEST (R316). -/
def execRegRequest (p : Path) (addr : BitVec 28) (write : Option Word) (errs : List CErr) (crossed : Bool)
    (s : State) : Host.Outcome State Fault Refusal :=
  s.does (fun h => h.clocked (·.regRequest p addr.toNat write errs crossed))

/-- REG_RESPONSE (R317). -/
def execRegResponse (p : Path) (errs : List CErr) (crossed : Bool) (s : State) : Host.Outcome State Fault Refusal :=
  s.does (fun h => h.clocked (·.regResponse p errs crossed))

end Sys2Proof.Machine
end

