-- ==== Sys2Proof/Machine/ExecDebug.lean ====
section
/-! DEFINITION. The meanings of the commands of the TAP and the debug module (chapters 5 and 18): each is the block's own operation for it, on everything but the queue. -/

namespace Sys2Proof.Machine

/-- TAP_RESET (R800). -/
def execTapReset (s : State) : Host.Outcome State Fault Refusal :=
  s.does (fun h => h.tapReset)

/-- IDCODE (R801). -/
def execIdcode (s : State) : Host.Outcome State Fault Refusal :=
  s.does (fun h => h.tapSelect 1 Sys2Proof.Machine.idcode)

/-- SAMPLE_PRELOAD (R808). -/
def execSamplePreload (nvm : BitVec 12) (nvmOn : Bool) (dq : BitVec 9) (load : BitVec 28) (s : State) : Host.Outcome State Fault Refusal :=
  s.does (fun h => h.samplePreload nvm nvmOn dq load)

/-- EXTEST (R808). -/
def execExtest (nvm : BitVec 12) (nvmOn : Bool) (dq : BitVec 9) (load : Option (BitVec 28))
    (s : State) : Host.Outcome State Fault Refusal :=
  s.does (fun h => h.extest nvm nvmOn dq load)

/-- CLAMP (R808). -/
def execClamp (s : State) : Host.Outcome State Fault Refusal :=
  s.does (fun h => h.clamp)

/-- HIGHZ (R808). -/
def execHighz (s : State) : Host.Outcome State Fault Refusal :=
  s.does (fun h => h.highz)

/-- BYPASS (R800). -/
def execBypass (s : State) : Host.Outcome State Fault Refusal :=
  s.does (fun h => h.tapSelect 0xff 0#64)

/-- DMI (R802). -/
def execDmi (a : BitVec 7) (write : Option Word) (s : State) : Host.Outcome State Fault Refusal :=
  s.does (fun h => h.dmi a write)

/-- DEBUG_SYSBUS_ACCESS (R232). -/
def execDebugSysbusAccess (addr : BitVec 28) (write : Option Word) (s : State) : Host.Outcome State Fault Refusal :=
  s.does (fun h => h.debugAccess addr.toNat write)

end Sys2Proof.Machine
end

