-- ==== Sys2Proof/Machine/ExecFold.lean ====
section
/-! DEFINITION. The meanings of the commands of fold contexts and collectives (chapters 9 and 10): each is the block's own operation for it, on everything but the queue. -/

namespace Sys2Proof.Machine

/-- FOLD_CONTRIBUTION_ARRIVAL (R403). -/
def execFoldContributionArrival (n : Node) (port : Fin 5) (sel : BitVec 13) (s : State) : Host.Outcome State Fault Refusal :=
  s.does (fun h => h.clocked (·.foldArrive n port sel.toNat))

/-- FOLD_COMBINE (R389). -/
def execFoldCombine (n : Node) (k : BitVec 6) (err : FoldErr) (s : State) : Host.Outcome State Fault Refusal :=
  s.does (fun h => h.clocked (·.foldCombineAt n k.toNat err))

/-- FOLD_CONTEXT_ENABLE (R401). -/
def execFoldContextEnable (p : Path) (n : Node) (k : BitVec 6) (v : Word) (s : State) : Host.Outcome State Fault Refusal :=
  s.does (fun h => h.writeAt p ⟨.fldCfg, n, k.toNat⟩ (setBit v 15 true))

/-- FOLD_CONTEXT_CLEAR (R413). -/
def execFoldContextClear (p : Path) (n : Node) (k : BitVec 6) (v : Word) (s : State) : Host.Outcome State Fault Refusal :=
  s.does (fun h => h.writeAt p ⟨.fldCfg, n, k.toNat⟩ (setBit v 15 false))

/-- CCX (R414). -/
def execCcx (tile : Tile) (x : CmdHdr) (body : List (BitVec 64)) (s : State) : Host.Outcome State Fault Refusal :=
  s.does (fun h => h.clocked (·.cmdCcx tile x body))

/-- TAIL_START (R417). -/
def execTailStart (tile : Tile) (tag : BitVec 16) (ueAt : Option Nat) (s : State) : Host.Outcome State Fault Refusal :=
  s.does (fun h => h.clocked (·.tailStart tile tag.toNat ueAt))

/-- TAIL_COMPLETE (R447). -/
def execTailComplete (tile : Tile) (tag : BitVec 16) (s : State) : Host.Outcome State Fault Refusal :=
  s.does (fun h => h.clocked (·.tailComplete tile tag.toNat))

/-- SEQ_REPORT (R432). -/
def execSeqReport (q : Node) (s : State) : Host.Outcome State Fault Refusal :=
  s.does (fun h => h.clocked (·.seqArrive q))

/-- SEQ_ARM (R433). -/
def execSeqArm (q : Node) (j : BitVec 6) (s : State) : Host.Outcome State Fault Refusal :=
  s.does (fun h => h.clocked (·.seqArm q j.toNat))

/-- RING_RELAY (R431). -/
def execRingRelay (n : Node) (k : BitVec 5) (port : Fin 5) (sel : BitVec 13) (s : State) : Host.Outcome State Fault Refusal :=
  s.does (fun h => h.clocked (·.ringRelay n k.toNat port sel.toNat))

end Sys2Proof.Machine
end

