-- ==== Sys2Proof/Machine/ExecGuard.lean ====
section
/-! DEFINITION. The meanings of the commands of guarded register writes and what they request (chapters 2 and 5): each is the block's own operation for it, on everything but the queue. -/

namespace Sys2Proof.Machine

/-- CPL_VALUE_WRITE (R210). -/
def execCplValueWrite (p : Path) (c : CplReg) (v : Word) (s : State) : Host.Outcome State Fault Refusal :=
  s.does (fun h => h.writeAt p ⟨cplId c, 0, 0⟩ v)

/-- CPL_GUARD_EXPIRED (R212). -/
def execCplGuardExpired (c : CplReg) (s : State) : Host.Outcome State Fault Refusal :=
  s.does (fun h => h.cplExpire c)

/-- RESET_REQ_WARM (R85). -/
def execResetReqWarm (p : Path) (s : State) : Host.Outcome State Fault Refusal :=
  s.does (fun h => h.resetRequest p 1)

/-- RESET_REQ_COLD (R85). -/
def execResetReqCold (p : Path) (s : State) : Host.Outcome State Fault Refusal :=
  s.does (fun h => h.resetRequest p 2)

/-- RESET_REQ_PARTITION (R77). -/
def execResetReqPartition (p : Path) (s : State) : Host.Outcome State Fault Refusal :=
  s.does (fun h => h.resetRequest p 3)

/-- RESET_REQ_TORUS_PORT (R78). -/
def execResetReqTorusPort (p : Path) (s : State) : Host.Outcome State Fault Refusal :=
  s.does (fun h => h.resetRequest p 4)

/-- RESET_REQ_TILE_PORT (R78). -/
def execResetReqTilePort (p : Path) (s : State) : Host.Outcome State Fault Refusal :=
  s.does (fun h => h.resetRequest p 5)

/-- LOCK_SET (R207). -/
def execLockSet (p : Path) (s : State) : Host.Outcome State Fault Refusal :=
  s.does (fun h => h.guardComplement p .lock)

/-- BUDGET_SET (R759). -/
def execBudgetSet (p : Path) (s : State) : Host.Outcome State Fault Refusal :=
  s.does (fun h => h.guardComplement p .budget)

/-- FUSE_BURN (R234). -/
def execFuseBurn (p : Path) (s : State) : Host.Outcome State Fault Refusal :=
  s.does (fun h => h.guardComplement p .fuse)

/-- FUSE_BURN_DONE (R236). -/
def execFuseBurnDone (differs : Bool) (s : State) : Host.Outcome State Fault Refusal :=
  s.does (fun h => h.burnDone differs)

end Sys2Proof.Machine
end

