-- ==== Sys2Proof/Machine/ExecHost.lean ====
section
/-! DEFINITION. The meanings of the commands of the host interface and launches (chapters 4, 15 and 16): each is the block's own operation for it, on everything but the queue. -/

namespace Sys2Proof.Machine

/-- LAUNCH_DOORBELL (R677). -/
def execLaunchDoorbell (t : Tenant) (s : State) : Host.Outcome State Fault Refusal :=
  s.does (fun h => h.writeAt (.vf t) ⟨.hstLaunchDb, t, 0⟩ 1#32)

/-- PLAN_READ_DONE (R679). -/
def execPlanReadDone (t : Tenant) (bytes : List Byte) (ok : Bool) (s : State) : Host.Outcome State Fault Refusal :=
  s.does (fun h => h.clocked (·.planRead t bytes ok))

/-- ADMISSION (R180). -/
def execAdmission (t : Tenant) (s : State) : Host.Outcome State Fault Refusal :=
  s.does (fun h => h.clocked (·.admission t))

/-- GEN_WAIT_EXPIRY (R698). -/
def execGenWaitExpiry (t : Tenant) (s : State) : Host.Outcome State Fault Refusal :=
  s.does (fun h => h.clocked (·.genWaitExpiry t))

/-- JOB_STOP (R683). -/
def execJobStop (t : Tenant) (s : State) : Host.Outcome State Fault Refusal :=
  s.does (fun h => h.writeAt (.vf t) ⟨.hstJobCtl, t, 0⟩ 1#32)

/-- RELAUNCH (R682). -/
def execRelaunch (t : Tenant) (s : State) : Host.Outcome State Fault Refusal :=
  s.does (fun h => h.clocked (·.relaunch t))

/-- BAR2_READ (R667). -/
def execBar2Read (t : Tenant) (off : BitVec 40) (len : BitVec 13) (err : PadErr) (s : State) : Host.Outcome State Fault Refusal :=
  s.does (fun h => h.clocked (·.bar2Read t off.toNat len.toNat err))

/-- BAR2_WRITE (R667). -/
def execBar2Write (t : Tenant) (off : BitVec 40) (data : List (Option Byte)) (s : State) : Host.Outcome State Fault Refusal :=
  s.does (fun h => h.clocked (·.bar2Write t off.toNat data))

/-- MSIX_SEND (R673). -/
def execMsixSend (fn : Fin 65) (v : Fin 32) (s : State) : Host.Outcome State Fault Refusal :=
  s.does (fun h => h.msixSend fn v)

/-- AER_ERROR (R675). -/
def execAerError (e : AerError) (fn : Fin 65) (s : State) : Host.Outcome State Fault Refusal :=
  s.does (fun h => h.aerReport e fn)

/-- PCIE_LINK_DOWN (R675). -/
def execPcieLinkDown (s : State) : Host.Outcome State Fault Refusal :=
  s.does (fun h => h.pcieLinkDown)

/-- PF_D3HOT (R658). -/
def execPfD3hot (s : State) : Host.Outcome State Fault Refusal :=
  s.does (fun h => h.pfD3hot)

/-- VF_FLR (R692). -/
def execVfFlr (t : Tenant) (s : State) : Host.Outcome State Fault Refusal :=
  s.does (fun h => h.clocked (·.vfReset t))

/-- VF_DISABLE (R662). -/
def execVfDisable (vfs : List Tenant) (s : State) : Host.Outcome State Fault Refusal :=
  s.does (fun h => h.clocked (·.vfDisable vfs))

/-- WINDOW_WITHDRAW (R686). -/
def execWindowWithdraw (p : Path) (t : Tenant) (w : Fin 16) (part : Fin 3) (v : Word) (s : State) : Host.Outcome State Fault Refusal :=
  s.does (fun h => h.writeAt p ⟨if part = 0 then .hstWinBaseLo else if part = 1 then .hstWinBaseHi else .hstWinSize, t, w⟩ v)

/-- RELAY_SEND (R688). -/
def execRelaySend (w : Option (Path × BitVec 12)) (s : State) : Host.Outcome State Fault Refusal :=
  s.does (fun h => (h.relayWrites false w).clocked (·.relaySend))

/-- RELAY_DEQUEUE (R688). -/
def execRelayDequeue (w : Option (Path × BitVec 12)) (merge : Bool) (s : State) : Host.Outcome State Fault Refusal :=
  s.does (fun h => (h.relayWrites true w).clocked (·.relayDequeue merge))

/-- PCIE_LINK_UP (R657). -/
def execPcieLinkUp (speed : BitVec 4) (width : BitVec 6) (ari : Bool) (s : State) : Host.Outcome State Fault Refusal :=
  s.does (fun h => h.pcieLinkUp speed.toNat width.toNat ari)

/-- PF_D0_RETURN (R658). -/
def execPfD0Return (s : State) : Host.Outcome State Fault Refusal :=
  s.does (fun h => h.pfD0)

/-- MSIX_VECTOR_UNMASK (R673). -/
def execMsixVectorUnmask (fn : Fin 65) (v : Fin 32) (s : State) : Host.Outcome State Fault Refusal :=
  s.does (fun h => h.msixUnmask fn v)

/-- VF_BUS_MASTER_CLEAR (R691). -/
def execVfBusMasterClear (t : Tenant) (s : State) : Host.Outcome State Fault Refusal :=
  s.does (fun h => h.clocked (·.busMasterClear t))

end Sys2Proof.Machine
end

