-- ==== Sys2Proof/Machine/ExecLink.lean ====
section
/-! DEFINITION. The meanings of the commands of the torus link layer (chapter 14): each is the block's own operation for it, on everything but the queue. -/

namespace Sys2Proof.Machine

/-- FRAME_TRANSMIT (R609). -/
def execFrameTransmit (p : Port) (k : Fin 18) (s : State) : Host.Outcome State Fault Refusal :=
  s.does (fun h => h.clocked (·.frameTransmit p k))

/-- FRAME_RECEIVE (R612). -/
def execFrameReceive (p : Port) (k : Fin 18) (b : List Byte) (s : State) : Host.Outcome State Fault Refusal :=
  s.does (fun h => h.clocked (·.frameRx p k b))

/-- CONTROL_WORD_RX (R607). -/
def execControlWordRx (p : Port) (k : Fin 18) (b : List Byte) (s : State) : Host.Outcome State Fault Refusal :=
  s.does (fun h => h.clocked (·.controlRx p k b))

/-- FRAME_DELIVER (R624). -/
def execFrameDeliver (p : Port) (s : State) : Host.Outcome State Fault Refusal :=
  s.does (fun h => h.clocked (·.frameDeliver p))

/-- FRAME_RELEASE (R620). -/
def execFrameRelease (p : Port) (s : State) : Host.Outcome State Fault Refusal :=
  s.does (fun h => h.clocked (·.frameRelease p))

/-- NAK_RECEIVE (R616). -/
def execNakReceive (p : Port) (seq : BitVec 16) (s : State) : Host.Outcome State Fault Refusal :=
  s.does (fun h => h.clocked (·.nakIn p seq.toNat))

/-- REPLAY_TIMEOUT (R616). -/
def execReplayTimeout (p : Port) (s : State) : Host.Outcome State Fault Refusal :=
  s.does (fun h => h.clocked (·.replayTimeout p))

/-- SIDEBAND_UNIT_RX (R629). -/
def execSidebandUnitRx (p : Port) (k : Fin 18) (part : Fin 8) (u : BitVec 64) (s : State) : Host.Outcome State Fault Refusal :=
  s.does (fun h => h.clocked (·.sbUnitRx p k part u))

/-- SIDEBAND_TIMEOUT (R629). -/
def execSidebandTimeout (p : Port) (s : State) : Host.Outcome State Fault Refusal :=
  s.does (fun h => h.clocked (·.sbTimedOut p))

/-- IDENT_RECEIVE (R635). -/
def execIdentReceive (p : Port) (rtt : BitVec 16) (s : State) : Host.Outcome State Fault Refusal :=
  s.does (fun h => h.clocked (·.identRx p rtt.toNat))

/-- ECHO (R633). -/
def execEcho (p : Port) (s : State) : Host.Outcome State Fault Refusal :=
  s.does (fun h => h.clocked (·.echoStep p))

/-- PORT_DECLARED_DOWN (R636). -/
def execPortDeclaredDown (p : Port) (s : State) : Host.Outcome State Fault Refusal :=
  s.does (fun h => h.clocked (·.downNow p))

/-- PORT_RETURN_TIMEOUT (R636). -/
def execPortReturnTimeout (p : Port) (s : State) : Host.Outcome State Fault Refusal :=
  s.does (fun h => h.clocked (·.returnTimeout p))

/-- DTR_RECEIVE (R645). -/
def execDtrReceive (p : Port) (s : State) : Host.Outcome State Fault Refusal :=
  s.does (fun h => h.clocked (·.dtrRx p))

/-- PEER_VIOL_LEAK (R654). -/
def execPeerViolLeak (p : Port) (s : State) : Host.Outcome State Fault Refusal :=
  s.does (fun h => h.clocked (·.peerLeak p))

end Sys2Proof.Machine
end

