-- ==== Sys2Proof/Machine/ExecMemory.lean ====
section
/-! DEFINITION. The meanings of the commands of slabs, HBM and leases (chapter 12): each is the block's own operation for it, on everything but the queue. -/

namespace Sys2Proof.Machine

/-- SITE_RETIRE (R516). -/
def execSiteRetire (p : Path) (tile : Tile) (v : Word) (s : State) : Host.Outcome State Fault Refusal :=
  s.does (fun h => h.writeAt p ⟨.tpCfg, tileNode tile, 0⟩ (setBit v 31 true))

/-- PATROL_SCRUB (R521). -/
def execPatrolScrub (tile : Tile) (ce : BitVec 5) (ue : Bool) (s : State) : Host.Outcome State Fault Refusal :=
  s.does (fun h => h.clocked (·.patrol tile ce.toNat ue))

/-- PAGE_ZERO_DONE (R533). -/
def execPageZeroDone (g : Fin 4096) (s : State) : Host.Outcome State Fault Refusal :=
  s.does (fun h => h.clocked (·.pageZeroDone g))

/-- GRANULE_ZERO (R533). -/
def execGranuleZero (m : Fin 12) (s : State) : Host.Outcome State Fault Refusal :=
  s.does (fun h => h.clocked (·.zeroNext m))

/-- MEMORY_PATH_ACCESS (R539). -/
def execMemoryPathAccess (id : Nat) (data : List Byte) (repeats : BitVec 3) (ok : Bool) (ce : Bool) (ue : Bool) (dead : Bool)
    (s : State) : Host.Outcome State Fault Refusal :=
  s.does (fun h => h.clocked (·.memPerform id data repeats.toNat ok ce ue dead))

/-- HBM_PAIR_FAIL (R546). -/
def execHbmPairFail (q : Fin 96) (s : State) : Host.Outcome State Fault Refusal :=
  s.does (fun h => h.clocked (fun h => if h.running then h.pairFail q 0x46 else h))

/-- LEASE_WRITE (R549). -/
def execLeaseWrite (p : Path) (hbm : Bool) (u : BitVec 16) (v : Word) (s : State) : Host.Outcome State Fault Refusal :=
  s.does (fun h => h.writeAt p ⟨if hbm then .slbHlease else .slbLease, u.toNat, 0⟩ v)

end Sys2Proof.Machine
end

