-- ==== Sys2Proof/Machine/ExecObserve.lean ====
section
/-! DEFINITION. The meanings of the commands of observation and hang analysis (chapter 19): each is the block's own operation for it, on everything but the queue. -/

namespace Sys2Proof.Machine

/-- PMC_FREEZE (R830). -/
def execPmcFreeze (p : Path) (v : Word) (s : State) : Host.Outcome State Fault Refusal :=
  s.does (fun h => h.pmcGongWrite p 1 v)

/-- PMC_THAW (R830). -/
def execPmcThaw (p : Path) (v : Word) (s : State) : Host.Outcome State Fault Refusal :=
  s.does (fun h => h.pmcGongWrite p 2 v)

/-- HANG_WATCHDOG_TRIP (R834). -/
def execHangWatchdogTrip (n : Node) (e : Fin 12) (s : State) : Host.Outcome State Fault Refusal :=
  s.does (fun h => h.clocked (·.hangTrip n e))

/-- DIE_WAIT_LIMIT (R835). -/
def execDieWaitLimit (n : Node) (e : Fin 12) (s : State) : Host.Outcome State Fault Refusal :=
  s.does (fun h => h.clocked (·.dieWaitLimit n e))

/-- HANG_RELEASE (R838). -/
def execHangRelease (p : Path) (s : State) : Host.Outcome State Fault Refusal :=
  s.does (fun h => h.writeAt p ⟨.pmcHangRel, 0, 0⟩ 1#32)

/-- HANG_REPORT_ASSEMBLE (R843). -/
def execHangReportAssemble (s : State) : Host.Outcome State Fault Refusal :=
  s.does (fun h => h.clocked (·.hangAssemble))

/-- BIN_FREE (R825). -/
def execBinFree (p : Path) (n : Node) (b : BitVec 5) (s : State) : Host.Outcome State Fault Refusal :=
  s.does (fun h => h.writeAt p ⟨.pmcBinCmds, n, b.toNat⟩ 0#32)

end Sys2Proof.Machine
end

