-- ==== Sys2Proof/Machine/ExecPhy.lean ====
section
/-! DEFINITION. The meanings of the commands of the torus PHY (chapter 13): each is the block's own operation for it, on everything but the queue. -/

namespace Sys2Proof.Machine

/-- TRAIN_CAL_DONE (R580). -/
def execTrainCalDone (p : Port) (s : State) : Host.Outcome State Fault Refusal :=
  s.does (fun h => h.clocked (·.calDone p))

/-- TRAINING_UNIT_RX (R581). -/
def execTrainingUnitRx (p : Port) (u : BitVec 64) (s : State) : Host.Outcome State Fault Refusal :=
  s.does (fun h => h.clocked (·.trainUnit p u))

/-- SB_ACQ_DONE (R582). -/
def execSbAcqDone (p : Port) (ms : List LaneMeas) (s : State) : Host.Outcome State Fault Refusal :=
  s.does (fun h => h.clocked (·.sbAcqDone p ms))

/-- DATA_EQ_DONE (R582). -/
def execDataEqDone (p : Port) (ms : List LaneMeas) (s : State) : Host.Outcome State Fault Refusal :=
  s.does (fun h => h.clocked (·.dataEqDone p ms))

/-- LANE_SELECT (R583). -/
def execLaneSelect (p : Port) (s : State) : Host.Outcome State Fault Refusal :=
  s.does (fun h => h.clocked (·.laneSelect p))

/-- PORT_ACTIVE (R584). -/
def execPortActive (p : Port) (s : State) : Host.Outcome State Fault Refusal :=
  s.does (fun h => h.clocked (·.portActive p))

/-- TRAIN_WAIT_EXPIRY (R579). -/
def execTrainWaitExpiry (p : Port) (s : State) : Host.Outcome State Fault Refusal :=
  s.does (fun h => h.clocked (·.waitExpiry p))

/-- PREAMBLE_DETECT (R564). -/
def execPreambleDetect (p : Port) (k : Fin 18) (signs : List Bool) (win : List Bool) (s : State) : Host.Outcome State Fault Refusal :=
  s.does (fun h => h.clocked (·.preambleRx p k signs win))

/-- BURST_END (R566). -/
def execBurstEnd (p : Port) (k : Fin 18) (w1 : BitVec 64) (w2 : BitVec 64) (s : State) : Host.Outcome State Fault Refusal :=
  s.does (fun h => h.clocked (·.burstEnd p k w1 w2))

/-- LANE_LOS (R566). -/
def execLaneLos (p : Port) (k : Fin 18) (s : State) : Host.Outcome State Fault Refusal :=
  s.does (fun h => h.clocked (·.laneLos p k))

/-- SIDEBAND_LOST (R587). -/
def execSidebandLost (p : Port) (s : State) : Host.Outcome State Fault Refusal :=
  s.does (fun h => h.clocked (·.sbLost p))

/-- LANE_ISOLATE (R589). -/
def execLaneIsolate (p : Port) (k : Fin 18) (s : State) : Host.Outcome State Fault Refusal :=
  s.does (fun h => h.clocked (·.laneIsolate p k))

/-- ISOLATE (R590). -/
def execIsolate (p : Port) (s : State) : Host.Outcome State Fault Refusal :=
  s.does (fun h => h.clocked (·.isolateCmd p))

/-- REWAKE (R594). -/
def execRewake (p : Port) (s : State) : Host.Outcome State Fault Refusal :=
  s.does (fun h => h.clocked (·.rewakeCmd p))

/-- BAD_LANE_COMMAND (R588). -/
def execBadLaneCommand (p : Port) (s : State) : Host.Outcome State Fault Refusal :=
  s.does (fun h => h.clocked (·.badCmd p))

/-- DIRECTION_SLEEP (R598). -/
def execDirectionSleep (p : Port) (s : State) : Host.Outcome State Fault Refusal :=
  s.does (fun h => h.clocked (fun h => h.phySleep p (h.txIdle p)))

/-- DIRECTION_WAKE (R599). -/
def execDirectionWake (p : Port) (s : State) : Host.Outcome State Fault Refusal :=
  s.does (fun h => h.clocked (·.phyWake p))

end Sys2Proof.Machine
end

