-- ==== Sys2Proof/Machine/ExecPower.lean ====
section
/-! DEFINITION. The meanings of the commands of the power arbiter (chapter 17): each is the block's own operation for it, on everything but the queue. -/

namespace Sys2Proof.Machine

/-- POWER_REQUEST (R507). -/
def execPowerRequest (tile : Tile) (demand : BitVec 9) (draw : BitVec 9) (early : Bool) (s : State) : Host.Outcome State Fault Refusal :=
  s.does (fun h => h.clocked (·.powerReport tile demand.toNat draw.toNat early))

/-- POWER_GRANT_ACK (R509). -/
def execPowerGrantAck (tile : Tile) (s : State) : Host.Outcome State Fault Refusal :=
  s.does (fun h => h.clocked (·.grantAck tile))

/-- GRANT_ACK_LATE (R509). -/
def execGrantAckLate (tile : Tile) (s : State) : Host.Outcome State Fault Refusal :=
  s.does (fun h => h.clocked (·.grantLate tile))

/-- POWER_WINDOW_COMPUTE (R753). -/
def execPowerWindowCompute (sensors : List (BitVec 12 × BitVec 12 × Bool)) (temp : BitVec 8)
    (s : State) : Host.Outcome State Fault Refusal :=
  s.does (fun h => h.clocked (·.powerWindow (sensors.map (fun x => (x.1.toNat, x.2.1.toNat, x.2.2))) temp.toNat))

/-- POWER_ADAPT (R755). -/
def execPowerAdapt (s : State) : Host.Outcome State Fault Refusal :=
  s.does (fun h => h.clocked (·.powerAdaptAll))

/-- START_GRANT (R762). -/
def execStartGrant (t : Tenant) (s : State) : Host.Outcome State Fault Refusal :=
  s.does (fun h => h.clocked (·.startGrant t))

/-- DROOP_TRIP (R764). -/
def execDroopTrip (k : BitVec 4) (s : State) : Host.Outcome State Fault Refusal :=
  s.does (fun h => h.clocked (·.droopTrip k.toNat))

/-- DROOP_GATE_END (R766). -/
def execDroopGateEnd (s : State) : Host.Outcome State Fault Refusal :=
  s.does (fun h => h.clocked (·.droopEnd))

/-- THERM_N_CHANGE (R864). -/
def execThermNChange (level : Bool) (s : State) : Host.Outcome State Fault Refusal :=
  s.does (fun h => h.thermN level)

end Sys2Proof.Machine
end

