-- ==== Sys2Proof/Machine/ExecReset.lean ====
section
/-! DEFINITION. The meanings of the commands of resets, PLLs and port resets (chapter 2): each is the block's own operation for it, on everything but the queue. -/

namespace Sys2Proof.Machine

/-- PWR_GOOD_LOW (R75). -/
def execPwrGoodLow (s : State) : Host.Outcome State Fault Refusal :=
  s.does (fun h => h.pwrGoodLow)

/-- RST_N_LOW (R75). -/
def execRstNLow (s : State) : Host.Outcome State Fault Refusal :=
  s.does (fun h => h.rstNLow)

/-- REFCLK_LOSS (R50). -/
def execRefclkLoss (s : State) : Host.Outcome State Fault Refusal :=
  s.does (fun h => h.refclkLoss)

/-- COLD_RESET (R80). -/
def execColdReset (s : State) : Host.Outcome State Fault Refusal :=
  s.does (fun h => h.coldBegins)

/-- COLD_RESET_END (R83). -/
def execColdResetEnd (s : State) : Host.Outcome State Fault Refusal :=
  s.does (fun h => h.coldEnd)

/-- PERST_N_ASSERT (R76). -/
def execPerstNAssert (s : State) : Host.Outcome State Fault Refusal :=
  s.does (fun h => h.perstLow)

/-- PF_FLR (R76). -/
def execPfFlr (s : State) : Host.Outcome State Fault Refusal :=
  s.does (fun h => h.pfFlr)

/-- WARM_RESET (R89). -/
def execWarmReset (s : State) : Host.Outcome State Fault Refusal :=
  s.does (fun h => h.warmBegins)

/-- ROOT_PLL_UNLOCK (R51). -/
def execRootPllUnlock (s : State) : Host.Outcome State Fault Refusal :=
  s.does (fun h => h.rootUnlock)

/-- ROOT_PLL_RELOCK (R51). -/
def execRootPllRelock (s : State) : Host.Outcome State Fault Refusal :=
  s.does (fun h => h.rootRelock)

/-- PLL_LOCK (R49). -/
def execPllLock (w : PllId) (s : State) : Host.Outcome State Fault Refusal :=
  s.does (fun h => h.pllLocks w)

/-- PHY_PLL_UNLOCK (R53). -/
def execPhyPllUnlock (p : Port) (s : State) : Host.Outcome State Fault Refusal :=
  s.does (fun h => h.phyPllUnlock p)

/-- HBM_PLL_UNLOCK (R54). -/
def execHbmPllUnlock (k : Fin 6) (s : State) : Host.Outcome State Fault Refusal :=
  s.does (fun h => h.hbmPllUnlock k)

/-- PCIE_PLL_UNLOCK (R55). -/
def execPciePllUnlock (s : State) : Host.Outcome State Fault Refusal :=
  s.does (fun h => h.pciePllUnlock)

/-- PORT_RESET (R78). -/
def execPortReset (p : PortId) (s : State) : Host.Outcome State Fault Refusal :=
  s.does (fun h => h.clocked (·.portReset p))

/-- PARTITION_RESET (R77). -/
def execPartitionReset (t : Tenant) (s : State) : Host.Outcome State Fault Refusal :=
  s.does (fun h => h.clocked (·.partitionReset t))

end Sys2Proof.Machine
end

