-- ==== Sys2Proof/Machine/ExecSteward.lean ====
section
/-! DEFINITION. The meanings of the commands of steward cores and services (chapter 18): each is the block's own operation for it, on everything but the queue. -/

namespace Sys2Proof.Machine

/-- HEARTBEAT_WRITE (R778). -/
def execHeartbeatWrite (k : Core) (v : Word) (s : State) : Host.Outcome State Fault Refusal :=
  s.does (fun h => h.writeAt (.steward k) ⟨.stwHeartbeat, k, 0⟩ v)

/-- STEWARD_HEARTBEAT_FAIL (R779). -/
def execStewardHeartbeatFail (k : Core) (s : State) : Host.Outcome State Fault Refusal :=
  s.does (fun h => h.clocked (·.heartbeatFail k))

/-- STEWARD_CORE_UE (R774). -/
def execStewardCoreUe (core : Option Core) (n : Node) (s : State) : Host.Outcome State Fault Refusal :=
  s.does (fun h => h.clocked (·.coreUe (core.map (·.val)) n))

/-- MTIME_INTERRUPT (R775). -/
def execMtimeInterrupt (k : Core) (s : State) : Host.Outcome State Fault Refusal :=
  s.does (fun h => h.clocked (·.timerDue k))

/-- MBOX_DOORBELL (R789). -/
def execMboxDoorbell (p : Path) (s : State) : Host.Outcome State Fault Refusal :=
  s.does (fun h => h.writeAt p ⟨.stwMboxDb, 0, 0⟩ 1#32)

/-- MBOX_DONE (R790). -/
def execMboxDone (p : Path) (s : State) : Host.Outcome State Fault Refusal :=
  s.does (fun h => h.writeAt p ⟨.stwMboxDone, 0, 0⟩ 1#32)

/-- INFO (R793). -/
def execInfo (via : Option (BitVec 12 × BitVec 12)) (s : State) : Host.Outcome State Fault Refusal :=
  s.does (fun h => h.clocked (·.serviceInfo (via.map (fun x => (x.1.toNat, x.2.toNat)))))

/-- NVM_READ (R794). -/
def execNvmRead (via : Option (BitVec 12 × BitVec 12)) (ok : Bool) (timeout : Bool) (s : State) : Host.Outcome State Fault Refusal :=
  s.does (fun h => h.clocked (·.serviceNvmRead (via.map (fun x => (x.1.toNat, x.2.toNat))) ok timeout))

/-- NVM_WRITE (R795). -/
def execNvmWrite (via : Option (BitVec 12 × BitVec 12)) (data : List Byte) (stop : Option (Nat × Bool))
    (s : State) : Host.Outcome State Fault Refusal :=
  s.does (fun h => h.clocked (·.serviceNvmWrite (via.map (fun x => (x.1.toNat, x.2.toNat))) data stop))

/-- NVM_ERASE (R795). -/
def execNvmErase (via : Option (BitVec 12 × BitVec 12)) (stop : Option Nat) (s : State) : Host.Outcome State Fault Refusal :=
  s.does (fun h => h.clocked (·.serviceNvmErase (via.map (fun x => (x.1.toNat, x.2.toNat))) stop))

/-- RETIRE_SITE (R793). -/
def execRetireSite (via : Option (BitVec 12 × BitVec 12)) (s : State) : Host.Outcome State Fault Refusal :=
  s.does (fun h => h.clocked (·.serviceRetire (via.map (fun x => (x.1.toNat, x.2.toNat)))))

/-- COUNTER_DUMP (R845). -/
def execCounterDump (via : Option (BitVec 12 × BitVec 12)) (ok : Bool) (s : State) : Host.Outcome State Fault Refusal :=
  s.does (fun h => h.clocked (·.serviceDump (via.map (fun x => (x.1.toNat, x.2.toNat))) ok))

/-- HANG_REPORT (R845). -/
def execHangReport (via : Option (BitVec 12 × BitVec 12)) (ok : Bool) (s : State) : Host.Outcome State Fault Refusal :=
  s.does (fun h => h.clocked (·.serviceHang (via.map (fun x => (x.1.toNat, x.2.toNat))) ok))

/-- BAD_SERVICE (R793). -/
def execBadService (via : Option (BitVec 12 × BitVec 12)) (s : State) : Host.Outcome State Fault Refusal :=
  s.does (fun h => h.clocked (·.serviceBad (via.map (fun x => (x.1.toNat, x.2.toNat)))))

/-- VF_IRQ (R797). -/
def execVfIrq (p : Path) (v : Word) (s : State) : Host.Outcome State Fault Refusal :=
  s.does (fun h => h.writeAt p ⟨.stwVfIrq, 0, 0⟩ v)

/-- CORE_HALT (R805). -/
def execCoreHalt (k : Core) (s : State) : Host.Outcome State Fault Refusal :=
  s.does (fun h => h.clocked (·.coreHalt k))

/-- CORE_RESUME (R806). -/
def execCoreResume (k : Core) (s : State) : Host.Outcome State Fault Refusal :=
  s.does (fun h => h.clocked (·.coreResume k))

/-- BREAK_SCOPE_WRITE (R804). -/
def execBreakScopeWrite (p : Path) (v : Word) (s : State) : Host.Outcome State Fault Refusal :=
  s.does (fun h => h.writeAt p ⟨.stwBreakCtl, 0, 0⟩ v)

end Sys2Proof.Machine
end

