-- ==== Sys2Proof/Machine/ExecSync.lean ====
section
/-! DEFINITION. The meanings of the commands of the sync network (chapter 8): each is the block's own operation for it, on everything but the queue. -/

namespace Sys2Proof.Machine

/-- SYNC_CONTRIBUTE (R339). -/
def execSyncContribute (tile : Tile) (k : BitVec 9) (s : State) : Host.Outcome State Fault Refusal :=
  s.does (fun h => h.clocked (·.syncContribute tile k.toNat))

/-- SNET_UP_COMBINE (R341). -/
def execSnetUpCombine (n : Node) (k : BitVec 9) (err : MeshErr) (s : State) : Host.Outcome State Fault Refusal :=
  s.does (fun h => h.clocked (·.upCombine n k.toNat err))

/-- SNET_DOWN_DELIVER (R343). -/
def execSnetDownDeliver (n : Node) (k : BitVec 9) (ueAt : Option Nat) (s : State) : Host.Outcome State Fault Refusal :=
  s.does (fun h => h.clocked (·.downDeliver n k.toNat ueAt))

/-- RING_PARTIAL_ARRIVAL (R351). -/
def execRingPartialArrival (q : Port) (s : State) : Host.Outcome State Fault Refusal :=
  s.does (fun h => h.clocked (·.ringPartial q))

/-- SYNC_CFG_DISABLE (R378). -/
def execSyncCfgDisable (p : Path) (k : BitVec 9) (v : Word) (s : State) : Host.Outcome State Fault Refusal :=
  s.does (fun h => h.writeAt p ⟨syncCfgId k.toNat, anchorNode, k.toNat % 256⟩ (setBit v 15 false))

/-- GONG_FREEZE_REQ (R362). -/
def execGongFreezeReq (p : Path) (v : Word) (s : State) : Host.Outcome State Fault Refusal :=
  s.does (fun h => h.gongWrite p 1 v)

/-- GONG_THAW_REQ (R362). -/
def execGongThawReq (p : Path) (v : Word) (s : State) : Host.Outcome State Fault Refusal :=
  s.does (fun h => h.gongWrite p 2 v)

/-- GONG_FAULT_REQ (R363). -/
def execGongFaultReq (p : Path) (v : Word) (s : State) : Host.Outcome State Fault Refusal :=
  s.does (fun h => h.gongWrite p 3 v)

/-- GONG_NOTICE_ARRIVAL (R369). -/
def execGongNoticeArrival (q : Option Port) (s : State) : Host.Outcome State Fault Refusal :=
  s.does (fun h => h.clocked (fun h => match q with | none => h.gongLocal | some q => h.gongArrive q))

/-- FREEZE_TAKE_EFFECT (R367). -/
def execFreezeTakeEffect (s : State) : Host.Outcome State Fault Refusal :=
  s.does (fun h => h.clocked (·.freezeDue))

/-- THAW_TAKE_EFFECT (R367). -/
def execThawTakeEffect (s : State) : Host.Outcome State Fault Refusal :=
  s.does (fun h => h.clocked (·.thawDue))

/-- FAULT_NOTICE (R361). -/
def execFaultNotice (s : State) : Host.Outcome State Fault Refusal :=
  s.does (fun h => h.clocked (·.faultNotice))

/-- REMOTE_FAULT_NOTICE (R366). -/
def execRemoteFaultNotice (q : Port) (s : State) : Host.Outcome State Fault Refusal :=
  s.does (fun h => h.clocked (·.remoteFault q))

/-- BEAT_SEND (R370). -/
def execBeatSend (s : State) : Host.Outcome State Fault Refusal :=
  s.does (fun h => h.clocked (·.beatSend))

/-- BEAT_ARRIVAL (R372). -/
def execBeatArrival (q : Port) (hold : BitVec 24) (hops : BitVec 5) (s : State) : Host.Outcome State Fault Refusal :=
  s.does (fun h => h.clocked (·.beatArrive q hold.toNat hops.toNat))

/-- DOWNBEAT_LOST (R374). -/
def execDownbeatLost (s : State) : Host.Outcome State Fault Refusal :=
  s.does (fun h => h.clocked (·.downbeatLost))

end Sys2Proof.Machine
end

