-- ==== Sys2Proof/Machine/ExecTenant.lean ====
section
/-! DEFINITION. The meanings of the commands of faults, restarts and jobs (chapter 16): each is the block's own operation for it, on everything but the queue. -/

namespace Sys2Proof.Machine

/-- FAULT_ACCEPT (R714). -/
def execFaultAccept (s : State) : Host.Outcome State Fault Refusal :=
  s.does (fun h => h.clocked (·.faultAccept))

/-- F0_ACCEPT (R715). -/
def execF0Accept (s : State) : Host.Outcome State Fault Refusal :=
  s.does (fun h => h.clocked (·.f0Accept))

/-- RESTART_DRAIN_DONE (R720). -/
def execRestartDrainDone (t : Tenant) (s : State) : Host.Outcome State Fault Refusal :=
  s.does (fun h => h.clocked (·.drainDone t))

/-- RESTART_SWEEP_DONE (R721). -/
def execRestartSweepDone (t : Tenant) (s : State) : Host.Outcome State Fault Refusal :=
  s.does (fun h => h.clocked (·.sweepDone t))

/-- RESTART_READY (R720). -/
def execRestartReady (t : Tenant) (s : State) : Host.Outcome State Fault Refusal :=
  s.does (fun h => h.clocked (·.restartReady t))

/-- F0_REAPPLY (R726). -/
def execF0Reapply (s : State) : Host.Outcome State Fault Refusal :=
  s.does (fun h => h.clocked (·.f0Reapply))

/-- JOB_END_COMPLETE (R702). -/
def execJobEndComplete (p : Path) (t : Tenant) (s : State) : Host.Outcome State Fault Refusal :=
  s.does (fun h => h.writeAt p ⟨.tntCtl, t, 0⟩ 2#32)

/-- START_ROUND_JOIN (R706). -/
def execStartRoundJoin (p : Path) (t : Tenant) (s : State) : Host.Outcome State Fault Refusal :=
  s.does (fun h => h.writeAt p ⟨.tntCtl, t, 0⟩ 1#32)

/-- START_BELL (R708). -/
def execStartBell (t : Tenant) (s : State) : Host.Outcome State Fault Refusal :=
  s.does (fun h => h.clocked (·.startBells t))

/-- START_TIMEOUT (R709). -/
def execStartTimeout (t : Tenant) (s : State) : Host.Outcome State Fault Refusal :=
  s.does (fun h => h.clocked (·.startTimeout t))

end Sys2Proof.Machine
end

