-- ==== Sys2Proof/Machine/ExecTile.lean ====
section
/-! DEFINITION. The meanings of the commands of the tile port and its commands (chapter 11): each is the block's own operation for it, on everything but the queue. -/

namespace Sys2Proof.Machine

/-- PORT_RELEASE (R458). -/
def execPortRelease (tile : Tile) (s : State) : Host.Outcome State Fault Refusal :=
  s.does (fun h => h.clocked (·.portRelease tile))

/-- TCLK_START_TIMEOUT (R459). -/
def execTclkStartTimeout (tile : Tile) (s : State) : Host.Outcome State Fault Refusal :=
  s.does (fun h => h.clocked (·.tclkStartTimeout tile))

/-- SLAB_READ (R470). -/
def execSlabRead (tile : Tile) (line : BitVec 14) (err : PadErr) (ce : Bool) (s : State) : Host.Outcome State Fault Refusal :=
  s.does (fun h => h.clocked (·.slabLaneRead tile line.toNat err ce))

/-- SLAB_READ_RETURN (R471). -/
def execSlabReadReturn (tile : Tile) (ue : Bool) (s : State) : Host.Outcome State Fault Refusal :=
  s.does (fun h => h.clocked (·.slabReturn tile ue))

/-- SLAB_WRITE (R469). -/
def execSlabWrite (tile : Tile) (unit : BitVec 15) (en : BitVec 128) (data : BitVec 1024) (err : PadErr) (ce : Bool)
    (s : State) : Host.Outcome State Fault Refusal :=
  s.does (fun h => h.clocked (·.slabLaneWrite tile unit.toNat en data err ce))

/-- FABRIC_IN_FLIT (R476). -/
def execFabricInFlit (tile : Tile) (flow : BitVec 13) (last : Bool) (poison : Bool) (data : BitVec 1024) (err : PadErr)
    (s : State) : Host.Outcome State Fault Refusal :=
  s.does (fun h => h.clocked (·.fabricIn tile flow.toNat last poison data err))

/-- TILE_CREDIT (R464). -/
def execTileCredit (tile : Tile) (co : Bool) (k : BitVec 7) (s : State) : Host.Outcome State Fault Refusal :=
  s.does (fun h => h.clocked (·.tileCredit tile co k.toNat))

/-- LANE_OVERRUN (R463). -/
def execLaneOverrun (tile : Tile) (lane : Lane) (cmd : Option (BitVec 8 × BitVec 16)) (s : State) : Host.Outcome State Fault Refusal :=
  s.does (fun h => h.clocked (·.laneOverrun tile (if lane = .command then cmd.map (fun x => (x.1.toNat, x.2.toNat)) else none)))

/-- MALFORMED (R467). -/
def execMalformed (tile : Tile) (cmd : Option (BitVec 8 × BitVec 16)) (s : State) : Host.Outcome State Fault Refusal :=
  s.does (fun h => h.clocked (fun h => match cmd with | some c => h.malformedCmd tile c.1.toNat c.2.toNat | none => h.malformedRun tile))

/-- NOP (R482). -/
def execNop (tile : Tile) (x : CmdHdr) (body : List (BitVec 64)) (s : State) : Host.Outcome State Fault Refusal :=
  s.does (fun h => h.clocked (·.cmdNop tile x body))

/-- SEND (R485). -/
def execSend (tile : Tile) (x : CmdHdr) (body : List (BitVec 64)) (ueAt : Option Nat) (s : State) : Host.Outcome State Fault Refusal :=
  s.does (fun h => h.clocked (·.cmdSend tile x body ueAt))

/-- SEND_DONE (R485). -/
def execSendDone (tile : Tile) (tag : BitVec 16) (s : State) : Host.Outcome State Fault Refusal :=
  s.does (fun h => h.clocked (·.sendDone tile tag.toNat))

/-- RECV (R485). -/
def execRecv (tile : Tile) (x : CmdHdr) (body : List (BitVec 64)) (s : State) : Host.Outcome State Fault Refusal :=
  s.does (fun h => h.clocked (·.cmdRecv tile x body))

/-- RECV_DONE (R485). -/
def execRecvDone (tile : Tile) (tag : BitVec 16) (s : State) : Host.Outcome State Fault Refusal :=
  s.does (fun h => h.clocked (·.recvDone tile tag.toNat))

/-- MOVE (R486). -/
def execMove (tile : Tile) (x : CmdHdr) (body : List (BitVec 64)) (s : State) : Host.Outcome State Fault Refusal :=
  s.does (fun h => h.clocked (·.cmdMove tile x body))

/-- MOVE_DONE (R482). -/
def execMoveDone (tile : Tile) (tag : BitVec 16) (s : State) : Host.Outcome State Fault Refusal :=
  s.does (fun h => h.clocked (·.moveDone tile tag.toNat))

/-- MSG_SEND (R484). -/
def execMsgSend (tile : Tile) (x : CmdHdr) (body : List (BitVec 64)) (s : State) : Host.Outcome State Fault Refusal :=
  s.does (fun h => h.clocked (·.cmdMsgSend tile x body))

/-- MSG_DEQ (R484). -/
def execMsgDeq (tile : Tile) (x : CmdHdr) (body : List (BitVec 64)) (merge : Bool) (s : State) : Host.Outcome State Fault Refusal :=
  s.does (fun h => h.clocked (·.cmdMsgDeq tile x body merge))

/-- SYNC (R488). -/
def execSync (tile : Tile) (x : CmdHdr) (body : List (BitVec 64)) (s : State) : Host.Outcome State Fault Refusal :=
  s.does (fun h => h.clocked (·.cmdSync tile x body))

/-- PHASE (R490). -/
def execPhase (tile : Tile) (x : CmdHdr) (body : List (BitVec 64)) (s : State) : Host.Outcome State Fault Refusal :=
  s.does (fun h => h.clocked (·.cmdPhase tile x body))

/-- COMPUTE_DONE (R489). -/
def execComputeDone (tile : Tile) (x : CmdHdr) (body : List (BitVec 64)) (s : State) : Host.Outcome State Fault Refusal :=
  s.does (fun h => h.clocked (·.cmdComputeDone tile x body))

/-- LEASE_ALLOC (R531). -/
def execLeaseAlloc (tile : Tile) (x : CmdHdr) (body : List (BitVec 64)) (s : State) : Host.Outcome State Fault Refusal :=
  s.does (fun h => h.clocked (·.cmdLeaseAlloc tile x body))

/-- LEASE_ALLOC_DONE (R533). -/
def execLeaseAllocDone (tile : Tile) (tag : BitVec 16) (s : State) : Host.Outcome State Fault Refusal :=
  s.does (fun h => h.clocked (·.leaseAllocDone tile tag.toNat))

/-- LEASE_FREE (R535). -/
def execLeaseFree (tile : Tile) (x : CmdHdr) (body : List (BitVec 64)) (s : State) : Host.Outcome State Fault Refusal :=
  s.does (fun h => h.clocked (·.cmdLeaseFree tile x body))

/-- BELL_CLEAR (R491). -/
def execBellClear (tile : Tile) (x : CmdHdr) (body : List (BitVec 64)) (s : State) : Host.Outcome State Fault Refusal :=
  s.does (fun h => h.clocked (·.cmdBellClear tile x body))

/-- CNT_REPORT (R828). -/
def execCntReport (tile : Tile) (x : CmdHdr) (body : List (BitVec 64)) (s : State) : Host.Outcome State Fault Refusal :=
  s.does (fun h => h.clocked (·.cmdCntReport tile x body))

/-- JOB_DONE (R483). -/
def execJobDone (tile : Tile) (x : CmdHdr) (body : List (BitVec 64)) (s : State) : Host.Outcome State Fault Refusal :=
  s.does (fun h => h.clocked (·.cmdJobDone tile x body))

/-- UNKNOWN_OPCODE (R482). -/
def execUnknownOpcode (tile : Tile) (op : BitVec 8) (x : CmdHdr) (body : List (BitVec 64)) (s : State) : Host.Outcome State Fault Refusal :=
  s.does (fun h => h.clocked (·.cmdUnknown tile op.toNat x body))

/-- COMPLETION_DELIVER (R492). -/
def execCompletionDeliver (tile : Tile) (s : State) : Host.Outcome State Fault Refusal :=
  s.does (fun h => h.clocked (·.completionDeliver tile))

/-- VIOL_LEAK (R512). -/
def execViolLeak (tile : Tile) (s : State) : Host.Outcome State Fault Refusal :=
  s.does (fun h => h.clocked (·.violLeak tile))

/-- DRAIN_REQUEST (R500). -/
def execDrainRequest (tile : Tile) (s : State) : Host.Outcome State Fault Refusal :=
  s.does (fun h => h.clocked (·.drainDue tile))

/-- DRAIN_ACK (R501). -/
def execDrainAck (tile : Tile) (level : Bool) (s : State) : Host.Outcome State Fault Refusal :=
  s.does (fun h => h.clocked (·.drainAck tile level))

/-- DRAIN_TIMEOUT (R501). -/
def execDrainTimeout (tile : Tile) (s : State) : Host.Outcome State Fault Refusal :=
  s.does (fun h => h.clocked (·.drainTimeout tile))

/-- DRAIN_RELEASE (R503). -/
def execDrainRelease (tile : Tile) (s : State) : Host.Outcome State Fault Refusal :=
  s.does (fun h => h.clocked (·.drainOver tile))

/-- TILE_FAULT (R504). -/
def execTileFault (tile : Tile) (code : BitVec 8) (early : Bool) (s : State) : Host.Outcome State Fault Refusal :=
  s.does (fun h => h.clocked (·.tileFault tile code.toNat early))

/-- HANDSHAKE_VIOLATION (R498). -/
def execHandshakeViolation (tile : Tile) (s : State) : Host.Outcome State Fault Refusal :=
  s.does (fun h => h.clocked (·.handshake tile))

/-- CNT_WINDOW_CLOSE (R505). -/
def execCntWindowClose (tile : Tile) (s : State) : Host.Outcome State Fault Refusal :=
  s.does (fun h => h.clocked (·.windowClose tile))

end Sys2Proof.Machine
end

