-- ==== Sys2Proof/Machine/Dispatch.lean ====
section
/-! DEFINITION. The one dispatch of the block: each command of the opcode table to its meaning. -/

namespace Sys2Proof.Machine

/-- The effect of a command on everything but the queue. -/
def exec (i : Instr) (s : State) : Host.Outcome State Fault Refusal :=
  match i with
  | .pwrGoodLow => Sys2Proof.Machine.execPwrGoodLow s
  | .rstNLow => Sys2Proof.Machine.execRstNLow s
  | .refclkLoss => Sys2Proof.Machine.execRefclkLoss s
  | .coldReset => Sys2Proof.Machine.execColdReset s
  | .coldResetEnd => Sys2Proof.Machine.execColdResetEnd s
  | .perstNAssert => Sys2Proof.Machine.execPerstNAssert s
  | .pfFlr => Sys2Proof.Machine.execPfFlr s
  | .warmReset => Sys2Proof.Machine.execWarmReset s
  | .rootPllUnlock => Sys2Proof.Machine.execRootPllUnlock s
  | .rootPllRelock => Sys2Proof.Machine.execRootPllRelock s
  | .pllLock w => Sys2Proof.Machine.execPllLock w s
  | .phyPllUnlock p => Sys2Proof.Machine.execPhyPllUnlock p s
  | .hbmPllUnlock k => Sys2Proof.Machine.execHbmPllUnlock k s
  | .pciePllUnlock => Sys2Proof.Machine.execPciePllUnlock s
  | .portReset p => Sys2Proof.Machine.execPortReset p s
  | .partitionReset t => Sys2Proof.Machine.execPartitionReset t s
  | .cplValueWrite p c v => Sys2Proof.Machine.execCplValueWrite p c v s
  | .cplGuardExpired c => Sys2Proof.Machine.execCplGuardExpired c s
  | .resetReqWarm p => Sys2Proof.Machine.execResetReqWarm p s
  | .resetReqCold p => Sys2Proof.Machine.execResetReqCold p s
  | .resetReqPartition p => Sys2Proof.Machine.execResetReqPartition p s
  | .resetReqTorusPort p => Sys2Proof.Machine.execResetReqTorusPort p s
  | .resetReqTilePort p => Sys2Proof.Machine.execResetReqTilePort p s
  | .lockSet p => Sys2Proof.Machine.execLockSet p s
  | .budgetSet p => Sys2Proof.Machine.execBudgetSet p s
  | .fuseBurn p => Sys2Proof.Machine.execFuseBurn p s
  | .fuseBurnDone differs => Sys2Proof.Machine.execFuseBurnDone differs s
  | .fuseLoadDone ue corrected => Sys2Proof.Machine.execFuseLoadDone ue corrected s
  | .pcieTrainingStart => Sys2Proof.Machine.execPcieTrainingStart s
  | .bistDone f => Sys2Proof.Machine.execBistDone f s
  | .bootStart => Sys2Proof.Machine.execBootStart s
  | .nvmProbe d => Sys2Proof.Machine.execNvmProbe d s
  | .nvmCommandTimeout copy => Sys2Proof.Machine.execNvmCommandTimeout copy s
  | .slotTableSelect => Sys2Proof.Machine.execSlotTableSelect s
  | .slotAttempt errs again => Sys2Proof.Machine.execSlotAttempt errs again s
  | .imageApply => Sys2Proof.Machine.execImageApply s
  | .applyFault => Sys2Proof.Machine.execApplyFault s
  | .warmScrubDone => Sys2Proof.Machine.execWarmScrubDone s
  | .runEntry => Sys2Proof.Machine.execRunEntry s
  | .fwReady => Sys2Proof.Machine.execFwReady s
  | .progRead p d => Sys2Proof.Machine.execProgRead p d s
  | .progProgram p d => Sys2Proof.Machine.execProgProgram p d s
  | .progEraseSector p d => Sys2Proof.Machine.execProgEraseSector p d s
  | .progEraseBlock p d => Sys2Proof.Machine.execProgEraseBlock p d s
  | .progUnknownCommand p v d => Sys2Proof.Machine.execProgUnknownCommand p v d s
  | .progCommandDone timeout => Sys2Proof.Machine.execProgCommandDone timeout s
  | .barBoundary tclk lanes rest => Sys2Proof.Machine.execBarBoundary tclk lanes rest s
  | .tclkOutOfRange tile => Sys2Proof.Machine.execTclkOutOfRange tile s
  | .registerWrite p addr data enables d => Sys2Proof.Machine.execRegisterWrite p addr data enables d s
  | .aliasSet p addr v => Sys2Proof.Machine.execAliasSet p addr v s
  | .aliasClr p addr v => Sys2Proof.Machine.execAliasClr p addr v s
  | .aliasTgl p addr v => Sys2Proof.Machine.execAliasTgl p addr v s
  | .evtRead p addr len enables => Sys2Proof.Machine.execEvtRead p addr len enables s
  | .misuseEvtRead p => Sys2Proof.Machine.execMisuseEvtRead p s
  | .lowWordRead p addr => Sys2Proof.Machine.execLowWordRead p addr s
  | .clkBarLoRead p => Sys2Proof.Machine.execClkBarLoRead p s
  | .highWordWrite p addr v => Sys2Proof.Machine.execHighWordWrite p addr v s
  | .lowWordWrite p addr v => Sys2Proof.Machine.execLowWordWrite p addr v s
  | .snapshot p => Sys2Proof.Machine.execSnapshot p s
  | .idxDataRead p => Sys2Proof.Machine.execIdxDataRead p s
  | .idxDataWrite p v => Sys2Proof.Machine.execIdxDataWrite p v s
  | .idxFarWriteDone p => Sys2Proof.Machine.execIdxFarWriteDone p s
  | .idxFarTimeout p => Sys2Proof.Machine.execIdxFarTimeout p s
  | .flitInject n => Sys2Proof.Machine.execFlitInject n s
  | .flitHop n out err => Sys2Proof.Machine.execFlitHop n out err s
  | .flitSinkDelivery n ue => Sys2Proof.Machine.execFlitSinkDelivery n ue s
  | .flitLate n port sel => Sys2Proof.Machine.execFlitLate n port sel s
  | .bnetCreditReturn n port vc => Sys2Proof.Machine.execBnetCreditReturn n port vc s
  | .phaseTargetWrite p e v => Sys2Proof.Machine.execPhaseTargetWrite p e v s
  | .phaseSwitch e => Sys2Proof.Machine.execPhaseSwitch e s
  | .flowSlotEnable p n k v => Sys2Proof.Machine.execFlowSlotEnable p n k v s
  | .channelSend n k c data => Sys2Proof.Machine.execChannelSend n k c data s
  | .channelCreditArrival c errs crossed => Sys2Proof.Machine.execChannelCreditArrival c errs crossed s
  | .channelMsgArrival c errs crossed => Sys2Proof.Machine.execChannelMsgArrival c errs crossed s
  | .channelDequeue n k c merge => Sys2Proof.Machine.execChannelDequeue n k c merge s
  | .channelEnable p c v => Sys2Proof.Machine.execChannelEnable p c v s
  | .channelDisable p c v => Sys2Proof.Machine.execChannelDisable p c v s
  | .nodeBellClear p n v => Sys2Proof.Machine.execNodeBellClear p n v s
  | .bellRing p n v => Sys2Proof.Machine.execBellRing p n v s
  | .regRequest p addr write errs crossed => Sys2Proof.Machine.execRegRequest p addr write errs crossed s
  | .regResponse p errs crossed => Sys2Proof.Machine.execRegResponse p errs crossed s
  | .syncContribute tile k => Sys2Proof.Machine.execSyncContribute tile k s
  | .snetUpCombine n k err => Sys2Proof.Machine.execSnetUpCombine n k err s
  | .snetDownDeliver n k ueAt => Sys2Proof.Machine.execSnetDownDeliver n k ueAt s
  | .ringPartialArrival q => Sys2Proof.Machine.execRingPartialArrival q s
  | .syncCfgDisable p k v => Sys2Proof.Machine.execSyncCfgDisable p k v s
  | .gongFreezeReq p v => Sys2Proof.Machine.execGongFreezeReq p v s
  | .gongThawReq p v => Sys2Proof.Machine.execGongThawReq p v s
  | .gongFaultReq p v => Sys2Proof.Machine.execGongFaultReq p v s
  | .gongNoticeArrival q => Sys2Proof.Machine.execGongNoticeArrival q s
  | .freezeTakeEffect => Sys2Proof.Machine.execFreezeTakeEffect s
  | .thawTakeEffect => Sys2Proof.Machine.execThawTakeEffect s
  | .faultNotice => Sys2Proof.Machine.execFaultNotice s
  | .remoteFaultNotice q => Sys2Proof.Machine.execRemoteFaultNotice q s
  | .beatSend => Sys2Proof.Machine.execBeatSend s
  | .beatArrival q hold hops => Sys2Proof.Machine.execBeatArrival q hold hops s
  | .downbeatLost => Sys2Proof.Machine.execDownbeatLost s
  | .foldContributionArrival n port sel => Sys2Proof.Machine.execFoldContributionArrival n port sel s
  | .foldCombine n k err => Sys2Proof.Machine.execFoldCombine n k err s
  | .foldContextEnable p n k v => Sys2Proof.Machine.execFoldContextEnable p n k v s
  | .foldContextClear p n k v => Sys2Proof.Machine.execFoldContextClear p n k v s
  | .ccx tile x body => Sys2Proof.Machine.execCcx tile x body s
  | .tailStart tile tag ueAt => Sys2Proof.Machine.execTailStart tile tag ueAt s
  | .tailComplete tile tag => Sys2Proof.Machine.execTailComplete tile tag s
  | .seqReport q => Sys2Proof.Machine.execSeqReport q s
  | .seqArm q j => Sys2Proof.Machine.execSeqArm q j s
  | .ringRelay n k port sel => Sys2Proof.Machine.execRingRelay n k port sel s
  | .portRelease tile => Sys2Proof.Machine.execPortRelease tile s
  | .tclkStartTimeout tile => Sys2Proof.Machine.execTclkStartTimeout tile s
  | .slabRead tile line err ce => Sys2Proof.Machine.execSlabRead tile line err ce s
  | .slabReadReturn tile ue => Sys2Proof.Machine.execSlabReadReturn tile ue s
  | .slabWrite tile unit en data err ce => Sys2Proof.Machine.execSlabWrite tile unit en data err ce s
  | .fabricInFlit tile flow last poison data err => Sys2Proof.Machine.execFabricInFlit tile flow last poison data err s
  | .tileCredit tile co k => Sys2Proof.Machine.execTileCredit tile co k s
  | .laneOverrun tile lane cmd => Sys2Proof.Machine.execLaneOverrun tile lane cmd s
  | .malformed tile cmd => Sys2Proof.Machine.execMalformed tile cmd s
  | .nop tile x body => Sys2Proof.Machine.execNop tile x body s
  | .send tile x body ueAt => Sys2Proof.Machine.execSend tile x body ueAt s
  | .sendDone tile tag => Sys2Proof.Machine.execSendDone tile tag s
  | .recv tile x body => Sys2Proof.Machine.execRecv tile x body s
  | .recvDone tile tag => Sys2Proof.Machine.execRecvDone tile tag s
  | .move tile x body => Sys2Proof.Machine.execMove tile x body s
  | .moveDone tile tag => Sys2Proof.Machine.execMoveDone tile tag s
  | .msgSend tile x body => Sys2Proof.Machine.execMsgSend tile x body s
  | .msgDeq tile x body merge => Sys2Proof.Machine.execMsgDeq tile x body merge s
  | .sync tile x body => Sys2Proof.Machine.execSync tile x body s
  | .phase tile x body => Sys2Proof.Machine.execPhase tile x body s
  | .computeDone tile x body => Sys2Proof.Machine.execComputeDone tile x body s
  | .leaseAlloc tile x body => Sys2Proof.Machine.execLeaseAlloc tile x body s
  | .leaseAllocDone tile tag => Sys2Proof.Machine.execLeaseAllocDone tile tag s
  | .leaseFree tile x body => Sys2Proof.Machine.execLeaseFree tile x body s
  | .bellClear tile x body => Sys2Proof.Machine.execBellClear tile x body s
  | .cntReport tile x body => Sys2Proof.Machine.execCntReport tile x body s
  | .jobDone tile x body => Sys2Proof.Machine.execJobDone tile x body s
  | .unknownOpcode tile op x body => Sys2Proof.Machine.execUnknownOpcode tile op x body s
  | .completionDeliver tile => Sys2Proof.Machine.execCompletionDeliver tile s
  | .violLeak tile => Sys2Proof.Machine.execViolLeak tile s
  | .drainRequest tile => Sys2Proof.Machine.execDrainRequest tile s
  | .drainAck tile level => Sys2Proof.Machine.execDrainAck tile level s
  | .drainTimeout tile => Sys2Proof.Machine.execDrainTimeout tile s
  | .drainRelease tile => Sys2Proof.Machine.execDrainRelease tile s
  | .tileFault tile code early => Sys2Proof.Machine.execTileFault tile code early s
  | .handshakeViolation tile => Sys2Proof.Machine.execHandshakeViolation tile s
  | .cntWindowClose tile => Sys2Proof.Machine.execCntWindowClose tile s
  | .powerRequest tile demand draw early => Sys2Proof.Machine.execPowerRequest tile demand draw early s
  | .powerGrantAck tile => Sys2Proof.Machine.execPowerGrantAck tile s
  | .grantAckLate tile => Sys2Proof.Machine.execGrantAckLate tile s
  | .siteRetire p tile v => Sys2Proof.Machine.execSiteRetire p tile v s
  | .patrolScrub tile ce ue => Sys2Proof.Machine.execPatrolScrub tile ce ue s
  | .pageZeroDone g => Sys2Proof.Machine.execPageZeroDone g s
  | .granuleZero m => Sys2Proof.Machine.execGranuleZero m s
  | .memoryPathAccess id data repeats ok ce ue dead => Sys2Proof.Machine.execMemoryPathAccess id data repeats ok ce ue dead s
  | .hbmPairFail q => Sys2Proof.Machine.execHbmPairFail q s
  | .leaseWrite p hbm u v => Sys2Proof.Machine.execLeaseWrite p hbm u v s
  | .trainCalDone p => Sys2Proof.Machine.execTrainCalDone p s
  | .trainingUnitRx p u => Sys2Proof.Machine.execTrainingUnitRx p u s
  | .sbAcqDone p ms => Sys2Proof.Machine.execSbAcqDone p ms s
  | .dataEqDone p ms => Sys2Proof.Machine.execDataEqDone p ms s
  | .laneSelect p => Sys2Proof.Machine.execLaneSelect p s
  | .portActive p => Sys2Proof.Machine.execPortActive p s
  | .trainWaitExpiry p => Sys2Proof.Machine.execTrainWaitExpiry p s
  | .preambleDetect p k signs win => Sys2Proof.Machine.execPreambleDetect p k signs win s
  | .burstEnd p k w1 w2 => Sys2Proof.Machine.execBurstEnd p k w1 w2 s
  | .laneLos p k => Sys2Proof.Machine.execLaneLos p k s
  | .sidebandLost p => Sys2Proof.Machine.execSidebandLost p s
  | .laneIsolate p k => Sys2Proof.Machine.execLaneIsolate p k s
  | .isolate p => Sys2Proof.Machine.execIsolate p s
  | .rewake p => Sys2Proof.Machine.execRewake p s
  | .badLaneCommand p => Sys2Proof.Machine.execBadLaneCommand p s
  | .directionSleep p => Sys2Proof.Machine.execDirectionSleep p s
  | .directionWake p => Sys2Proof.Machine.execDirectionWake p s
  | .frameTransmit p k => Sys2Proof.Machine.execFrameTransmit p k s
  | .frameReceive p k b => Sys2Proof.Machine.execFrameReceive p k b s
  | .controlWordRx p k b => Sys2Proof.Machine.execControlWordRx p k b s
  | .frameDeliver p => Sys2Proof.Machine.execFrameDeliver p s
  | .frameRelease p => Sys2Proof.Machine.execFrameRelease p s
  | .nakReceive p seq => Sys2Proof.Machine.execNakReceive p seq s
  | .replayTimeout p => Sys2Proof.Machine.execReplayTimeout p s
  | .sidebandUnitRx p k part u => Sys2Proof.Machine.execSidebandUnitRx p k part u s
  | .sidebandTimeout p => Sys2Proof.Machine.execSidebandTimeout p s
  | .identReceive p rtt => Sys2Proof.Machine.execIdentReceive p rtt s
  | .echo p => Sys2Proof.Machine.execEcho p s
  | .portDeclaredDown p => Sys2Proof.Machine.execPortDeclaredDown p s
  | .portReturnTimeout p => Sys2Proof.Machine.execPortReturnTimeout p s
  | .dtrReceive p => Sys2Proof.Machine.execDtrReceive p s
  | .peerViolLeak p => Sys2Proof.Machine.execPeerViolLeak p s
  | .launchDoorbell t => Sys2Proof.Machine.execLaunchDoorbell t s
  | .planReadDone t bytes ok => Sys2Proof.Machine.execPlanReadDone t bytes ok s
  | .admission t => Sys2Proof.Machine.execAdmission t s
  | .genWaitExpiry t => Sys2Proof.Machine.execGenWaitExpiry t s
  | .jobStop t => Sys2Proof.Machine.execJobStop t s
  | .relaunch t => Sys2Proof.Machine.execRelaunch t s
  | .bar2Read t off len err => Sys2Proof.Machine.execBar2Read t off len err s
  | .bar2Write t off data => Sys2Proof.Machine.execBar2Write t off data s
  | .msixSend fn v => Sys2Proof.Machine.execMsixSend fn v s
  | .aerError e fn => Sys2Proof.Machine.execAerError e fn s
  | .pcieLinkDown => Sys2Proof.Machine.execPcieLinkDown s
  | .pfD3hot => Sys2Proof.Machine.execPfD3hot s
  | .vfFlr t => Sys2Proof.Machine.execVfFlr t s
  | .vfDisable vfs => Sys2Proof.Machine.execVfDisable vfs s
  | .windowWithdraw p t w part v => Sys2Proof.Machine.execWindowWithdraw p t w part v s
  | .relaySend w => Sys2Proof.Machine.execRelaySend w s
  | .relayDequeue w merge => Sys2Proof.Machine.execRelayDequeue w merge s
  | .faultAccept => Sys2Proof.Machine.execFaultAccept s
  | .f0Accept => Sys2Proof.Machine.execF0Accept s
  | .restartDrainDone t => Sys2Proof.Machine.execRestartDrainDone t s
  | .restartSweepDone t => Sys2Proof.Machine.execRestartSweepDone t s
  | .restartReady t => Sys2Proof.Machine.execRestartReady t s
  | .f0Reapply => Sys2Proof.Machine.execF0Reapply s
  | .jobEndComplete p t => Sys2Proof.Machine.execJobEndComplete p t s
  | .startRoundJoin p t => Sys2Proof.Machine.execStartRoundJoin p t s
  | .startBell t => Sys2Proof.Machine.execStartBell t s
  | .startTimeout t => Sys2Proof.Machine.execStartTimeout t s
  | .powerWindowCompute sensors temp => Sys2Proof.Machine.execPowerWindowCompute sensors temp s
  | .powerAdapt => Sys2Proof.Machine.execPowerAdapt s
  | .startGrant t => Sys2Proof.Machine.execStartGrant t s
  | .droopTrip k => Sys2Proof.Machine.execDroopTrip k s
  | .droopGateEnd => Sys2Proof.Machine.execDroopGateEnd s
  | .thermNChange level => Sys2Proof.Machine.execThermNChange level s
  | .heartbeatWrite k v => Sys2Proof.Machine.execHeartbeatWrite k v s
  | .stewardHeartbeatFail k => Sys2Proof.Machine.execStewardHeartbeatFail k s
  | .stewardCoreUe core n => Sys2Proof.Machine.execStewardCoreUe core n s
  | .mtimeInterrupt k => Sys2Proof.Machine.execMtimeInterrupt k s
  | .mboxDoorbell p => Sys2Proof.Machine.execMboxDoorbell p s
  | .mboxDone p => Sys2Proof.Machine.execMboxDone p s
  | .info via => Sys2Proof.Machine.execInfo via s
  | .nvmRead via ok timeout => Sys2Proof.Machine.execNvmRead via ok timeout s
  | .nvmWrite via data stop => Sys2Proof.Machine.execNvmWrite via data stop s
  | .nvmErase via stop => Sys2Proof.Machine.execNvmErase via stop s
  | .retireSite via => Sys2Proof.Machine.execRetireSite via s
  | .counterDump via ok => Sys2Proof.Machine.execCounterDump via ok s
  | .hangReport via ok => Sys2Proof.Machine.execHangReport via ok s
  | .badService via => Sys2Proof.Machine.execBadService via s
  | .vfIrq p v => Sys2Proof.Machine.execVfIrq p v s
  | .coreHalt k => Sys2Proof.Machine.execCoreHalt k s
  | .coreResume k => Sys2Proof.Machine.execCoreResume k s
  | .breakScopeWrite p v => Sys2Proof.Machine.execBreakScopeWrite p v s
  | .tapReset => Sys2Proof.Machine.execTapReset s
  | .idcode => Sys2Proof.Machine.execIdcode s
  | .samplePreload nvm nvmOn dq load => Sys2Proof.Machine.execSamplePreload nvm nvmOn dq load s
  | .extest nvm nvmOn dq load => Sys2Proof.Machine.execExtest nvm nvmOn dq load s
  | .clamp => Sys2Proof.Machine.execClamp s
  | .highz => Sys2Proof.Machine.execHighz s
  | .bypass => Sys2Proof.Machine.execBypass s
  | .dmi a write => Sys2Proof.Machine.execDmi a write s
  | .debugSysbusAccess addr write => Sys2Proof.Machine.execDebugSysbusAccess addr write s
  | .pmcFreeze p v => Sys2Proof.Machine.execPmcFreeze p v s
  | .pmcThaw p v => Sys2Proof.Machine.execPmcThaw p v s
  | .hangWatchdogTrip n e => Sys2Proof.Machine.execHangWatchdogTrip n e s
  | .dieWaitLimit n e => Sys2Proof.Machine.execDieWaitLimit n e s
  | .hangRelease p => Sys2Proof.Machine.execHangRelease p s
  | .hangReportAssemble => Sys2Proof.Machine.execHangReportAssemble s
  | .binFree p n b => Sys2Proof.Machine.execBinFree p n b s
  | .idxFarReadDone p => Sys2Proof.Machine.execIdxFarReadDone p s
  | .pcieLinkUp speed width ari => Sys2Proof.Machine.execPcieLinkUp speed width ari s
  | .pfD0Return => Sys2Proof.Machine.execPfD0Return s
  | .msixVectorUnmask fn v => Sys2Proof.Machine.execMsixVectorUnmask fn v s
  | .vfBusMasterClear t => Sys2Proof.Machine.execVfBusMasterClear t s

end Sys2Proof.Machine
end

