-- ==== Sys2Proof/Safety.lean ====
section
/-! DEFINITION. What counts as sound in a state: the canonical forms of its memories, the burned fuses that no step takes back, and the range of
the bar counter; and the terms in which the statements say that a command completes. -/

namespace Sys2Proof.Machine

/-- The byte memories (slabs, HBM, the attached NVM) are in their canonical form. -/
def Hw.memoriesOk (h : Hw) : Bool := Memory.wf 0#8 h.mem.slab && Memory.wf 0#8 h.mem.hbm && Memory.wf nvmByte h.nvm.cells

/-- Every bit that is 1 in v is 1 in w. -/
def bitsKept (v w : Word) : Prop := ∀ i, v.getLsbD i = true → w.getLsbD i = true

/-- No burned bit of f is missing in g: the bits of Table 5.8 only come on, the SVN floor only rises (R236), and the rows that no command burns
are the same (R235). -/
def FuseArray.Grows (f g : FuseArray) : Prop :=
  bitsKept f.secPolicy g.secPolicy ∧ bitsKept f.debug g.debug ∧ f.svnFloor ≤ g.svnFloor ∧
  (∀ i, i < 12 → bitsKept (f.keyhash.getD i 0#32) (g.keyhash.getD i 0#32)) ∧
  g.tenantMax = f.tenantMax ∧ g.nodeMask = f.nodeMask ∧ g.laneRepair = f.laneRepair ∧ g.privMap = f.privMap

/-- The bar counter is in range: a phase of one of the 4,096 cycles of a bar, fewer rest cycles than a bar has cycles (a jump may choose as many:
R61), and no more rests taken than chosen (R56). -/
def BarState.InRange (b : BarState) : Prop :=
  b.phase < 4096 ∧ b.c < 4096 ∧ b.rest ≤ b.c ∧ ∀ j, b.jumpTo = some j → j.2 < 4096

/-- What only few operations change: the burned fuses, the bytes of the NVM, of the slabs and of the HBM, and the bar counter. -/
def Hw.vault (h : Hw) : FuseArray × List Host.Cell × List Host.Cell × List Host.Cell × BarState :=
  ({ h.fuse with burning := none }, h.nvm.cells, h.mem.slab, h.mem.hbm, h.bar)

/-- Command c completes in state s: the next state keeps the queue, and its block meets P. -/
def Completes (c : Instr) (s : State) (P : Hw → Prop) : Prop :=
  ∃ t, exec c s = .next t ∧ t.pending = s.pending ∧ P t.hw

/-- h as an access of path p begins: the flag of an access fault answers for the path's last access only. -/
def Hw.readied (h : Hw) (p : Path) : Hw := h.setPath p { h.path p with accessFault := false }

/-- Path p's read at an address of its view reaches register r: the path waits for no far read, the host reaches the block, the block
answers, the address is aligned and names r in the normal view, and the path may read there (R52, R90, R187, R227). -/
def Hw.readOpen (h : Hw) (p : Path) (addr : Nat) (r : Reg) : Prop :=
  (h.path p).idxRead = none ∧ h.hostReaches p = true ∧ addr % 4 = 0 ∧ (h.resolve p addr).1 = 0 ∧ (h.resolve p addr).2.2 = .reg r ∧
  h.answers p (h.resolve p addr).2.1 = true ∧ h.mayRead p (regionOf (h.resolve p addr).2.1) = true

/-- Path p's write at an address of its view reaches register r through an alias view: the path waits for no far read, the host reaches the
block, and the checks of chapter 5 (R182 to R206: the block answers, the path's rights, the register's writers) all pass. -/
def Hw.gateOpen (h : Hw) (p : Path) (addr view : Nat) (r : Reg) : Prop :=
  (h.path p).idxRead = none ∧ h.hostReaches p = true ∧ (h.readied p).writeGate p addr = .go view r

/-- Path p's write to register r at the address where the path finds it is performed. -/
def Hw.writeOpen (h : Hw) (p : Path) (r : Reg) : Prop := h.gateOpen p (pathAddr p r.addr) 0 r

/-- A register whose write has no rule but those of chapter 5: its own word changes, in the fields that the write reaches. -/
def RegId.plain (id : RegId) : Bool :=
  !([RegId.ancResetCtl, .ancLock, .pwaBudget, .fusProgCtl, .ancResetGuard, .ancLockGuard, .pwaBudgetGuard, .fusProgGuard, .ancSnapshot,
    .idxAddr, .idxCtl, .idxData, .bootProgCtl, .bnFlowCfg, .bnFlowRate, .bnFlowBound, .bnFlowPhase, .bnPhase, .chCfg, .chEp, .chEpt, .nodeBell,
    .nodeBellRing, .snGongCtl, .snBarrierCfg, .snRimshotCfg, .fldCfg, .fldFmt, .fldLink, .cqGroupCfg, .cqGroupFlow, .cqRingCfg, .cqRingFlow,
    .cqSeqCfg, .cqSeqScope, .tpCfg, .tpViolLimit, .tpFmap, .tpCmap, .tpSmap, .tpPmap, .tpGmap, .slbLease, .slbHlease, .memSpillCfg,
    .lnkPortCfg, .lnkRetryCfg, .hstRelayTxCtl, .hstRelayRxCtl, .hstLaunchDb, .hstJobCtl, .hstWinBaseLo, .hstWinBaseHi, .hstWinSize, .tntCfg,
    .tntCtl, .pwaWindow, .pwaDroopCfg, .stwHeartbeat, .stwBreakCtl, .stwVfIrq, .stwMtimecmpLo, .stwMtimecmpHi, .stwMbox, .stwMboxDb,
    .stwMboxDone, .pmcTagMode, .pmcHangCfg, .pmcFreezeReq, .pmcHangRel, .pmcBinCmds].contains id)

/-- A guard write of path p to critical register c is accepted with value v: the write is performed, v is the path's own pending value, its
guard window is open, and no lock forbids the value (R207 to R212). -/
def Hw.guardOpen (h : Hw) (p : Path) (c : CplReg) (v : Word) : Prop :=
  h.writeOpen p ⟨cplGuardId c, 0, 0⟩ ∧ (∃ t, h.cplPend c = some ⟨p, v, t⟩ ∧ h.now < t + guardWindow) ∧ h.cplLocked c v = false

/-- Tile i's command x with its words is taken: the port is ACTIVE or DRAINING, the tile held a credit for each word, no word is lost, the tag is
free, fewer than 64 tags are outstanding, and the length and reserved bits are those of its opcode (R453, R463, R466, R467, R481, R493, R502). -/
def Hw.commandOpen (h : Hw) (i : Nat) (x : CmdHdr) (body : List (BitVec 64)) (lens masks : List Nat) : Prop :=
  (h.portState i = psActive ∨ h.portState i = psDraining) ∧ body.length + 1 ≤ (h.port i).ci ∧ x.err ≠ .uncorrectable ∧
  (h.port i).cmd x.tag.toNat = none ∧ (h.port i).cmds.length < 64 ∧ lens.contains body.length = true ∧ x.rsv = 0#3 ∧
  (body.zip masks).any (fun w => w.1 &&& ~~~ (BitVec.ofNat 64 w.2) != 0#64) = false

/-- h once tile i's command has come in: the port worked in this cycle, a corrected word is logged, and the header's record is made, with its
observation bin (R453, R823, R824). -/
def Hw.commandIn (h : Hw) (i op : Nat) (x : CmdHdr) (body : List (BitVec 64)) : Hw × TileCmd :=
  let r := cmdRange op body
  ((h.act (tileNode i) 7).padCheck i 0 x.err).1.cmdOpen i op x r.1 r.2.1 r.2.2

/-- h once tile i's command holds its tag (R492). -/
def Hw.commandHeld (h : Hw) (i op : Nat) (x : CmdHdr) (body : List (BitVec 64)) : Hw :=
  let o := h.commandIn i op x body
  o.1.modPort i (fun p => { p with cmds := p.cmds ++ [o.2] })

/-- g has lost what every reset of the die clears (Table 2.3): the pending CPL values, the access paths' own registers, the bar counter, the
applied image, the faults under way, the contents of the networks, of the tile ports and of the slabs, jobs, torus ports, power and observation
state; the HBM's contents stay. -/
def Hw.UnitsCleared (h g : Hw) : Prop :=
  g.cpl = {} ∧ g.paths = [] ∧ g.banks = [] ∧ g.bar = {} ∧ g.doc = none ∧ g.fault = {} ∧ g.bnet = {} ∧ g.cnet = {} ∧ g.snet = {} ∧ g.fold = {} ∧
  g.ports = [] ∧ g.mem = { hbm := h.mem.hbm } ∧ g.coll = {} ∧ g.jobs = [] ∧ g.phy = [] ∧ g.link = [] ∧ g.power = {} ∧ g.obs = {}

/-- g is h after a cold reset by the given causes with the given slot forcing (R75, R80, R81, R140): COLD_RESET, every register but the reset
causes, BOOT_SLOT and the PLL lock bits at its reset value; the fuses and the NVM as they were where nothing was being written. -/
def Hw.ColdCleared (h g : Hw) (cause slot : Word) : Prop :=
  g.dieState = stColdReset ∧ g.reg .ancResetCause = cause ∧ g.reg .bootSlot = slot ∧ h.UnitsCleared g ∧ g.host = { out := h.host.out } ∧
  (∀ id i j, id ≠ .ancResetCause → id ≠ .bootSlot → id ≠ .clkStatus → g.reg id i j = id.desc.reset) ∧
  (h.fuse.burning = none → g.fuse = h.fuse) ∧ (h.nvm.busyCmd = none → g.nvm.cells = h.nvm.cells)

/-- g is h after a warm reset by the given cause (R76, R80, R89): WARM_RESET, its count one more and its cause alone where none was running, else
the cause added; the fuse shadows, the BIST results and the PLL lock bits as they were, every other register but the ones named at its reset
value. -/
def Hw.WarmCleared (h g : Hw) (cause : Word) : Prop :=
  g.dieState = stWarmReset ∧
  fld (g.reg .ancState) 16 16 = (if h.dieState = stWarmReset then fld (h.reg .ancState) 16 16 else satAdd 16 (fld (h.reg .ancState) 16 16) 1) ∧
  g.reg .ancResetCause = (if h.dieState = stWarmReset then h.reg .ancResetCause ||| cause else cause) ∧
  g.reg .bootSlot = h.reg .bootSlot &&& 7#32 ∧ g.reg .clkStatus = h.reg .clkStatus &&& 0x7FFF#32 ∧ h.UnitsCleared g ∧ g.health = h.health ∧
  (∀ id i j, id ∈ [RegId.fusSecPolicy, .fusTenantMax, .fusDebug, .fusStatus, .fusNodeMask, .fusLaneRepair, .fusKeyhash, .fusPrivMap,
    .bootRepair, .bootTileFail, .slbRetired, .memPcStatus] → g.reg id i j = h.reg id i j) ∧
  (∀ id i j, id.keptWarm = false → id ≠ .tpCond → id ≠ .tpCfg → id ≠ .hstPfEvt → g.reg id i j = id.desc.reset) ∧
  (h.fuse.burning = none → g.fuse = h.fuse) ∧ (h.nvm.busyCmd = none → g.nvm.cells = h.nvm.cells)

/-- g is h with other words in its register file only, and those in registers of the given names only. -/
def Hw.OnlyRegs (h g : Hw) (ids : List RegId) : Prop := g = { h with regs := g.regs } ∧ ∀ id i j, id ∉ ids → g.reg id i j = h.reg id i j

end Sys2Proof.Machine
end

