-- ==== Sys2Proof/Certificates/Slice0/Obligations.lean ====
section
/-! DEFINITION. The statements for the provers. Each says of a family of commands where they complete and with what next state, or of all steps
what they keep. `Completes c s P` (Safety) says that exec c s answers a next state with the same queue and a block that meets P. -/

open Sys2Proof Sys2Proof.Machine

/-- A step takes the command at the front of the queue and runs it with the queue's rest. This is how commands reach the block in the model (log
entry 1). -/
def Obligations.CommandAtFrontRuns : Prop :=
  ∀ (c : Instr) (s : State), step { s with pending := c :: s.pending } = exec c s

/-- On an empty queue a step is one FCLK cycle: where the bar counter does not run only the time goes on; within a bar the phase advances; a bar's
last cycle stands until BAR_BOUNDARY ends the bar. That an idle step is a cycle is the model's choice (log entry 2). -/
def Obligations.IdleStepIsOneCycle : Prop :=
  ∀ s : State, s.pending = [] →
  (s.hw.bar.running = false ∨ s.hw.dieState = stClockLost → step s = .next { s with hw := { s.hw with now := s.hw.now + 1 } }) ∧
  (s.hw.bar.running = true → s.hw.dieState ≠ stClockLost → s.hw.bar.rest = 0 →
    (s.hw.bar.phase < 4095 → ∃ t, step s = .next t ∧ t.pending = [] ∧ t.hw.now = s.hw.now + 1 ∧
      t.hw.bar = { s.hw.bar with phase := s.hw.bar.phase + 1 } ∧ t.hw.vault.1 = s.hw.vault.1 ∧ t.hw.mem = s.hw.mem) ∧
    (4095 ≤ s.hw.bar.phase → step s = .next s))

/-- Every command answers a next state in every state and leaves the queue as it is: none faults and none is refused. One whose conditions do not
hold changes nothing or is recorded in the block's registers (log entry 3). -/
def Obligations.EveryCommandCompletes : Prop :=
  ∀ (c : Instr) (s : State), Completes c s (fun _ => True)

/-- The state after reset: COLD_RESET by power_on, every register but that cause at its reset value, the pins high, no bar counting, no memory,
network, port, job or path holding anything, no command waiting. That reset is the state after PWR_GOOD fell and rose is the model's choice (log
entry 4). -/
def Obligations.ResetState : Prop :=
  let h := State.reset.hw
  State.reset.pending = [] ∧ h.dieState = stColdReset ∧ h.reg .ancResetCause = 1#32 ∧
  (∀ id i j, id ≠ .ancResetCause → h.reg id i j = id.desc.reset) ∧ h.pins = {} ∧ h.bar = {} ∧ h.fuse.burning = none ∧ h.nvm.busyCmd = none ∧
  (∀ p, h.path p = {}) ∧ (∀ c, h.cplPend c = none) ∧ h.doc = none ∧ h.bnet = {} ∧ h.cnet = {} ∧ h.snet = {} ∧ h.fold = {} ∧ (∀ i, h.port i = {}) ∧
  h.mem = {} ∧ h.link = [] ∧ h.phy = [] ∧ (∀ t, h.job t = {}) ∧ h.fault = {} ∧ h.msix = []

/-- The state after reset has its memories in canonical form and its bar counter in range. -/
def Obligations.ResetMeetsInvariant : Prop :=
  State.reset.hw.memoriesOk = true ∧ State.reset.hw.bar.InRange

/-- Every step keeps the memories (slabs, HBM, NVM) in their canonical form and the bar counter in range: a phase below 4,096, no more rest cycles
taken than chosen. -/
def Obligations.StepKeepsInvariant : Prop :=
  ∀ s t : State, s.hw.memoriesOk = true → s.hw.bar.InRange → step s = .next t → t.hw.memoriesOk = true ∧ t.hw.bar.InRange

/-- No step takes back a burned fuse: the burned bits of every row stay, the SVN floor never falls, and the rows that no command burns are
unchanged, resets that cut a burn off included. -/
def Obligations.BurnedFusesStay : Prop :=
  ∀ s t : State, step s = .next t → s.hw.fuse.Grows t.hw.fuse

/-- Which commands reach the lasting store. Outside resets, the burn's end, boot, the NVM's commands, bar ends, and the commands that write slabs or
HBM (named in the statement), a command leaves the burned fuses, every byte of the NVM, the slabs and the HBM, and the bar counter as they were. -/
def Obligations.LastingStoreFrame : Prop :=
  ∀ (c : Instr) (s t : State), exec c s = .next t →
    match c with
    | .pwrGoodLow | .rstNLow | .refclkLoss | .coldReset | .perstNAssert | .pfFlr | .warmReset | .rootPllRelock | .pllLock _
    | .fuseBurnDone _ | .bootStart | .nvmCommandTimeout _ | .warmScrubDone | .runEntry | .progCommandDone _ | .barBoundary _ _ _
    | .flitSinkDelivery _ _ | .beatArrival _ _ _ | .slabWrite _ _ _ _ _ _ | .move _ _ _ | .moveDone _ _ | .patrolScrub _ _ _
    | .pageZeroDone _ | .granuleZero _ | .memoryPathAccess _ _ _ _ _ _ _ | .bar2Write _ _ _ | .restartReady _ | .droopGateEnd
    | .nvmWrite _ _ _ | .nvmErase _ _ => True
    | _ => t.hw.vault = s.hw.vault

/-- R75, R80, R81, R140, Table 2.3: each pin cause starts a cold reset: the die is in COLD_RESET, ANC_RESET_CAUSE names the cause (a loss of
PWR_GOOD alone; another cause beside those of a cold reset already running and an accepted cold request), BOOT_SLOT is cleared, and what Table 2.3
clears is cleared. Where a burn or a program is cut off, what it leaves is free (log entries 6 and 7). R80, R81, R83, R85, R140: a cold reset
accepted through ANC_RESET_CTL begins with cause cold_request and keeps the slot forcing; as the causes of a cold reset end with the root PLL
locked, the die enters FUSE_LOAD, the pins high, and the PF hears of the new die state. A pending reset begins when its command comes (log entry
19). R76, R79, R80, R89, R140, R894: each warm-reset cause starts a warm reset: a request accepted through ANC_RESET_CTL while no cold one is
pending; PERST_N falling or a function-level reset of the PF from BOOT on; the root PLL's relock in CLOCK_LOST unless CLK_ROOT_CFG holds it. -/
def Obligations.ResetsBegin : Prop :=
  (∀ s : State,
    let more : Word := (if s.hw.dieState = 0 then s.hw.reg .ancResetCause else 0#32) ||| (if s.hw.rst.coldReq then 8#32 else 0#32)
    Completes .pwrGoodLow s (fun g => s.hw.ColdCleared g 1#32 0#32 ∧ g.pins = { s.hw.pins with pwrGood := false }) ∧
    Completes .rstNLow s (fun g => s.hw.ColdCleared g (more ||| 2#32) 0#32 ∧ g.pins = { s.hw.pins with rstN := false }) ∧
    Completes .refclkLoss s (fun g => s.hw.ColdCleared g (more ||| 4#32) 0#32 ∧ g.pins = { s.hw.pins with refclk := false })) ∧
  (∀ s : State,
    (s.hw.rst.coldReq = true → Completes .coldReset s (fun g =>
      s.hw.ColdCleared g ((if s.hw.dieState = 0 then s.hw.reg .ancResetCause else 0#32) ||| 8#32) (s.hw.reg .bootSlot &&& 7#32) ∧ g.pins = s.hw.pins)) ∧
    (s.hw.dieState = 0 → bit (s.hw.reg .clkStatus) 1 = true → Completes .coldResetEnd s (fun g =>
      g.dieState = 1 ∧ g.pins = { s.hw.pins with pwrGood := true, rstN := true, refclk := true } ∧ bit (g.reg .hstPfEvt) 1 = true ∧
      (∀ id i j, id ≠ .ancState → id ≠ .hstPfEvt → g.reg id i j = s.hw.reg id i j) ∧ g.vault = s.hw.vault))) ∧
  (∀ s : State,
    let more : Word := s.hw.rst.lostCauses ||| (if s.hw.rst.warmReq then 0x10#32 else 0#32)
    let after : Prop := s.hw.dieState = 3 ∨ s.hw.dieState = 4 ∨ s.hw.dieState = 5 ∨ s.hw.dieState = 6
    (s.hw.rst.warmReq = true → s.hw.rst.coldReq = false → Completes .warmReset s (fun g => s.hw.WarmCleared g more)) ∧
    (s.hw.pins.perstN = true → after → Completes .perstNAssert s (fun g =>
      s.hw.WarmCleared g (0x20#32 ||| more) ∧ g.pins = { s.hw.pins with perstN := false } ∧ g.reg .hstLinkStatus = 0#32 ∧ g.msix = [])) ∧
    (after → Completes .pfFlr s (fun g => s.hw.WarmCleared g (0x20#32 ||| more) ∧ g.pins = s.hw.pins ∧ g.msix = [])) ∧
    (s.hw.dieState = 7 → bit (s.hw.reg .clkRootCfg) 16 = false → Completes .rootPllRelock s (fun g =>
      g.dieState = 6 ∧ g.reg .ancResetCause = 0x40#32 ||| more ∧ s.hw.UnitsCleared g ∧ bit (g.reg .clkStatus) 1 = true)))

/-- R49, R51, R53 to R55, Table 2.9: a PLL's lock sets its bit of CLK_STATUS and nothing else (the root PLL's in CLOCK_LOST starts the warm reset of
`WarmResets`); its loss clears the bit and sets its event. Without the root PLL the die enters CLOCK_LOST and records F0 ROOT_CLOCK; a PHY PLL
resets its port (as `PortResets` says), which then trains cold; an HBM PLL maps out the usable pairs of its stack and raises F0 HBM_STACK; the PCIe
PLL takes the link down. R78, R85, Table 2.3: a port reset accepted through ANC_RESET_CTL begins: a torus port in use trains again, its sequence
numbers, replay buffer, lane error counts and LQI cleared; a tile port enters RESET, a masked one MASKED, its FIFOs, tags and violation counts
cleared. A pending reset begins when its command comes (log entry 19). -/
def Obligations.LocksAndPortResets : Prop :=
  (∀ s : State,
    let lost (b : Nat) : Hw := (s.hw.modReg .clkStatus 0 0 (setBit · b false)).modReg .clkEvt 0 0 (setBit · b true)
    (∀ w, (w = .root → s.hw.dieState = 7 → bit (s.hw.reg .clkRootCfg) 16 = true) → Completes (.pllLock w) s (fun g =>
      g = s.hw.modReg .clkStatus 0 0 (fun c => setBit (setBit c 0 true) (pllBit w) true))) ∧
    (s.hw.dieState ≠ 0 → Completes .rootPllUnlock s (fun g =>
      g = ((((lost 1).setDieState 7).modReg .clkStatus 0 0 (setBit · 18 true)).modReg .ancFaultCond 0 0 (setBit · 0 true)).recordF0 0x48 anchorNode
        s.hw.stamp.1)) ∧
    (∀ p : Port, s.hw.portIsDown p = false → s.hw.phyState p ≠ 0 → Completes (.phyPllUnlock p) s (fun g =>
      g = ((lost (2 + p)).modPhy p (fun q => { q with pllLost := true })).torusPortReset p)) ∧
    (∀ k : Fin 6, s.hw.dieState ≠ 0 → Completes (.hbmPllUnlock k) s (fun g =>
      g = (((List.range 16).foldl (fun (h : Hw) q => if h.pairUsable (16 * k + q) then h.pairOut (16 * k + q) true else h) (lost (8 + k))).modReg
        .ancFaultCond 0 0 (setBit · 4 true)).raiseF0 0x47 (nodeOf 1 (2 * k)) 0)) ∧
    Completes .pciePllUnlock s (fun g =>
      g = { (lost 14).setReg .hstLinkStatus 0 0 0#32 with host := { s.hw.host with requested := [] } })) ∧
  (∀ s : State, s.hw.dieState ≠ 7 →
    (∀ p : Port, p.val ∈ s.hw.rst.portResets → s.hw.portIsDown p = false → s.hw.phyState p ≠ 0 → Completes (.portReset (.torus p)) s (fun g =>
      g.rst.portResets = s.hw.rst.portResets.erase p.val ∧ g.linkState p = lsTraining ∧
      g.phyState p = (if (s.hw.phyOf p).pllLost then phCal else phSbAcq) ∧ (g.linkOf p).replay = [] ∧ (g.linkOf p).next = 0 ∧ (g.linkOf p).expected = 0 ∧
      (∀ k, g.reg .lnkLaneEc p k = 0#32 ∧ g.reg .lnkLqi p k = 0#32) ∧ g.vault = s.hw.vault)) ∧
    (∀ i : Tile, 16 + i.val ∈ s.hw.rst.portResets → Completes (.portReset (.tile i)) s (fun g =>
      g.rst.portResets = s.hw.rst.portResets.erase (16 + i.val) ∧ g.port i = { resetAt := s.hw.now, tclkBad := (s.hw.port i).tclkBad } ∧
      (g.portState i = psReset ∨ g.portState i = psMasked) ∧ g.reg .tpViolCnt (tileNode i) = 0#32 ∧ g.reg .tpViolEvt (tileNode i) = 0#32 ∧
      g.vault = s.hw.vault)))

/-- R207, R210 to R213, R759: a value write that is performed and that no lock forbids leaves its value pending for its path and opens the guard
window; a window that expires loses the value and logs misuse cause 0x07; an accepted guard write of ANC_LOCK only sets lock bits, one of PWA_BUDGET
replaces the budget. That an expiry acts when its command comes is the model's (log entry 20). R77 to R79, R85, R86: an accepted reset request with
its target in range. A warm one (after BIST, with no cold one pending) and a cold one become pending; in RUN with no wider reset pending, a
partition request is recorded as F1 REQUESTED for its tenant and kind reads 0 again, and a torus or tile port request becomes pending for its port.
-/
def Obligations.GuardsAccepted : Prop :=
  (∀ s : State,
    let accepted (p : Path) (c : CplReg) : Hw := (s.hw.readied p).setCplPend c none
    (∀ p c v, s.hw.writeOpen p ⟨cplId c, 0, 0⟩ → s.hw.cplLocked c v = false → Completes (.cplValueWrite p c v) s (fun g =>
      g = (s.hw.readied p).setCplPend c (some ⟨p, v, s.hw.now⟩))) ∧
    (∀ c q, s.hw.cplPend c = some q → q.time + 64 * 12 ≤ s.hw.now → Completes (.cplGuardExpired c) s (fun g =>
      g = (s.hw.setCplPend c none).misuse q.path true 7 (Reg.addr ⟨cplId c, 0, 0⟩))) ∧
    (∀ p v, s.hw.guardOpen p .lock v → Completes (.lockSet p) s (fun g =>
      g = (accepted p .lock).setReg .ancLock 0 0 (s.hw.reg .ancLock ||| (v &&& 0x7F#32)))) ∧
    (∀ p v, s.hw.guardOpen p .budget v → Completes (.budgetSet p) s (fun g =>
      g = (accepted p .budget).setReg .pwaBudget 0 0 (v &&& 0x0FFF0FFF#32)))) ∧
  (∀ (s : State) (p : Path) (v : Word), s.hw.guardOpen p .reset v → resetTargetOk v = true →
    let b : Hw := (s.hw.readied p).setCplPend .reset none
    let held (g : Hw) : Hw := (g.setReg .ancResetCtl 0 0 (v &&& 0xFF07#32)).modReg .ancState 0 0 (setBit · 8 true)
    let t := fld v 8 8
    (fld v 0 3 = 1 → s.hw.dieState ≠ 0 → s.hw.dieState ≠ 1 → s.hw.dieState ≠ 2 → s.hw.rst.coldReq = false → Completes (.resetReqWarm p) s (fun g =>
      g = held { b with rst := if s.hw.dieState = 7 then { s.hw.rst with lostCauses := s.hw.rst.lostCauses ||| 0x10#32 }
                               else { s.hw.rst with warmReq := true } })) ∧
    (fld v 0 3 = 2 → Completes (.resetReqCold p) s (fun g => g = held { b with rst := { s.hw.rst with coldReq := true } })) ∧
    (s.hw.dieState = 5 → s.hw.widerPending = false →
      (fld v 0 3 = 3 → Completes (.resetReqPartition p) s (fun g =>
        g = (b.setReg .ancResetCtl 0 0 (setFld (v &&& 0xFF07#32) 0 3 0)).raiseF1 t (s.hw.gen t) 0x10 anchorNode 0)) ∧
      (fld v 0 3 = 4 → Completes (.resetReqTorusPort p) s (fun g =>
        g = held { b with rst := { s.hw.rst with portResets := s.hw.rst.portResets ++ [t] } })) ∧
      (fld v 0 3 = 5 → Completes (.resetReqTilePort p) s (fun g =>
        g = held { b with rst := { s.hw.rst with portResets := s.hw.rst.portResets ++ [16 + t] } }))))

/-- R234 to R236: in SAFE_HOLD, with field programming allowed and not closed, the PF's guarded write with start = 1 begins the burn of a burnable
row whose data meets its condition; the burn ends with the row's bits on in the array, done set and err as the read-back says. R93, R94, R131, R224:
FUSE_LOAD ends in BIST with every shadow register showing the array, or, after an uncorrectable error, in SAFE_HOLD with FUSE_ECC and no shadow
loaded; the PCIe endpoint trains after FUSE_LOAD has ended, PERST_N high. What the array holds is the model's choice (log entry 17). -/
def Obligations.FusesBurnAndLoad : Prop :=
  (∀ s : State,
    (∀ v, s.hw.guardOpen .pf .fuse v → s.hw.dieState = 4 → bit (s.hw.reg .fusSecPolicy) 3 = true → bit (s.hw.reg .fusSecPolicy) 4 = false →
      bit v 8 = true → s.hw.fuse.burning = none → s.hw.burnOk (fld v 0 8) (s.hw.reg .fusProgData) = true →
      Completes (.fuseBurn .pf) s (fun g =>
        g = { ((s.hw.readied .pf).setCplPend .fuse none).setReg .fusProgCtl 0 0 (v &&& 0x1FF#32) with
                fuse := { s.hw.fuse with burning := some (fld v 0 8, s.hw.reg .fusProgData) } }.setReg .fusProgStatus 0 0 1#32)) ∧
    (∀ row d differs, s.hw.fuse.burning = some (row, d) → Completes (.fuseBurnDone differs) s (fun g =>
      g = { s.hw with fuse := { s.hw.fuse.burn row d with burning := none } }.modReg .fusProgStatus 0 0
        (fun w => setBit (setBit (setBit w 0 false) 1 true) 2 differs)))) ∧
  (∀ s : State,
    (∀ n, s.hw.dieState = 1 → Completes (.fuseLoadDone true n) s (fun g =>
      g = s.hw.safeHold 0x80 ∧ g.dieState = 4 ∧ fld (g.reg .bootErr) 24 8 = 0x80 ∧ fld (g.reg .bootStatus) 0 4 = 15 ∧ g.boot.sticky = 0x80 ∧
      (∀ id i j, id ≠ .ancState → id ≠ .bootErr → id ≠ .bootStatus → id ≠ .hstPfEvt → g.reg id i j = s.hw.reg id i j) ∧ g.vault = s.hw.vault)) ∧
    (∀ n, s.hw.dieState = 1 → Completes (.fuseLoadDone false n) s (fun g =>
      g.dieState = 2 ∧ g.reg .fusSecPolicy = setFld s.hw.fuse.secPolicy 8 6 s.hw.fuse.svnFloor ∧ g.reg .fusTenantMax = mkWord [(0, 7, s.hw.fuse.tenantMax)] ∧
      g.reg .fusDebug = s.hw.fuse.debug ∧ g.reg .fusStatus = mkWord [(0, 1, 1), (8, 8, n.toNat)] ∧
      (∀ k w, s.hw.fuse.nodeMask[k]? = some w → g.reg .fusNodeMask k = w) ∧ (∀ k w, s.hw.fuse.laneRepair[k]? = some w → g.reg .fusLaneRepair k = w) ∧
      (∀ k w, s.hw.fuse.keyhash[k]? = some w → g.reg .fusKeyhash k = w) ∧ (∀ k w, s.hw.fuse.privMap[k]? = some w → g.reg .fusPrivMap k = w) ∧
      bit (g.reg .hstPfEvt) 1 = true ∧ g.vault = s.hw.vault)) ∧
    (s.hw.dieState ≠ 0 → s.hw.dieState ≠ 1 → Completes .pcieTrainingStart s (fun g =>
      g = { s.hw with pins := { s.hw.pins with perstN := true }, host := { s.hw.host with training := true } })))

/-- R97, R98, R903: after BIST its findings stand in the registers; a die with every A, L and G node good, its shared memory repaired and at most
one steward out (masked or failed) enters BOOT, any other SAFE_HOLD with the first of CORE_ROUTER, FWSRAM_BIST and STEWARD_BIST that holds. R91,
R133, R140, R892, R904: BOOT begins with BOOT_ERR clear and the counter running from bar 0 and phase 0, the die aligned as its own source of the
downbeat; a sticky die code ends it in SAFE_HOLD with that code, hold_next (which it clears) with HOLD. -/
def Obligations.BistAndBoot : Prop :=
  (∀ (s : State) (f : BistFindings), s.hw.dieState = 2 →
    let good (n : Nat) : Prop := s.hw.nodeMasked n = false
    let core : Prop := ∃ n ∈ f.routers, good n.val ∧ (nodeClass n.val = 5 ∨ nodeClass n.val = 6 ∨ nodeClass n.val = 7)
    let out : Nat := ((List.range 5).filter (fun k => f.stewards.getLsbD k || s.hw.nodeMasked (nodeOf 3 k))).length
    let ends (state code : Nat) : Prop := Completes (.bistDone f) s (fun g =>
      g.dieState = state ∧ (state = 4 → fld (g.reg .bootErr) 24 8 = code ∧ g.boot.sticky = code ∧ fld (g.reg .bootStatus) 0 4 = 15) ∧
      (∀ n : Node, n.val ∈ g.health.routerFail ↔ n ∈ f.routers ∧ good n.val) ∧
      (∀ k, k < 5 → (bit (g.reg .bootRepair) (24 + k) = true ↔ f.stewards.getLsbD k = true ∧ good (nodeOf 3 k))) ∧
      (∀ i, i < 64 → (bit (g.reg .bootTileFail (i / 32)) (i % 32) = true ↔ f.tiles.getLsbD i = true ∧ good (tileNode i))) ∧
      (∀ p ∈ f.pages, good (tileNode (p.val / 64)) → g.pageRetired p.val = true) ∧ g.vault = s.hw.vault)
    (core → ends 4 0x84) ∧ (¬ core → f.sram = true → ends 4 0x83) ∧ (¬ core → f.sram = false → 2 ≤ out → ends 4 0x82) ∧
    (¬ core → f.sram = false → out ≤ 1 → ends 3 0)) ∧
  (∀ s : State, s.hw.dieState = 6 ∨ (s.hw.dieState = 3 ∧ s.hw.bar.running = false) →
    let starts (state code : Nat) (hold : Bool) : Prop := Completes .bootStart s (fun g =>
      g.dieState = state ∧ g.reg .bootErr = mkWord [(24, 8, code)] ∧ g.bar = { ({} : BarState) with running := true } ∧ bit (g.reg .clkStatus) 16 = true ∧
      g.reg .bootSlot = (if hold then setBit (s.hw.reg .bootSlot) 2 false else s.hw.reg .bootSlot) ∧
      (∀ id i j, id ≠ .ancState → id ≠ .bootErr → id ≠ .bootSlot → id ≠ .bootStatus → id ≠ .clkStatus → id ≠ .hstPfEvt → g.reg id i j = s.hw.reg id i j) ∧
      g.fuse = s.hw.fuse ∧ g.nvm = s.hw.nvm ∧ g.mem = s.hw.mem)
    (s.hw.boot.sticky ≠ 0 → s.hw.boot.sticky < 256 → starts 4 s.hw.boot.sticky false) ∧
    (s.hw.boot.sticky = 0 → bit (s.hw.reg .bootSlot) 2 = true → starts 4 0x86 true) ∧
    (s.hw.boot.sticky = 0 → bit (s.hw.reg .bootSlot) 2 = false → starts 3 0 false))

/-- R112 to R115, R118, R902: of the slot-table copies the newer valid one (by serial arithmetic) gives the order of the slots, after a forced one
and before the recovery slot; an attempt on the first slot left stages the image that its checks accept, or records the failure. -/
def Obligations.SlotsTried : Prop :=  ∀ s : State, s.hw.dieState = 3 →
  let copy (k : Nat) : List Byte := s.hw.nvmRead (k * 0x1000) 64
  let ok (k : Nat) : Prop := s.hw.nvmBlocked = false ∧ slotTableOk (copy k) s.hw.nvm.size = true ∧ k ∉ s.hw.boot.tableTimeout
  let newer : Prop := let d := (u32 (copy 1) 8 + 2 ^ 32 - u32 (copy 0) 8) % 2 ^ 32; 1 ≤ d ∧ d < 2 ^ 31
  let forced := fld (s.hw.reg .bootSlot) 0 2
  let takes (k : Nat) : Prop := Completes .slotTableSelect s (fun g =>
    g = ({ s.hw.setPhase 2 with boot := { s.hw.boot with
             tableRead := true, order := slotOrder forced (some (u8 (copy k) 6)), aBase := u32 (copy k) 0x10, aSize := u32 (copy k) 0x14
             bBase := u32 (copy k) 0x18, bSize := u32 (copy k) 0x1c } }).modReg .bootSlot 0 0 (fun w => setBit (setBit w 9 true) 8 (k == 1)))
  (s.hw.boot.probed = true → s.hw.boot.tableRead = false →
    (ok 0 → (¬ ok 1 ∨ ¬ newer) → takes 0) ∧ (ok 1 → (¬ ok 0 ∨ newer) → takes 1) ∧
    (¬ ok 0 → ¬ ok 1 → Completes .slotTableSelect s (fun g =>
      g = { s.hw.setPhase 2 with boot := { s.hw.boot with tableRead := true, order := slotOrder forced none } }))) ∧
  (∀ errs again slot rest, s.hw.boot.tableRead = true → s.hw.boot.checked = false → s.hw.boot.order = slot :: rest →
    let h := (s.hw.beginAttempt slot).setPhase 3
    let retry (x : Finding) : Prop := s.hw.nvm.mode ≠ 1 ∧ (x.1 = 0x21 ∨ x.1 = ckCrc)
    let reread := h.modReg .bootStatus 0 0 (setBit · 9 true)
    (s.hw.nvmBlocked = true → Completes (.slotAttempt errs again) s (fun g => g = h.failSlot 0x11 0xff 0)) ∧
    (s.hw.nvmBlocked = false → h.slotPlace slot = none → Completes (.slotAttempt errs again) s (fun g => g = h.failSlot 0x10 0xff 0)) ∧
    (∀ base cap, s.hw.nvmBlocked = false → h.slotPlace slot = some (base, cap) →
      (∀ b, h.checkSlot base cap errs = .inr b → Completes (.slotAttempt errs again) s (fun g =>
        g = { h with boot := { h.boot with checked := true, staged := b, rereading := false } }.setPhase 7)) ∧
      (∀ x, h.checkSlot base cap errs = .inl x → ¬ retry x → Completes (.slotAttempt errs again) s (fun g => g = h.failSlot x.1 x.2.1 x.2.2)) ∧
      (∀ x, h.checkSlot base cap errs = .inl x → retry x →
        (∀ b, reread.checkSlot base cap again = .inr b → Completes (.slotAttempt errs again) s (fun g =>
          g = { reread with boot := { h.boot with checked := true, staged := b, rereading := true } }.setPhase 7)) ∧
        (∀ y, reread.checkSlot base cap again = .inl y → Completes (.slotAttempt errs again) s (fun g =>
          g = reread.failSlot y.1 y.2.1 y.2.2)))))

/-- R103 to R107, R810: the probe of BOOT. A device that reads as absent (or is cut off by the boundary scan) ends it in SAFE_HOLD with NVM_ABSENT;
without SFDP it is taken in mode 1 at SCK shift 3 with 16 MiB; with SFDP in the highest mode it advertises, at the least shift that keeps SCK in the
bounds of mode and device. A command that times out ends the programmer's command, or the slot-table copy or the slot that is being read. R134 to
R136: in SAFE_HOLD, with the fuse set, the PF's BOOT_PROG_CTL makes an idle programmer busy with a read, a program, a sector or a block erase at an
aligned address in reach (after a probe, if none was made), or with a command that ends in err where it names none. As it ends, busy clears and done
sets; a read fills the buffer, a program and an erase change their bytes of the NVM; a timeout leaves them open. The bytes that a cut leaves are
free values (log entry 6). -/
def Obligations.NvmCommands : Prop :=
  (∀ s : State,
    let chosen (mode shift size : Nat) (wide sfdp : Bool) : Hw :=
      { (s.hw.setPhase 1) with
          nvm := { s.hw.nvm with mode := mode, shift := shift, addr4 := wide, size := size, sfdp := sfdp }
          boot := { s.hw.boot with probed := true } }.modReg .bootStatus 0 0 (fun w => setFld (setFld w 12 3 mode) 24 3 shift)
    (s.hw.dieState = 3 → s.hw.bar.running = true → s.hw.boot.probed = false → ∀ d : NvmDevice,
      (d.jedec = 0#24 ∨ d.jedec = 0xFFFFFF#24 ∨ s.hw.nvmBlocked = true → Completes (.nvmProbe d) s (fun g => g = (s.hw.setPhase 1).safeHold 0x81)) ∧
      (d.jedec ≠ 0#24 → d.jedec ≠ 0xFFFFFF#24 → s.hw.nvmBlocked = false →
        (d.sfdp = none → Completes (.nvmProbe d) s (fun g => g = chosen 1 3 0x1000000 false false)) ∧
        (∀ modes kHz size mode shift, d.sfdp = some (modes, kHz, size) → 1 ≤ mode → mode ≤ 5 → modes.getLsbD (mode - 1) = true →
          (∀ m, mode < m → m ≤ 5 → modes.getLsbD (m - 1) = false) → shift < 8 →
          200000000 / 2 ^ shift ≤ min (modeSck mode) (kHz.toNat * 1000) →
          (∀ k, k < shift → ¬ 200000000 / 2 ^ k ≤ min (modeSck mode) (kHz.toNat * 1000)) → Completes (.nvmProbe d) s (fun g =>
            g = chosen mode shift (min size.toNat 0x10000000) (decide (0x1000000 < size.toNat)) true)))) ∧
    (∀ copy x, s.hw.dieState = 4 → s.hw.nvm.busyCmd = some x → Completes (.nvmCommandTimeout copy) s (fun g => g = s.hw.nvmCut.progEnd true)) ∧
    (s.hw.dieState = 3 → s.hw.boot.probed = true → s.hw.boot.checked = false →
      (∀ copy, s.hw.boot.tableRead = false → Completes (.nvmCommandTimeout copy) s (fun g =>
        g = { s.hw with boot := { s.hw.boot with tableTimeout := s.hw.boot.tableTimeout ++ [copy.val] } })) ∧
      (∀ copy slot rest, s.hw.boot.tableRead = true → s.hw.boot.order = slot :: rest → Completes (.nvmCommandTimeout copy) s (fun g =>
        g = (s.hw.beginAttempt slot).failSlot 0x11 0xff 0)))) ∧
  (∀ s : State,
    let starts (cmd : Nat) (c : NvmDevice → Instr) (d : NvmDevice) : Prop :=
      let b := (s.hw.readied .pf).setReg .bootProgStatus 0 0 1#32
      let ready := if s.hw.boot.probed then b else b.nvmChoose (d.sfdp.map (fun x => (x.1.toNat, x.2.1.toNat, x.2.2.toNat)))
      let a := (s.hw.reg .bootProgAddr).toNat
      (s.hw.boot.probed = true ∨ (d.jedec ≠ 0#24 ∧ d.jedec ≠ 0xFFFFFF#24 ∧ s.hw.nvmBlocked = false)) → a % progSpan cmd = 0 → a < ready.nvmReach →
      Completes (c d) s (fun g => g = { ready with nvm := { ready.nvm with busyCmd := some (cmd, a) } })
    (∀ d, s.hw.writeOpen .pf ⟨.bootProgCtl, 0, 0⟩ → s.hw.dieState = 4 → bit (s.hw.reg .fusSecPolicy) 2 = true →
      bit (s.hw.reg .bootProgStatus) 0 = false →
      starts 1 (.progRead .pf) d ∧ starts 2 (.progProgram .pf) d ∧ starts 3 (.progEraseSector .pf) d ∧ starts 4 (.progEraseBlock .pf) d ∧
      (∀ v, fld v 0 3 = 0 ∨ 4 < fld v 0 3 → Completes (.progUnknownCommand .pf v d) s (fun g =>
        g = { (s.hw.readied .pf).setReg .bootProgStatus 0 0 1#32 with nvm := { s.hw.nvm with busyCmd := some (0, (s.hw.reg .bootProgAddr).toNat) } }))) ∧
    (∀ cmd a, s.hw.nvm.busyCmd = some (cmd, a) →
      let ends (h : Hw) (err : Bool) : Hw := { h with nvm := { h.nvm with busyCmd := none } }.modReg .bootProgStatus 0 0
        (fun w => setBit (setBit (setBit w 0 false) 1 true) 2 err)
      let fill (n : Nat) : Hw := { s.hw with nvm := { s.hw.nvm with cells := memClear s.hw.nvm.cells a n } }
      (cmd = 0 → Completes (.progCommandDone false) s (fun g => g = ends s.hw true)) ∧
      (s.hw.nvmBlocked = false →
        (cmd = 1 → Completes (.progCommandDone false) s (fun g => g = ends (s.hw.loadBuf (s.hw.nvmRead a 256)) false)) ∧
        (cmd = 2 → Completes (.progCommandDone false) s (fun g =>
          g = ends { s.hw with nvm := { s.hw.nvm with cells := nvmProgram s.hw.nvm.cells a s.hw.progBuf } } false)) ∧
        (cmd = 3 → Completes (.progCommandDone false) s (fun g => g = ends (fill 4096) false)) ∧
        (cmd = 4 → Completes (.progCommandDone false) s (fun g => g = ends (fill 65536) false))) ∧
      Completes (.progCommandDone true) s (fun g => g = ends s.hw.nvmCut true)))

/-- R124, R125, R127, R140: a checked image is applied once: its records' resources, partitions, slots and power policy, the lock bits of lock_mask
with the partition lock, BOOT_ERR OK for its slot. A fault clears what was applied and fails the slot with APPLY_FAULT. The order within one command
is the model's (log entry 23). R98, R101, R124, R126, R128, R129, R137: the scrub of a warm reset empties the slabs; with the image applied and the
slabs scrubbed the die enters RUN with BOOT_TIME in whole µs; firmware then sets fw_ready and the PF hears of it. -/
def Obligations.ImageAppliedAndRun : Prop :=
  (∀ s : State, s.hw.dieState = 3 →
    (s.hw.boot.checked = true → s.hw.boot.applied = false → s.hw.doc = none →
      let b := s.hw.boot.staged
      let d := imageDoc b
      let h0 : Hw := { s.hw with doc := some d, boot := { s.hw.boot with applied := true } }
      let h1 := ((d.partitions.foldl (fun h p => h.putPartition p) (h0.putImage d)).putSlots d).putPower d
      let h2 := (List.range 6).foldl (fun h p => h.modReg .lnkRetryCfg p 0 (setFld · 0 16 (h.topo.replayRtt.getD p 0))) h1
      let h3 := h2.modReg .ancLock 0 0 (· ||| BitVec.ofNat 32 (2 ||| u32 b 0x18 % 128))
      let h4 := h3.modReg .bootErr 0 0 (setFld · ((h3.boot.cur - 1) * 8) 8 1)
      let h5 := (h4.modReg .bootSlot 0 0 (setFld · 4 2 h3.boot.cur)).setReg .bootImageId 0 0 (BitVec.ofNat 32 (u32 b 0x10))
      Completes .imageApply s (fun g =>
        g = h5.modReg .bootStatus 0 0 (fun w => setBit (setFld w 16 8 (u8 b 0x14)) 8 (!bit (h5.reg .fusSecPolicy) 0)) ∧ g.vault = s.hw.vault)) ∧
    (s.hw.boot.applied = true → 1 ≤ s.hw.boot.cur → s.hw.boot.cur ≤ 3 → Completes .applyFault s (fun g =>
      (∀ id i j, id ∈ appliedRegs → g.reg id i j = id.desc.reset) ∧ g.doc = none ∧ g.bnet = {} ∧ g.cnet = {} ∧ g.snet = {} ∧ g.fold = {} ∧
      g.coll = {} ∧ g.mem.flows = [] ∧ g.boot.applied = false ∧ g.boot.checked = false ∧ g.boot.staged = [] ∧
      fld (g.reg .bootErr) (slotErrShift s.hw.boot.cur) 8 = 0x5c ∧ fld (g.reg (slotInfo s.hw.boot.cur)) 16 8 = 0xff ∧
      g.dieState = (if s.hw.boot.order = [] then 4 else 3) ∧ g.vault = s.hw.vault))) ∧
  (∀ s : State,
    (s.hw.boot.scrubbed = false → Completes .warmScrubDone s (fun g =>
      g = { s.hw with boot := { s.hw.boot with scrubbed := true }, mem := { s.hw.mem with slab := [], zeroing := [] } })) ∧
    (s.hw.dieState = 3 → s.hw.boot.applied = true → s.hw.boot.scrubbed = true → Completes .runEntry s (fun g =>
      g.dieState = 5 ∧ fld (g.reg .bootStatus) 0 4 = 8 ∧
      g.reg .bootTime = BitVec.ofNat 32 (min 4294967295 (cdiv (s.hw.now - s.hw.rst.start) 2400)) ∧ g.stw.failed = s.hw.stewardsOut ∧
      (∀ k, k < 4 → s.hw.stewardsOut.testBit k = false → g.stw.active.testBit k = true) ∧
      (∀ p, p < 6 → s.hw.topo.portEnable.testBit p = true → g.linkState p = lsTraining) ∧ bit (g.reg .hstPfEvt) 1 = true ∧
      g.bar = { s.hw.bar with lostBars := 0 } ∧ g.mem = s.hw.mem ∧ g.fuse = s.hw.fuse ∧ g.nvm = s.hw.nvm)) ∧
    (s.hw.dieState = 5 → s.hw.stw.active ≠ 0 → bit (s.hw.reg .bootStatus) 10 = false → Completes .fwReady s (fun g =>
      g = (s.hw.modReg .bootStatus 0 0 (setBit · 10 true)).pfEvent 1)))

/-- R56 to R61, R374: a bar of the running counter ends after the cycles it has left. A source of the downbeat inserts one rest; a follower 1 + e, e
held to −1 to 2 (one while the downbeat is lost), and its remaining error falls by that; a jump goes to its bar with its rests. The command may stop
in a rest cycle, and from there it goes on to the next bar. A command that stops in a rest cycle, and the time it moves, are the model's (log entry
1). R72, R73: at the end of a bar each unmasked tile site that was measured shows its TCLK count, in range or not; a second bar out of range resets
the tile port, sets tclk_range and raises F1 TCLK_RANGE for the partition that holds the site. -/
def Obligations.BarsEnd : Prop :=
  (∀ (s : State) (tclk : List (Tile × BitVec 13)) (lanes : List LaneMeas),
    s.hw.bar.running = true → s.hw.dieState ≠ 7 →
    let left := 4096 - s.hw.bar.phase
    let lost := if s.hw.dieState = 5 ∧ s.hw.isSource = false ∧ s.hw.bar.beatSeen = false then s.hw.bar.lostBars + 1 else 0
    let next (bar : Nat) (b : BarState) : BarState :=
      { b with bar := BitVec.ofNat 48 bar, phase := 0, rest := 0, target := none, beatSeen := false, lostBars := lost }
    let after := (s.hw.bar.bar.toNat + 1) % 2 ^ 48
    (s.hw.bar.rest = 0 → s.hw.bar.target = none →
      (s.hw.isSource = true ∨ s.hw.bar.jumpTo = none →
        let c : Nat := if s.hw.isSource ∨ bit (s.hw.reg .snDbStatus anchorNode) 0 then 1 else (1 + min (max s.hw.bar.e (-1)) 2).toNat
        let b : BarState := { s.hw.bar with c := c, e := if s.hw.isSource then 0 else s.hw.bar.e - ((c : Int) - 1), jumpTo := none }
        Completes (.barBoundary tclk lanes 0) s (fun g => g.bar = next after b ∧ g.now = s.hw.now + left + c) ∧
        (∀ rest : Fin 4, 1 ≤ rest.val → rest.val ≤ c → Completes (.barBoundary tclk lanes rest) s (fun g =>
          g.bar = { b with phase := 4095, rest := rest } ∧ g.now = s.hw.now + left + (rest.val - 1)))) ∧
      (∀ j c, s.hw.isSource = false → s.hw.bar.jumpTo = some (j, c) → Completes (.barBoundary tclk lanes 0) s (fun g =>
        g.bar = next j { s.hw.bar with c := c, e := 0, jumped := true, jumpTo := none } ∧ g.now = s.hw.now + left + c ∧
        bit (g.reg .clkEvt) 17 = true ∧ (s.hw.bar.jumped = true → ∃ n ∈ g.fault.notices, n.f0 = true ∧ n.cause = 0x49)))) ∧
    (s.hw.bar.rest ≠ 0 → ∀ rest, Completes (.barBoundary tclk lanes rest) s (fun g =>
      g.bar = next (s.hw.bar.target.getD after) s.hw.bar ∧ g.now = s.hw.now + (s.hw.bar.c + 1 - s.hw.bar.rest)))) ∧
  (∀ s : State, s.hw.dieState ≠ 7 →
    (∀ tclk lanes rest i n, s.hw.bar.running = true → s.hw.bar.rest = 0 → (tclk.map (·.1)).Nodup → (i, n) ∈ tclk → s.hw.nodeMasked (tileNode i.val) = false →
      Completes (.barBoundary tclk lanes rest) s (fun g =>
        fld (g.reg .nodeTclkMeas (tileNode i.val)) 0 13 = n.toNat ∧
        (bit (g.reg .nodeTclkMeas (tileNode i.val)) 16 = true ↔ 845 ≤ n.toNat ∧ n.toNat ≤ 3447) ∧
        (bit (g.reg .nodeTclkMeas (tileNode i.val)) 17 = true ↔ n = 0#13))) ∧
    (∀ i : Tile, (s.hw.port i.val).tclkBad = 2 → Completes (.tclkOutOfRange i) s (fun g =>
      g = (((s.hw.modReg .clkEvt 0 0 (setBit · 18 true)).tileF1 i.val 0x0a 0).tilePortReset i.val).modPort i.val (fun p => { p with tclkBad := 3 }))))

/-- R370 to R372, R374: the running source sends BEAT at phase 0 of a bar whose number is a multiple of 4; a follower forwards it with its age and
measures its error: up to 16 cycles it is aligned, up to 256 it slips (logged F2), beyond that it will jump. 64 bars without a BEAT set lost. -/
def Obligations.DownbeatMeasured : Prop :=  ∀ s : State, s.hw.dieState ≠ 7 →
  (s.hw.dieState = 5 → s.hw.isSource = true → s.hw.bar.rest = 0 → s.hw.bar.phase = 0 → s.hw.bar.bar.toNat % 4 = 0 → Completes .beatSend s (fun g =>
    g = s.hw.castFrom kBeat 0 (mkWord [(0, 16, s.hw.bar.bar.toNat), (16, 6, s.hw.sysTenant)]) 0#32)) ∧
  (∀ (q : Port) hold hops w0 w1 h, s.hw.isSource = false → s.hw.torusRx q.val [kBeat] = some (kBeat, [w0, w1], h) → fld w0 22 10 = 0 →
    let age := (fld w1 0 24 + fld (h.reg .lnkRtt q.val) 16 16 + hold.toNat) % 2 ^ 24
    let e := s.hw.beatError (fld w0 0 16) age
    Completes (.beatArrival q hold hops) s (fun g =>
      g.bar.e = e ∧ g.bar.beatSeen = true ∧ g.bar.lostBars = 0 ∧ fld (g.reg .snDbStatus anchorNode) 8 5 = hops.toNat ∧
      bit (g.reg .snDbStatus anchorNode) 0 = false ∧ fld (g.reg .snDbStatus anchorNode) 16 16 = 0 ∧
      bit (g.reg .clkStatus) 16 = decide (e.natAbs ≤ 16) ∧
      (e.natAbs ≤ 16 → g.bar.jumpTo = s.hw.bar.jumpTo) ∧
      (16 < e.natAbs → e.natAbs ≤ 256 → g.bar.jumpTo = s.hw.bar.jumpTo ∧ bit (g.reg .clkEvt) 16 = true ∧ bit (g.reg .ancFaultEvt) 1 = true) ∧
      (256 < e.natAbs → ∃ j, g.bar.jumpTo = some j ∧ j.2 < 4096) ∧ g.snet.tx = (h.castOn kBeat w0 (setFld w1 0 24 age)).snet.tx ∧
      g.bar.bar = s.hw.bar.bar ∧ g.bar.phase = s.hw.bar.phase)) ∧
  (s.hw.dieState = 5 → s.hw.isSource = false → 64 ≤ s.hw.bar.lostBars → bit (s.hw.reg .snDbStatus anchorNode) 0 = false →
    Completes .downbeatLost s (fun g => g = (s.hw.modReg .snDbStatus anchorNode 0 (setBit · 0 true)).logF2))

/-- R189, R196 to R198, R203, R208: a write that passes its checks, to a register with no rule of its own and none of whose fields in question is
locked, changes its writable fields; a SET, CLR or TGL view changes its RW fields only; the high word of a 64-bit register goes to the path's
holding register, and the low word takes it along. A write request is its words in ascending order; an ill-formed one is misuse 0x08. -/
def Obligations.RegisterWrites : Prop :=  ∀ (s : State) (p : Path) (r : Reg) (v : Word), r.id.plain = true →
  let old := s.hw.reg r.id r.i r.j
  let h := s.hw.readied p
  let free (w : Word) : Prop := (old ^^^ w) &&& lockedMask r.id (s.hw.reg .ancLock) = 0#32
  let put (w : Word) : Hw := h.setReg r.id r.i r.j w
  (∀ addr d, s.hw.gateOpen p addr.toNat 0 r → r.id.desc.half = .whole → free (merge r.id.desc.wmask old v) →
    Completes (.registerWrite p addr [v] true d) s (fun g => g = put (merge r.id.desc.wmask old v))) ∧
  (∀ addr, s.hw.gateOpen p (aliasAddr p 1 addr.toNat) 1 r → free (old ||| (v &&& r.id.aliasMask)) →
    Completes (.aliasSet p addr v) s (fun g => g = put (old ||| (v &&& r.id.aliasMask)))) ∧
  (∀ addr, s.hw.gateOpen p (aliasAddr p 2 addr.toNat) 2 r → free (old &&& ~~~(v &&& r.id.aliasMask)) →
    Completes (.aliasClr p addr v) s (fun g => g = put (old &&& ~~~(v &&& r.id.aliasMask)))) ∧
  (∀ addr, s.hw.gateOpen p (aliasAddr p 3 addr.toNat) 3 r → free (old ^^^ (v &&& r.id.aliasMask)) →
    Completes (.aliasTgl p addr v) s (fun g => g = put (old ^^^ (v &&& r.id.aliasMask)))) ∧
  (∀ addr, s.hw.gateOpen p addr.toNat 0 r → r.id.desc.half = .hi → Completes (.highWordWrite p addr v) s (fun g =>
    g = h.setPath p { h.path p with hold := sset Reg.lt (s.hw.path p).hold r (v &&& r.id.desc.wmask) 0#32 })) ∧
  (∀ addr, s.hw.gateOpen p addr.toNat 0 r → r.id.desc.half = .lo → lockedMask r.id (s.hw.reg .ancLock) = 0#32 →
    Completes (.lowWordWrite p addr v) s (fun g =>
      g = (put (merge r.id.desc.wmask old v)).setReg r.id.other r.i r.j (sget (s.hw.path p).hold ⟨r.id.other, r.i, r.j⟩ 0#32)))

/-- R189: a write request of several words is its 32-bit writes in ascending address order; one without words, at an address off a word or with a
byte enable clear is not performed and, at a block that answers, logs misuse cause 0x08. R182, R188, R198, R206, R223, R227: of a write that the
host reaches and a block answers, the first of these failures is logged with its cause (0x08 address off a word, 0x03 no register, 0x02 not
permitted, 0x04 nothing to write there, 0x0A another path's register), and no register but those of the log changes (BOOT_PROG_STATUS.denied
besides, for BOOT_PROG_CTL). -/
def Obligations.WriteRequestsAndRefusals : Prop :=
  (∀ (s : State) (p : Path) (addr : BitVec 28) (d : NvmDevice),
    (∀ v vs, addr.toNat % 4 = 0 → vs.length < 16 → Completes (.registerWrite p addr (v :: vs) true d) s (fun g =>
      g = (s.hw.busWrite p addr.toNat v d).writeWords p (addr.toNat + 4) d vs)) ∧
    (∀ data en, (en = false ∨ addr.toNat % 4 ≠ 0 ∨ data = []) → s.hw.hostReaches p = true → s.hw.answers p (s.hw.resolve p addr.toNat).2.1 = true →
      Completes (.registerWrite p addr data en d) s (fun g =>
        fld (g.reg .ancMisuseEvt) 0 6 = (if fld (s.hw.reg .ancMisuseEvt) 24 8 = 0 then 0x28 else fld (s.hw.reg .ancMisuseEvt) 0 6) ∧
        bit (g.reg .ancFaultEvt) 2 = true ∧ (∀ id i j, id ≠ .ancMisuseEvt → id ≠ .ancFaultEvt → g.reg id i j = s.hw.reg id i j) ∧
        g.vault = s.hw.vault))) ∧
  (∀ (s : State) (p : Path) (addr : BitVec 28) (v : Word),
    (s.hw.path p).idxRead = none → s.hw.hostReaches p = true →
    let x := s.hw.resolve p addr.toNat
    s.hw.answers p x.2.1 = true →
    let may (r : Reg) : Bool := s.hw.mayWrite p (regionOf x.2.1) (r.id.desc.access == .cpl || r.id.desc.access == .grd)
    let nothing (r : Reg) : Bool := !r.id.writable || (x.1 != 0 && r.id.aliasMask == 0#32)
    let refused (cause : Nat) : Prop := Completes (.lowWordWrite p addr v) s (fun g =>
      (fld (s.hw.reg .ancMisuseEvt) 24 8 = 0 → fld (g.reg .ancMisuseEvt) 0 5 = cause ∧ bit (g.reg .ancMisuseEvt) 5 = true ∧
        fld (g.reg .ancMisuseEvt) 16 8 = pathCode p ∧ fld (g.reg .ancMisuseEvt) 24 8 = 1) ∧ bit (g.reg .ancFaultEvt) 2 = true ∧
      (∀ id i j, id ≠ .ancMisuseEvt → id ≠ .ancFaultEvt → id ≠ .bootProgStatus → g.reg id i j = s.hw.reg id i j) ∧ g.vault = s.hw.vault)
    (addr.toNat % 4 ≠ 0 → refused 8) ∧
    (addr.toNat % 4 = 0 →
      (x.2.2 = .none → refused 3) ∧
      (∀ r, x.2.2 = .reg r → may r = false → refused 2) ∧
      (∀ r, x.2.2 = .reg r → may r = true → nothing r = true → refused 4) ∧
      (∀ r, x.2.2 = .reg r → may r = true → nothing r = false → writerOk r.id.desc.writers p r.i = false → refused 10)))

/-- R87, R194, R202, R223: a read that passes its checks answers the register's value; an event register then reads 0, ANC_MISUSE_EVT latches the
address of the reported misuse for its reader, the low word of a 64-bit register latches the high word, and CLK_BAR_LO bits 47 to 32 of the bar.
R204, R205: take copies every counter into its holding bank at once; seq advances and the time of the snapshot stands beside it. -/
def Obligations.ReadsAndSnapshots : Prop :=
  (∀ (s : State) (p : Path),
    let first : Hw := s.hw.setPath p { s.hw.path p with earlier := [] }
    (∀ addr r, s.hw.readOpen p addr.toNat r → r.id.desc.access = .rc → r.id ≠ .idxEvt → r.id ≠ .ancMisuseEvt →
      Completes (.evtRead p addr 4#7 true) s (fun g => g = (first.setReg r.id r.i r.j 0#32).answer p (s.hw.reg r.id r.i r.j))) ∧
    (∀ addr r, s.hw.readOpen p addr.toNat r → r.id.desc.access ≠ .rc → r.id.desc.half = .whole → r.id ∉ idxRegs →
      Completes (.evtRead p addr 4#7 true) s (fun g => g = first.answer p (s.hw.value p r))) ∧
    (∀ addr len, addr.toNat % 4 = 0 → len.toNat % 4 = 0 → 4 ≤ len.toNat → len.toNat ≤ 64 → Completes (.evtRead p addr len true) s (fun g =>
      g = (List.range (len.toNat / 4)).foldl (fun h k => (h.keepAnswer p k).busRead p (addr.toNat + 4 * k)) s.hw)) ∧
    (∀ r, r = ⟨RegId.ancMisuseEvt, 0, 0⟩ → s.hw.readOpen p (pathAddr p r.addr) r → Completes (.misuseEvtRead p) s (fun g =>
      let h := s.hw.setReg .ancMisuseEvt 0 0 0#32
      g = (h.setPath p { s.hw.path p with misuseAddr := if fld (s.hw.reg .ancMisuseEvt) 24 8 = 0 then 0#32 else s.hw.fault.misuseAt }).answer p
        (s.hw.reg .ancMisuseEvt))) ∧
    (∀ addr r, s.hw.readOpen p addr.toNat r → r.id.desc.half = .lo → r.id.desc.access ≠ .rc → r.id ≠ .clkBarLo → Completes (.lowWordRead p addr) s (fun g =>
      g = (s.hw.setPath p { s.hw.path p with hold := sset Reg.lt (s.hw.path p).hold ⟨r.id.other, r.i, r.j⟩ (s.hw.highWord r) 0#32 }).answer p
        (s.hw.value p r))) ∧
    (s.hw.readOpen p (pathAddr p (Reg.addr ⟨.clkBarLo, 0, 0⟩)) ⟨.clkBarLo, 0, 0⟩ → Completes (.clkBarLoRead p) s (fun g =>
      g = (s.hw.setPath p { s.hw.path p with barHi := BitVec.ofNat 32 (s.hw.bar.bar.toNat / 2 ^ 32) }).answer p (BitVec.ofNat 32 s.hw.bar.bar.toNat)))) ∧
  (∀ (s : State) (p : Path), s.hw.writeOpen p ⟨.ancSnapshot, 0, 0⟩ → Completes (.snapshot p) s (fun g =>
    g.banks = s.hw.regs.filter (fun e => e.1.id.isCounter) ∧ fld (g.reg .ancSnapStatus) 16 16 = (fld (s.hw.reg .ancSnapStatus) 16 16 + 1) % 2 ^ 16 ∧
    fld (g.reg .ancSnapStatus) 0 12 = s.hw.stamp.2 % 4096 ∧ g.reg .ancSnapBar = BitVec.ofNat 32 s.hw.stamp.1 ∧
    (∀ id i j, id ≠ .ancSnapStatus → id ≠ .ancSnapBar → id ≠ .tpCond → id ≠ .pmcTcStatus → g.reg id i j = s.hw.reg id i j) ∧ g.vault = s.hw.vault))

/-- R216 to R221: an IDX_DATA access that passes its checks is held (a read) or posted (a write) for the far register that IDX_ADDR names, and the
offset advances where IDX_CTL says so; then the far write is performed or the far value answers the read, or after 1 µs the access is given up. That
a time limit acts when its command comes is the model's (log entry 20). -/
def Obligations.IndirectAccesses : Prop :=  ∀ (s : State) (p : Path),
  let data : Reg := ⟨.idxData, 0, 0⟩
  let q (h : Hw) : PathState := h.path p
  (∀ r, s.hw.readOpen p (pathAddr p idxDataAddr) data → (s.hw.idxFarWriteDone p).idxCheck p false = .ok r → Completes (.idxDataRead p) s (fun g =>
    let h := s.hw.idxFarWriteDone p
    g = (h.setPath p { q h with idxRead := some (q h).idxAddr.toNat }).idxAdvance p)) ∧
  (∀ v r, s.hw.writeOpen p data → ((s.hw.readied p).idxFarWriteDone p).idxCheck p true = .ok r → Completes (.idxDataWrite p v) s (fun g =>
    let h := (s.hw.readied p).idxFarWriteDone p
    g = (h.setPath p { q h with idxWrite := some ((q h).idxAddr.toNat, v) }).idxAdvance p)) ∧
  (s.hw.dieState ≠ 7 →
    (∀ a v r, (q s.hw).idxWrite = some (a, v) → findFar (a / 2 ^ 20 % 16) (a / 2 ^ 12 % 256) (a % 2 ^ 12) = some r → r.id.writable = true →
      let old := s.hw.reg r.id r.i r.j
      let w := merge r.id.desc.wmask old v
      (old ^^^ w) &&& lockedMask r.id (s.hw.reg .ancLock) = 0#32 → Completes (.idxFarWriteDone p) s (fun g =>
        g = (s.hw.setPath p { q s.hw with idxWrite := none }).phyRegWrite p idxDataAddr r v w)) ∧
    (∀ a r, (q s.hw).idxRead = some a → findFar (a / 2 ^ 20 % 16) (a / 2 ^ 12 % 256) (a % 2 ^ 12) = some r → Completes (.idxFarReadDone p) s (fun g =>
      let h := s.hw.setPath p { q s.hw with idxRead := none }
      g = (h.readEffect p r).answer p (h.value p r)))) ∧
  (∀ a, (q s.hw).idxRead = some a → Completes (.idxFarTimeout p) s (fun g =>
    g = (s.hw.setPath p { q s.hw with idxRead := none, idxEvt := setBit (q s.hw).idxEvt 1 true }).answer p 0xFFFFFFFF#32)) ∧
  (∀ x, (q s.hw).idxRead = none → (q s.hw).idxWrite = some x → Completes (.idxFarTimeout p) s (fun g =>
    g = s.hw.setPath p { q s.hw with idxWrite := none, idxEvt := setBit (q s.hw).idxEvt 1 true }))

/-- R242, R256 to R258, R267, R277: the slot that a node grants spends a token and injects its oldest flit, stamped with the slot's owner, VC and
route, the deadline bar time + bound (its own base + bound where it came through a torus port) and the next seq; its injectors then go on. -/
def Obligations.FlitsInjected : Prop :=  ∀ (s : State) (n : Node), s.hw.dieState ≠ 7 →
  (∀ k f rest, s.hw.grantSlot (s.hw.gated n.val) n.val = some k → s.hw.waiting n.val k = f :: rest →
    let x := s.hw.stampFlit n.val k f
    let st := s.hw.reg .bnFlowState n.val k
    let a := (s.hw.setWaiting n.val k rest).setReg .bnFlowState n.val k (setFld (setFld st 0 13 (fld st 0 13 - 1)) 13 7 (fld st 13 7 + 1))
    let b : Hw := { a with bnet := { a.bnet with slotRr := nset a.bnet.slotRr (n.val * 8 + x.vc) (k + 1) 0 } }
    let c := (b.setBq n.val 0 x.vc (b.bq n.val 0 x.vc ++ [x])).pumpNode n.val
    Completes (.flitInject n) s (fun g => g = if nodeClass n.val = 0 then c.pumpFi (nodeInst n.val) else c) ∧
    x.flow = f.flow ∧ x.tenant = s.hw.slotTenant n.val k ∧ x.gen = s.hw.slotGen n.val k ∧ x.vc = fld (s.hw.reg .bnFlowRate n.val k) 13 3 ∧
    x.seq = fld st 13 7 ∧ x.route = fld (s.hw.reg .bnFlowRate n.val k) 16 12 ∧ x.last = f.last ∧ x.poison = f.poison ∧ x.data = f.data ∧
    x.deadline = ((if f.remote then f.deadline else s.hw.barTime) + fld (s.hw.reg .bnFlowBound n.val k) 0 24) % 2 ^ 25)

/-- R239, R243 to R246, R252, R255, R269, R279 to R282: an output serves the head flit that arbitration chooses: its copy crosses to the neighbour's
queue against a credit, with the effect of what the receiver's codes report; an error in the router itself is F0 ROUTER, and nothing moves. -/
def Obligations.FlitHops : Prop :=  ∀ (s : State) (n : Node) (out : Fin 5), s.hw.dieState ≠ 7 →
  Completes (.flitHop n out .router) s (fun g => g = s.hw.raiseF0 0x45 n.val 0) ∧
  (∀ m port vc f rest err, neighbour n.val out.val = some m → err ≠ .router →
    let h := s.hw.bCleanAll n.val
    h.arbitrate n.val out.val (fun _ vc _ => h.bUsed (qKey m (facing out.val) vc) < 8) = some (port, vc) → h.bq n.val port vc = f :: rest →
    let h' := (h.arbitrated n.val out.val port vc).bTook n.val port vc out.val
    let far := facing out.val
    let k := qKey m far vc
    let c := h'.setBUsed k (h'.bUsed k + 1)
    let keep (f : Flit) : Hw := c.setBq m far vc (c.bq m far vc ++ [{ f with left := 0 }])
    Completes (.flitHop n out err) s (fun g => g = (match err with
      | .ok | .router => keep f
      | .corrected => ((keep f).modReg .bnEccEvt m 0 (bumpFld · 0 16 1)).logF2
      | .payload => ((keep f.setPoison).modReg .bnEccEvt m 0 (bumpFld · 16 8 1)).linkError 0 .bnLinkEc m (far - 1)
      | .tag => ((((c.modReg .bnEccEvt m 0 (bumpFld · 24 8 1)).bDrop m 8 f.flow).setBOwed k (c.bOwed k + 1)).raiseF0 0x40 m 0).linkError 0
          .bnLinkEc m (far - 1)
      | .credit => ((c.modReg .bnEccEvt m 0 (bumpFld · 24 8 1)).raiseF0 0x40 m 0).linkError 0 .bnLinkEc m (far - 1)).act n.val out.val)) ∧
  (∀ (m : Node) (port : Fin 5) (vc : Fin 8), let k := qKey m.val port.val vc.val
    s.hw.bOwed k ≠ 0 → Completes (.bnetCreditReturn m port vc) s (fun g => g = (s.hw.setBOwed k (s.hw.bOwed k - 1)).setBUsed k (s.hw.bUsed k - 1)))

/-- R264, R265, R277: a sink serves the head flit that arbitration chooses: one that passes the checks of R265 is delivered and its seq expected no
more, one that fails them is dropped with its cause; the check that decides is the first that fails, in the order of the rule. R26, R268 to R270: a
flit at the head of a queue that has reached its deadline is dropped and logged in BN_LATE_EVT; the first of its flow and generation marks its
source slot and raises the fault, F1 for its tenant or F0 DIE_FLOW for a die flow. -/
def Obligations.FlitsSunkOrLate : Prop :=
  (∀ (s : State) (n : Node), s.hw.dieState ≠ 7 →
    let h := s.hw.bCleanAll n.val
    (∀ port vc f rest, h.arbitrate n.val 0 (fun _ _ f => h.sinkReady n.val f) = some (port, vc) → h.bq n.val port vc = f :: rest →
      let h' := ((h.arbitrated n.val 0 port vc).bTook n.val port vc 0).act n.val 0
      (∀ k, h.sinkCheck n.val f = (0, some k) → Completes (.flitSinkDelivery n false) s (fun g =>
        g = (h'.setSinkSeq n.val k (f.seq + 1)).deliver n.val f)) ∧
      (∀ ue, (h.sinkCheck n.val f).1 ≠ 0 → Completes (.flitSinkDelivery n ue) s (fun g =>
        g = h'.sinkChecked n.val f (h.sinkCheck n.val f).1 (h.sinkCheck n.val f).2)) ∧
      (∀ k pg, h.sinkCheck n.val f = (0, some k) → h'.sinkPage n.val f = some pg → Completes (.flitSinkDelivery n true) s (fun g =>
        g = (h'.slabUe pg).sinkChecked n.val f 7 (some k)))) ∧
    (∀ f k, s.hw.flowSlot n.val f.flow = some k →
      let cfg := s.hw.reg .bnFlowCfg n.val k
      (s.hw.sinkCheck n.val f).1 = (if bit cfg 15 = false then 1 else if f.tenant ≠ fld cfg 16 6 then 2 else if f.gen ≠ fld cfg 22 10 then 3
        else if f.seq ≠ s.hw.sinkSeq n.val k then 5 else if s.hw.isLate f.deadline then 6
        else if f.poison = true ∧ s.hw.memRelays f = false then 7 else 0)) ∧
    (∀ f, s.hw.flowSlot n.val f.flow = none → s.hw.sinkCheck n.val f = (1, none))) ∧
  (∀ (s : State) (n : Node) (f : Flit), s.hw.dieState ≠ 7 → s.hw.isLate f.deadline = true →
    (∀ (port : Fin 6) (vc : BitVec 13), port ≠ 5 → (s.hw.bq n.val port.val vc.toNat).head? = some f →
      Completes (.flitLate n port vc) s (fun g => g = (s.hw.bLate n.val f).bPop n.val port.val vc.toNat)) ∧
    (∀ flow : BitVec 13, s.hw.foldHead n.val 0 flow.toNat = some f →
      Completes (.flitLate n 5 flow) s (fun g => g = (s.hw.bLate n.val f).foldPop n.val 0 flow.toNat)) ∧
    ((f.flow, f.gen) ∉ s.hw.bnet.lateSeen → ∃ x ∈ (s.hw.bLate n.val f).fault.notices,
      x.node = n.val ∧ (f.gen ≠ 0 → x.f0 = false ∧ x.tenant = f.tenant ∧ x.gen = f.gen ∧ x.cause = 1) ∧ (f.gen = 0 → x.f0 = true ∧ x.cause = 0x43)) ∧
    ((f.flow, f.gen) ∈ s.hw.bnet.lateSeen → (s.hw.bLate n.val f).fault.notices = s.hw.fault.notices))

/-- R248, R250, R261, R262, R278, R285: a target that differs from the active phase starts a switch, which the end of its gap bar completes; setting
valid makes a free slot live with its seq, tokens and flags at 0, and a live slot's fields stay. -/
def Obligations.FlowsAndPhases : Prop :=  ∀ s : State,
  (∀ p e v, e ≠ 0#12 → s.hw.writeOpen p ⟨.bnPhase, anchorNode, e.toNat⟩ → s.hw.phaseStage e.toNat = 0 →
    fld (s.hw.reg .bnPhase anchorNode e.toNat) 8 8 ≠ fld v 0 8 → Completes (.phaseTargetWrite p e v) s (fun g =>
      fld (g.reg .bnPhase anchorNode e.toNat) 0 8 = fld v 0 8 ∧
      fld (g.reg .bnPhase anchorNode e.toNat) 8 8 = fld (s.hw.reg .bnPhase anchorNode e.toNat) 8 8 ∧
      bit (g.reg .bnPhase anchorNode e.toNat) 16 = true ∧ g.phaseStage e.toNat = (if s.hw.bar.rest = 0 then 2 else 3) ∧
      (∀ id i j, (id, i, j) ≠ (.bnPhase, anchorNode, e.toNat) → g.reg id i j = s.hw.reg id i j) ∧ g.vault = s.hw.vault)) ∧
  (∀ e, s.hw.dieState ≠ 7 → s.hw.phaseStage e.toNat = 1 → Completes (.phaseSwitch e) s (fun g =>
    g = (s.hw.setPhaseStage e.toNat 0).modReg .bnPhase anchorNode e.toNat (fun w => setBit (setFld w 8 8 (fld w 0 8)) 16 false))) ∧
  (∀ p n k v, s.hw.writeOpen p ⟨.bnFlowCfg, n.val, k.toNat⟩ →
    let old := s.hw.reg .bnFlowCfg n.val k.toNat
    let w := merge (RegId.desc .bnFlowCfg).wmask old v
    let key := n.val * 512 + k.toNat
    (bit old 13 = false → bit w 13 = true → Completes (.flowSlotEnable p n k v) s (fun g =>
      let h := ((s.hw.readied p).setReg .bnFlowCfg n.val k.toNat w).setReg .bnFlowState n.val k.toNat 0#32
      g = { h with bnet := { h.bnet with linkSeq := serase h.bnet.linkSeq key, sinkSeq := serase h.bnet.sinkSeq key
                                         lateSeen := h.bnet.lateSeen.filter (fun x => x.1 != fld w 0 13) } })) ∧
    (bit old 13 = true → Completes (.flowSlotEnable p n k v) s (fun g =>
      g = (s.hw.readied p).setReg .bnFlowCfg n.val k.toNat (setBit old 13 (bit w 13)))) ∧
    (bit old 13 = false → bit w 13 = false → Completes (.flowSlotEnable p n k v) s (fun g =>
      g = (s.hw.readied p).setReg .bnFlowCfg n.val k.toNat w)))

/-- R302, R305, R306, R308, R319: a send by the owner of a valid channel's source takes a credit and the next sequence number and enters the
network; without a credit a blocking channel's send waits and a posting one gets CH_FULL; at another endpoint it is dropped with cause 1. R304,
R305, R307, R308, R312, R319, R320: the oldest credit packet of a channel that crosses unhurt and passes the checks adds its credits, and stalled
sends are accepted; the oldest message that crosses and has the next seq is enqueued in a free slot, and rings its endpoint's bell as the channel
passes its bell level. A message out of sequence, beyond the depth or poisoned is dropped with cause 4, 5 or 6 and its fault. -/
def Obligations.ChannelMessages : Prop :=
  (∀ (s : State) (n : Node) (k : BitVec 4) (c : BitVec 12) (data : BitVec 512),
    s.hw.dieState ≠ 7 → hasEndpoints n.val = true →
    let ch := c.toNat
    let mine : Prop := s.hw.chValid ch = true ∧ s.hw.chSrc ch = (n.val, k.toNat) ∧ ∀ t, s.hw.agentTenant n.val = some t → t = s.hw.chTenant ch
    let answered (h : Hw) (r : AgentResp) : Prop := Completes (.channelSend n k c data) s (fun g => g = h.setResp n.val k.toNat r)
    (mine → s.hw.chStalled ch = [] → 0 < s.hw.chCredits ch → s.hw.chFenced ch = false →
      let w := s.hw.reg .chSeq ch
      let pkt := mkCPkt ccMsg n.val (s.hw.chDst ch).1 (s.hw.chTenant ch) (s.hw.chGen ch) ch (fld w 0 8) data
      answered (((s.hw.cSend pkt).setReg .chSeq ch 0 (setFld w 0 8 (fld w 0 8 + 1))).chUpdate ch (s.hw.chOcc ch) (s.hw.chCredits ch - 1)) .accepted) ∧
    (mine → s.hw.chStalled ch ≠ [] ∨ s.hw.chCredits ch = 0 ∨ s.hw.chFenced ch = true →
      (s.hw.chBlocking ch = true ∨ s.hw.chFenced ch = true → 
        let q := nset s.hw.cnet.stalled ch (s.hw.chStalled ch ++ [⟨data, none⟩]) []
        answered (({ s.hw with cnet := { s.hw.cnet with stalled := q } }).setChStatus ch (s.hw.chOcc ch) (s.hw.chCredits ch) true) .stalled) ∧
      (s.hw.chBlocking ch = false → s.hw.chFenced ch = false → answered (s.hw.modReg .chEvt ch 0 (bumpFld · 24 8 1)) .chFull)) ∧
    (s.hw.chValid ch = false ∨ s.hw.chSrc ch ≠ (n.val, k.toNat) → answered (s.hw.cDrop n.val 1 ch) .dropped)) ∧
  (∀ (s : State) (c : BitVec 12) (errs : List CErr) (crossed : Bool), s.hw.dieState ≠ 7 →
    let ch := c.toNat
    let ours (h : Hw) (p : CPkt) (e : Nat × Nat) : Prop :=
      p.chan = ch ∧ h.chValid ch = true ∧ e.1 = p.dst ∧ p.tenant = h.chTenant ch ∧ p.gen = h.chGen ch
    (∀ p h q h', s.hw.cTake ccCredit ch = some (p, h) → h.cCross p errs crossed = (h', some q) → ours h' q (h'.chSrc ch) →
      (h'.chCredits ch + q.seq + 1 ≤ h'.chDepth ch → Completes (.channelCreditArrival c errs crossed) s (fun g =>
        g = (h'.chUpdate ch (h'.chOcc ch) (h'.chCredits ch + q.seq + 1)).unstall ch (h'.chStalled ch).length)) ∧
      (h'.chDepth ch < h'.chCredits ch + q.seq + 1 → h'.chStalled ch = [] → Completes (.channelCreditArrival c errs crossed) s (fun g =>
        g = (h'.cDrop q.dst 5 ch).chFault ch 4 q.dst))) ∧
    (∀ p h q h', s.hw.cTake ccMsg ch = some (p, h) → h.cCross p errs crossed = (h', some q) → ours h' q (h'.chDst ch) →
      let n := q.dst
      let w := h'.reg .chSeq ch
      let b := h'.setReg .chSeq ch 0 (setFld w 8 8 (q.seq + 1))
      let occ := h'.chOcc ch + 1
      let stored := ((({ b with cnet := { b.cnet with fifos := nset b.cnet.fifos ch (b.chFifo ch ++ [q.data]) [] } }).chUpdate ch occ
        (h'.chCredits ch)).chCount .chMsgCntLo .chMsgCntHi ch 1).modReg .chStore n 0 (fun x => setFld x 16 11 (fld x 16 11 + 1))
      let drops (cause fault : Nat) : Prop := Completes (.channelMsgArrival c errs crossed) s (fun g => g = (b.cDrop n cause ch).chFault ch fault n)
      (q.seq = fld w 8 8 → occ ≤ h'.chDepth ch → q.poison = false → Completes (.channelMsgArrival c errs crossed) s (fun g =>
        g = if bit (h'.reg .chCfg ch) 13 = true ∧ occ = fld (h'.reg .chCfg ch) 0 8 + 1 then stored.ringBell n (2 ^ (h'.chDst ch).2) else stored)) ∧
      (q.seq ≠ fld w 8 8 → drops 4 2) ∧ (q.seq = fld w 8 8 → h'.chDepth ch < occ → drops 5 4) ∧
      (q.seq = fld w 8 8 → occ ≤ h'.chDepth ch → q.poison = true → drops 6 3)) ∧
    (∀ p (h : Hw), h.cCross p [] true = (h, some p)))

/-- R302, R303, R307, R309: a dequeue at the destination takes the oldest message whole, frees its slot and returns a credit, in a packet of its own
or with one of the channel that has not left; an empty channel answers empty, another endpoint's dequeue nothing. R297, R301, R308, R323, R324: a
free channel with a legal depth, whose destination ranks above its source if it blocks, becomes valid with its sequence numbers at 0 and its credits
equal to its depth, and reserves its slots; clearing valid discards its messages and stalled sends and releases the slots. -/
def Obligations.ChannelEnds : Prop :=
  (∀ (s : State) (n : Node) (k : BitVec 4) (c : BitVec 12) (merge : Bool),
    s.hw.dieState ≠ 7 → hasEndpoints n.val = true →
    let ch := c.toNat
    let here : Prop := s.hw.chValid ch = true ∧ s.hw.chDst ch = (n.val, k.toNat)
    (∀ m rest, here → s.hw.chFifo ch = m :: rest →
      let a := ({ s.hw with cnet := { s.hw.cnet with fifos := nset s.hw.cnet.fifos ch rest [] } }).chUpdate ch (s.hw.chOcc ch - 1) (s.hw.chCredits ch)
      let b := a.modReg .chStore n.val 0 (fun w => setFld w 16 11 (fld w 16 11 - 1))
      let credit := mkCPkt ccCredit n.val (s.hw.chSrc ch).1 (s.hw.chTenant ch) (s.hw.chGen ch) ch 0 0
      (merge = false ∨ b.cTake ccCredit ch = none → Completes (.channelDequeue n k c merge) s (fun g =>
        g = (b.cSend credit).setResp n.val k.toNat (.message m))) ∧
      (∀ p h, merge = true → b.cTake ccCredit ch = some (p, h) → p.seq < 255 → Completes (.channelDequeue n k c merge) s (fun g =>
        g = (h.cSend { p with tag := setFld p.tag 48 8 (p.seq + 1) }).setResp n.val k.toNat (.message m)))) ∧
    (here → s.hw.chFifo ch = [] → Completes (.channelDequeue n k c merge) s (fun g => g = s.hw.setResp n.val k.toNat .empty)) ∧
    (¬ here → Completes (.channelDequeue n k c merge) s (fun g => g = s.hw.setResp n.val k.toNat .dropped))) ∧
  (∀ (s : State) (p : Path) (c : BitVec 12) (v : Word), s.hw.writeOpen p ⟨.chCfg, c.toNat, 0⟩ →
    let ch := c.toNat
    let h := s.hw.readied p
    let old := s.hw.reg .chCfg ch
    let mask := (RegId.desc .chCfg).wmask
    let on := merge mask old (setBit v 15 true)
    let depth := 2 ^ fld on 8 4
    (s.hw.chValid ch = false → bit on 15 = true → 2 ≤ fld on 8 4 → fld on 8 4 ≤ 8 →
      (bit on 14 = true → s.hw.rank (s.hw.chSrc ch) < s.hw.rank (s.hw.chDst ch)) → Completes (.channelEnable p c v) s (fun g =>
        let a := (h.setReg .chCfg ch 0 on).setReg .chSeq ch 0 0#32
        let b : Hw := { a with cnet := { a.cnet with fifos := nset a.cnet.fifos ch [] [], stalled := nset a.cnet.stalled ch [] [] } }
        g = (b.setChStatus ch 0 depth false).modReg .chStore (s.hw.chDst ch).1 0 (fun x => setFld x 0 11 (fld x 0 11 + depth)))) ∧
    (s.hw.chValid ch = true → let off := merge mask old (setBit v 15 false)
      bit off 15 = false → (old ^^^ off) &&& 0xFFFF7FFF#32 = 0#32 → Completes (.channelDisable p c v) s (fun g =>
        let a := h.modReg .chCfg ch 0 (setBit · 15 false)
        let b : Hw := { a with cnet := { a.cnet with fifos := nset a.cnet.fifos ch [] [], stalled := nset a.cnet.stalled ch [] [] } }
        g = (b.setReg .chStatus ch 0 0x8000000#32).modReg .chStore (s.hw.chDst ch).1 0
          (fun x => setFld (setFld x 0 11 (fld x 0 11 - s.hw.chDepth ch)) 16 11 (fld x 16 11 - (s.hw.chFifo ch).length)))))

/-- R311 to R315: a W1C write clears bells, and those whose channels still hold more than bell_level messages ring again; a steward's write of
NODE_BELL_RING sets die bells. Bells that ring at the H node request vectors besides. R316 to R318: a register request that crosses unhurt is
performed at its block for its path, at most 16 of a path under way and no read behind a write; its answer travels back, and completes the path's
access with the word and the access-fault. That the access is performed as the request arrives is the model's (log entry 24). -/
def Obligations.BellsAndRegisterPackets : Prop :=
  (∀ (s : State) (p : Path) (n : Node) (v : Word),
    (s.hw.writeOpen p ⟨.nodeBell, n.val, 0⟩ → Completes (.nodeBellClear p n v) s (fun g =>
      (∀ k, k < 16 → (bit (g.reg .nodeBell n.val) k = true ↔
        (bit (s.hw.reg .nodeBell n.val) k = true ∧ bit v k = false) ∨ (bit v k = true ∧ s.hw.bellDue n.val k = true))) ∧
      (∀ k, 16 ≤ k → k < 24 → bit (g.reg .nodeBell n.val) k = (bit (s.hw.reg .nodeBell n.val) k && !bit v k)) ∧
      (∀ id i j, (id, i, j) ≠ (.nodeBell, n.val, 0) → g.reg id i j = s.hw.reg id i j) ∧ g.vault = s.hw.vault)) ∧
    (s.hw.writeOpen p ⟨.nodeBellRing, n.val, 0⟩ → Completes (.bellRing p n v) s (fun g =>
      g.reg .nodeBell n.val = s.hw.reg .nodeBell n.val ||| (v &&& 0xFF0000#32) ∧
      (∀ id i j, (id, i, j) ≠ (.nodeBell, n.val, 0) → g.reg id i j = s.hw.reg id i j) ∧ g.vault = s.hw.vault))) ∧
  (∀ (s : State) (p : Path), s.hw.dieState ≠ 7 →
    (∀ addr write crossed,
      let mine := s.hw.cnet.regRsp.filter (fun x => x.1.path == pathCode p)
      let far := blockNode (s.hw.resolve p addr.toNat).2.1
      mine.length < 16 → (write = none → ∀ x ∈ mine, x.1.write = false) →
      crossed = true ∨ (∀ l ∈ defaultLinks (entryNode p) far, (s.hw.linksUp 1 l.1).testBit (l.2 - 1) = true) →
      Completes (.regRequest p addr write [] crossed) s (fun g =>
        let a := match write with
          | some v => s.hw.busWrite p addr.toNat v noDevice
          | none => s.hw.busRead p addr.toNat
        g.regs = a.regs ∧ g.vault = a.vault ∧ (g.path p).resp = (s.hw.path p).resp ∧ (g.path p).accessFault = (s.hw.path p).accessFault ∧
        ∃ req, g.cnet.regRsp = a.cnet.regRsp ++ [(req, if write.isSome then 0#32 else (a.path p).resp, (a.path p).accessFault)] ∧
          req.path = pathCode p ∧ req.write = write.isSome ∧ req.addr = addr.toNat ∧ req.data = write.getD 0#32)) ∧
    (∀ req w fault rest, takeFirst (fun x : RegReq × Word × Bool => x.1.path == pathCode p) s.hw.cnet.regRsp = some ((req, w, fault), rest) →
      Completes (.regResponse p [] true) s (fun g =>
        g = ({ s.hw with cnet := { s.hw.cnet with regRsp := rest } }).setPath p
          { s.hw.path p with resp := if req.write then (s.hw.path p).resp else w, accessFault := fault })))

/-- R337, R339, R340, R358: a waiting contribution that passes the checks of its tile node, unfenced, waits as an UP packet at the local input of
its tree; one of a SYNC that fails them is dropped with its cause, and the SYNC answered with BAD_ARG for a wrong length, else BAD_SYNC. R351 to
R353, R378: a ring partial that passes its checks is kept, and added once this module's own value waits for it; a DOWN packet of the ring ends the
round here. Clearing valid of a sync discards every packet and count of its ID. -/
def Obligations.SyncContributions : Prop :=
  (∀ (s : State) (i : Tile) (k : BitVec 9), s.hw.dieState ≠ 7 →
    let n := tileNode i.val
    let id := k.toNat
    let cfg := s.hw.syncCfg id
    let pkt (ws : List Word) : SPkt := { s.hw.syncPkt id ws with tenant := s.hw.tileTenant i.val, gen := s.hw.tileGen i.val }
    let check (ws : List Word) : Nat := s.hw.sCheck (pkt ws) (fld (s.hw.syncStatus id) 0 8)
    s.hw.fenced (fld cfg 16 6) (fld cfg 22 10) = false →
    (∀ x, (s.hw.port i.val).syncs.find? (fun x => x.sync == id) = some x → x.sent = false →
      (check x.words = 0 → (s.hw.joinByte n id).testBit 0 = true → s.hw.upAt n 0 id = none → Completes (.syncContribute i k) s (fun g =>
        g = ((s.hw.setUp n 0 id (pkt x.words)).act n 11).modPort i.val (fun p => { p with
          syncs := p.syncs.map (fun y => if y.tag = x.tag then { y with sent := true } else y) }))) ∧
      (check x.words ≠ 0 → Completes (.syncContribute i k) s (fun g =>
        g = ((s.hw.sFail n (check x.words) (pkt x.words)).modPort i.val (fun p => { p with syncs := p.syncs.filter (fun y => y.tag != x.tag) })).finish
          i.val x.tag (if check x.words = 5 then scBadArg else scBadSync) [] 0))) ∧
    (∀ c, (s.hw.port i.val).syncs.find? (fun x => x.sync == id) = none →
      (s.hw.port i.val).ccx.find? (fun c => c.phase == 1 && !c.sentW && s.hw.countSyncOf i.val c == some id) = some c →
      check (s.hw.countLanes i.val c) = 0 → (s.hw.joinByte n id).testBit 0 = true → s.hw.upAt n 0 id = none →
      Completes (.syncContribute i k) s (fun g =>
        g = ((s.hw.setUp n 0 id (pkt (s.hw.countLanes i.val c))).act n 11).modCcx i.val c.id (fun c => { c with sentW := true })))) ∧
  (∀ s : State,
    (∀ (q : Port) kind ws h p, s.hw.dieState ≠ 7 → s.hw.torusRx q.val [kUp, kDown] = some (kind, ws, h) → SPkt.ofWords ws = some p →
      bit (h.syncCfg p.sync) 15 = true → p.tenant = fld (h.syncCfg p.sync) 16 6 → p.gen = fld (h.syncCfg p.sync) 22 10 →
      p.words.length = h.syncWords p.sync →
      let kept := { h with snet := { h.snet with partials := sinsert nlt h.snet.partials (q.val * 512 + p.sync) p } }
      let turn := kept.snet.torus.find? (fun r => r.pkt.sync == p.sync)
      (kind = kUp → (h.ringRole q.val p.sync).testBit 1 = true → h.partialAt q.val p.sync = none →
        (turn = none → Completes (.ringPartialArrival q) s (fun g => g = kept)) ∧
        (∀ r, turn = some r → Completes (.ringPartialArrival q) s (fun g => g = kept.torusStep p.sync 4 r.pkt r.axis))) ∧
      (kind = kDown → (h.ringRole q.val p.sync).testBit 0 = true → Completes (.ringPartialArrival q) s (fun g =>
        g = ((h.downRings p).modSyncStatus p.sync (setBit · 9 false)).downSend p))) ∧
    (∀ p (k : BitVec 9) v, let id := k.toNat
      let h := s.hw.readied p
      s.hw.writeOpen p ⟨syncCfgId id, anchorNode, id % 256⟩ → bit (s.hw.syncCfg id) 15 = true → Completes (.syncCfgDisable p k v) s (fun g =>
        let a := (h.setReg (syncCfgId id) anchorNode (id % 256) (setBit (s.hw.syncCfg id) 15 false)).setReg (syncStatusId id) anchorNode (id % 256) 0#32
        g = { a with snet := { a.snet with up := a.snet.up.filter (fun e => e.1 % 512 != id), down := a.snet.down.filter (fun e => e.2.sync != id)
                                           torus := a.snet.torus.filter (fun r => r.pkt.sync != id)
                                           partials := a.snet.partials.filter (fun e => e.1 % 512 != id) } })))

/-- R335 to R337, R341 to R343: once every joined input of a router holds its packet, they are combined in port order; the anchor counts the round
and sends the result down or into the torus stage; another router forwards it to its parent, with what the parent's receiver reports. A member takes
the DOWN packet: its SYNC is answered with the words, or its count exchange ends. -/
def Obligations.SyncRounds : Prop :=  ∀ (s : State) (k : BitVec 9), s.hw.dieState ≠ 7 →
  let id := k.toNat
  (∀ n : Node, Completes (.snetUpCombine n k .router) s (fun g => g = s.hw.raiseF0 0x45 n.val 0)) ∧
  (∀ (n : Node) err p rest, err ≠ .router → ((List.range 5).filter (fun q => (s.hw.joinByte n.val id).testBit q)).mapM (fun q => s.hw.upAt n.val q id) =
      some (p :: rest) →
    let ports := (List.range 5).filter (fun q => (s.hw.joinByte n.val id).testBit q)
    let x := s.hw.combineUp id p rest
    let h := (ports.foldl (fun h q => h.clearUp n.val q id) s.hw).act n.val 11
    let dir := treePort n.val
    (n.val = anchorNode → Completes (.snetUpCombine n k err) s (fun g =>
      let a := h.modSyncStatus x.sync (fun w => setBit (setFld w 0 8 (fld w 0 8 + 1)) 8 false)
      g = if bit (a.syncCfg x.sync) 14 then (a.modSyncStatus x.sync (setBit · 9 true)).torusStep x.sync 4 x 0 else a.downSend x)) ∧
    (∀ m, n.val ≠ anchorNode → neighbour n.val dir = some m →
      ((h.linksUp 2 n.val).testBit (dir - 1) = true →
        (err = .ok → Completes (.snetUpCombine n k err) s (fun g => g = h.upArrive m (facing dir) x)) ∧
        (err = .corrected → Completes (.snetUpCombine n k err) s (fun g =>
          g = ((h.modReg .snEccEvt m 0 (bumpFld · 0 16 1)).logF2).upArrive m (facing dir) x)) ∧
        (err = .payload ∨ err = .tag ∨ err = .credit → Completes (.snetUpCombine n k err) s (fun g =>
          g = (((h.modReg .snEccEvt m 0 (bumpFld · 24 8 1)).sDrop m 6 id).raiseF0 0x42 m 0).linkError 2 .snLinkEc m (facing dir - 1)))) ∧
      ((h.linksUp 2 n.val).testBit (dir - 1) = false → Completes (.snetUpCombine n k err) s (fun g => g = h.sDrop n.val 7 id)))) ∧
  (∀ (n : Node) ue e rest, takeFirst (fun e : Nat × SPkt => e.1 == n.val && e.2.sync == id) s.hw.snet.down = some (e, rest) →
    let h := { s.hw with snet := { s.hw.snet with down := rest } }
    let i := nodeInst n.val
    (∀ x, (h.port i).syncs.find? (fun x => x.sync == id && x.sent) = some x → Completes (.snetDownDeliver n k ue) s (fun g =>
      g = (h.modPort i (fun p => { p with syncs := p.syncs.filter (fun y => y.tag != x.tag) })).finish i x.tag 0 (wordPairs e.2.words) 0)) ∧
    (∀ c, (h.port i).syncs.find? (fun x => x.sync == id && x.sent) = none →
      (h.port i).ccx.find? (fun c => c.phase == 1 && c.sentW && h.countSyncOf i c == some id) = some c →
      Completes (.snetDownDeliver n k ue) s (fun g => g = h.countOutcome i c e.2.words ue)))

/-- R362, R363, R367, R830: go with FREEZE or THAW sends a notice for the bar that lies lead bars ahead, to the torus as well where asked; go with
FAULT raises F0 FW_DIE or F1 FIRMWARE for the tenant. A pending FREEZE or THAW takes effect in its target bar. R364, R367 to R369: a notice that
reaches the anchor, the oldest of this module or one new from the torus (which it forwards), is held until its target bar, takes effect at once when
that has begun, or cancels the pending notice of the other op for the same bar. A duplicate only counts. -/
def Obligations.GongFreezeAndThaw : Prop :=
  (∀ s : State,
    (∀ p v, s.hw.writeOpen p ⟨.snGongCtl, anchorNode, 0⟩ → 3 ≤ fld v 8 4 →
      let w (op : Nat) : Word := merge (RegId.desc .snGongCtl).wmask (s.hw.reg .snGongCtl anchorNode) (setBit (setFld v 0 2 op) 31 true)
      let h (op : Nat) : Hw := (s.hw.readied p).setReg .snGongCtl anchorNode 0 (setBit (w op) 31 false)
      let timed (op : Nat) : Hw := (h op).gongSend op (bit v 12) (bit v 4) s.hw.sysTenant 0 ((s.hw.stamp.1 + fld v 8 4) % 4096) anchorNode
      Completes (.gongFreezeReq p v) s (fun g => g = timed 1) ∧ Completes (.gongThawReq p v) s (fun g => g = timed 2) ∧
      Completes (.gongFaultReq p v) s (fun g =>
        g = if bit v 12 then (h 3).raiseF0 0x4d anchorNode 0 else (h 3).raiseF1 (fld v 16 6) (s.hw.gen (fld v 16 6)) 0x14 anchorNode 0 2)) ∧
    (s.hw.dieState ≠ 7 →
      (∀ f, s.hw.snet.freeze = some f → s.hw.sinceTarget f.target < 2048 → s.hw.frozen = false → Completes .freezeTakeEffect s (fun g =>
        let a := { s.hw with snet := { s.hw.snet with freeze := none } }
        let b := (if f.snap then a.snapshot else a).openWindows
        g = (b.modReg .snGongStatus anchorNode 0 (fun w => setBit (setBit w 0 true) 1 false)).modReg .snGongEvt anchorNode 0 (setBit · 0 true))) ∧
      (∀ f, s.hw.snet.thaw = some f → s.hw.sinceTarget f.target < 2048 → s.hw.frozen = true → Completes .thawTakeEffect s (fun g =>
        let a := { s.hw with snet := { s.hw.snet with thaw := none } }
        g = (a.modReg .snGongStatus anchorNode 0 (fun w => setBit (setBit w 0 false) 2 false)).modReg .snGongEvt anchorNode 0 (setBit · 1 true))))) ∧
  (∀ s : State, s.hw.dieState ≠ 7 →
    (∀ w0 w1 rest, s.hw.snet.gongs = (w0, w1) :: rest → Completes (.gongNoticeArrival none) s (fun g =>
      g = ({ s.hw with snet := { s.hw.snet with gongs := rest } }).gongHold w0 w1)) ∧
    (∀ (q : Port) w0 w1 h, s.hw.torusRx q.val [kGong] = some (kGong, [w0, w1], h) → fld w0 0 2 ≠ 3 →
      (gongName w1 ∉ h.snet.seen → Completes (.gongNoticeArrival (some q)) s (fun g => g = ((h.gongSee w1).castOn kGong w0 w1).gongHold w0 w1)) ∧
      (gongName w1 ∈ h.snet.seen → Completes (.gongNoticeArrival (some q)) s (fun g =>
        g = h.modReg .snGongEvt anchorNode 0 (bumpFld · 16 8 1)))) ∧
    (∀ (h : Hw) w0 w1,
      let a := (h.setReg .snGongLast anchorNode 0 w0).setReg .snGongLast anchorNode 1 w1
      let target := fld w0 20 12
      let waits (b : Nat) (x : Hw) : Hw := x.modReg .snGongStatus anchorNode 0 (fun w => setFld (setBit w b true) 16 12 target)
      (fld w0 0 2 = 1 → h.frozen = false → 2048 ≤ h.sinceTarget target → h.gongHold w0 w1 =
        waits 1 { a with snet := { a.snet with freeze := some ⟨target, bit w0 2⟩ } }) ∧
      (fld w0 0 2 = 2 → h.frozen = true → 2048 ≤ h.sinceTarget target → h.gongHold w0 w1 =
        waits 2 { a with snet := { a.snet with thaw := some ⟨target, false⟩ } }) ∧
      (fld w0 0 2 = 1 → h.frozen = false → h.sinceTarget target < 2048 → (h.gongHold w0 w1).frozen = true) ∧
      (fld w0 0 2 = 2 → h.frozen = true → h.sinceTarget target < 2048 → (h.gongHold w0 w1).frozen = false) ∧
      (fld w0 0 2 = 1 → h.frozen = true → h.snet.thaw.any (fun x => x.target == target) = true → (h.gongHold w0 w1).snet.thaw = none) ∧
      (fld w0 0 2 = 2 → h.frozen = false → h.snet.freeze.any (fun x => x.target == target) = true → (h.gongHold w0 w1).snet.freeze = none)))

/-- R361, R364, R366, R713, R717: the anchor takes the notices in their order; the first of a tenant and generation, and the first F0 since the last
F0 restart, go on to the torus where a partition that they affect spans modules. One from another module raises F1 REMOTE for a local partition in
whose box it lies, counts as stale for another generation, and is a duplicate where its name has been seen. -/
def Obligations.FaultNotices : Prop :=  ∀ s : State, s.hw.dieState ≠ 7 →
  (∀ x, firstNotice s.hw.fault.notices = some x →
    let h := { s.hw with fault := { s.hw.fault with notices := s.hw.fault.notices.erase x } }
    let w := h.gongWords 3 x.f0 (h.affectsTorus x) x.tenant x.gen x.cause x.node
    let a := h.gongTaken w.1 w.2
    let taken (b : Hw) : Hw := { b with fault := { b.fault with atAnchor := b.fault.atAnchor ++ [x] } }
    let sent (b : Hw) : Hw := b.gongSend 3 x.f0 (h.affectsTorus x) x.tenant x.gen x.cause x.node
    (x.remote = true → Completes .faultNotice s (fun g => g = taken h)) ∧
    (x.remote = false → x.f0 = false → (x.tenant, x.gen) ∈ s.hw.fault.forwarded → Completes .faultNotice s (fun g => g = taken a)) ∧
    (x.remote = false → x.f0 = false → (x.tenant, x.gen) ∉ s.hw.fault.forwarded → Completes .faultNotice s (fun g =>
      g = taken (sent { a with fault := { a.fault with forwarded := a.fault.forwarded ++ [(x.tenant, x.gen)] } }))) ∧
    (x.remote = false → x.f0 = true → s.hw.fault.f0Forwarded = false → Completes .faultNotice s (fun g =>
      g = taken (sent { a with fault := { a.fault with f0Forwarded := true } }))) ∧
    (x.remote = false → x.f0 = true → s.hw.fault.f0Forwarded = true → Completes .faultNotice s (fun g =>
      g = a.modReg .snGongEvt anchorNode 0 (bumpFld · 16 8 1)))) ∧
  (∀ (q : Port) w0 w1 h, s.hw.torusRx q.val [kGong] = some (kGong, [w0, w1], h) → fld w0 0 2 = 3 →
    let a := ((h.gongSee w1).castOn kGong w0 w1).gongTaken w0 w1
    let t := fld w0 4 6
    (gongName w1 ∈ h.snet.seen → Completes (.remoteFaultNotice q) s (fun g => g = h.modReg .snGongEvt anchorNode 0 (bumpFld · 16 8 1))) ∧
    (gongName w1 ∉ h.snet.seen → bit w0 2 = false → a.boxHas t (fld w1 0 12) = true →
      (fld w0 10 10 = s.hw.gen t → Completes (.remoteFaultNotice q) s (fun g =>
        g = a.notify ⟨false, t, s.hw.gen t, 0x0f, fld w1 12 7, fld w1 0 12, true, 0, fld w0 20 8, s.hw.stamp.1, s.hw.stamp.2, s.hw.now⟩)) ∧
      (fld w0 10 10 ≠ s.hw.gen t → Completes (.remoteFaultNotice q) s (fun g => g = a.stale t 1))) ∧
    (gongName w1 ∉ h.snet.seen → bit w0 2 = false → a.boxHas t (fld w1 0 12) = false → Completes (.remoteFaultNotice q) s (fun g => g = a)) ∧
    (gongName w1 ∉ h.snet.seen → bit w0 2 = true → Completes (.remoteFaultNotice q) s (fun g =>
      g = ((List.range 64).filter (fun t => a.boxHas t (fld w1 0 12) && a.partMulti t)).foldl
        (fun b t => b.remoteNotice t (b.gen t) (fld w0 20 8) (fld w1 12 7) (fld w1 0 12)) a)))

/-- R482, R483, R489 to R491, R506, R535: a command that is done at acceptance is answered as Table 11.6 says, its words' credits taken: NOP,
BELL_CLEAR, JOB_DONE, PHASE of a declared phase, COMPUTE_DONE of a held tail, CNT_REPORT in an open window, LEASE_FREE; a NOP's completion carries
its tag. -/
def Obligations.TileCommandsDone : Prop :=  ∀ (s : State) (i : Tile) (x : CmdHdr) (body : List (BitVec 64)), s.hw.dieState ≠ 7 →
  let n := tileNode i.val
  let tag := x.tag.toNat
  let w := bodyWord body 1
  let held (op : Nat) : Hw := s.hw.commandHeld i op x body
  (s.hw.commandOpen i x body [0] [] → Completes (.nop i x body) s (fun g =>
    g = ((held opNop).finish i tag 0 [] 0).ciTake i 1 ∧
    (g.port i.val).comps = (s.hw.port i.val).comps ++ [⟨some tag, [compHeader opNop 0 tag 0 0]⟩])) ∧
  (s.hw.commandOpen i x body [1] [0xFFFFFF] → Completes (.bellClear i x body) s (fun g =>
    g = (((held opBellClear).clearBells n (fld w 0 24)).finish i tag 0 [] 0).ciTake i 2)) ∧
  (s.hw.commandOpen i x body [0] [] → let h := held opJobDone
    (∀ t, h.tileOwner i.val = some t → h.active t = true → (h.job t).tileMask.testBit i.val = true → (h.job t).doneSet.testBit i.val = false →
      let h1 := h.modJob t (fun j => { j with doneSet := j.doneSet + 2 ^ i.val })
      Completes (.jobDone i x body) s (fun g =>
        g = ((if (h.job t).doneSet + 2 ^ i.val = (h.job t).tileMask then h1.modReg .tntState t 0 (setBit · 10 true) else h1).finish i tag 0 [] 0).ciTake
          i 1)) ∧
    ((∀ t, h.tileOwner i.val = some t → h.active t = true → (h.job t).tileMask.testBit i.val = true → (h.job t).doneSet.testBit i.val = true) →
      Completes (.jobDone i x body) s (fun g => g = (h.finish i tag 0 [] 0).ciTake i 1))) ∧
  (s.hw.commandOpen i x body [1] [0xFFFF] → let h := held opPhase
    let declared (e : Nat) : Bool := h.regs.any (fun r => decide (r.1.id = RegId.bnFlowCfg) && bit r.2 13 && bit r.2 14 &&
      (fld (h.reg .bnFlowPhase r.1.i r.1.j) 0 12 == e && fld (h.reg .bnFlowPhase r.1.i r.1.j) 16 8 == fld w 8 8))
    (∀ e, h.phaseOf i (fld w 0 8) = some e → declared e = true → Completes (.phase i x body) s (fun g =>
      g = ((h.phaseTarget e (fld w 8 8)).finish i tag 0 [] 0).ciTake i 2)) ∧
    ((∀ e, h.phaseOf i (fld w 0 8) = some e → declared e = false) → Completes (.phase i x body) s (fun g =>
      g = (h.failCmd i tag scBadPhase).ciTake i 2))) ∧
  (s.hw.commandOpen i x body [1] [0xFFFF] → let h := held opComputeDone
    (∀ c, (h.port i.val).ccx.find? (fun c => c.tag == fld w 0 16 && c.phase == 0) = some c → Completes (.computeDone i x body) s (fun g =>
      g = ((h.modCcx i c.id (fun c => { c with released := true })).finish i tag 0 [] 0).ciTake i 2)) ∧
    ((h.port i.val).ccx.find? (fun c => c.tag == fld w 0 16 && c.phase == 0) = none → Completes (.computeDone i x body) s (fun g =>
      g = (h.failCmd i tag scBadArg).ciTake i 2))) ∧
  (s.hw.commandOpen i x body [2, 3, 4, 5, 6, 7, 8, 9] [0xFF] → fld w 4 4 + 1 = body.length → fld w 0 4 + fld w 4 4 ≤ 16 → let h := held opCntReport
    (bit (h.reg .tpCond n) 12 = true → Completes (.cntReport i x body) s (fun g =>
      g = ((((body.drop 1).zip (List.range (fld w 4 4))).foldl (fun h v =>
        ((h.setReg .pmcTcLo n (fld w 0 4 + v.2) (v.1.setWidth 32)).setReg .pmcTcHi n (fld w 0 4 + v.2) ((v.1 >>> 32).setWidth 32)).modReg .pmcTcStatus n 0
          (setBit · (fld w 0 4 + v.2) true)) h).finish i tag 0 [] 0).ciTake i (body.length + 1))) ∧
    (bit (h.reg .tpCond n) 12 = false → Completes (.cntReport i x body) s (fun g =>
      g = (h.finish i tag scNoWindow [] 0).ciTake i (body.length + 1)))) ∧
  (s.hw.commandOpen i x body [1] [2 ^ 49 - 1] → let h := held opLeaseFree
    let a := fld w 0 48
    let t := h.tileTenant i
    let answer (h : Hw) (status : Nat) : Hw := (h.finish i tag status [] 0).ciTake i 2
    let freed (kind unit : Nat) (word : Word) (retired : Bool) (free : Hw) : Prop :=
      (bit word 15 = false ∨ retired = true → Completes (.leaseFree i x body) s (fun g => g = answer (h.freeError t kind false unit) scNotHeld)) ∧
      (bit word 15 = true → retired = false →
        (heldBy word t (h.tileGen i) = true → Completes (.leaseFree i x body) s (fun g => g = answer free 0)) ∧
        (heldBy word t (h.tileGen i) = false → Completes (.leaseFree i x body) s (fun g => g = answer (h.freeError t kind true unit) scNotOwner)))
    (fld w 48 1 = 0 → a < 0x10000000 → a % 65536 = 0 → let p := a / 65536
      freed 0 p (h.reg .slbLease p) (h.pageRetired p) (h.freePage p)) ∧
    (fld w 48 1 = 1 → 0x10000000000 ≤ a → (a - 0x10000000000) % 0x200000 = 0 → let k := (a - 0x10000000000) / 0x200000
      ∀ u, k < nget h.mem.units t 0 → h.slotUnit t k = some u → freed 1 k (h.reg .slbHlease u) (h.unitRetired u) (h.freeUnit u)))

/-- R463, R481, R482, R493, R495, R502: a command that comes without a credit counts CREDIT; one of a DRAINED port, of a busy tag, over the 64 tags,
of an undefined opcode or with a wrong length or reserved bit is answered with its status, and holds no tag. R462, R485, R486, R492, R494, R533: a
SEND completes once its last flit is granted, a RECV once it has its last flit and its writes are done, with the bytes delivered and dropped, a MOVE
once its last unit is written, a waiting LEASE_ALLOC once its pages are zero; a completion leaves once the tile has credits for its words, frees its
tag, and while the buffer has room the command credits are the tile's again. -/
def Obligations.TileCommandsRefusedAndEnded : Prop :=
  (∀ (s : State) (i : Tile) (x : CmdHdr) (body : List (BitVec 64)), s.hw.dieState ≠ 7 →
    s.hw.portUp i.val = true →
    let tag := x.tag.toNat
    let a := s.hw.act (tileNode i.val) 7
    ((s.hw.port i.val).ci = 0 → Completes (.nop i x body) s (fun g => g = a.violation i 0x22 0 0)) ∧
    (body.length + 1 ≤ (s.hw.port i.val).ci → x.err = .uncorrectable → Completes (.nop i x body) s (fun g =>
      g = ((a.modReg .tpErrEvt (tileNode i.val) 0 (bumpFld · 24 8 1)).tileF1 i 7 0).ciTake i (body.length + 1))) ∧
    (body.length + 1 ≤ (s.hw.port i.val).ci → x.err ≠ .uncorrectable →
      let o (op : Nat) : Hw × TileCmd := s.hw.commandIn i op x body
      let no (op status : Nat) : Hw := (((o op).1.observeDone i (o op).2 status 0).respond i op tag status [] false).ciTake i (body.length + 1)
      (s.hw.portState i.val = psDrained → Completes (.nop i x body) s (fun g => g = no opNop scDrained)) ∧
      (s.hw.portState i.val ≠ psDrained →
        ((s.hw.port i.val).cmd tag ≠ none → Completes (.nop i x body) s (fun g => g = no opNop scTagBusy)) ∧
        ((s.hw.port i.val).cmd tag = none →
          (64 ≤ (s.hw.port i.val).cmds.length → Completes (.nop i x body) s (fun g => g = no opNop scQueueFull)) ∧
          ((s.hw.port i.val).cmds.length < 64 →
            (∀ op : BitVec 8, Completes (.unknownOpcode i op x body) s (fun g => g = no op.toNat scBadOpcode)) ∧
            (body ≠ [] ∨ x.rsv ≠ 0#3 → Completes (.nop i x body) s (fun g => g = no opNop scBadArg))))))) ∧
  (∀ (s : State) (i : Tile) (tag : BitVec 16), s.hw.dieState ≠ 7 →
    let h := s.hw
    let t := tag.toNat
    let p := h.port i.val
    let own (id : Nat) : Bool := p.ccx.all (fun c => c.id != id)
    (∀ x, p.sends.find? (fun x => x.tag == t && own x.id) = some x → x.finished h = true → Completes (.sendDone i tag) s (fun g =>
      g = ((h.modPort i.val (fun p => { p with sends := p.sends.filter (fun y => y.id != x.id) })).finish i.val t (if x.bad then scLease else 0) []
        x.bytes).pump i.val)) ∧
    (∀ r, p.recvs.find? (fun r => r.tag == t && own r.id) = some r → r.seen = true → r.writes = 0 → Completes (.recvDone i tag) s (fun g =>
      g = (h.modPort i.val (fun p => { p with recvs := p.recvs.filter (fun y => y.id != r.id) })).finish i.val t
        (if r.bad then scLease else if r.dropped ≠ 0 then scTruncated else 0) [BitVec.ofNat 64 (r.got % 2 ^ 32 + r.dropped % 2 ^ 32 * 2 ^ 32)] r.got)) ∧
    (∀ m, p.moves.find? (fun m => m.tag == t) = some m → m.waiting = false → h.fenced (h.tileTenant i.val) (h.tileGen i.val) = false →
      let a := h.moveRun i.val m.id (if remoteAddr m.src || remoteAddr m.dst then 1 else m.bytes / 128)
      ∀ y, (a.port i.val).moves.find? (fun y => y.id == m.id) = some y →
        (y.bytes ≤ y.done → Completes (.moveDone i tag) s (fun g =>
          g = (a.modPort i.val (fun p => { p with moves := p.moves.filter (fun z => z.id != y.id) })).finish i.val t (if y.bad then scLease else 0) []
            y.bytes)) ∧
        (y.done < y.bytes → Completes (.moveDone i tag) s (fun g => g = a))) ∧
    (∀ at' n, p.allocs.find? (fun a => a.1 == t) = some (t, at', n) →
      let ps := (List.range n).map (fun k => at' / 65536 + k)
      ps.any h.pageRetired = false → ps.any (fun q => h.mem.zeroing.contains q) = false → Completes (.leaseAllocDone i tag) s (fun g =>
        g = (h.modPort i.val (fun p => { p with allocs := p.allocs.filter (fun y => y.1 != t) })).finish i.val t 0 [BitVec.ofNat 64 at'] 0)) ∧
    (∀ c rest, p.comps = c :: rest → c.words.length ≤ p.co → Completes (.completionDeliver i) s (fun g =>
      (g.port i.val).comps = rest ∧ (g.port i.val).lastCo = c.words ∧ (g.port i.val).co = p.co - c.words.length ∧
      (g.port i.val).ci = (if rest.length < 64 then 32 else p.ci) ∧
      (∀ f, c.frees = some f → (g.port i.val).cmds = p.cmds.filter (fun d => !(d.tag == f && d.done))) ∧
      (c.frees = none → (g.port i.val).cmds = p.cmds) ∧ (∀ k, k ≠ i.val → g.port k = h.port k) ∧ g.vault = h.vault)) ∧
    (∀ c rest, p.comps = c :: rest → p.co < c.words.length → Completes (.completionDeliver i) s (fun g => g = h)))

/-- R485 to R488, R531, R414: a command that goes on after its acceptance begins: a SEND's mover reads on its flow, a RECV becomes a cursor of its
flow, a MOVE's units run, a message is sent or dequeued, a SYNC waits for its round, leased pages are bound, a CCX is held in its group's slot. -/
def Obligations.TileCommandsBegin : Prop :=  ∀ (s : State) (i : Tile) (x : CmdHdr) (body : List (BitVec 64)), s.hw.dieState ≠ 7 →
  let n := tileNode i.val
  let tag := x.tag.toNat
  let w (k : Nat) : BitVec 64 := bodyWord body k
  let held (op : Nat) : Hw := s.hw.commandHeld i op x body
  let a48 (k : Nat) : Nat := fld (w k) 0 48
  let units (v : Nat) : Prop := v ≠ 0 ∧ v % 128 = 0
  (∀ ueAt f, s.hw.commandOpen i x body [2] [0xFFFFFFFF00003FFF, mask48] → let h := held opSend
    let bytes := fld (w 1) 32 32
    units bytes → a48 2 % 128 = 0 → h.flowOf i (fld (w 1) 0 13) = some f →
    (∃ k, h.flowSlot n f = some k ∧ bit (h.reg .bnFlowCfg n k) 14 = true) → h.rangeHeld i (h.tileTenant i) (h.tileGen i) (a48 2) bytes true = true →
    Completes (.send i x body ueAt) s (fun g =>
      g = (((({ h with opId := h.opId + 1 } : Hw).modPort i (fun p => { p with
        sends := p.sends ++ [⟨h.opId, tag, f, a48 2, bytes, bytes, bit (w 1) 13, 0, false, false, ueAt⟩] })).pump i)).ciTake i 3)) ∧
  (∀ f, s.hw.commandOpen i x body [2] [0xFFFFFFFF00005FFF, mask48] → let h := held opRecv
    let cap := fld (w 1) 32 32
    units cap → h.flowOf i (fld (w 1) 0 13) = some f →
    (bit (w 1) 14 = true ∨ (a48 2 % 128 = 0 ∧ h.rangeHeld i (h.tileTenant i) (h.tileGen i) (a48 2) cap true = true)) →
    Completes (.recv i x body) s (fun g =>
      g = (({ h with opId := h.opId + 1 } : Hw).modPort i (fun p => { p with
        recvs := p.recvs ++ [⟨h.opId, tag, f, a48 2, cap, bit (w 1) 14, 0, 0, false, 0, false, false⟩] })).ciTake i 3)) ∧
  (s.hw.commandOpen i x body [3] [0xFFFFFFFF00000000, mask48, mask48] → let h := held opMove
    let bytes := fld (w 1) 32 32
    units bytes → a48 2 % 128 = 0 → a48 3 % 128 = 0 → h.rangeHeld i (h.tileTenant i) (h.tileGen i) (a48 2) bytes true = true →
    h.rangeHeld i (h.tileTenant i) (h.tileGen i) (a48 3) bytes true = true → remoteAddr (a48 2) = false ∨ remoteAddr (a48 3) = false →
    Completes (.move i x body) s (fun g =>
      g = ((({ h with opId := h.opId + 1 } : Hw).modPort i (fun p => { p with
        moves := p.moves ++ [⟨h.opId, tag, a48 2, a48 3, bytes, 0, false, false⟩] })).moveRun i h.opId
          (if remoteAddr (a48 2) || remoteAddr (a48 3) then 1 else 0)).ciTake i 4)) ∧
  (∀ c, s.hw.commandOpen i x body [9] [0xFFF] → let h := held opMsgSend
    let r := h.chSend n (h.chSrc c).2 (some (h.tileTenant i)) c (msgOfWords (body.drop 1)) (some (i.val, tag))
    h.chanOf i (fld (w 1) 0 12) = some c → h.chValid c = true → (h.chSrc c).1 = n →
    (r.2 = .accepted → Completes (.msgSend i x body) s (fun g => g = (r.1.finish i tag 0 [] 64).ciTake i 10)) ∧
    (r.2 = .stalled → Completes (.msgSend i x body) s (fun g => g = r.1.ciTake i 10)) ∧
    (r.2 = .full → Completes (.msgSend i x body) s (fun g => g = (r.1.finish i tag scChFull [] 0).ciTake i 10))) ∧
  (∀ c merge, s.hw.commandOpen i x body [1] [0xFFF] → let h := held opMsgDeq
    let r := h.chDequeue n (h.chDst c).2 c merge
    h.chanOf i (fld (w 1) 0 12) = some c → h.chValid c = true → (h.chDst c).1 = n →
    (∀ m, r.2 = .message m → Completes (.msgDeq i x body merge) s (fun g => g = (r.1.finish i tag 0 (wordsOfMsg m) 64).ciTake i 2)) ∧
    (r.2 = .empty → Completes (.msgDeq i x body merge) s (fun g => g = (r.1.finish i tag scEmpty [] 0).ciTake i 2))) ∧
  (∀ id, s.hw.commandOpen i x body [1, 2, 3, 4, 5] [0xFF] → let h := held opSync
    h.syncOf i (fld (w 1) 0 8) = some id →
    let busy := (h.port i.val).syncs.any (fun y => y.sync == id) || (h.port i.val).ccx.any (fun c => c.phase == 1 && h.countSyncOf i c == some id)
    (busy = true → Completes (.sync i x body) s (fun g => g = (h.failCmd i tag scSyncBusy).ciTake i (body.length + 1))) ∧
    (∀ ws, busy = false → h.syncWords id = ws.length →
      (body.drop 1).flatMap (fun (v : BitVec 64) => [v.setWidth 32, (v >>> 32).setWidth 32]) = ws ++ (if ws.length % 2 = 1 then [0#32] else []) →
      Completes (.sync i x body) s (fun g =>
        g = (h.modPort i (fun p => { p with syncs := p.syncs ++ [⟨tag, id, ws, false⟩] })).ciTake i (body.length + 1)))) ∧
  (s.hw.commandOpen i x body [1] [0x7F0001] → let h := held opLeaseAlloc
    let t := h.tileTenant i
    let count := fld (w 1) 16 7
    1 ≤ count → count ≤ 64 →
    (fld (w 1) 0 1 = 0 → let run := lowestRun 64 count (fun p => h.pageFree (i.val * 64 + p))
      let quota := ((h.envelope t).map (·.slabPages)).getD 0
      ((run = none ∨ quota < h.pagesHeld t + count) → Completes (.leaseAlloc i x body) s (fun g => g = (h.finish i tag scNoSpace [] 0).ciTake i 2)) ∧
      (∀ p, run = some p → h.pagesHeld t + count ≤ quota →
        let ps := (List.range count).map (fun k => i.val * 64 + p + k)
        let b := ps.foldl (fun h q => h.setReg .slbLease q 0 (mkWord [(22, 10, held opLeaseAlloc |>.tileGen i), (16, 6, t), (15, 1, 1)])) h
        (ps.any (fun q => h.mem.zeroing.contains q) = false → Completes (.leaseAlloc i x body) s (fun g =>
          g = (b.finish i tag 0 [BitVec.ofNat 64 ((i.val * 64 + p) * 65536)] 0).ciTake i 2)) ∧
        (ps.any (fun q => h.mem.zeroing.contains q) = true → Completes (.leaseAlloc i x body) s (fun g =>
          g = (b.modPort i (fun p' => { p' with allocs := p'.allocs ++ [(tag, (i.val * 64 + p) * 65536, count)] })).ciTake i 2)))) ∧
    (fld (w 1) 0 1 = 1 →
      let free (k : Nat) : Bool := (h.slotUnit t k).any (fun u => !bit (h.reg .slbHlease u) 15 && !h.unitRetired u)
      let run := lowestRun (nget h.mem.units t 0) count free
      (run = none → Completes (.leaseAlloc i x body) s (fun g => g = (h.finish i tag scNoSpace [] 0).ciTake i 2)) ∧
      (∀ k, run = some k →
        let b := ((List.range count).filterMap (fun m => h.slotUnit t (k + m))).foldl (fun h' u => h'.leaseUnit (h.tileGen i) u) h
        Completes (.leaseAlloc i x body) s (fun g => g = (b.finish i tag 0 [BitVec.ofNat 64 (0x10000000000 + k * 0x200000)] 0).ciTake i 2)))) ∧
  (s.hw.commandOpen i x body [4] [] → let h := held opCcx
    (16 ≤ (h.port i.val).ccx.length → Completes (.ccx i x body) s (fun g =>
      g = ((h.tailEvt i scQueueFull tag).failCmd i tag scQueueFull).ciTake i 5)) ∧
    ((h.port i.val).ccx.length < 16 →
      (h.groupSlot i (fld (w 1) 0 8) = none → Completes (.ccx i x body) s (fun g =>
        g = ((h.tailEvt i scBadGroup tag).failCmd i tag scBadGroup).ciTake i 5)) ∧
      (∀ k, h.groupSlot i (fld (w 1) 0 8) = some k → Completes (.ccx i x body) s (fun g =>
        ∃ c : CcxOp, c.id = h.opId ∧ c.tag = tag ∧ c.slot = k ∧ c.w1 = w 1 ∧ c.src = a48 2 ∧ c.dst = a48 3 ∧ c.cap = fld (w 4) 0 32 ∧
          c.released = bit (w 1) 11 ∧ c.phase = 0 ∧ c.null = 0 ∧
          c.bad = (fld (w 2) 48 16 != 0 || fld (w 3) 48 16 != 0 || fld (w 4) 32 32 != 0) ∧
          g = (({ h with opId := h.opId + 1 } : Hw).modPort i (fun p => { p with ccx := p.ccx ++ [c] })).ciTake i 5))))

/-- R402 to R407, Table 9.7: a flit of a fold stream at the head of an input, its sink checks passed, from its expected producer and at its
context's current operation begins a contribution at that input; of an operation ahead it waits; a second one of the input, or one of an operation
gone by, is discarded; with a wrong cid it stops the context, with FOLD for its owner. A flit whose tree has no context here is discarded. R401,
R412, R413: a write that sets valid of a fold context whose formats are legal arms it with operation 0; with illegal ones it is refused as a bad
value; clearing valid of an armed one drops its operation, a change of another field beside it being refused. -/
def Obligations.FoldContributions : Prop :=
  (∀ (s : State) (n : Node) (port : Fin 5) (sel : BitVec 13) (f : Flit), s.hw.dieState ≠ 7 →
    let h := s.hw
    let kind := h.flowKind f.flow
    h.foldHead n port sel.toNat = some f → kind.kind = 1 → (port.val ≠ 0 → h.outMask n f = 1 ∧ kind.remote = 0xffff) →
    (h.treeCtx n kind.tree = none → Completes (.foldContributionArrival n port sel) s (fun g => g = (h.foldEvt n 0 1).foldPop n port sel.toNat)) ∧
    (∀ k, h.treeCtx n kind.tree = some k → let c := h.ctx n k
      (∀ r, port.val = 0 → h.gateShut n k = some r → Completes (.foldContributionArrival n port sel) s (fun g =>
        g = h.modReg .cqRingStatus n r (setBit · 0 true))) ∧
      ((port.val ≠ 0 ∨ h.gateShut n k = none) → (h.foldSink n port f).1 = 0 → c.ins.find? (fun e => e.flow == f.flow) = none →
        let d := (cidOp f.cid + 8 - h.ctxOp n k) % 8
        let busy := c.ins.any (fun e => e.port == port.val && e.accept)
        let gone (h : Hw) : Hw := (((h.foldPop n port sel.toNat).sinkChecked n f 0 (s.hw.foldSink n port f).2).setCtx n k (c.after port f)).ctxShow n k false
        (h.producerOk n k port f.cid = true →
          (d = 0 → busy = false → Completes (.foldContributionArrival n port sel) s (fun g =>
            g = (h.setCtx n k { c with ins := c.ins ++ [⟨port.val, f.flow, f.cid, true⟩] }).ctxShow n k false)) ∧
          (1 ≤ d → d ≤ 4 → Completes (.foldContributionArrival n port sel) s (fun g => g = h.modReg .fldStatus n k (setBit · 15 true))) ∧
          ((5 ≤ d ∨ (d = 0 ∧ busy = true)) → Completes (.foldContributionArrival n port sel) s (fun g => g = gone (h.foldDup n k f.cid)))) ∧
        (h.producerOk n k port f.cid = false → Completes (.foldContributionArrival n port sel) s (fun g =>
          g = (gone ((h.foldEvt n k 2).ctxStop n k)).foldFault n k))))) ∧
  (∀ (s : State) (p : Path) (n : Node) (k : BitVec 6) (v : Word),
    let c := k.toNat
    let h := s.hw.readied p
    let old := s.hw.reg .fldCfg n c
    let mask := (RegId.desc .fldCfg).wmask
    let f := s.hw.reg .fldFmt n c
    let ok : Prop := 1 ≤ fld f 0 4 ∧ fld f 0 4 ≤ 7 ∧ 9 ≤ fld f 4 4 ∧ fld f 4 4 ≤ 11 ∧ fld f 8 4 ≤ 7 ∧ fld f 16 5 ≠ 0 ∧ fld f 24 3 ≤ 4
    s.hw.writeOpen p ⟨.fldCfg, n, c⟩ →
    (bit old 15 = false →
      (ok → Completes (.foldContextEnable p n k v) s (fun g => g = (((h.setReg .fldCfg n c (merge mask old (setBit v 15 true))).setReg .fldStatus n c
        0#32).setReg .fldBlocks n c 0#32).setCtx n c {})) ∧
      (¬ok → Completes (.foldContextEnable p n k v) s (fun g => g = h.misuse p true 9 (pathAddr p (Reg.addr ⟨.fldCfg, n, c⟩))))) ∧
    (bit old 15 = true →
      let same : Prop := (old ^^^ merge mask old (setBit v 15 false)) &&& 0xFFFF7FFF#32 = 0#32
      let a := if same then h else h.misuse p true 4 (pathAddr p (Reg.addr ⟨.fldCfg, n, c⟩))
      Completes (.foldContextClear p n k v) s (fun g =>
        g = (((a.modReg .fldCfg n c (setBit · 15 false)).setReg .fldStatus n c 0#32).setReg .fldBlocks n c 0#32).setCtx n c {})))

/-- R381, R389 to R401, R405, R410, R433: an enabled context that is neither stopped nor fenced combines the blocks that all its inputs have, its
node's mover among them, whose flits pass their checks, once its output is free: it presents their sums in the carrier, in port order, and counts
the block, after the last one the operation; inputs that disagree about the last block stop it with LENGTH. An error of its state stops it with F0.
-/
def Obligations.FoldsCombine : Prop :=  ∀ (s : State) (n : Node) (k : BitVec 6), s.hw.dieState ≠ 7 →
  let h := s.hw
  let c := k.toNat
  let cfg := h.reg .fldCfg n c
  bit cfg 15 = true → h.ctxStopped n c = false → h.ctxFree n c = true → h.fenced (fld cfg 16 6) (fld cfg 22 10) = false →
  Completes (.foldCombine n k .state) s (fun g => g = ((h.foldEvt n c 5).ctxStop n c).raiseF0 0x44 n c) ∧
  (∀ err b rest, err ≠ .state →
    let tail := h.tailBlock n c
    let block (p : Nat) : Option FoldBlock :=
      if p = 0 ∧ nodeClass n ≠ 2 then tail.map (fun t => ⟨0, 0, none, t.2.1, t.2.2⟩) else h.foldBlock n c p
    ((List.range 5).filter (fun p => (h.ctxMask n c).testBit p)).mapM block = some (b :: rest) →
    (∀ x ∈ b :: rest, ∀ f, x.flit = some f → (h.foldSink n x.port f).1 = 0) →
    ((∃ x ∈ rest, x.last ≠ b.last) → Completes (.foldCombine n k err) s (fun g => g = ((h.foldEvt n c 3).ctxStop n c).foldFault n c)) ∧
    ((∀ x ∈ rest, x.last = b.last) → Completes (.foldCombine n k err) s (fun g =>
      let sum := rest.foldl (fun a x => List.zipWith (carAdd (h.ctxCarrier n c)) a x.elems) b.elems
      let h1 := (b :: rest).foldl (fun h x => match x.flit with
        | some f => (h.foldPop n x.port x.sel).sinkChecked n f 0 (h.foldSink n x.port f).2
        | none => h) h
      let h2 := ((if err = .data then h1.foldEvt n c 4 else h1).foldPresent n c sum b.last (err = .data)).act n 5
      let h3 := match (if b.last && nodeClass n == 2 then h2.gateOf n c else none) with
        | some r => h2.ringPassed n r
        | none => h2
      let h4 := (if b.last then
          ((h3.setCtx n c { h3.ctx n c with ins := (h3.ctx n c).ins.filter (fun e => !e.accept) }).setReg .fldBlocks n c 0#32).modReg .fldStatus n c
            (fun w => setFld w 0 3 (fld w 0 3 + 1))
        else h3.modReg .fldBlocks n c (bumpFld · 0 32 1)).ctxShow n c false
      g = match (if (h4.ctxMask n c).testBit 0 then tail else none) with
        | some (t, _, last) => h4.tailConsumed n c t last
        | none => h4)))

/-- R417, R432, R435, R441, R442: the first held tail of a group slot starts once released, outside DRAINED and unfenced: its descriptor is checked,
a failing one counting its violation; the sequencer hears of the start; a counted tail goes to its count exchange, a capacity tail moves its data,
or ends at once where its group has no flow for its operation. The read that finds an error is named by the command (log entry 28). R438 to R440,
R446, R447, R432: a tail at its completing event completes with the elements it moved and the ones dropped, its members and failures, its operation
number and group; its slot counts the operation and shows the status; an error is logged, and the sequencer hears of the completion. A tail that
moves nothing completes at once with its status and no elements. -/
def Obligations.CollectiveTails : Prop :=
  (∀ (s : State) (i : Tile) (tag : BitVec 16) ueAt c, s.hw.dieState ≠ 7 →
    (s.hw.port i.val).ccx.find? (fun c => c.tag == tag.toNat) = some c → c.phase = 0 → c.released = true →
    ((s.hw.port i.val).ccx.takeWhile (fun x => x.id != c.id)).any (fun x => x.slot == c.slot) = false →
    s.hw.portState i.val ≠ psDrained → s.hw.fenced (s.hw.tileTenant i.val) (s.hw.tileGen i.val) = false →
    let st := s.hw.tailCheck i.val c
    let a := if st = 0 then s.hw else s.hw.violation i.val st tag.toNat opCcx
    let c' := { c with null := st, opno := fld (a.reg .cqStatus (tileNode i.val) c.slot) 24 8 }
    let h := (a.modCcx i.val c.id (fun _ => c')).seqReport i.val c.slot true 0
    let noFlow : Bool := (c'.reduce && (h.localCtx i c.slot).isNone) || (!c'.reduce && (h.slotBcast i c.slot).isNone) || c'.op == 0 || c'.op == 3
    (c.capacity = false → Completes (.tailStart i tag ueAt) s (fun g => g = h.modCcx i.val c.id (fun x => { x with phase := 1 }))) ∧
    (c.capacity = true → noFlow = true → Completes (.tailStart i tag ueAt) s (fun g =>
      g = h.modCcx i.val c.id (fun x => { x with phase := 3, status := st }))) ∧
    (c.capacity = true → noFlow = false → Completes (.tailStart i tag ueAt) s (fun g => g = h.tailMove i.val c' ueAt))) ∧
  (∀ (s : State) (i : Tile) (tag : BitVec 16) c st elems drops, s.hw.dieState ≠ 7 →
    (s.hw.port i.val).ccx.find? (fun c => c.tag == tag.toNat) = some c →
    (c.phase = 3 ∧ st = c.status ∧ elems = 0 ∧ drops = 0) ∨ (c.phase = 2 ∧ s.hw.tailResult i.val c = some (st, elems, drops)) →
    let n := tileNode i.val
    let body : List (BitVec 64) := [BitVec.ofNat 64 (elems % 2 ^ 32 + drops % 2 ^ 32 * 2 ^ 32),
      BitVec.ofNat 64 (c.members % 2 ^ 20 + c.failed % 2 ^ 20 * 2 ^ 20 + c.opno % 256 * 2 ^ 40 + c.group * 2 ^ 48)]
    let a := (((s.hw.tailEvt i.val st tag.toNat).modPort i.val (fun p => p.dropOp c.id)).modReg .cqStatus n c.slot
      (fun w => setFld (setFld w 24 8 (fld w 24 8 + 1)) 0 8 st)).seqReport i.val c.slot false (if c.phase = 3 then 0 else c.op)
    (c.null = 0 → Completes (.tailComplete i tag) s (fun g => g = a.finish i.val tag.toNat st body elems)) ∧
    (c.null ≠ 0 → Completes (.tailComplete i tag) s (fun g => g = a.finishCounted i.val tag.toNat st body elems)))

/-- R431 to R434, R699: a member's report is counted at the sequencer of its group and owner, one of an older generation as stale; the first start
of an operation arms the group's ring entries; an armed relay entry hands a flit of its flow on once its output's source slot is free, and disarms
after the last; an unarmed one holds it. -/
def Obligations.Sequencers : Prop :=  ∀ (s : State) (q : Node), s.hw.dieState ≠ 7 →
  (∀ r rest, takeFirst (fun r : SeqReport => r.q == q.val) s.hw.coll.reports = some (r, rest) →
    let h : Hw := { s.hw with coll := { s.hw.coll with reports := rest } }
    let ofTenant (j : Nat) : Bool := bit (h.reg .cqSeqCfg q j) 15 && fld (h.reg .cqSeqCfg q j) 0 8 == r.group &&
      fld (h.reg .cqSeqCfg q j) 16 6 == r.tenant
    (h.seqOf q r.group r.tenant r.gen = none → Completes (.seqReport q) s (fun g =>
      g = if (List.range 64).any ofTenant then h.stale r.tenant 1 else h)) ∧
    (∀ j, h.seqOf q r.group r.tenant r.gen = some j →
      let x := h.seqState q j
      let old := ((x.tiles.find? (fun t => t.1 == r.node)).map (·.2)).getD (0, 0)
      let new := if r.start then (old.1 + 1, old.2) else (old.1, old.2 + 1)
      Completes (.seqReport q) s (fun g => g = ((h.setSeq q j { x with
        tiles := x.tiles.filter (fun t => t.1 != r.node) ++ [(r.node, new.1, new.2)]
        moved := if !r.start && r.moved != 0 && new.2 == x.ops + 1 then r.moved else x.moved }).act q 10).seqRefresh q j))) ∧
  (∀ j : BitVec 6, let k := j.toNat
    let x := s.hw.seqState q k
    bit (s.hw.reg .cqSeqCfg q k) 15 = true → x.armed = false → (∃ t ∈ x.tiles, x.ops < t.2.1) → Completes (.seqArm q j) s (fun g =>
      g = ((((s.hw.groupEntries q k).foldl (fun h e => h.modReg .cqRingStatus (portNode e.1) e.2 (setBit · 8 true)) s.hw).setSeq q k
        { x with armed := true }).act q 10).seqRefresh q k)) ∧
  (∀ (k : BitVec 5) (port : Fin 5) (sel : BitVec 13) (f : Flit), let h := s.hw
    let r := k.toNat
    let w := h.reg .cqRingFlow q r
    let out := fld w 16 13
    h.foldHead q port sel.toNat = some f → h.ringValid q r = true → h.ringGate q r = false → f.flow = fld w 0 13 →
    (port.val ≠ 0 → h.outMask q f = 1) →
    (h.ringArmed q r = false → Completes (.ringRelay q k port sel) s (fun g => g = h.modReg .cqRingStatus q r (setBit · 0 true))) ∧
    (h.ringArmed q r = true →
      ((h.foldSink q port f).1 ≠ 0 → Completes (.ringRelay q k port sel) s (fun g =>
        g = (h.foldPop q port sel.toNat).sinkChecked q f (h.foldSink q port f).1 (h.foldSink q port f).2)) ∧
      ((h.foldSink q port f).1 = 0 → (∀ m, h.flowSlot q out = some m → h.waiting q m = []) → Completes (.ringRelay q k port sel) s (fun g =>
        let a := (h.foldPop q port sel.toNat).sinkChecked q f 0 (h.foldSink q port f).2
        let b := a.inject q (some (fld (h.reg .cqRingCfg q r) 16 6)) (mkFlit out f.last f.cid f.data)
        g = (if f.last then b.modReg .cqRingStatus q r (fun w => setBit (setBit (setFld w 24 8 (fld w 24 8 + 1)) 8 false) 0 false)
          else b.modReg .cqRingStatus q r (setBit · 0 false)).seqRefreshAll))))

/-- R452, R453, R463 to R465, R467, R469 to R472, R476, R477: a lane access of a port that is up. A read answers the line's bytes in order, a write
changes the enabled bytes of its unit, each in pages that the tile's tenant holds, else LANE_PAGE; a flit of a flow of the tile's tenant waits for
its source slot; one over the credits counts CREDIT and is discarded. -/
def Obligations.TileLanes : Prop :=  ∀ (s : State) (i : Tile) (ce : Bool), s.hw.dieState ≠ 7 → s.hw.portUp i.val = true →
  let h := s.hw
  let n := tileNode i.val
  let p := h.port i.val
  let a := h.act n 7
  let mine (pg : Nat) : Bool := h.holds (h.tileTenant i.val) (h.tileGen i.val) (.slab ((i.val * 64 + pg) * 65536))
  let corrected (h : Hw) (pg : Nat) : Hw := if ce then h.slabCe (i.val * 64 + pg) else h
  let credit (c : Instr) : Prop := Completes c s (fun g => g = h.violation i.val 0x22 0 0)
  (∀ line : BitVec 14, let pg := line.toNat / 256
    let push (h : Hw) (d : List Byte) (st : Nat) : Hw := h.modPort i.val (fun p => { p with reads := p.reads ++ [⟨line.toNat, d, st⟩] })
    (16 ≤ p.reads.length + p.held.2.1 → ∀ e, credit (.slabRead i line e ce)) ∧
    (p.reads.length + p.held.2.1 < 16 →
      (mine pg = true → Completes (.slabRead i line .ok ce) s (fun g =>
        g = push (corrected a pg) (memRead 0#8 h.mem.slab (i.val * 0x400000 + line.toNat * 256) 256) 0)) ∧
      (mine pg = false → Completes (.slabRead i line .ok ce) s (fun g => g = push (a.violation i.val 0x21 0 0) (List.replicate 256 0#8) 2)))) ∧
  (∀ (unit : BitVec 15) en data, let pg := unit.toNat / 512
    let at' := i.val * 0x400000 + unit.toNat * 128
    (16 ≤ p.held.2.2 → ∀ e, credit (.slabWrite i unit en data e ce)) ∧
    (p.held.2.2 < 16 → h.gated n = false →
      (mine pg = true → Completes (.slabWrite i unit en data .ok ce) s (fun g =>
        ∀ b, memByte 0#8 g.mem.slab b = if at' ≤ b ∧ b < at' + 128 ∧ en.getLsbD (b - at') = true then (payloadBytes data).getD (b - at') 0#8
          else memByte 0#8 h.mem.slab b)) ∧
      (mine pg = false → Completes (.slabWrite i unit en data .ok ce) s (fun g => g = a.violation i.val 0x21 0 0)))) ∧
  (∀ (flow : BitVec 13) last poison data, let used := p.fiq.length + b2n (h.opWaits (fiOp i.val)) + p.held.1
    (16 ≤ used → ∀ e, credit (.fabricInFlit i flow last poison data e)) ∧
    (used < 16 → h.gated n = false →
      (h.portState i.val = psDrained → Completes (.fabricInFlit i flow last poison data .ok) s (fun g => g = h.violation i.val scDrained 0 0)) ∧
      (h.portState i.val ≠ psDrained →
        (h.flowOf i.val flow.toNat = none → Completes (.fabricInFlit i flow last poison data .ok) s (fun g =>
          g = (a.bDrop n 1 flow.toNat).violation i.val scBadFlow 0 0)) ∧
        (∀ f, h.flowOf i.val flow.toNat = some f →
          (h.fiCause i.val f ≠ 0 → Completes (.fabricInFlit i flow last poison data .ok) s (fun g =>
            g = (a.bDrop n (h.fiCause i.val f) f).violation i.val scBadFlow 0 0)) ∧
          (h.fiCause i.val f = 0 → Completes (.fabricInFlit i flow last poison data .ok) s (fun g =>
            g = (a.modPort i.val (fun p => { p with fiq := p.fiq ++ [mkFlit f last 0 data false poison] })).pumpFi i.val)))))) ∧
  (∀ ue r rest, p.reads = r :: rest → h.gated n = false →
    (ue = false ∨ r.status ≠ 0 → Completes (.slabReadReturn i ue) s (fun g =>
      g = h.modPort i.val (fun p => { p with reads := rest, lastRd := some r }))) ∧
    (ue = true → r.status = 0 → Completes (.slabReadReturn i ue) s (fun g =>
      g = (h.slabUe (i.val * 64 + r.line / 256)).modPort i.val (fun p => { p with
        reads := rest, lastRd := some { r with data := List.replicate 256 0#8, status := 1 } })))) ∧
  (∀ (co : Bool) (k : BitVec 7), (if co then p.co else p.fo) + k.toNat ≤ 64 → Completes (.tileCredit i co k) s (fun g =>
    g = h.modPort i.val (fun p => if co then { p with co := p.co + k.toNat } else { p with fo := p.fo + k.toNat }))) ∧
  (∀ (op : BitVec 8) (tag : BitVec 16),
    Completes (.laneOverrun i .command (some (op, tag))) s (fun g =>
      g = (h.violation i.val 0x22 tag.toNat op.toNat).answerCounted i.val op.toNat tag.toNat scBadArg 0x22) ∧
    Completes (.malformed i (some (op, tag))) s (fun g =>
      g = (h.violation i.val 0x20 tag.toNat op.toNat).answerCounted i.val op.toNat tag.toNat scBadArg 0x20)) ∧
  (∀ l, l ≠ .command → credit (.laneOverrun i l none)) ∧ Completes (.malformed i none) s (fun g => g = h.violation i.val 0x20 0 0)

/-- R458, R459, R498, R500 to R506, R510, R512: a launched port is released at a bar's start once its TCLK is in range and its reset has held; the
drain of a partition takes an ACTIVE port through DRAINING to DRAINED by the tile's acknowledge or its time limit, and back; SB_FAULT raises
TILE_FAULT for the tenant; a violation in handshakes is counted; the violation count leaks; the counter window closes. -/
def Obligations.TilePorts : Prop :=  ∀ (s : State) (i : Tile), s.hw.dieState ≠ 7 →
  let h := s.hw
  let n := tileNode i.val
  let p := h.port i.val
  let quiet : Bool := (h.tileOwner i.val).any (fun t => h.tntState t == 6 || h.tntState t == 5)
  (p.launch ≠ none → h.portState i.val = psReset → bit (h.reg .nodeTclkMeas n) 16 = true → h.bar.rest = 0 → h.bar.phase = 0 →
    p.resetAt + 2400 ≤ h.now → Completes (.portRelease i) s (fun g =>
      g = (h.modReg .tpCond n 0 (setFld · 0 4 psActive)).modPort i.val (fun p => { p with launch := none, ci := 32, leak := 0 }))) ∧
  (∀ k, p.launch = some k → 4 ≤ k → h.portState i.val = psReset → bit (h.reg .nodeTclkMeas n) 16 = false → Completes (.tclkStartTimeout i) s (fun g =>
    g = (h.modPort i.val (fun p => { p with launch := none })).tileF1 i.val 0x0a 0)) ∧
  (quiet = true → h.portState i.val = psActive → Completes (.drainRequest i) s (fun g =>
    g = ((h.modReg .tpCond n 0 (setFld · 0 4 psDraining)).modReg .tpCond n 0 (setBit · 9 true)).modPort i.val (fun p => { p with drainBars := 0 }))) ∧
  (h.portUp i.val = true →
    (bit (h.reg .tpCond n) 9 = true → h.portState i.val = psDraining → Completes (.drainAck i true) s (fun g =>
      g = (h.modReg .tpCond n 0 (setBit · 10 true)).modReg .tpCond n 0 (setFld · 0 4 psDrained))) ∧
    (bit (h.reg .tpCond n) 9 = false → h.portState i.val ≠ psActive → Completes (.drainAck i false) s (fun g =>
      g = (h.modReg .tpCond n 0 (setBit · 10 false)).modReg .tpCond n 0 (setFld · 0 4 psActive))) ∧
    (∀ level, bit (h.reg .tpCond n) 9 ≠ level → Completes (.drainAck i level) s (fun g => g = h.violation i.val 0x24 0 0)) ∧
    (quiet = false → bit (h.reg .tpCond n) 9 = true → Completes (.drainRelease i) s (fun g =>
      let a := h.modReg .tpCond n 0 (setBit · 9 false)
      g = if bit (h.reg .tpCond n) 10 then a else a.modReg .tpCond n 0 (setFld · 0 4 psActive))) ∧
    (∀ code : BitVec 8,
      Completes (.tileFault i code false) s (fun g =>
        g = (h.modReg .tpCond n 0 (fun w => setBit (setFld w 24 8 code.toNat) 11 true)).tileF1 i.val 0x0b code.toNat) ∧
      Completes (.tileFault i code true) s (fun g =>
        g = ((h.modReg .tpCond n 0 (fun w => setBit (setFld w 24 8 code.toNat) 11 false)).tileF1 i.val 0x0b code.toNat).violation i.val 0x24 0 0)) ∧
    Completes (.handshakeViolation i) s (fun g => g = h.violation i.val 0x24 0 0) ∧
    (let k := fld (h.reg .tpViolLimit n) 16 8
     k ≠ 0 → k ≤ p.leak → Completes (.violLeak i) s (fun g =>
       g = (h.modReg .tpViolCnt n 0 (fun w => mkWord [(0, 16, fld w 0 16 - 1)])).modPort i.val (fun p => { p with leak := p.leak - k })))) ∧
  (h.portState i.val = psDraining → fld (h.reg .tpCfg n) 8 5 ≤ p.drainBars → Completes (.drainTimeout i) s (fun g =>
    g = (h.modReg .tpCond n 0 (setFld · 0 4 psDrained)).violation i.val 0x25 0 0)) ∧
  (bit (h.reg .tpCond n) 12 = true → p.winBars = 0 → Completes (.cntWindowClose i) s (fun g => g = h.modReg .tpCond n 0 (setBit · 12 false)))

/-- R516, R521, R533, R546, R547, R549: in RUN the patrol reads a slab's lines in turn and counts their errors; a freed page's bytes are zero once
its zeroing is done, and a set granule's once it is zeroed; a pair that fails is mapped out, with F0; a lease write of a valid tenant leaves its
word; a site's retire bit only sets. -/
def Obligations.SlabsAndHbm : Prop :=  ∀ s : State,
  (s.hw.dieState = 5 → ∀ i : Tile, let n := tileNode i.val
    let line := fld (s.hw.reg .slbScrub n) 0 14
    let next : Word → Word := fun w => if line = 16383 then bumpFld (setFld w 0 14 0) 16 16 1 else setFld w 0 14 (line + 1)
    Completes (.patrolScrub i 0#5 false) s (fun g => g = s.hw.modReg .slbScrub n 0 next) ∧
    Completes (.patrolScrub i 1#5 false) s (fun g =>
      g = ((s.hw.modReg .slbScrub n 0 next).modReg .slbEccEvt n 0 (bumpFld · 0 16 1)).logF2) ∧
    Completes (.patrolScrub i 0#5 true) s (fun g => g = (s.hw.modReg .slbScrub n 0 next).patrolUe n (i.val * 64 + line / 256))) ∧
  (s.hw.dieState ≠ 7 →
    (∀ q : Fin 4096, s.hw.mem.zeroing.contains q.val = true → Completes (.pageZeroDone q) s (fun g =>
      (∀ a, memByte 0#8 g.mem.slab a = if q.val * 65536 ≤ a ∧ a < q.val * 65536 + 65536 then 0#8 else memByte 0#8 s.hw.mem.slab a) ∧
      g = { s.hw with mem := { s.hw.mem with zeroing := s.hw.mem.zeroing.erase q.val, slab := g.mem.slab } })) ∧
    (∀ (m : Fin 12) u b, s.hw.nextGranule m = some (u, b) → bit (s.hw.reg .slbHzero u) b = true → Completes (.granuleZero m) s (fun g =>
      (∀ a, memByte 0#8 g.mem.hbm a = if u * 0x200000 + b * 65536 ≤ a ∧ a < u * 0x200000 + b * 65536 + 65536 then 0#8 else memByte 0#8 s.hw.mem.hbm a) ∧
      g.reg .slbHzero u = setBit (s.hw.reg .slbHzero u) b false))) ∧
  (s.hw.dieState = 5 → ∀ q : Fin 96, s.hw.pairUsable q = true → Completes (.hbmPairFail q) s (fun g =>
    g = ((s.hw.pairOut q true).modReg .ancFaultCond 0 0 (setBit · 4 true)).raiseF0 0x46 (nodeOf 1 (q / 8)) 0)) ∧
  (∀ p (u : BitVec 16) v, let h := s.hw.readied p
    (let id := RegId.slbLease
     let w := merge id.desc.wmask (h.reg id u.toNat) v
     s.hw.writeOpen p ⟨id, u.toNat, 0⟩ → h.pageRetired u.toNat = false → h.partValid (fld w 16 6) = true →
       (bit w 15 = true ∨ bit (h.reg id u.toNat) 15 = false → Completes (.leaseWrite p false u v) s (fun g => g = h.setReg id u.toNat 0 w)) ∧
       (bit w 15 = false → bit (h.reg id u.toNat) 15 = true → Completes (.leaseWrite p false u v) s (fun g =>
         g = (h.setReg id u.toNat 0 w).freePage u.toNat))) ∧
    (let id := RegId.slbHlease
     let w := merge id.desc.wmask (h.reg id u.toNat) v
     s.hw.writeOpen p ⟨id, u.toNat, 0⟩ → h.unitRetired u.toNat = false → h.partValid (fld w 16 6) = true →
       Completes (.leaseWrite p true u v) s (fun g => g = if bit w 15 then (h.setReg id u.toNat 0 w).setReg .slbHzero u.toNat 0 0xFFFFFFFF#32
         else h.setReg id u.toNat 0 w))) ∧
  (∀ p (i : Tile) v, let h := s.hw.readied p
    let n := tileNode i.val
    let w := merge (RegId.desc .tpCfg).wmask (h.reg .tpCfg n) (setBit v 31 true)
    s.hw.writeOpen p ⟨.tpCfg, n, 0⟩ → fld w 8 5 ≠ 0 → fld w 16 4 ≠ 0 → Completes (.siteRetire p i v) s (fun g =>
      g = h.setReg .tpCfg n 0 (setBit w 31 (bit w 31 || bit (h.reg .tpCfg n) 31)) ∧ bit (g.reg .tpCfg n) 31 = true))

/-- R528, R533, R540, R542, R546, R547: an access at its performing node that its generation holds is done in HBM or host memory and answered to its
mover, over the first flow back where its path has one; one that it does not hold changes no byte and is answered as refused; an HBM command that
stays in error maps its pair out; a window that cannot be used raises HOST_WINDOW for the tenant. -/
def Obligations.MemoryPathAccesses : Prop :=  ∀ (s : State) (id : Nat) data (repeats : BitVec 3) ok ce ue dead r, s.hw.dieState ≠ 7 →
  s.hw.mem.reqs.find? (fun r => r.id == id && r.ready && !r.done) = some r →
  let h := s.hw
  let ref := h.memRef r.tenant r.addr
  let holder := (holderNode ref).getD anchorNode
  let answer (h : Hw) (bs : Option (List Byte)) (poison : Bool) : Hw :=
    if r.write then (h.memDrop id).memReturn r bs poison else h.memReply r holder bs poison
  let does (x : Hw) : Prop := Completes (.memoryPathAccess id data repeats ok ce ue dead) s (fun g => g = x)
  (h.holds r.tenant r.gen ref = false → does (answer h none false)) ∧
  (∀ a, h.holds r.tenant r.gen ref = true → ref = .hbm a →
    let h1 := (h.act holder 6).modReg .memEccEvt holder 0 (bumpFld · 16 8 repeats.toNat)
    (dead = true → does (answer (h1.pairFail (a / 0x200000 / 512) 0x46) (some []) (!r.write))) ∧
    (dead = false → r.write = true → does (answer (h1.hbmWrite a ((payloadBytes r.data).take r.len)) (some []) false)) ∧
    (dead = false → r.write = false →
      let h2 := if ce then (h1.modReg .memEccEvt holder 0 (bumpFld · 0 16 1)).logF2 else h1
      let h3 := if ue then (h2.modReg .memEccEvt holder 0 (bumpFld · 24 8 1)).raiseF1 r.tenant r.gen 9 holder 0 else h2
      does (answer h3 (some (h3.hbmRead a r.len)) ue))) ∧
  (∀ k off, h.holds r.tenant r.gen ref = true → ref = .window k off →
    (h.windowOk r.tenant k = false ∨ ok = false → does (answer (h.raiseF1 r.tenant r.gen 0x0d hostNode 0) (some []) (!r.write))) ∧
    (h.windowOk r.tenant k = true → ok = true → r.write = false → does (answer h (some ((data ++ List.replicate r.len 0#8).take r.len)) false)) ∧
    (∀ w, h.windowOk r.tenant k = true → ok = true → r.write = true → (h.jobWindows r.tenant)[k]? = some w →
      does (answer { h with host := { h.host with out := h.host.out ++ [⟨r.tenant + 1, w.2.1 * 65536 + off, (payloadBytes r.data).take r.len⟩] } }
        (some []) false)))

/-- R739, R740, R744 to R747, R753 to R756, R760, R761: in RUN a due computation takes the sensors and the temperature into their registers, shows
the package power, its excess over the window before, the pool left and whether the floors are cut, gives every tenant its allocation, sends the
decreases and then the increases that fit. A partition whose period is over has its share raised, lowered or kept between its floor and its ceiling.
-/
def Obligations.PowerWindows : Prop :=  ∀ s : State,
  (∀ (sensors : List (BitVec 12 × BitVec 12 × Bool)) (temp : BitVec 8), s.hw.dieState = 5 → s.hw.power.due = true →
    let xs := sensors.map (fun x => (x.1.toNat, x.2.1.toNat, x.2.2))
    let a := ((List.range 22).foldl (fun h k => h.sensorIn k (xs.getD k (0, 0, false))) s.hw).setReg .pwaTemp 0 0 (mkWord [(0, 8, temp.toNat)])
    let e := a.packagePower - s.hw.power.last
    let pool := a.budgetNow - a.dieReserve - e
    let cut := decide (pool < (a.shared.map a.floor).sum)
    let al := a.allocations pool
    Completes (.powerWindowCompute sensors temp) s (fun g =>
      g.power.due = false ∧ fld (g.reg .pwaTemp) 0 8 = temp.toNat ∧
      g.reg .pwaMeas = mkWord [(0, 12, Nat.min 4095 a.packagePower), (16, 12, Nat.min 4095 e)] ∧
      g.reg .pwaStatus = mkWord [(20, 12, pool), (17, 1, b2n cut), (16, 1, b2n s.hw.power.therm), (0, 16, a.stamp.1 / 16)] ∧
      bit (g.reg .pwaGrantEvt) 0 = true ∧ (cut = true → bit (g.reg .pwaGrantEvt) 1 = true) ∧
      (∀ t, t < 64 → g.reg .pwaAlloc t = mkWord [(0, 12, a.share t), (16, 12, (sget al t (0, false)).1), (31, 1, b2n (sget al t (0, false)).2)]) ∧
      g.vault = s.hw.vault)) ∧
  (s.hw.dieState ≠ 7 → Completes .powerAdapt s (fun g => ∀ t x, t < 64 → s.hw.power.adapt.find? (fun e => e.1 == t) = some (t, x) →
    let step := fld s.hw.power.window 8 9
    (x.windows < fld s.hw.power.window 0 8 → s.hw.share t = g.share t) ∧
    (fld s.hw.power.window 0 8 ≤ x.windows → g.power.adapt.find? (fun e => e.1 == t) = some (t, {}) ∧
      ((7 * x.granted ≤ 8 * x.drawn ∧ x.limited = true) → g.share t = Nat.min (s.hw.share t + step) (s.hw.ceiling t)) ∧
      (¬ (7 * x.granted ≤ 8 * x.drawn ∧ x.limited = true) →
        (2 * x.drawn < x.granted → g.share t = Nat.max (s.hw.share t - step) (s.hw.floor t)) ∧
        (x.granted ≤ 2 * x.drawn → g.share t = s.hw.share t)))))

/-- R498, R507 to R509, R752, R761, R762: a port that is up has its request kept, a draw above its grant counted; an acknowledgement makes the grant
sent the one in force, sends the grant held back, and lets waiting increases go; one that answers nothing, or comes too late, is a violation; a
partition that starts has its floor shared among its tiles. R764 to R767, R864: in RUN a trip of an enabled droop detector gates its nodes until the
end of gate_bars whole bars after its own; at the gate's end the credits held back return, and the movers go on. A level of THERM_N stands in the
pin. -/
def Obligations.GrantsAndDroops : Prop :=
  (∀ (s : State) (i : Tile), s.hw.dieState ≠ 7 →
    let h := s.hw
    let p := h.port i.val
    (h.portUp i.val = true → ∀ demand draw : BitVec 9,
      let a := h.modPort i.val (fun p => { p with demand := some demand.toNat, draw := draw.toNat })
      ∀ early, let b := if early then a.violation i.val 0x24 0 0 else a
      (draw.toNat ≤ p.grant → Completes (.powerRequest i demand draw early) s (fun g => g = b)) ∧
      (p.grant < draw.toNat → Completes (.powerRequest i demand draw early) s (fun g =>
        g = b.modReg .pwaGrantEvt 0 0 (fun w => bumpFld (if fld w 16 8 = 0 then setFld w 8 6 i.val else w) 16 8 1)))) ∧
    (h.portUp i.val = true → p.grantOut = none → Completes (.powerGrantAck i) s (fun g => g = h.violation i.val 0x24 0 0)) ∧
    (∀ v, h.portUp i.val = true → p.grantOut = some v →
      let take (h : Hw) : Hw := ((h.modPort i.val (fun p => { p with
        grant := v, grantOut := p.grantNext, grantNext := none, grantAt := h.now, grantLate := false })).showPending i.val).sendIncreases
      (h.now ≤ p.grantAt + 4096 ∨ p.grantLate = true → Completes (.powerGrantAck i) s (fun g => g = take h)) ∧
      (p.grantAt + 4096 < h.now → p.grantLate = false → Completes (.powerGrantAck i) s (fun g => g = take (h.violation i.val 0x26 0 0)))) ∧
    (p.grantOut ≠ none → p.grantLate = false → p.grantAt + 4096 < h.now → Completes (.grantAckLate i) s (fun g =>
      g = (h.violation i.val 0x26 0 0).modPort i.val (fun p => { p with grantLate := true }))) ∧
    (∀ t : Tenant, h.power.starts.contains t.val = true → h.bar.phase = 0 → h.bar.rest = 0 →
      let ts := h.grantedTiles t
      let v := grantRound (Nat.min (sget (h.floors h.pool) t.val 0 / ts.length) (h.tmax t))
      Completes (.startGrant t) s (fun g => g = ts.foldl (fun h i => h.sendGrant i v) { h with power := { h.power with
        starts := h.power.starts.filter (· != t.val)
        want := h.power.want.filter (fun w => !ts.contains w.1) ++ (ts.filter (fun i => !h.portUp i)).map (fun i => (i, v)) } }))) ∧
  (∀ s : State,
    (∀ k : BitVec 4, s.hw.dieState = 5 → bit s.hw.power.droop k.toNat = true → Completes (.droopTrip k) s (fun g =>
      let stop := Nat.max (sget s.hw.power.gates k.toNat 0) (s.hw.stamp.1 + fld s.hw.power.droop 16 4 + 1)
      g = ({ s.hw with power := { s.hw.power with gates := sset nlt s.hw.power.gates k.toNat stop 0 } } : Hw).logF2.modReg .pwaGrantEvt 0 0
        (bumpFld · 24 8 1))) ∧
    (s.hw.dieState ≠ 7 → Completes .droopGateEnd s (fun g =>
      g.power.gates = s.hw.power.gates.filter (fun e => decide (s.hw.stamp.1 < e.2)) ∧
      ∀ i : Tile, (∀ e ∈ s.hw.power.gates, s.hw.stamp.1 < e.2 → 8 ≤ e.1 ∧ e.1 - 8 ≠ i.val / 8) → (g.port i.val).held = (0, 0, 0))) ∧
    (∀ level, Completes (.thermNChange level) s (fun g => g = { s.hw with pins := { s.hw.pins with thermN := level } })))

/-- R579 to R584, R635: a training goes from CAL to SB_ACQ with lanes 16 and 17 in NRZ; a peer unit with a good check is taken; both sides seen, it
goes on to DATA_EQ with the sideband lane the peer asks for, then to SELECT; both ends in SELECT derive each direction's lane set, or wait; both
ready, the port is ACTIVE, and its link sends its identity; the wait over, it trains again from CAL. -/
def Obligations.PortsTrain : Prop :=  ∀ (s : State) (p : Port), s.hw.dieState ≠ 7 →
  let h := s.hw
  let q := h.phyOf p
  (h.phyState p = phCal → Completes (.trainCalDone p) s (fun g =>
    g = (((h.setPhyState p phSbAcq).lane17Mode p true).modLane p 16 (setBit · 5 true)).lanesTo p [16, 17] laTrain true)) ∧
  (∀ u, crc8 u = fld u 56 8 → h.phyState p = phSbAcq ∨ h.phyState p = phDataEq ∨ h.phyState p = phSelect → Completes (.trainingUnitRx p u) s (fun g =>
    g = (h.setReg .phyPeerFuse (commonIx p) 0 (BitVec.ofNat 32 (fld u 24 18))).modPhy p (fun q => { q with peer := some u }))) ∧
  (∀ u ms, q.peer = some u → h.phyState p = phSbAcq → bit u 4 = true → Completes (.sbAcqDone p ms) s (fun g =>
    let a := (ms.filter (fun m => 16 ≤ m.lane.val)).foldl (fun h m => h.laneTrained p m) h
    let ok := a.laneSetOk p [16, 17] (ms.filter (fun m => 16 ≤ m.lane.val))
    let b := a.modPhy p (fun q => { q with rxOk := ok, spareNrz := ok.testBit 17, txSb := if fld u 22 1 = 1 then 16 else 17 })
    g = ((b.setPhyState p phDataEq).lane17Mode p false).lanesTo p ((List.range 16) ++ [17]) laTrain true)) ∧
  (∀ ms, h.phyState p = phDataEq → Completes (.dataEqDone p ms) s (fun g =>
    let a := (ms.filter (fun m => m.lane.val ≠ 16)).foldl (fun h m => h.laneTrained p m) h
    let ok := a.laneSetOk p ((List.range 16) ++ [17]) (ms.filter (fun m => m.lane.val ≠ 16))
    g = (a.modPhy p (fun q => { q with rxOk := ok + (if q.rxOk.testBit 16 then 2 ^ 16 else 0) })).setPhyState p phSelect)) ∧
  (∀ u, q.peer = some u → h.phyState p = phSelect → fld u 0 4 = phSelect →
    let fuses := Nat.lor (h.fusedLanes p) (fld u 24 18)
    let tx := laneSet (fld u 6 18) (bit u 42) (Nat.lor fuses (h.txIsol p)) (h.minLanes p)
    let rx := laneSet q.rxOk q.spareNrz (Nat.lor fuses (h.rxIsol p)) (h.minLanes p)
    (∀ t r, tx = some t → rx = some r → Completes (.laneSelect p) s (fun g =>
      g = ((h.setLanes p true t.1).setLanes p false r.1).modPhy p (fun q => { q with
        txSb := t.2.1, txSpare := t.2.2, rxSb := r.2.1, rxSpare := r.2.2 }))) ∧
    (tx = none ∨ rx = none → Completes (.laneSelect p) s (fun g =>
      g = ((h.phyStop p phWait).phyEvt p 0).modPhy p (fun q => { q with began := h.now })))) ∧
  (∀ u, h.phyState p = phSelect → h.txLanes p ≠ 0 → q.peer = some u → fld u 0 4 = phSelect → bit u 4 = true →
    let a := (h.phyActivate p).linkIdent p
    Completes (.portActive p) s (fun g => g = if (a.phyOf p).txSb = 31 then a.linkEvt p 5 else a)) ∧
  (h.phyState p = phWait → Completes (.trainWaitExpiry p) s (fun g => g = h.phyTrain p true ∧ g.phyState p = phCal))

/-- R563 to R566, R587 to R599, R627: a waiting lane that hears a preamble and finds its sync word is in its burst, one that does not counts an
error; a marker or a lost signal ends the burst; a lane whose error count is 255 is isolated and its peer told. The transmitter obeys ISOLATE and
REWAKE of its peer; an unknown lane command is a violation. A quiet direction sleeps at a bar's start, and wakes for tokens or on a wish. -/
def Obligations.LanesOfAPort : Prop :=  ∀ (s : State) (p : Port) (k : Fin 18), s.hw.dieState ≠ 7 →
  let h := s.hw
  let q := h.phyOf p
  let lane := laneIx p k
  let rest (w : BitVec 32) : Option (List (BitVec 32)) := match (h.linkOf p).cmds with | c :: cs => if c = w then some cs else none | [] => none
  let taken (cs : List (BitVec 32)) : Hw := h.modLink p (fun l => { l with cmds := cs })
  (∀ signs win, h.laneWaits p k = true → fld (h.reg .phyPreambleCfg (commonIx p)) 0 8 + 2 * hamming signs preamble ≤ 128 →
    (h.syncFound p k win = true → Completes (.preambleDetect p k signs win) s (fun g =>
      g = ((h.setLane p k (if (h.rxLanes p).testBit k then laActive else laStandby)).modLane p k (setBit · 4 true)).modLink p
        (fun l => { l with desync := l.desync - (if l.desync.testBit k then 2 ^ k.val else 0) }))) ∧
    (h.syncFound p k win = false → Completes (.preambleDetect p k signs win) s (fun g => g = (h.laneEvt p k 0).laneError p k))) ∧
  (h.laneLive p k = true →
    (∀ w1 w2, h.markers p w1 w2 = true → Completes (.burstEnd p k w1 w2) s (fun g => g = (h.setLane p k laSleep).modLane p k (setBit · 4 false))) ∧
    Completes (.laneLos p k) s (fun g => g = (((h.setLane p k laSleep).modLane p k (setBit · 4 false)).laneEvt p k 1).laneError p k)) ∧
  (h.phyState p = phActive → q.rxSb = k.val → h.laneWaits p k = true → bit (h.reg .phyLaneEvt lane) 1 = true → Completes (.sidebandLost p) s (fun g =>
    g = (((h.setLinkState p lsTraining).linkEvt p 0).phyEvt p 4).phyTrain p false ∧ g.phyState p = phSbAcq)) ∧
  (h.laneEc p k = 255 → (h.fusedLanes p).testBit k = false → (h.rxIsol p).testBit k = false → h.phyState p = phActive →
    Completes (.laneIsolate p k) s (fun g =>
      g = (((h.isolateRx p k).modReg .lnkLaneEc p k (setBit · 10 true)).lctl p (1 + 256 * k.val)).phyDownDue p)) ∧
  (∀ w cs, rest w = some cs → laneCmdOk w = true → fld w 0 4 = 1 → fld w 8 5 = k.val → Completes (.isolate p) s (fun g =>
    let a := (taken cs).isolateTx p k
    let b := if q.txSb ≠ 31 ∧ (a.phyOf p).txSb = 31 then a.linkEvt p 5 else a
    g = (b.replayDue p (fun t => t.lane == k.val)).phyDownDue p)) ∧
  (∀ w cs, rest w = some cs → laneCmdOk w = true → fld w 0 4 = 2 → fld w 8 5 = k.val →
    ((h.txIsol p).testBit k = true ∨ (h.fusedLanes p).testBit k = true → Completes (.rewake p) s (fun g => g = taken cs)) ∧
    ((h.txIsol p).testBit k = false → (h.fusedLanes p).testBit k = false →
      (q.asleep = true → (h.txData p).testBit k = true → Completes (.rewake p) s (fun g =>
        g = ((taken cs).modPhy p (fun q => { q with wakeReq := true })).phyWake p)) ∧
      (q.asleep = false ∨ (h.txData p).testBit k = false → Completes (.rewake p) s (fun g => g = (taken cs).laneTx p k true)))) ∧
  (∀ w cs, rest w = some cs → laneCmdOk w = false → Completes (.badLaneCommand p) s (fun g => g = ((taken cs).phyEvt p 2).peerViol p 8)) ∧
  (let cfg := h.reg .phyRampCfg (commonIx p)
   let lanes := burstLanes (h.txData p) (if q.txSpare = 1 then 1 else 0)
   (h.bar.rest = 0 → h.bar.phase = 0 → h.noTokens p = true → h.txIdle p = true → bit cfg 8 = true → fld cfg 0 4 ≤ 4 → h.phyState p = phActive →
     q.asleep = false → q.wakeReq = false → Completes (.directionSleep p) s (fun g =>
       g = (lanes.foldl (fun h k => h.laneTx p k false) h).modPhy p (fun q => { q with asleep := true }))) ∧
   (q.asleep = true → q.wakeReq = true ∨ (h.bar.rest = 0 ∧ h.bar.phase = 0 ∧ h.noTokens p = false) → Completes (.directionWake p) s (fun g =>
     g = (lanes.foldl (fun h k => h.laneTx p k true) h).modPhy p (fun q => { q with asleep := false, wakeReq := false }))))

/-- R605 to R617, R620, R624, R626, R645, R646: a free lane sends a replay that is due, else a new frame, kept until it is acknowledged, else a
control word; a frame whose checks pass on a lane that takes it is stored at its sequence number; the next one in order is delivered, and its credit
goes back once its flits have left; a NAK or a timeout makes a frame go out again. The lane_prev of a lane that has sent no frame is a free value
(log entry 9); that a timeout moves the time to its due time is the model's (log entry 1). -/
def Obligations.LinkFrames : Prop :=  ∀ (s : State) (p : Port), s.hw.dieState ≠ 7 →
  let h := s.hw
  let l := h.linkOf p
  let q := h.phyOf p
  (∀ k : Fin 18, h.phyState p = phActive → h.linkState p = lsIdent ∨ h.linkState p = lsUp → l.downDue = 0 →
    (q.txSb = k.val → Completes (.frameTransmit p k) s (fun g =>
      g = (h.sbNextUnit p).2.modLink p (fun l => { l with sentUnit := some (h.sbNextUnit p).1 }))) ∧
    (q.txSb < 18 → q.txSb ≠ k.val → (h.txData p).testBit k = true → q.asleep = false →
      (∀ t, h.replayFor p k = some t → Completes (.frameTransmit p k) s (fun g =>
        g = ((h.frameOut p k t.frame).modReg .lnkRxEvt p 0 (bumpFld · 8 8 1)).modLink p (fun l => { l with replay := l.replay.map (fun x =>
          if x.frame.seq == t.frame.seq then { x with lane := k.val, replays := x.replays + 1, at' := h.now, due := false } else x) }))) ∧
      (∀ f ok a, h.replayFor p k = none → h.newFrame p = some (f, ok, a) → Completes (.frameTransmit p k) s (fun g =>
        g = (a.modLink p (fun l => { l with
          next := (l.next + 1) % 65536, replay := l.replay ++ [⟨f, k.val, 0, a.now, false, ok⟩]
          sent := if f.rvc = 0 then ((l.sent.1 + 1) % 256, l.sent.2) else (l.sent.1, (l.sent.2 + 1) % 256) })).frameOut p k f)) ∧
      (h.replayFor p k = none → h.newFrame p = none → Completes (.frameTransmit p k) s (fun g =>
        g = (h.unitTail p k).2.modLink p (fun l => { l with sentFrame := some (k.val, controlBytes (h.unitTail p k).1) }))))) ∧
  (∀ (k : Fin 18) (b : List Byte), h.laneTakes p k = true → q.rxSb ≠ k.val →
    let a := (h.modLink p (fun l => { l with goodCtl := serase l.goodCtl k })).act (portNode p) 9
    let n := 32 + payloadLen (leAt b 0 1 % 16) (leAt b 1 1)
    let type := leAt b 0 1 % 16
    (b.length < 32 ∨ crc32c (b.take 28) ≠ leAt b 28 4 → Completes (.frameReceive p k b) s (fun g => g = a.headerFail p k)) ∧
    (32 ≤ b.length → crc32c (b.take 28) = leAt b 28 4 →
      (type ≠ 1 ∧ type ≠ 2 ∧ type ≠ 3 → Completes (.frameReceive p k b) s (fun g => g = a.peerViol p 1)) ∧
      (type = 1 ∨ type = 3 → countOk type (leAt b 1 1) = false → Completes (.frameReceive p k b) s (fun g => g = a.peerViol p 2)) ∧
      (type = 1 ∨ type = 3 → countOk type (leAt b 1 1) = true →
        (b.length < n + 4 ∨ crc32c (b.take n) ≠ leAt b n 4 → Completes (.frameReceive p k b) s (fun g =>
          g = (a.modReg .lnkRxEvt p 0 (bumpFld · 0 8 1)).laneError p k)) ∧
        (n + 4 ≤ b.length → crc32c (b.take n) = leAt b n 4 → reservedSet b = false → leAt b 24 1 = 0 → l.ahead (leAt b 4 2) false = false →
          Completes (.frameReceive p k b) s (fun g => g =
            (((a.laneGood p k).ackIn p (leAt b 4 2) (some (leAt b 8 1, leAt b 9 1)) none).lanePrev p (leAt b 6 2)).frameStore p (parseFrame b)))))) ∧
  (∀ (k : Fin 18) (b : List Byte), h.laneTakes p k = true → q.rxSb ≠ k.val →
    (b.length < 14 ∨ crc32c (b.take 10) ≠ leAt b 10 4 → Completes (.controlWordRx p k b) s (fun g =>
      g = (h.modLink p (fun l => { l with goodCtl := serase l.goodCtl k })).laneError p k)) ∧
    (14 ≤ b.length → crc32c (b.take 10) = leAt b 10 4 → leAt b 0 1 = 8 → leAt b 1 1 = 0 → l.ahead (leAt b 2 2) false = false →
      let run := nget l.goodCtl k.val 0 + 1
      let a := h.modLink p (fun l => { l with goodCtl := nset l.goodCtl k (run % 16) 0 })
      Completes (.controlWordRx p k b) s (fun g => g = ((if run = 16 then a.laneGood p k else a).ackIn p (leAt b 2 2)
        (some (leAt b 6 1, leAt b 7 1)) none).lanePrev p (leAt b 4 2)))) ∧
  (∀ f fs, takeFirst (fun f : Frame => f.seq == l.deliver) l.stored = some (f, fs) →
    (f.dtr = true → Completes (.frameDeliver p) s (fun g =>
      g = h.setLink p { l with stored := fs, deliver := (l.deliver + 1) % 65536, bridge := l.bridge ++ [f] })) ∧
    (f.dtr = false → Completes (.frameDeliver p) s (fun g =>
      g = (f.flits.zip (List.range f.flits.length)).foldl (fun h' x => h'.flitIn p (f.flit x.2 h.opId x.1)) (({ h with opId := h.opId + 1 } : Hw).setLink p
        { l with stored := fs, deliver := (l.deliver + 1) % 65536, held := l.held ++ [(h.opId, f.rvc)] })))) ∧
  (let waits (id : Nat) : Bool := h.bnet.inj.any (fun e => e.1 / 512 == portNode p && e.2.any (fun f => f.op == id)) ||
     h.fold.ring.any (fun e => e.1 / 8192 == portNode p && e.2.any (fun f => f.op == id))
   ∀ e es, takeFirst (fun e : Nat × Nat => !waits e.1) l.held = some (e, es) → Completes (.frameRelease p) s (fun g =>
     g = (h.setLink p { l with held := es }).release p e.2)) ∧
  (∀ f fs, l.bridge = f :: fs → let a := (h.setLink p { l with bridge := fs }).release p f.rvc
    let o := otherPort p
    let m := a.linkOf o
    (0 < f.relay → Completes (.dtrReceive p) s (fun g =>
      g = a.modLink o (fun l => { l with relay := l.relay ++ [{ f with relay := f.relay - 1 }] }))) ∧
    (f.relay = 0 → seqSub f.orig m.expected < 32768 → (∀ x ∈ m.stored, x.seq ≠ f.orig) → Completes (.dtrReceive p) s (fun g =>
      let xs := m.stored ++ [{ f with dtr := false, seq := f.orig }]
      g = a.setLink o { m with stored := xs, expected := advanceA 256 xs m.expected }))) ∧
  (∀ seq : BitVec 16, (l.ahead seq.toNat true = true → Completes (.nakReceive p seq) s (fun g => g = h.peerViol p 5)) ∧
    (l.ahead seq.toNat true = false → Completes (.nakReceive p seq) s (fun g => g = h.replayDue p (fun t => t.frame.seq == seq.toNat)))) ∧
  (∀ t, l.replay.find? (fun t => t.frame.seq == l.old) = some t → t.due = false → h.linkState p = lsUp → Completes (.replayTimeout p) s (fun g =>
    g = ({ h with now := max h.now (t.at' + h.replayRtt p) } : Hw).replayDue p (fun x => x.frame.seq == t.frame.seq)))

/-- R628, R629, R633, R635 to R638, R644, R654: a sideband unit with a good check is accepted in its order; unacknowledged units go out again after
their time. An ECHO is answered, and its reply measured; the peer's identity, right, brings the link up, and wrong, down. A port with a cause is
declared down, as is one that has not come back in time. Its violation count leaks. That a timeout moves the time to its due time is the model's
(log entry 1). -/
def Obligations.LinksUpAndDown : Prop :=  ∀ (s : State) (p : Port), s.hw.dieState ≠ 7 →
  let h := s.hw
  let l := h.linkOf p
  (∀ (k : Fin 18) (part : Fin 8) u, h.laneTakes p k = true → (h.phyOf p).rxSb = k.val →
    (crc8Ok u = false → Completes (.sidebandUnitRx p k part u) s (fun g => g = (h.modLink p (fun l => { l with goodSb := 0 })).laneError p k)) ∧
    (crc8Ok u = true → let a := h.modLink p (fun l => { l with goodSb := (l.goodSb + 1) % 16 })
      Completes (.sidebandUnitRx p k part u) s (fun g =>
        g = ((if l.goodSb + 1 = 16 then a.laneGood p k else a).sbAccept p part u).act (portNode p) 9))) ∧
  (∀ u us, l.unacked = u :: us → let t := max h.now (l.sbAdv + h.sbTimeout p)
    Completes (.sidebandTimeout p) s (fun g => g = ({ h with now := t } : Hw).setLink p { l with resend := some u.useq, sbAdv := t })) ∧
  (∀ ts t, l.echo = some (ts, t) → Completes (.echo p) s (fun g =>
    g = (({ h with now := max h.now (t + 64) } : Hw).setLink p { l with echo := none }).lctl p (9 + 4096 * ts))) ∧
  (∀ ts t, l.echo = none → l.reply = some (ts, t) → Completes (.echo p) s (fun g =>
    g = (h.setLink p { l with reply := none }).modReg .lnkRtt p 0 (setFld · 16 16 (((t + 2 ^ 25 - ts - 512) % 2 ^ 24) / 2)))) ∧
  (∀ c w (rtt : BitVec 16), l.peer0 = some c → l.peer1 = some w → h.linkState p = lsIdent →
    let n := h.neighbourAt p
    let ok : Bool := c.toNat == h.topo.clusterId % 2 ^ 32 && fld w 0 4 == n.1 && fld w 4 4 == n.2.1 && fld w 8 4 == n.2.2 && fld w 12 3 == otherPort p
    let a := h.setReg .lnkPeer p 0 (mkWord [(0, 12, fld w 0 12), (12, 3, fld w 12 3), (15, 1, b2n ok)])
    (ok = false → Completes (.identReceive p rtt) s (fun g => g = (a.linkEvt p 2).declareDown p 3)) ∧
    (ok = true → Completes (.identReceive p rtt) s (fun g =>
      let b := (((a.setLinkState p lsUp).modLink p (fun l => { l with sent := (0, 0), seen := (0, 0), released := (0, 0), back := none })).modReg .lnkRtt
        p 0 (setFld · 0 16 rtt.toNat)).lctl p 8
      g = if h.replayRtt p < rtt.toNat then (b.linkEvt p 3).logF2 else b))) ∧
  (h.linkState p ≠ lsDown → h.linkState p ≠ lsOff →
    (h.phyState p = phDown → Completes (.portDeclaredDown p) s (fun g => g = h.declareDown p 1)) ∧
    (h.phyState p ≠ phDown → l.downDue ≠ 0 → Completes (.portDeclaredDown p) s (fun g => g = h.declareDown p l.downDue))) ∧
  (∀ t cold, l.back = some (t, cold) → Completes (.portReturnTimeout p) s (fun g =>
    g = ({ h with now := max h.now (t + (if cold then 9600000 else 2400000)) } : Hw).declareDown p 4)) ∧
  (let k := fld (h.reg .lnkPortCfg p) 8 8
   k ≠ 0 → k ≤ l.leak → Completes (.peerViolLeak p) s (fun g =>
     g = (h.modReg .lnkViolCnt p 0 (fun w => setFld w 0 16 (fld w 0 16 - 1))).modLink p (fun l => { l with leak := l.leak - k })))

/-- R657, R658, R662, R673, R675, R691, R692, Table 15.5: a trained link comes up at its speed and width with every vector masked; it goes down with
the vectors not yet sent; a requested vector is sent, or pends while masked, and goes out when it is unmasked; an error is reported on its function;
a VF that resets loses its configuration and its launch, and its partition resets. -/
def Obligations.PcieEvents : Prop :=  ∀ s : State,
  let h := s.hw
  let word (fn off : Nat) : Word := h.msixWord fn off
  let message (fn v : Nat) (h : Hw) : Hw := { h with host := { h.host with out := h.host.out ++
    [⟨fn, (word fn (16 * v)).toNat + 2 ^ 32 * (word fn (16 * v + 4)).toNat, natLe 4 (word fn (16 * v + 8)).toNat⟩] } }
  let live : Prop := fld (h.reg .hstLinkStatus) 0 4 ≠ 0 ∧ h.host.d3 = false
  (∀ (speed : BitVec 4) (width : BitVec 6) ari, h.host.training = true → fld (h.reg .hstLinkStatus) 0 4 = 0 → Completes (.pcieLinkUp speed width ari) s
    (fun g => g = ({ h with msix := [], host := { h.host with d3 := false, busMasterOff := [] } } : Hw).setReg .hstLinkStatus 0 0
      (mkWord [(11, 1, b2n ari), (10, 1, b2n (decide (speed.toNat < 3) || decide (width.toNat < 8))), (4, 6, width.toNat), (0, 4, speed.toNat)]))) ∧
  Completes .pcieLinkDown s (fun g => g = { h.setReg .hstLinkStatus 0 0 0#32 with host := { h.host with requested := [] } }) ∧
  Completes .pfD3hot s (fun g => g = { h with host := { h.host with d3 := true } }) ∧
  Completes .pfD0Return s (fun g => g = { h with host := { h.host with d3 := false } }) ∧
  (∀ (fn : Fin 65) (v : Fin 32), h.host.requested.contains (fn.val * 32 + v.val) = true → live →
    let a : Hw := { h with host := { h.host with requested := h.host.requested.erase (fn.val * 32 + v.val) } }
    (bit (word fn (16 * v.val + 12)) 0 = true → Completes (.msixSend fn v) s (fun g =>
      g = a.msixPut fn 0x1000 (setBit (word fn 0x1000) v true))) ∧
    (bit (word fn (16 * v.val + 12)) 0 = false → Completes (.msixSend fn v) s (fun g => g = message fn v a))) ∧
  (∀ (fn : Fin 65) (v : Fin 32), let a := h.msixPut fn (16 * v.val + 12) 0#32
    (bit (word fn 0x1000) v = false → Completes (.msixVectorUnmask fn v) s (fun g => g = a)) ∧
    (bit (word fn 0x1000) v = true → Completes (.msixVectorUnmask fn v) s (fun g =>
      g = message fn v (a.msixPut fn 0x1000 (setBit (word fn 0x1000) v false))))) ∧
  (∀ e fn, Completes (.aerError e fn) s (fun g => g = { h with host := { h.host with aer := h.host.aer ++ [(aerFunction e fn, e)] } })) ∧
  (h.dieState ≠ 7 → ∀ t : Tenant,
    Completes (.vfFlr t) s (fun g => g = h.vfReset t ∧ t.val ∈ g.host.busMasterOff ∧ g.stw.launches = h.stw.launches.filter (fun x => x % 64 != t.val) ∧
      (∀ e ∈ g.msix, e.1 / 0x2000 ≠ t.val + 1) ∧ (g.job t).stage = .none ∧
      (h.tntState t = tsAdmitting → g.tntState t = tsIdle) ∧
      (h.partValid t = true → ∃ x ∈ g.fault.notices, x.f0 = false ∧ x.tenant = t.val ∧ x.cause = 0x11 ∧ x.gen = h.gen t)) ∧
    ∀ vfs, Completes (.vfDisable (t :: vfs)) s (fun g => g = vfs.foldl (fun h u => h.vfReset u.val) (h.vfReset t)))

/-- R519, R520, R524, R528, R666 to R669, R685 to R688: a BAR2 access of a running VF reaches the memory that its tenant holds, byte for byte under
its enables, and its MSI-X table; a refused one reads as zeros and is counted; a change of a window in use withdraws it; the relay sends and
dequeues, showing the result. -/
def Obligations.HostAccesses : Prop :=  ∀ s : State, s.hw.dieState ≠ 7 →
  let h := s.hw
  (∀ (t : Tenant) (off : BitVec 40) (len : BitVec 13), let n := len.toNat
    let zero : List Byte := List.replicate n 0#8
    let give (h : Hw) (bs : List Byte) (poison : Bool) : Hw := { h with host := { h.host with bar2 := bs, poisoned := poison } }
    (h.vfAnswers = false → ∀ err, Completes (.bar2Read t off len err) s (fun g => g = give h (List.replicate n 0xFF#8) false)) ∧
    (bar2Target off.toNat n = .none → ∀ err, Completes (.bar2Read t off len err) s (fun g => g = give h (List.replicate n 0xFF#8) false)) ∧
    (∀ o err, h.vfAnswers = true → bar2Target off.toNat n = .table o ∨ bar2Target off.toNat n = .pba o → Completes (.bar2Read t off len err) s
      (fun g => g = give h (h.msixBytes (t.val + 1) o n) false)) ∧
    (h.vfAnswers = true → ∀ a, bar2Target off.toNat n = .tenant a → let ref := h.memRef t a
      (h.bar2Ok t ref = false → ∀ err, Completes (.bar2Read t off len err) s (fun g =>
        g = give (h.modReg .hstVfEvt t 0 (bumpFld · 24 8 1)) zero false)) ∧
      (h.bar2Ok t ref = true →
        (∀ x, ref = .slab x → let bs := memRead 0#8 h.mem.slab x n
          Completes (.bar2Read t off len .ok) s (fun g => g = give h bs false) ∧
          Completes (.bar2Read t off len .corrected) s (fun g => g = give (h.slabCe (x / 65536)) bs false) ∧
          Completes (.bar2Read t off len .uncorrectable) s (fun g => g = give (h.slabUe (x / 65536)) bs true)) ∧
        (∀ x, ref = .hbm x → Completes (.bar2Read t off len .ok) s (fun g => g = give h (h.hbmRead x n) false))))) ∧
  (∀ (t : Tenant) (off : BitVec 40) data,
    (h.vfAnswers = false ∨ bar2Target off.toNat data.length = .none → Completes (.bar2Write t off data) s (fun g => g = h))) ∧
  (∀ (t : Tenant) (off : BitVec 40) data, h.vfAnswers = true →
    (∀ a, bar2Target off.toNat data.length = .tenant a → let ref := h.memRef t a
      (h.bar2Ok t ref = false → Completes (.bar2Write t off data) s (fun g => g = h.modReg .hstVfEvt t 0 (bumpFld · 24 8 1))) ∧
      (∀ x, h.bar2Ok t ref = true → ref = .slab x → Completes (.bar2Write t off data) s (fun g =>
        g = { h with mem := { h.mem with slab := g.mem.slab } } ∧ ∀ b, memByte 0#8 g.mem.slab b =
          if x ≤ b ∧ b < x + data.length then ((data[b - x]?).bind id).getD (memByte 0#8 h.mem.slab b) else memByte 0#8 h.mem.slab b)) ∧
      (∀ x, h.bar2Ok t ref = true → ref = .hbm x → Completes (.bar2Write t off data) s (fun g =>
        g = h.hbmWrite x (enabled (h.hbmRead x data.length) data)))) ∧
    (∀ o, bar2Target off.toNat data.length = .pba o → Completes (.bar2Write t off data) s (fun g => g = h)) ∧
    (∀ o, bar2Target off.toNat data.length = .table o → Completes (.bar2Write t off data) s (fun g => g = h.msixPutBytes (t.val + 1) o data))) ∧
  (∀ p (t : Tenant) (w : Fin 16) (v : Word), let a := h.readied p
    let lo := h.reg .hstWinBaseLo t w
    let inUse := bit (h.reg .hstWinStatus t w) 0
    let withdrawn (h : Hw) : Hw := (h.modReg .hstWinStatus t w (setBit · 1 true)).modReg .hstVfEvt t 0 (setBit · 4 true)
    (h.writeOpen p ⟨.hstWinBaseLo, t, w⟩ →
      let lo' := merge (RegId.desc .hstWinBaseLo).wmask lo v
      let hi' := sget (h.path p).hold ⟨.hstWinBaseHi, t, w⟩ 0#32
      let b := (a.setReg .hstWinBaseLo t w lo').setReg .hstWinBaseHi t w hi'
      Completes (.windowWithdraw p t w 0 v) s (fun g =>
        g = if (lo' ≠ lo ∨ hi' ≠ h.reg .hstWinBaseHi t w) ∧ inUse = true then withdrawn b else b)) ∧
    (h.writeOpen p ⟨.hstWinBaseHi, t, w⟩ → Completes (.windowWithdraw p t w 1 v) s (fun g =>
      g = a.setPath p { a.path p with hold := sset Reg.lt (h.path p).hold ⟨.hstWinBaseHi, t, w⟩ v 0#32 })) ∧
    (h.writeOpen p ⟨.hstWinSize, t, w⟩ →
      let size := h.reg .hstWinSize t w
      let size' := merge (RegId.desc .hstWinSize).wmask size v
      (bit lo 0 = true → size' = 0#32 → Completes (.windowWithdraw p t w 2 v) s (fun g =>
        g = a.misuse p true 9 (pathAddr p (Reg.addr ⟨.hstWinSize, t, w⟩)))) ∧
      (bit lo 0 = false ∨ size' ≠ 0#32 → Completes (.windowWithdraw p t w 2 v) s (fun g =>
        g = if size' ≠ size ∧ inUse = true then withdrawn (a.setReg .hstWinSize t w size') else a.setReg .hstWinSize t w size')))) ∧
  (∀ c, h.host.relayTx = some c → let a : Hw := { h with host := { h.host with relayTx := none } }
    let r := a.chSend hostNode (a.chSrc c).2 none c h.relayMessage (some (64, 0))
    (a.chValid c = false ∨ (a.chSrc c).1 ≠ hostNode → Completes (.relaySend none) s (fun g => g = a.relayStatus false 0x19 false)) ∧
    (a.chValid c = true → (a.chSrc c).1 = hostNode →
      (r.2 = .accepted → Completes (.relaySend none) s (fun g => g = r.1.relayStatus false 0 false)) ∧
      (r.2 = .full → Completes (.relaySend none) s (fun g => g = r.1.relayStatus false 0x05 false)) ∧
      (r.2 = .stalled → Completes (.relaySend none) s (fun g => g = r.1)))) ∧
  (∀ c merge, h.host.relayRx = some c → let a : Hw := { h with host := { h.host with relayRx := none } }
    let r := a.chDequeue hostNode (a.chDst c).2 c merge
    a.chValid c = true → (a.chDst c).1 = hostNode →
    (r.2 = .empty → Completes (.relayDequeue none merge) s (fun g => g = r.1.relayStatus true 0x04 false)) ∧
    (∀ m, r.2 = .message m → Completes (.relayDequeue none merge) s (fun g =>
      (∀ k, k < 16 → g.reg .hstRelayRx k = BitVec.ofNat 32 (m.toNat / 2 ^ (32 * k))) ∧
      fld (g.reg .hstRelayStatus) 16 8 = 0 ∧ bit (g.reg .hstRelayStatus) 24 = false)))

/-- R38, R676 to R683, R691, R698, R724, R725, R785: a doorbell starts a launch, holding its descriptor, unless one is busy; its plan is read, or it
ends with its code; admission, in its duty's order, ends it with the first check that fails, waits out the generation guard, or programs the plan
and posts the result; a relaunch does so with the copy kept; a stop ends a job that runs, and waits for one that is being admitted. The die
identifiers that admission picks are free values (log entry 12). -/
def Obligations.Launches : Prop :=  ∀ (s : State) (t : Tenant),
  let h := s.hw
  let j := h.job t
  let a := h.readied (.vf t)
  (h.writeOpen (.vf t) ⟨.hstLaunchDb, t, 0⟩ →
    (bit (h.reg .hstLaunchStatus t) 8 = true → Completes (.launchDoorbell t) s (fun g => g = a.modReg .hstVfEvt t 0 (setBit · 5 true))) ∧
    (bit (h.reg .hstLaunchStatus t) 8 = false → Completes (.launchDoorbell t) s (fun g =>
      bit (g.reg .hstLaunchStatus t) 8 = true ∧ g.stw.launches = h.stw.launches ++ [t.val] ∧ (g.job t).stage = .read ∧
      (g.job t).desc = (List.range 8).map (fun k => h.reg .hstLaunchDesc t k) ∧ g.host.busMasterOff = h.host.busMasterOff.erase t.val ∧
      g.tntState t = (if h.tntState t = tsIdle then tsAdmitting else h.tntState t)))) ∧
  (h.dieState ≠ 7 → h.launchTurn t = true → j.stage = .read →
    let n := (j.desc.getD 2 0#32).toNat
    (∀ bytes ok c, h.launchCheck t = some c → Completes (.planReadDone t bytes ok) s (fun g => g = h.launchOver t c)) ∧
    (∀ c, h.launchCheck t = some c → Completes (.admission t) s (fun g => g = h.launchOver t c)) ∧
    (h.launchCheck t = none → ∀ bytes, (fld (h.reg .hstLinkStatus) 0 4 = 0 ∨ h.host.d3 = true ∨ t.val ∈ h.host.busMasterOff ∨ bytes.length ≠ n) →
      Completes (.planReadDone t bytes true) s (fun g => g = h.launchOver t 0x71)) ∧
    (h.launchCheck t = none → fld (h.reg .hstLinkStatus) 0 4 ≠ 0 → h.host.d3 = false → t.val ∉ h.host.busMasterOff → ∀ bytes, bytes.length = n →
      (leAt bytes 8 4 ≠ n → Completes (.planReadDone t bytes true) s (fun g => g = h.launchOver t 0x24)) ∧
      (leAt bytes 8 4 = n → Completes (.planReadDone t bytes true) s (fun g =>
        g = h.modJob t (fun j => { j with copy := bytes, stage := .checks }))))) ∧
  (h.dieState ≠ 7 → h.launchTurn t = true → j.stage = .checks →
    (h.partBusy t = true → Completes (.admission t) s (fun g => g = h.launchOver t 0x01)) ∧
    (h.partBusy t = false →
      (∀ c, h.planFails t j.copy = some c → Completes (.admission t) s (fun g => g = h.launchOver t c)) ∧
      (h.planFails t j.copy = none →
        (h.genFree t (h.nextGen t) = false → Completes (.admission t) s (fun g => g = h.modJob t (fun j => { j with held := true }))) ∧
        (h.genFree t (h.nextGen t) = true →
          let fin : Hw := (((h.program t j.copy).modJob t (fun x => { x with
            cookie := j.desc.getD 3 0#32, relaunchMax := fld (j.desc.getD 4 0#32) 0 4, relaunches := 0 })).launchOver t 0).heldStop t
          Completes (.admission t) s (fun g => g = fin) ∧
          (j.held = true → j.relaunching = false → Completes (.genWaitExpiry t) s (fun g => g = fin)))))) ∧
  (h.dieState ≠ 7 → h.launchTurn (64 + t.val) = true → j.relaunching = true → h.tntState t = tsAdmitting →
    (∀ c, h.planFails t j.plan = some c → Completes (.relaunch t) s (fun g => g = h.relaunchOver t c)) ∧
    (h.planFails t j.plan = none → h.genFree t (h.nextGen t) = true → Completes (.relaunch t) s (fun g =>
      g = ((h.program t j.plan).relaunchOver t 0).heldStop t))) ∧
  (h.writeOpen (.vf t) ⟨.hstJobCtl, t, 0⟩ →
    (h.active t = true → Completes (.jobStop t) s (fun g => g = a.raiseF1 t (h.gen t) 0x10 anchorNode 0 1)) ∧
    (h.tntState t = tsAdmitting → Completes (.jobStop t) s (fun g => g = a.modJob t (fun j => { j with stopHeld := true })))) ∧
  (h.dieState ≠ 7 →
    let off := if h.host.busMasterOff.contains t.val then h.host.busMasterOff else h.host.busMasterOff ++ [t.val]
    let b : Hw := { h with host := { h.host with busMasterOff := off } }
    (j.stage ≠ .read ∨ h.launchTurn t = false → Completes (.vfBusMasterClear t) s (fun g => g = b)) ∧
    (j.stage = .read → h.launchTurn t = true → h.launchCheck t = none → Completes (.vfBusMasterClear t) s (fun g => g = b.launchOver t 0x71)))

/-- R77, R699, R713 to R716, R725, R837: the F1 at the head of the anchor's notices ends the job of its tenant and generation, with its record, its
event and the start of its restart; one of an older generation is counted as stale; with no job it is a duplicate. An F0 ends every job and is
recorded. A partition reset takes the request recorded for it. -/
def Obligations.FaultsAccepted : Prop :=  ∀ (s : State) (x : Notice) (rest : List Notice), s.hw.dieState ≠ 7 → s.hw.fault.atAnchor = x :: rest →
  let h : Hw := { s.hw with fault := { s.hw.fault with atAnchor := rest } }
  let t := x.tenant
  (x.f0 = false →
    (x.gen ≠ h.gen t → Completes .faultAccept s (fun g => g = h.modReg .tntStaleCnt t 0 (bumpFld · 0 32 1))) ∧
    (x.gen = h.gen t → h.active t = true → let late := [0x01, 0x13].contains (if x.remote then x.source else x.cause)
      let a := if late then h.capture t x.cause else h
      Completes .faultAccept s (fun g => g =
        (((a.faultEvt t x.cause (a.gen t) false x.remote).recordEnd t x.cause (a.gen t) x.node x.origin x.bar x.phase x.detail x.source x.remote
          false).vfEvent t 2).beginEnd t (if x.cause = 0x10 ∧ x.source = 1 then 2 else if x.cause = 0x11 then 5 else 3)
            (if x.remote then a.now else x.t0))) ∧
    (x.gen = h.gen t → h.active t = false → Completes .faultAccept s (fun g =>
      g = if h.tntState t = tsQuiesce ∨ h.tntState t = tsScrub then h.gongDup.faultEvt t x.cause x.gen false x.remote else h.gongDup)) ∧
    ((x.cause = 0x10 ∨ x.cause = 0x11) → x.remote = false → ∀ u : Tenant, u.val = t → Completes (.partitionReset u) s (fun g => g = h.acceptF1 x))) ∧
  (x.f0 = true → Completes .f0Accept s (fun g =>
    let r := h.recordF0 x.cause x.node x.bar
    let a : Hw := { r.modReg .ancFaultCond 0 0 (setBit · 7 true) with fault := { r.fault with reapply := true } }
    g = (List.range 64).foldl (fun h u =>
      if h.active u then (h.endBy u x).modJob u (fun j => { j with f0 := true })
      else if h.tntState u = tsQuiesce ∨ h.tntState u = tsScrub then
        (h.faultEvt u x.cause (h.gen u) true false).modJob u (fun j => { j with f0 := true })
      else h) a))

/-- R543, R682, R702, R703, R721, R722, R726, Table 16.5: once the ports of an ending job have drained its state is swept and its fence falls; the
sweep over, its leases are released and its quiesce time shown; the scrub over, its partition is ready, its pages zero: it is relaunched after a
fault while its launch has one left, else IDLE. The die's own resources come back after an F0. An end that the firmware writes ends a running job.
-/
def Obligations.Restarts : Prop :=  ∀ (s : State) (t : Tenant),
  let h := s.hw
  let j := h.job t
  (h.dieState ≠ 7 → j.step = .drain → (∀ i ∈ h.partTiles t, h.portState i ≠ psActive ∧ h.portState i ≠ psDraining) →
    Completes (.restartDrainDone t) s (fun g =>
      g = ((h.sweep t).modReg .tntState t 0 (setBit · 8 false)).modJob t (fun j => { j with step := .sweep, routes := [], phases := [] }))) ∧
  (h.dieState ≠ 7 → j.step = .sweep → Completes (.restartSweepDone t) s (fun g =>
    let us := Nat.min 65535 (cdiv (h.now - j.t0) 2400)
    g = ((((h.setReg .tntRestartTime t 0 (mkWord [(0, 16, us)])).modReg .tntState t 0 (setFld · 0 4 tsScrub)).releaseAll t).clearCounters
      (h.partTiles t)).modJob t (fun j => { j with step := .scrub }))) ∧
  (h.dieState ≠ 7 → j.step = .scrub →
    let z := (h.mem.zeroing.filter (fun p => (h.partTiles t).contains (p / 64))).foldl (fun h p => h.pageZeroDone p) h
    let us := Nat.min 65535 (cdiv (h.now - j.t0) 2400)
    let a := (((z.modReg .tntRestartTime t 0 (setFld · 16 16 us)).vfEvent t 3).modJob t (fun j => { j with
      step := .none, f0 := false, doc := none, tileMask := 0, doneSet := 0 })).f0Settled
    ((j.endCause = 3 ∨ j.endCause = 4) → j.relaunches < j.relaunchMax → Completes (.restartReady t) s (fun g =>
      let b := a.modJob t (fun j => { j with relaunches := j.relaunches + 1, relaunching := true })
      g = { b.modReg .tntState t 0 (setFld · 0 4 tsAdmitting) with stw := { b.stw with launches := b.stw.launches ++ [64 + t.val] } })) ∧
    ((j.endCause ≠ 3 ∧ j.endCause ≠ 4) ∨ j.relaunchMax ≤ j.relaunches → Completes (.restartReady t) s (fun g =>
      g = (a.modReg .tntState t 0 (setFld · 0 4 tsIdle)).vfEvent t 1))) ∧
  (∀ p, h.writeOpen p ⟨.tntCtl, t, 0⟩ → h.tntState t = tsRunning →
    (∀ x ∈ h.fault.atAnchor, x.f0 = false ∧ (x.tenant ≠ t.val ∨ x.gen ≠ h.gen t)) → let a := h.readied p
    Completes (.jobEndComplete p t) s (fun g =>
      g = (a.recordEnd t 0 (h.gen t) anchorNode h.module h.stamp.1 h.stamp.2 0 0 false false).beginEnd t 1 h.now)) ∧
  (h.dieState ≠ 7 → h.fault.reapply = true → (∀ e ∈ h.jobs, e.2.f0 = true → e.2.step ≠ .drain ∧ e.2.step ≠ .sweep) →
    Completes .f0Reapply s (fun g => g.fault.reapply = false ∧ g.vault = h.vault ∧
      ((∀ e ∈ g.jobs, e.2.f0 = false) → bit (g.reg .ancFaultCond) 7 = false)))

/-- R458, R706 to R710, R805: a start write of a multi-module partition in STARTING joins its start round once; released ports, and the round over
where there is one, ring the start bells, and the job is RUNNING; a round that has not completed start_bars bars after joining raises START_TIMEOUT.
-/
def Obligations.JobsStart : Prop :=  ∀ (s : State) (t : Tenant),
  let h := s.hw
  let j := h.job t
  (∀ p, h.writeOpen p ⟨.tntCtl, t, 0⟩ → let a := h.readied p
    (h.partMulti t = true → h.tntState t = tsStarting → j.startBar = none → Completes (.startRoundJoin p t) s (fun g =>
      let b := (a.modReg .tntState t 0 (setBit · 9 true)).modJob t (fun j => { j with startBar := some 0 })
      g = ({ b with snet := { b.snet with start := b.snet.start ++ [(j.startSync, t.val)] } } : Hw).anchorDone ⟨j.startSync, 0, t, h.gen t, []⟩)) ∧
    (h.partMulti t = false ∨ h.tntState t ≠ tsStarting → Completes (.startRoundJoin p t) s (fun g =>
      g = a.misuse p true 9 (pathAddr p (Reg.addr ⟨.tntCtl, t, 0⟩))))) ∧
  (h.dieState ≠ 7 → h.tntState t = tsStarting → (∀ i ∈ bitsOf 64 j.tileMask, (h.port i).launch = none ∧ h.portUp i = true) →
    h.partMulti t = false ∨ t.val ∈ h.snet.startDown →
    let a := ({ h with snet := { h.snet with startDown := h.snet.startDown.filter (· != t.val) } } : Hw).modJob t (fun j => { j with startBar := none })
    let b := (bitsOf 64 j.tileMask).foldl (fun h i => h.modReg .nodeBell (tileNode i) 0 (· ||| 0x10000#32))
      (a.modReg .tntState t 0 (fun w => setBit (setFld w 0 4 tsRunning) 9 false))
    (h.haltedFor t = false → Completes (.startBell t) s (fun g => g = b)) ∧
    (h.haltedFor t = true → Completes (.startBell t) s (fun g => g = b.haltPart t))) ∧
  (∀ k, h.dieState ≠ 7 → h.tntState t = tsStarting → j.startBar = some k → fld (h.reg .tntCfg t) 0 16 ≤ k → t.val ∉ h.snet.startDown →
    Completes (.startTimeout t) s (fun g => g = (h.modJob t (fun j => { j with startBar := none })).raiseF1 t (h.gen t) 0x12 anchorNode 0))

/-- R774, R775, R778 to R783, R789, R790, R797, R804 to R806: a heartbeat's age restarts; an active core with duties whose age has reached 4, or
with an uncorrectable error, fails and its duties pass on; a core halts where the fuses permit it, and its partitions with it, until it resumes. The
timer interrupt stands as its compare has it. The mailbox takes a request, one at a time, and its answer rings the host. A VF vector is requested.
Which core a partner runs is the sender's (log entry 29). -/
def Obligations.StewardCores : Prop :=  ∀ (s : State) (k : Core),
  let h := s.hw
  (∀ v, h.writeOpen (.steward k) ⟨.stwHeartbeat, k, 0⟩ → let a := h.readied (.steward k)
    Completes (.heartbeatWrite k v) s (fun g =>
      g = { a.setReg .stwHeartbeat k 0 (v &&& 0xFFFFFF00#32) with stw := { h.stw with fresh := h.stw.fresh ||| 2 ^ k.val } })) ∧
  (h.dieState ≠ 7 → h.stw.active.testBit k = true → h.dutiesOf k ≠ [] → h.stw.halted.testBit k = false → 4 ≤ fld (h.reg .stwHeartbeat k) 0 8 →
    Completes (.stewardHeartbeatFail k) s (fun g => g = h.coreFail k)) ∧
  (h.dieState ≠ 7 → h.dutiesOf k ≠ [] → h.stw.failed.testBit k = false → k.val ≠ 4 → h.stw.failed.testBit 4 = false → h.dutiesOf 4 = [] →
    4 ≤ fld (h.reg .stwHeartbeat k) 0 8 → h.stw.active.testBit k = true → h.stw.halted.testBit k = false →
    Completes (.stewardHeartbeatFail k) s (fun g => g.stw.failed.testBit k = true ∧ g.stw.active.testBit k = false ∧
      (∀ d ∈ h.dutiesOf k, g.dutyHolder d = some 4) ∧ (∀ d, d < 4 → d ∉ h.dutiesOf k → g.dutyHolder d = h.dutyHolder d))) ∧
  (h.dieState = 5 → ∀ n, Completes (.stewardCoreUe (some k) n) s (fun g => g = h.coreFail k) ∧
    Completes (.stewardCoreUe none n) s (fun g => g = h.raiseF0 0x4c n.val 0)) ∧
  (h.dieState ≠ 7 → h.mtimecmp k ≤ (h.now - h.stw.mtime0) / 12 % 2 ^ 64 → Completes (.mtimeInterrupt k) s (fun g =>
    g = { h with stw := { h.stw with mtip := h.stw.mtip ||| 2 ^ k.val } })) ∧
  (h.dieState = 5 → bit h.fusDebugEff 2 = true → h.stw.failed.testBit k = false → Completes (.coreHalt k) s (fun g =>
    g = ({ h with stw := { h.stw with halted := h.stw.halted ||| 2 ^ k.val } } : Hw).haltRefresh)) ∧
  (h.dieState ≠ 7 → h.stw.halted.testBit k = true → Completes (.coreResume k) s (fun g =>
    g = (({ h with stw := { h.stw with halted := h.stw.halted - 2 ^ k.val } } : Hw).modReg .stwHeartbeat k 0 (setFld · 0 8 0)).haltRefresh)) ∧
  (∀ p v, h.writeOpen p ⟨.stwBreakCtl, 0, 0⟩ → let a := h.readied p
    let at' := pathAddr p (Reg.addr ⟨.stwBreakCtl, 0, 0⟩)
    let old := h.reg .stwBreakCtl
    let w := merge (RegId.desc .stwBreakCtl).wmask old v
    (fld w 0 2 = 3 → Completes (.breakScopeWrite p v) s (fun g => g = a.misuse p true 9 at')) ∧
    (fld w 0 2 ≠ 3 → bit (h.reg .ancLock) 5 = false → Completes (.breakScopeWrite p v) s (fun g => g = (a.setReg .stwBreakCtl 0 0 w).haltRefresh)) ∧
    (fld w 0 2 ≠ 3 → bit (h.reg .ancLock) 5 = true → Completes (.breakScopeWrite p v) s (fun g =>
      g = ((if w = old then a else a.misuse p true 5 at').setReg .stwBreakCtl 0 0 old).haltRefresh))) ∧
  (∀ p, h.writeOpen p ⟨.stwMboxDb, 0, 0⟩ → let a := h.readied p
    (bit (h.reg .stwMboxStatus) 0 = true → Completes (.mboxDoorbell p) s (fun g => g = a.modReg .stwMboxStatus 0 0 (setBit · 2 true))) ∧
    (bit (h.reg .stwMboxStatus) 0 = false → Completes (.mboxDoorbell p) s (fun g =>
      g = a.modReg .stwMboxStatus 0 0 (fun w => setBit (setBit (setBit w 0 true) 1 false) 4 (p == .debug))))) ∧
  (∀ p, h.writeOpen p ⟨.stwMboxDone, 0, 0⟩ → Completes (.mboxDone p) s (fun g =>
    g = ((h.readied p).modReg .stwMboxStatus 0 0 (fun w => setBit (setBit w 0 false) 1 true)).ringBell hostNode 0x20000)) ∧
  (∀ p v, h.writeOpen p ⟨.stwVfIrq, 0, 0⟩ → let a := h.readied p
    Completes (.vfIrq p v) s (fun g => g = if fld v 8 5 < 4 then a.misuse p true 9 (pathAddr p (Reg.addr ⟨.stwVfIrq, 0, 0⟩))
      else a.vector (fld v 0 6 + 1) (fld v 8 5)))

/-- R791 to R795, R844, R845, Tables 18.5 and 18.6: a service answers the request in the mailbox, or on a relay channel, whose duty's holder works:
BAD_SERVICE for an unknown code, BAD_ARG for a range it refuses, PROTECTED over the running slot, else its status with its results; NVM_READ sends
NVM bytes to the host, NVM_WRITE programs pages, NVM_ERASE makes bytes FFH, RETIRE_SITE retires, the dump and the report go to the host. The
firmware is the reference firmware, as far as the manual states its actions (log entry 29). -/
def Obligations.FirmwareServices : Prop :=  ∀ (s : State) (via : Option (BitVec 12 × BitVec 12)) (b : List Byte), s.hw.dieState ≠ 7 →
  let h := s.hw
  let at' := via.map (fun x => (x.1.toNat, x.2.toNat))
  let a := u32 b 8
  let n := u32 b 12
  let answer (h : Hw) (status : Nat) (results : List Byte) : Hw := h.reply at' (replyBytes b status results)
  h.request at' = some b →
  (serviceCodes.contains (u16 b 0) = false → Completes (.badService via) s (fun g => g = answer h 1 [])) ∧
  (leAt b 4 4 ≠ 0 → u16 b 0 = 0x01 → Completes (.info via) s (fun g => g = answer h 2 [])) ∧
  (leAt b 4 4 = 0 →
    (u16 b 0 = 0x01 → Completes (.info via) s (fun g => g = answer h 0 (natLe 4 (((h.image.steward.head?).map (·.fwVersion)).getD 0) ++
      natLe 4 (h.reg .bootImageId).toNat ++ natLe 4 (h.reg .stwDuty).toNat ++ natLe 4 h.stwStatusWord.toNat))) ∧
    (u16 b 0 = 0x10 → ∀ ok timeout,
      (n = 0 ∨ 0x100000 < n ∨ h.nvm.size < a + n → Completes (.nvmRead via ok timeout) s (fun g => g = answer h 2 [])) ∧
      (n ≠ 0 → n ≤ 0x100000 → a + n ≤ h.nvm.size →
        (h.nvmBlocked = true ∨ timeout = true → Completes (.nvmRead via ok timeout) s (fun g => g = answer h 4 [])) ∧
        (h.nvmBlocked = false → timeout = false →
          (ok = false ∨ h.hostReady = false → Completes (.nvmRead via ok timeout) s (fun g => g = answer h 5 [])) ∧
          (ok = true → h.hostReady = true → Completes (.nvmRead via ok timeout) s (fun g =>
            g = answer { h with host := { h.host with out := h.host.out ++ [⟨0, leAt b 16 8, h.nvmRead a n⟩] } } 0 []))))) ∧
    (u16 b 0 = 0x11 → ∀ data,
      (n = 0 ∨ 0x100000 < n ∨ n % 256 ≠ 0 ∨ a % 256 ≠ 0 ∨ h.nvm.size < a + n → ∀ stop, Completes (.nvmWrite via data stop) s (fun g =>
        g = answer h 2 [])) ∧
      (n ≠ 0 → n ≤ 0x100000 → n % 256 = 0 → a % 256 = 0 → a + n ≤ h.nvm.size →
        (u8 b 24 = 0 → h.overSlot a n = true → ∀ stop, Completes (.nvmWrite via data stop) s (fun g => g = answer h 3 [])) ∧
        (u8 b 24 ≠ 0 ∨ h.overSlot a n = false → h.hostReady = true → h.nvmBlocked = false → Completes (.nvmWrite via data none) s (fun g =>
          g = answer { h with nvm := { h.nvm with cells := nvmProgram h.nvm.cells a ((data ++ List.replicate n 0xFF#8).take n) } } 0 [])))) ∧
    (u16 b 0 = 0x12 → n % 4096 = 0 → a % 4096 = 0 → a + n ≤ h.nvm.size →
      (u8 b 24 = 0 → h.overSlot a n = true → ∀ stop, Completes (.nvmErase via stop) s (fun g => g = answer h 3 [])) ∧
      (u8 b 24 ≠ 0 ∨ h.overSlot a n = false → h.nvmBlocked = false → Completes (.nvmErase via none) s (fun g =>
        (∀ c, memByte nvmByte g.nvm.cells c = if a ≤ c ∧ c < a + n then nvmByte else memByte nvmByte h.nvm.cells c) ∧
        g = answer { h with nvm := { h.nvm with cells := g.nvm.cells } } 0 []))) ∧
    (u16 b 0 = 0x20 → Completes (.retireSite via) s (fun g =>
      g = if 64 ≤ u8 b 8 then answer h 2 [] else answer (h.modReg .tpCfg (tileNode (u8 b 8)) 0 (setBit · 31 true)) 0 [])) ∧
    (u16 b 0 = 0x40 → u8 b 8 < 2 → u8 b 10 < 2 → u8 b 8 = 0 ∨ u8 b 9 < 64 → ∀ ok,
      let dump := h.counterDump (if u8 b 8 = 1 then some (u8 b 9) else none) (u8 b 10 == 1)
      (u32 b 24 < dump.length → Completes (.counterDump via ok) s (fun g => g = answer h 2 (written 0 dump.length))) ∧
      (dump.length ≤ u32 b 24 → ok = true → h.hostReady = true → Completes (.counterDump via ok) s (fun g =>
        g = answer { h with host := { h.host with out := h.host.out ++ [⟨0, leAt b 16 8, dump⟩] } } 0 (written dump.length dump.length)))) ∧
    (u16 b 0 = 0x41 → ∀ ok, let mine := h.obs.reports.filter (fun r => u8 b 8 == 0xff || r.1 == u8 b 8)
      (mine = [] → Completes (.hangReport via ok) s (fun g => g = answer h 2 [])) ∧
      (∀ r, mine.getLast? = some r → ok = true → h.hostReady = true → let cut := cutReport r.2 (u32 b 24)
        Completes (.hangReport via ok) s (fun g => g = answer (if cut.isEmpty then h else
          { h with host := { h.host with out := h.host.out ++ [⟨0, leAt b 16 8, cut⟩] } }) 0 (written cut.length r.2.length)))))

/-- R231, R232, R800 to R803, R808, Tables 18.7 and 18.8: an enabled TAP instruction is selected with what its data register captures, a disabled
one selects bypass; SAMPLE and EXTEST capture the pins; a halt request of dmcontrol halts its hart; the debug module's system bus reads and writes
registers as the debug path, with its errors in sbcs. The words of the debug module that Table 18.8 does not give are presumed (log entry 26) and
what an abstract command reads is free (log entry 13). -/
def Obligations.DebugPort : Prop :=  ∀ s : State,
  let h := s.hw
  let tap (code : Nat) (dr : BitVec 64) : Hw := { h with dbg := { h.dbg with tap := code, captured := dr } }
  let scan : Prop := bit h.fusDebugEff 1 = true
  Completes .tapReset s (fun g => g = tap 1 0x00B015AF#64) ∧ Completes .idcode s (fun g => g = tap 1 0x00B015AF#64) ∧
  Completes .bypass s (fun g => g = tap 0xff 0#64) ∧
  (scan → Completes .clamp s (fun g => g = tap 4 0#64) ∧ Completes .highz s (fun g => g = tap 5 0#64) ∧
    ∀ nvm nvmOn dq,
      (∀ load, Completes (.samplePreload nvm nvmOn dq load) s (fun g =>
        g = { h with dbg := { h.dbg with tap := 2, captured := BitVec.ofNat 64 (h.boundarySample nvm nvmOn dq), boundary := load } })) ∧
      (∀ load, Completes (.extest nvm nvmOn dq load) s (fun g => g = { h with dbg := { h.dbg with
        tap := 3, captured := BitVec.ofNat 64 (h.boundarySample nvm nvmOn dq), boundary := load.getD h.dbg.boundary } }))) ∧
  (¬scan → Completes .clamp s (fun g => g = tap 0xff 0#64) ∧ Completes .highz s (fun g => g = tap 0xff 0#64) ∧
    ∀ nvm nvmOn dq, (∀ load, Completes (.samplePreload nvm nvmOn dq load) s (fun g => g = tap 0xff 0#64)) ∧
      (∀ load, Completes (.extest nvm nvmOn dq load) s (fun g => g = tap 0xff 0#64))) ∧
  (bit h.fusDebugEff 0 = false → ∀ a w, Completes (.dmi a w) s (fun g => g = tap 0xff 0#64)) ∧
  (bit h.fusDebugEff 0 = true →
    (∀ a v, Completes (.dmi a (some v)) s (fun g => g = { h.dmiWrite a.toNat v with dbg := { (h.dmiWrite a.toNat v).dbg with
      tap := 0x11, captured := 0#64 } })) ∧
    (∀ a, Completes (.dmi a none) s (fun g => g = { (h.dmiRead a.toNat).1 with dbg := { (h.dmiRead a.toNat).1.dbg with
      tap := 0x11, captured := (h.dmiRead a.toNat).2.setWidth 64 } })) ∧
    (∀ (v : Word) (k : Core), bit v 0 = true → bit v 31 = true → fld v 16 3 = k.val → bit h.fusDebugEff 2 = true → h.dieState = 5 →
      h.stw.failed.testBit k = false → Completes (.dmi 0x10#7 (some v)) s (fun g => g.stw.halted.testBit k = true))) ∧
  (∀ addr w, let a := h.setDm 0x38 (setFld (h.dm 0x38) 17 3 2)
    (bit h.fusDebugEff 3 = false ∨ fld (h.dm 0x38) 12 3 ≠ 0 → Completes (.debugSysbusAccess addr w) s (fun g => g = a)) ∧
    (bit h.fusDebugEff 3 = true → fld (h.dm 0x38) 12 3 = 0 →
      (addr.toNat % 4 ≠ 0 → Completes (.debugSysbusAccess addr w) s (fun g => g = a.sbError 3)) ∧
      (addr.toNat % 4 = 0 → 0x10000000 ≤ addr.toNat → Completes (.debugSysbusAccess addr w) s (fun g => g = a.sbError 2)) ∧
      (addr.toNat % 4 = 0 → addr.toNat < 0x10000000 →
        let b := a.setPath .debug { a.path .debug with accessFault := false }
        let c := match w with | some v => b.busWrite .debug addr.toNat v noDevice | none => b.busRead .debug addr.toNat
        ((c.path .debug).accessFault = true → Completes (.debugSysbusAccess addr w) s (fun g => g = c.sbError 7)) ∧
        ((c.path .debug).accessFault = false → Completes (.debugSysbusAccess addr w) s (fun g =>
          let d := if w.isNone then c.setDm 0x3c (c.path .debug).resp else c
          g = if bit (d.dm 0x38) 16 then d.setDm 0x39 (d.dm 0x39 + 4#32) else d)))))

/-- R825, R830, R834, R835, R837, R838, R843: PMC_FREEZE_REQ sends FREEZE and THAW for the bar that lies lead bars ahead; the watchdog, enabled,
raises HANG for a tenant's wait that has reached its limit, and a die wait of that age captures; a release lets the next capture go; the report of a
capture is kept, with the three before it, and the tenant's VF interrupted; a freed bin's words are 0. Which of several waits a record names is a
free choice (log entry 11). -/
def Obligations.Observation : Prop :=  ∀ s : State,
  let h := s.hw
  (∀ p v, h.writeOpen p ⟨.pmcFreezeReq, 0, 0⟩ → let a := h.readied p
    let send (op : Nat) : Hw := if fld v 8 4 < 3 then a.misuse p true 9 (pathAddr p (Reg.addr ⟨.pmcFreezeReq, 0, 0⟩))
      else a.gongSend op (bit v 12) (bit v 4) h.sysTenant 0 ((h.stamp.1 + fld v 8 4) % 4096) anchorNode
    Completes (.pmcFreeze p v) s (fun g => g = send 1) ∧ Completes (.pmcThaw p v) s (fun g => g = send 2)) ∧
  (h.dieState ≠ 7 → ∀ (n : Node) (e : Fin 12),
    let w0 := h.reg .pmcWait n (4 * e)
    let w1 := h.reg .pmcWait n (4 * e + 1)
    let age := (h.reg .pmcWait n (4 * e + 2)).toNat
    let t := fld w1 16 6
    bit w0 15 = true →
    (bit (h.reg .pmcHangCfg) 31 = true → fld w0 0 4 ≠ 5 → fld w0 0 4 ≠ 0xd → fld w0 0 4 ≠ 0xc → fld w1 22 10 ≠ 0 → bit (h.reg .pmcTntHang t) 31 = false →
      h.tntState t = tsRunning ∨ h.tntState t = tsHalted →
      (if fld (h.reg .pmcTntHang t) 0 20 = 0 then fld (h.reg .pmcHangCfg) 0 20 else fld (h.reg .pmcTntHang t) 0 20) ≤ age →
      Completes (.hangWatchdogTrip n e) s (fun g =>
        g = (h.modReg .pmcHangEvt 0 0 (fun w => bumpFld (if fld w 24 8 = 0 then setFld w 8 6 t else w) 24 8 1)).raiseF1 t (fld w1 22 10) 0x13 n 0)) ∧
    (fld w1 22 10 = 0 → age = fld (h.reg .pmcHangCfg) 0 20 → Completes (.dieWaitLimit n e) s (fun g =>
      g = ((h.modReg .pmcHangEvt 0 0 (bumpFld · 16 8 1)).logF2).capture h.sysTenant 0))) ∧
  (∀ p, h.writeOpen p ⟨.pmcHangRel, 0, 0⟩ → Completes (.hangRelease p) s (fun g =>
    g = (h.readied p).modReg .pmcHangStatus 0 0 (setBit · 0 false))) ∧
  (h.dieState ≠ 7 → h.obs.due = true → bit (h.reg .pmcHangStatus) 0 = true → Completes .hangReportAssemble s (fun g =>
    let t := fld (h.reg .pmcHangStatus) 8 6
    let rs := h.obs.reports ++ [(t, h.hangReportBytes)]
    g = (({ h with obs := { h.obs with due := false, reports := rs.drop (rs.length - 4) } } : Hw).vector (t + 1) 4).modReg .pmcHangStatus 0 0
      (setBit · 0 false))) ∧
  (∀ p (n : Node) (b : BitVec 5), h.writeOpen p ⟨.pmcBinCmds, n, b.toNat⟩ → Completes (.binFree p n b) s (fun g =>
    (∀ id ∈ [RegId.pmcBinKey, .pmcBinCmds, .pmcBinBusyLo, .pmcBinBusyHi, .pmcBinStallLo, .pmcBinStallHi, .pmcBinBytesLo, .pmcBinBytesHi],
      g.reg id n b.toNat = 0#32) ∧ (h.readied p).OnlyRegs g
        [.pmcBinKey, .pmcBinCmds, .pmcBinBusyLo, .pmcBinBusyHi, .pmcBinStallLo, .pmcBinStallHi, .pmcBinBytesLo, .pmcBinBytesHi]))
end

