-- ==== Sys2Proof/Laws/Sparse.lean ====
section
/-! SUPPORT. Laws of sparse stores: reading after a write, and the canonical form that every operation keeps. -/

namespace Sys2Proof.Machine

section
variable {κ α : Type} [DecidableEq κ]

@[simp] theorem sget_nil (k : κ) (d : α) : sget [] k d = d := rfl

theorem sget_cons (e : κ × α) (m : List (κ × α)) (k : κ) (d : α) : sget (e :: m) k d = if e.1 = k then e.2 else sget m k d := rfl

theorem sget_serase_same (m : List (κ × α)) (k : κ) (d : α) : sget (serase m k) k d = d := by
  induction m with
  | nil => rfl
  | cons e m ih =>
    by_cases hk : e.1 = k
    · simpa [serase, hk] using ih
    · simpa [serase, hk, sget_cons] using ih

theorem sget_serase_other (m : List (κ × α)) {k k' : κ} (hne : k' ≠ k) (d : α) : sget (serase m k) k' d = sget m k' d := by
  induction m with
  | nil => rfl
  | cons e m ih =>
    unfold serase at ih ⊢
    rw [List.filter_cons]
    by_cases hk : e.1 = k
    · have hn : ¬ e.1 = k' := fun he => hne (he.symm.trans hk)
      rw [sget_cons, if_neg hn]
      simpa [hk] using ih
    · rw [if_pos (by simpa using hk), sget_cons, sget_cons, ih]

theorem sget_sinsert (lt : κ → κ → Bool) (m : List (κ × α)) (k k' : κ) (v d : α) (hno : ∀ e ∈ m, e.1 ≠ k) :
    sget (sinsert lt m k v) k' d = if k = k' then v else sget m k' d := by
  induction m with
  | nil => rfl
  | cons e m ih =>
    have hm : ∀ e ∈ m, e.1 ≠ k := fun x hx => hno x (List.mem_cons_of_mem _ hx)
    unfold sinsert
    split
    · rw [sget_cons, ih hm, sget_cons]
      by_cases h1 : e.1 = k'
      · have : ¬ k = k' := fun h => hno e List.mem_cons_self (h1.trans h.symm)
        simp [h1, this]
      · simp [h1]
    · rw [sget_cons]

theorem serase_not_mem (m : List (κ × α)) (k : κ) : ∀ e ∈ serase m k, e.1 ≠ k := by
  intro e he
  simpa [serase] using (List.mem_filter.mp he).2

/-- What a store reads after a write, over any default of the key that is read. -/
theorem sget_sset_any [DecidableEq α] (lt : κ → κ → Bool) (m : List (κ × α)) (k k' : κ) (v d d' : α) :
    sget (sset lt m k v d) k' d' = if k = k' then (if v = d then d' else v) else sget m k' d' := by
  unfold sset
  by_cases hd : v = d
  · by_cases hk : k = k'
    · subst hk; simp [hd, sget_serase_same]
    · simp [hd, hk, sget_serase_other m (fun h => hk h.symm) d']
  · by_cases hk : k = k'
    · subst hk; simp [hd, sget_sinsert lt _ _ _ _ _ (serase_not_mem m k)]
    · simp [hd, hk, sget_sinsert lt _ _ _ _ _ (serase_not_mem m k), sget_serase_other m (fun h => hk h.symm) d']

/-- What a store reads after a write. -/
theorem sget_sset [DecidableEq α] (lt : κ → κ → Bool) (m : List (κ × α)) (k k' : κ) (v d : α) :
    sget (sset lt m k v d) k' d = if k = k' then v else sget m k' d := by
  rw [sget_sset_any]
  by_cases hk : k = k' <;> by_cases hd : v = d <;> simp [hk, hd]

/-- A store without the entries that a test rejects. -/
theorem sget_filter (m : List (κ × α)) (p : κ → Bool) (k : κ) (d : α) :
    sget (m.filter (fun e => p e.1)) k d = if p k then sget m k d else d := by
  induction m with
  | nil => simp
  | cons e m ih =>
    by_cases he : p e.1
    · by_cases hk : e.1 = k
      · subst hk; simp [he, sget_cons]
      · rw [List.filter_cons]
        simp [he, sget_cons, hk, ih]
    · have he' : p e.1 = false := by simpa using he
      rw [List.filter_cons]
      by_cases hk : e.1 = k
      · subst hk; simp [he', ih]
      · simp [he', sget_cons, hk, ih]

end

@[simp] theorem nget_nset {α : Type} [DecidableEq α] (m : List (Nat × α)) (k k' : Nat) (v d : α) :
    nget (nset m k v d) k' d = if k = k' then v else nget m k' d := sget_sset nlt m k k' v d

theorem nget_nset_any {α : Type} [DecidableEq α] (m : List (Nat × α)) (k k' : Nat) (v d d' : α) :
    nget (nset m k v d) k' d' = if k = k' then (if v = d then d' else v) else nget m k' d' := sget_sset_any nlt m k k' v d d'

@[simp] theorem nget_nil {α : Type} (k : Nat) (d : α) : nget ([] : List (Nat × α)) k d = d := rfl

/-! The canonical form over number keys: every key lies above `lo`, keys rise, no entry holds the default. -/

/-- All keys of a canonical store are at least lo. -/
def nwfFrom {α : Type} (d : α) : Nat → List (Nat × α) → Prop
  | _, [] => True
  | lo, e :: m => lo ≤ e.1 ∧ e.2 ≠ d ∧ nwfFrom d (e.1 + 1) m

theorem nwfFrom_le {α : Type} (d : α) {lo lo' : Nat} (h : lo' ≤ lo) : ∀ {m : List (Nat × α)}, nwfFrom d lo m → nwfFrom d lo' m
  | [], _ => trivial
  | _ :: _, hm => ⟨Nat.le_trans h hm.1, hm.2⟩

theorem swf_iff {α : Type} [DecidableEq α] (d : α) (m : List (Nat × α)) : swf nlt (fun _ => d) m = true ↔ nwfFrom d 0 m := by
  have gen : ∀ (m : List (Nat × α)) (lo : Nat),
      ((match m with | [] => true | e :: _ => decide (lo ≤ e.1)) = true ∧ swf nlt (fun _ => d) m = true) ↔ nwfFrom d lo m := by
    intro m
    induction m with
    | nil => intro lo; simp [swf, nwfFrom]
    | cons e m ih =>
      intro lo
      have := ih (e.1 + 1)
      simp only [swf, nwfFrom, Bool.and_eq_true, decide_eq_true_eq, ne_eq]
      rw [← this]
      cases m with
      | nil => simp
      | cons e' m => simp [nlt, Nat.succ_le_iff, and_assoc, and_left_comm]
  have := gen m 0
  rw [← this]
  cases m <;> simp

theorem nwfFrom_filter {α : Type} (d : α) (p : Nat × α → Bool) :
    ∀ {m : List (Nat × α)} {lo : Nat}, nwfFrom d lo m → nwfFrom d lo (m.filter p)
  | [], _, _ => trivial
  | e :: m, lo, hm => by
    rw [List.filter_cons]
    by_cases hp : p e
    · simp only [hp]
      exact ⟨hm.1, hm.2.1, nwfFrom_filter d p hm.2.2⟩
    · simp only [hp]
      exact nwfFrom_le d (by have := hm.1; omega) (nwfFrom_filter d p hm.2.2)

theorem nwfFrom_sinsert {α : Type} (d : α) (k : Nat) (v : α) (hv : v ≠ d) :
    ∀ {m : List (Nat × α)} {lo : Nat}, nwfFrom d lo m → lo ≤ k → (∀ e ∈ m, e.1 ≠ k) → nwfFrom d lo (sinsert nlt m k v)
  | [], _, _, hlo, _ => ⟨hlo, hv, trivial⟩
  | e :: m, lo, hm, hlo, hne => by
    unfold sinsert
    by_cases hlt : nlt e.1 k = true
    · have hk : e.1 < k := by simpa [nlt] using hlt
      simp only [hlt, if_true]
      exact ⟨hm.1, hm.2.1, nwfFrom_sinsert d k v hv hm.2.2 hk (fun x hx => hne x (List.mem_cons_of_mem _ hx))⟩
    · have hk : k < e.1 := by
        have h1 : ¬ e.1 < k := by simpa [nlt] using hlt
        have h2 : e.1 ≠ k := hne e List.mem_cons_self
        omega
      simp only [hlt]
      exact ⟨hlo, hv, hk, hm.2⟩

/-- Writing a key keeps the canonical form. -/
theorem swf_nset {α : Type} [DecidableEq α] (m : List (Nat × α)) (k : Nat) (v d : α) (h : swf nlt (fun _ => d) m = true) :
    swf nlt (fun _ => d) (nset m k v d) = true := by
  rw [swf_iff] at h ⊢
  unfold nset sset
  split
  · exact nwfFrom_filter d _ h
  · exact nwfFrom_sinsert d k v ‹_› (nwfFrom_filter d _ h) (Nat.zero_le _) (serase_not_mem m k)

/-- Removing entries keeps the canonical form. -/
theorem swf_filter {α : Type} [DecidableEq α] (m : List (Nat × α)) (d : α) (p : Nat × α → Bool)
    (h : swf nlt (fun _ => d) m = true) : swf nlt (fun _ => d) (m.filter p) = true := by
  rw [swf_iff] at h ⊢
  exact nwfFrom_filter d p h

end Sys2Proof.Machine
end

