-- ==== Sys2Proof/Laws/State.lean ====
section
/-! SUPPORT. Laws of the state's accessors: what a register, a path, a tile port, a job, a link or a PHY reads after a write of one of them, and
what each update leaves alone. -/

namespace Sys2Proof.Machine

theorem State.does_eq (s : State) (f : Hw → Hw) : s.does f = .next { s with hw := f s.hw } := rfl

/-- What no step of a fold changes, the fold does not change. -/
theorem Hw.foldl_same {α β : Type} (P : Hw → β) (l : List α) (g : Hw → α → Hw) (hg : ∀ h x, P (g h x) = P h) : ∀ h, P (l.foldl g h) = P h := by
  induction l with
  | nil => intro h; rfl
  | cons a l ih => intro h; exact (ih _).trans (hg h a)

/-- A command whose meaning is one operation of the block completes where that operation gives what is asked. -/
theorem completes_iff {s : State} {c : Instr} {f : Hw → Hw} {P : Hw → Prop} (h : exec c s = s.does f) : Completes c s P ↔ P (f s.hw) := by
  unfold Completes; rw [h]
  constructor
  · rintro ⟨t, ht, _, hp⟩; cases ht; exact hp
  · intro hp; exact ⟨_, rfl, rfl, hp⟩

/-- Where FCLK runs, a command of the FCLK domain is its operation. -/
theorem Hw.clocked_on {h : Hw} {f : Hw → Hw} (hc : h.dieState ≠ stClockLost) : h.clocked f = f h := by unfold Hw.clocked; rw [if_neg hc]

/-- Where FCLK stands, it changes nothing. -/
theorem Hw.clocked_off {h : Hw} {f : Hw → Hw} (hc : h.dieState = stClockLost) : h.clocked f = h := by unfold Hw.clocked; rw [if_pos hc]

/-! Registers: one home for each, read after write. -/

@[simp] theorem Hw.reg_setReg (h : Hw) (id id' : RegId) (i j i' j' : Nat) (v : Word) :
    (h.setReg id i j v).reg id' i' j' = if id = id' ∧ i = i' ∧ j = j' then v else h.reg id' i' j' := by
  unfold Hw.reg Hw.setReg
  rw [sget_sset_any]
  by_cases hk : (⟨id, i, j⟩ : Reg) = ⟨id', i', j'⟩
  · cases hk; simp only [if_true, and_self]; split
    · rename_i hv; exact hv.symm
    · rfl
  · have hn : ¬ (id = id' ∧ i = i' ∧ j = j') := fun ⟨a, b, c⟩ => hk (by rw [a, b, c])
    rw [if_neg hk, if_neg hn]

@[simp] theorem Hw.reg_modReg (h : Hw) (id id' : RegId) (i j i' j' : Nat) (f : Word → Word) :
    (h.modReg id i j f).reg id' i' j' = if id = id' ∧ i = i' ∧ j = j' then f (h.reg id i j) else h.reg id' i' j' := by
  unfold Hw.modReg; exact Hw.reg_setReg h id id' i j i' j' _

/-- A register reads by the register file alone. -/
theorem Hw.reg_congr {g h : Hw} (e : g.regs = h.regs) (id : RegId) (i j : Nat) : g.reg id i j = h.reg id i j := by unfold Hw.reg; rw [e]

theorem pathCode_inj {p q : Path} (e : pathCode p = pathCode q) : p = q := by
  cases p <;> cases q <;> simp [pathCode, Fin.ext_iff] at e ⊢ <;> omega

@[simp] theorem Hw.path_setPath (h : Hw) (p q : Path) (v : PathState) : (h.setPath p v).path q = if p = q then v else h.path q := by
  unfold Hw.path Hw.setPath
  rw [nget_nset]
  by_cases hp : p = q
  · rw [if_pos (by rw [hp]), if_pos hp]
  · rw [if_neg (fun e => hp (pathCode_inj e)), if_neg hp]


@[simp] theorem Hw.port_setPort (h : Hw) (i k : Nat) (v : TilePort) : (h.setPort i v).port k = if i = k then v else h.port k := nget_nset _ _ _ _ _

@[simp] theorem Hw.port_modPort (h : Hw) (i k : Nat) (f : TilePort → TilePort) : (h.modPort i f).port k = if i = k then f (h.port i) else h.port k :=
  Hw.port_setPort h i k _

@[simp] theorem Hw.job_setJob (h : Hw) (i k : Nat) (v : JobState) : (h.setJob i v).job k = if i = k then v else h.job k := nget_nset _ _ _ _ _

@[simp] theorem Hw.job_modJob (h : Hw) (i k : Nat) (f : JobState → JobState) : (h.modJob i f).job k = if i = k then f (h.job i) else h.job k :=
  Hw.job_setJob h i k _

@[simp] theorem Hw.linkOf_setLink (h : Hw) (i k : Nat) (v : LinkPort) : (h.setLink i v).linkOf k = if i = k then v else h.linkOf k := nget_nset _ _ _ _ _

@[simp] theorem Hw.linkOf_modLink (h : Hw) (i k : Nat) (f : LinkPort → LinkPort) : (h.modLink i f).linkOf k = if i = k then f (h.linkOf i) else h.linkOf k :=
  Hw.linkOf_setLink h i k _

@[simp] theorem Hw.phyOf_setPhy (h : Hw) (i k : Nat) (v : PhyPort) : (h.setPhy i v).phyOf k = if i = k then v else h.phyOf k := nget_nset _ _ _ _ _

@[simp] theorem Hw.phyOf_modPhy (h : Hw) (i k : Nat) (f : PhyPort → PhyPort) : (h.modPhy i f).phyOf k = if i = k then f (h.phyOf i) else h.phyOf k :=
  Hw.phyOf_setPhy h i k _

/-! What each update leaves alone. -/

@[simp] theorem Hw.setReg_keeps (h : Hw) (id : RegId) (i : Nat) (j : Nat) (v : Word) :
    (Hw.setReg h id i j v).banks = h.banks ∧ (Hw.setReg h id i j v).paths = h.paths ∧ (Hw.setReg h id i j v).now = h.now ∧
    (Hw.setReg h id i j v).free = h.free ∧ (Hw.setReg h id i j v).cpl = h.cpl ∧ (Hw.setReg h id i j v).bar = h.bar ∧
    (Hw.setReg h id i j v).pins = h.pins ∧ (Hw.setReg h id i j v).rst = h.rst ∧ (Hw.setReg h id i j v).fuse = h.fuse ∧
    (Hw.setReg h id i j v).nvm = h.nvm ∧ (Hw.setReg h id i j v).health = h.health ∧ (Hw.setReg h id i j v).boot = h.boot ∧
    (Hw.setReg h id i j v).doc = h.doc ∧ (Hw.setReg h id i j v).fault = h.fault ∧ (Hw.setReg h id i j v).msix = h.msix ∧
    (Hw.setReg h id i j v).bnet = h.bnet ∧ (Hw.setReg h id i j v).cnet = h.cnet ∧ (Hw.setReg h id i j v).snet = h.snet ∧
    (Hw.setReg h id i j v).fold = h.fold ∧ (Hw.setReg h id i j v).ports = h.ports ∧ (Hw.setReg h id i j v).mem = h.mem ∧
    (Hw.setReg h id i j v).busy = h.busy ∧ (Hw.setReg h id i j v).opId = h.opId ∧ (Hw.setReg h id i j v).coll = h.coll ∧
    (Hw.setReg h id i j v).host = h.host ∧ (Hw.setReg h id i j v).jobs = h.jobs ∧ (Hw.setReg h id i j v).phy = h.phy ∧
    (Hw.setReg h id i j v).link = h.link ∧ (Hw.setReg h id i j v).power = h.power ∧ (Hw.setReg h id i j v).stw = h.stw ∧
    (Hw.setReg h id i j v).dbg = h.dbg ∧ (Hw.setReg h id i j v).obs = h.obs := ⟨rfl, rfl, rfl, rfl, rfl, rfl, rfl, rfl, rfl, rfl, rfl, rfl, rfl, rfl, rfl, rfl, rfl, rfl, rfl, rfl, rfl, rfl, rfl, rfl, rfl, rfl, rfl, rfl, rfl, rfl, rfl, rfl⟩

@[simp] theorem Hw.modReg_keeps (h : Hw) (id : RegId) (i : Nat) (j : Nat) (f : Word → Word) :
    (Hw.modReg h id i j f).banks = h.banks ∧ (Hw.modReg h id i j f).paths = h.paths ∧ (Hw.modReg h id i j f).now = h.now ∧
    (Hw.modReg h id i j f).free = h.free ∧ (Hw.modReg h id i j f).cpl = h.cpl ∧ (Hw.modReg h id i j f).bar = h.bar ∧
    (Hw.modReg h id i j f).pins = h.pins ∧ (Hw.modReg h id i j f).rst = h.rst ∧ (Hw.modReg h id i j f).fuse = h.fuse ∧
    (Hw.modReg h id i j f).nvm = h.nvm ∧ (Hw.modReg h id i j f).health = h.health ∧ (Hw.modReg h id i j f).boot = h.boot ∧
    (Hw.modReg h id i j f).doc = h.doc ∧ (Hw.modReg h id i j f).fault = h.fault ∧ (Hw.modReg h id i j f).msix = h.msix ∧
    (Hw.modReg h id i j f).bnet = h.bnet ∧ (Hw.modReg h id i j f).cnet = h.cnet ∧ (Hw.modReg h id i j f).snet = h.snet ∧
    (Hw.modReg h id i j f).fold = h.fold ∧ (Hw.modReg h id i j f).ports = h.ports ∧ (Hw.modReg h id i j f).mem = h.mem ∧
    (Hw.modReg h id i j f).busy = h.busy ∧ (Hw.modReg h id i j f).opId = h.opId ∧ (Hw.modReg h id i j f).coll = h.coll ∧
    (Hw.modReg h id i j f).host = h.host ∧ (Hw.modReg h id i j f).jobs = h.jobs ∧ (Hw.modReg h id i j f).phy = h.phy ∧
    (Hw.modReg h id i j f).link = h.link ∧ (Hw.modReg h id i j f).power = h.power ∧ (Hw.modReg h id i j f).stw = h.stw ∧
    (Hw.modReg h id i j f).dbg = h.dbg ∧ (Hw.modReg h id i j f).obs = h.obs := ⟨rfl, rfl, rfl, rfl, rfl, rfl, rfl, rfl, rfl, rfl, rfl, rfl, rfl, rfl, rfl, rfl, rfl, rfl, rfl, rfl, rfl, rfl, rfl, rfl, rfl, rfl, rfl, rfl, rfl, rfl, rfl, rfl⟩

@[simp] theorem Hw.setPath_keeps (h : Hw) (p : Path) (v : PathState) :
    (Hw.setPath h p v).regs = h.regs ∧ (Hw.setPath h p v).banks = h.banks ∧ (Hw.setPath h p v).now = h.now ∧
    (Hw.setPath h p v).free = h.free ∧ (Hw.setPath h p v).cpl = h.cpl ∧ (Hw.setPath h p v).bar = h.bar ∧ (Hw.setPath h p v).pins = h.pins ∧
    (Hw.setPath h p v).rst = h.rst ∧ (Hw.setPath h p v).fuse = h.fuse ∧ (Hw.setPath h p v).nvm = h.nvm ∧
    (Hw.setPath h p v).health = h.health ∧ (Hw.setPath h p v).boot = h.boot ∧ (Hw.setPath h p v).doc = h.doc ∧
    (Hw.setPath h p v).fault = h.fault ∧ (Hw.setPath h p v).msix = h.msix ∧ (Hw.setPath h p v).bnet = h.bnet ∧
    (Hw.setPath h p v).cnet = h.cnet ∧ (Hw.setPath h p v).snet = h.snet ∧ (Hw.setPath h p v).fold = h.fold ∧
    (Hw.setPath h p v).ports = h.ports ∧ (Hw.setPath h p v).mem = h.mem ∧ (Hw.setPath h p v).busy = h.busy ∧
    (Hw.setPath h p v).opId = h.opId ∧ (Hw.setPath h p v).coll = h.coll ∧ (Hw.setPath h p v).host = h.host ∧
    (Hw.setPath h p v).jobs = h.jobs ∧ (Hw.setPath h p v).phy = h.phy ∧ (Hw.setPath h p v).link = h.link ∧
    (Hw.setPath h p v).power = h.power ∧ (Hw.setPath h p v).stw = h.stw ∧ (Hw.setPath h p v).dbg = h.dbg ∧
    (Hw.setPath h p v).obs = h.obs := ⟨rfl, rfl, rfl, rfl, rfl, rfl, rfl, rfl, rfl, rfl, rfl, rfl, rfl, rfl, rfl, rfl, rfl, rfl, rfl, rfl, rfl, rfl, rfl, rfl, rfl, rfl, rfl, rfl, rfl, rfl, rfl, rfl⟩

@[simp] theorem Hw.setPort_keeps (h : Hw) (i : Nat) (p : TilePort) :
    (Hw.setPort h i p).regs = h.regs ∧ (Hw.setPort h i p).banks = h.banks ∧ (Hw.setPort h i p).paths = h.paths ∧
    (Hw.setPort h i p).now = h.now ∧ (Hw.setPort h i p).free = h.free ∧ (Hw.setPort h i p).cpl = h.cpl ∧ (Hw.setPort h i p).bar = h.bar ∧
    (Hw.setPort h i p).pins = h.pins ∧ (Hw.setPort h i p).rst = h.rst ∧ (Hw.setPort h i p).fuse = h.fuse ∧ (Hw.setPort h i p).nvm = h.nvm ∧
    (Hw.setPort h i p).health = h.health ∧ (Hw.setPort h i p).boot = h.boot ∧ (Hw.setPort h i p).doc = h.doc ∧
    (Hw.setPort h i p).fault = h.fault ∧ (Hw.setPort h i p).msix = h.msix ∧ (Hw.setPort h i p).bnet = h.bnet ∧
    (Hw.setPort h i p).cnet = h.cnet ∧ (Hw.setPort h i p).snet = h.snet ∧ (Hw.setPort h i p).fold = h.fold ∧
    (Hw.setPort h i p).mem = h.mem ∧ (Hw.setPort h i p).busy = h.busy ∧ (Hw.setPort h i p).opId = h.opId ∧
    (Hw.setPort h i p).coll = h.coll ∧ (Hw.setPort h i p).host = h.host ∧ (Hw.setPort h i p).jobs = h.jobs ∧
    (Hw.setPort h i p).phy = h.phy ∧ (Hw.setPort h i p).link = h.link ∧ (Hw.setPort h i p).power = h.power ∧
    (Hw.setPort h i p).stw = h.stw ∧ (Hw.setPort h i p).dbg = h.dbg ∧ (Hw.setPort h i p).obs = h.obs := ⟨rfl, rfl, rfl, rfl, rfl, rfl, rfl, rfl, rfl, rfl, rfl, rfl, rfl, rfl, rfl, rfl, rfl, rfl, rfl, rfl, rfl, rfl, rfl, rfl, rfl, rfl, rfl, rfl, rfl, rfl, rfl, rfl⟩

@[simp] theorem Hw.modPort_keeps (h : Hw) (i : Nat) (f : TilePort → TilePort) :
    (Hw.modPort h i f).regs = h.regs ∧ (Hw.modPort h i f).banks = h.banks ∧ (Hw.modPort h i f).paths = h.paths ∧
    (Hw.modPort h i f).now = h.now ∧ (Hw.modPort h i f).free = h.free ∧ (Hw.modPort h i f).cpl = h.cpl ∧ (Hw.modPort h i f).bar = h.bar ∧
    (Hw.modPort h i f).pins = h.pins ∧ (Hw.modPort h i f).rst = h.rst ∧ (Hw.modPort h i f).fuse = h.fuse ∧ (Hw.modPort h i f).nvm = h.nvm ∧
    (Hw.modPort h i f).health = h.health ∧ (Hw.modPort h i f).boot = h.boot ∧ (Hw.modPort h i f).doc = h.doc ∧
    (Hw.modPort h i f).fault = h.fault ∧ (Hw.modPort h i f).msix = h.msix ∧ (Hw.modPort h i f).bnet = h.bnet ∧
    (Hw.modPort h i f).cnet = h.cnet ∧ (Hw.modPort h i f).snet = h.snet ∧ (Hw.modPort h i f).fold = h.fold ∧
    (Hw.modPort h i f).mem = h.mem ∧ (Hw.modPort h i f).busy = h.busy ∧ (Hw.modPort h i f).opId = h.opId ∧
    (Hw.modPort h i f).coll = h.coll ∧ (Hw.modPort h i f).host = h.host ∧ (Hw.modPort h i f).jobs = h.jobs ∧
    (Hw.modPort h i f).phy = h.phy ∧ (Hw.modPort h i f).link = h.link ∧ (Hw.modPort h i f).power = h.power ∧
    (Hw.modPort h i f).stw = h.stw ∧ (Hw.modPort h i f).dbg = h.dbg ∧ (Hw.modPort h i f).obs = h.obs := ⟨rfl, rfl, rfl, rfl, rfl, rfl, rfl, rfl, rfl, rfl, rfl, rfl, rfl, rfl, rfl, rfl, rfl, rfl, rfl, rfl, rfl, rfl, rfl, rfl, rfl, rfl, rfl, rfl, rfl, rfl, rfl, rfl⟩

@[simp] theorem Hw.setJob_keeps (h : Hw) (t : Nat) (j : JobState) :
    (Hw.setJob h t j).regs = h.regs ∧ (Hw.setJob h t j).banks = h.banks ∧ (Hw.setJob h t j).paths = h.paths ∧
    (Hw.setJob h t j).now = h.now ∧ (Hw.setJob h t j).free = h.free ∧ (Hw.setJob h t j).cpl = h.cpl ∧ (Hw.setJob h t j).bar = h.bar ∧
    (Hw.setJob h t j).pins = h.pins ∧ (Hw.setJob h t j).rst = h.rst ∧ (Hw.setJob h t j).fuse = h.fuse ∧ (Hw.setJob h t j).nvm = h.nvm ∧
    (Hw.setJob h t j).health = h.health ∧ (Hw.setJob h t j).boot = h.boot ∧ (Hw.setJob h t j).doc = h.doc ∧
    (Hw.setJob h t j).fault = h.fault ∧ (Hw.setJob h t j).msix = h.msix ∧ (Hw.setJob h t j).bnet = h.bnet ∧
    (Hw.setJob h t j).cnet = h.cnet ∧ (Hw.setJob h t j).snet = h.snet ∧ (Hw.setJob h t j).fold = h.fold ∧
    (Hw.setJob h t j).ports = h.ports ∧ (Hw.setJob h t j).mem = h.mem ∧ (Hw.setJob h t j).busy = h.busy ∧ (Hw.setJob h t j).opId = h.opId ∧
    (Hw.setJob h t j).coll = h.coll ∧ (Hw.setJob h t j).host = h.host ∧ (Hw.setJob h t j).phy = h.phy ∧ (Hw.setJob h t j).link = h.link ∧
    (Hw.setJob h t j).power = h.power ∧ (Hw.setJob h t j).stw = h.stw ∧ (Hw.setJob h t j).dbg = h.dbg ∧ (Hw.setJob h t j).obs = h.obs := ⟨rfl, rfl, rfl, rfl, rfl, rfl, rfl, rfl, rfl, rfl, rfl, rfl, rfl, rfl, rfl, rfl, rfl, rfl, rfl, rfl, rfl, rfl, rfl, rfl, rfl, rfl, rfl, rfl, rfl, rfl, rfl, rfl⟩

@[simp] theorem Hw.modJob_keeps (h : Hw) (t : Nat) (f : JobState → JobState) :
    (Hw.modJob h t f).regs = h.regs ∧ (Hw.modJob h t f).banks = h.banks ∧ (Hw.modJob h t f).paths = h.paths ∧
    (Hw.modJob h t f).now = h.now ∧ (Hw.modJob h t f).free = h.free ∧ (Hw.modJob h t f).cpl = h.cpl ∧ (Hw.modJob h t f).bar = h.bar ∧
    (Hw.modJob h t f).pins = h.pins ∧ (Hw.modJob h t f).rst = h.rst ∧ (Hw.modJob h t f).fuse = h.fuse ∧ (Hw.modJob h t f).nvm = h.nvm ∧
    (Hw.modJob h t f).health = h.health ∧ (Hw.modJob h t f).boot = h.boot ∧ (Hw.modJob h t f).doc = h.doc ∧
    (Hw.modJob h t f).fault = h.fault ∧ (Hw.modJob h t f).msix = h.msix ∧ (Hw.modJob h t f).bnet = h.bnet ∧
    (Hw.modJob h t f).cnet = h.cnet ∧ (Hw.modJob h t f).snet = h.snet ∧ (Hw.modJob h t f).fold = h.fold ∧
    (Hw.modJob h t f).ports = h.ports ∧ (Hw.modJob h t f).mem = h.mem ∧ (Hw.modJob h t f).busy = h.busy ∧ (Hw.modJob h t f).opId = h.opId ∧
    (Hw.modJob h t f).coll = h.coll ∧ (Hw.modJob h t f).host = h.host ∧ (Hw.modJob h t f).phy = h.phy ∧ (Hw.modJob h t f).link = h.link ∧
    (Hw.modJob h t f).power = h.power ∧ (Hw.modJob h t f).stw = h.stw ∧ (Hw.modJob h t f).dbg = h.dbg ∧ (Hw.modJob h t f).obs = h.obs := ⟨rfl, rfl, rfl, rfl, rfl, rfl, rfl, rfl, rfl, rfl, rfl, rfl, rfl, rfl, rfl, rfl, rfl, rfl, rfl, rfl, rfl, rfl, rfl, rfl, rfl, rfl, rfl, rfl, rfl, rfl, rfl, rfl⟩

@[simp] theorem Hw.setLink_keeps (h : Hw) (p : Nat) (v : LinkPort) :
    (Hw.setLink h p v).regs = h.regs ∧ (Hw.setLink h p v).banks = h.banks ∧ (Hw.setLink h p v).paths = h.paths ∧
    (Hw.setLink h p v).now = h.now ∧ (Hw.setLink h p v).free = h.free ∧ (Hw.setLink h p v).cpl = h.cpl ∧ (Hw.setLink h p v).bar = h.bar ∧
    (Hw.setLink h p v).pins = h.pins ∧ (Hw.setLink h p v).rst = h.rst ∧ (Hw.setLink h p v).fuse = h.fuse ∧ (Hw.setLink h p v).nvm = h.nvm ∧
    (Hw.setLink h p v).health = h.health ∧ (Hw.setLink h p v).boot = h.boot ∧ (Hw.setLink h p v).doc = h.doc ∧
    (Hw.setLink h p v).fault = h.fault ∧ (Hw.setLink h p v).msix = h.msix ∧ (Hw.setLink h p v).bnet = h.bnet ∧
    (Hw.setLink h p v).cnet = h.cnet ∧ (Hw.setLink h p v).snet = h.snet ∧ (Hw.setLink h p v).fold = h.fold ∧
    (Hw.setLink h p v).ports = h.ports ∧ (Hw.setLink h p v).mem = h.mem ∧ (Hw.setLink h p v).busy = h.busy ∧
    (Hw.setLink h p v).opId = h.opId ∧ (Hw.setLink h p v).coll = h.coll ∧ (Hw.setLink h p v).host = h.host ∧
    (Hw.setLink h p v).jobs = h.jobs ∧ (Hw.setLink h p v).phy = h.phy ∧ (Hw.setLink h p v).power = h.power ∧
    (Hw.setLink h p v).stw = h.stw ∧ (Hw.setLink h p v).dbg = h.dbg ∧ (Hw.setLink h p v).obs = h.obs := ⟨rfl, rfl, rfl, rfl, rfl, rfl, rfl, rfl, rfl, rfl, rfl, rfl, rfl, rfl, rfl, rfl, rfl, rfl, rfl, rfl, rfl, rfl, rfl, rfl, rfl, rfl, rfl, rfl, rfl, rfl, rfl, rfl⟩

@[simp] theorem Hw.modLink_keeps (h : Hw) (p : Nat) (f : LinkPort → LinkPort) :
    (Hw.modLink h p f).regs = h.regs ∧ (Hw.modLink h p f).banks = h.banks ∧ (Hw.modLink h p f).paths = h.paths ∧
    (Hw.modLink h p f).now = h.now ∧ (Hw.modLink h p f).free = h.free ∧ (Hw.modLink h p f).cpl = h.cpl ∧ (Hw.modLink h p f).bar = h.bar ∧
    (Hw.modLink h p f).pins = h.pins ∧ (Hw.modLink h p f).rst = h.rst ∧ (Hw.modLink h p f).fuse = h.fuse ∧ (Hw.modLink h p f).nvm = h.nvm ∧
    (Hw.modLink h p f).health = h.health ∧ (Hw.modLink h p f).boot = h.boot ∧ (Hw.modLink h p f).doc = h.doc ∧
    (Hw.modLink h p f).fault = h.fault ∧ (Hw.modLink h p f).msix = h.msix ∧ (Hw.modLink h p f).bnet = h.bnet ∧
    (Hw.modLink h p f).cnet = h.cnet ∧ (Hw.modLink h p f).snet = h.snet ∧ (Hw.modLink h p f).fold = h.fold ∧
    (Hw.modLink h p f).ports = h.ports ∧ (Hw.modLink h p f).mem = h.mem ∧ (Hw.modLink h p f).busy = h.busy ∧
    (Hw.modLink h p f).opId = h.opId ∧ (Hw.modLink h p f).coll = h.coll ∧ (Hw.modLink h p f).host = h.host ∧
    (Hw.modLink h p f).jobs = h.jobs ∧ (Hw.modLink h p f).phy = h.phy ∧ (Hw.modLink h p f).power = h.power ∧
    (Hw.modLink h p f).stw = h.stw ∧ (Hw.modLink h p f).dbg = h.dbg ∧ (Hw.modLink h p f).obs = h.obs := ⟨rfl, rfl, rfl, rfl, rfl, rfl, rfl, rfl, rfl, rfl, rfl, rfl, rfl, rfl, rfl, rfl, rfl, rfl, rfl, rfl, rfl, rfl, rfl, rfl, rfl, rfl, rfl, rfl, rfl, rfl, rfl, rfl⟩

@[simp] theorem Hw.setPhy_keeps (h : Hw) (p : Nat) (v : PhyPort) :
    (Hw.setPhy h p v).regs = h.regs ∧ (Hw.setPhy h p v).banks = h.banks ∧ (Hw.setPhy h p v).paths = h.paths ∧
    (Hw.setPhy h p v).now = h.now ∧ (Hw.setPhy h p v).free = h.free ∧ (Hw.setPhy h p v).cpl = h.cpl ∧ (Hw.setPhy h p v).bar = h.bar ∧
    (Hw.setPhy h p v).pins = h.pins ∧ (Hw.setPhy h p v).rst = h.rst ∧ (Hw.setPhy h p v).fuse = h.fuse ∧ (Hw.setPhy h p v).nvm = h.nvm ∧
    (Hw.setPhy h p v).health = h.health ∧ (Hw.setPhy h p v).boot = h.boot ∧ (Hw.setPhy h p v).doc = h.doc ∧
    (Hw.setPhy h p v).fault = h.fault ∧ (Hw.setPhy h p v).msix = h.msix ∧ (Hw.setPhy h p v).bnet = h.bnet ∧
    (Hw.setPhy h p v).cnet = h.cnet ∧ (Hw.setPhy h p v).snet = h.snet ∧ (Hw.setPhy h p v).fold = h.fold ∧
    (Hw.setPhy h p v).ports = h.ports ∧ (Hw.setPhy h p v).mem = h.mem ∧ (Hw.setPhy h p v).busy = h.busy ∧ (Hw.setPhy h p v).opId = h.opId ∧
    (Hw.setPhy h p v).coll = h.coll ∧ (Hw.setPhy h p v).host = h.host ∧ (Hw.setPhy h p v).jobs = h.jobs ∧ (Hw.setPhy h p v).link = h.link ∧
    (Hw.setPhy h p v).power = h.power ∧ (Hw.setPhy h p v).stw = h.stw ∧ (Hw.setPhy h p v).dbg = h.dbg ∧ (Hw.setPhy h p v).obs = h.obs := ⟨rfl, rfl, rfl, rfl, rfl, rfl, rfl, rfl, rfl, rfl, rfl, rfl, rfl, rfl, rfl, rfl, rfl, rfl, rfl, rfl, rfl, rfl, rfl, rfl, rfl, rfl, rfl, rfl, rfl, rfl, rfl, rfl⟩

@[simp] theorem Hw.modPhy_keeps (h : Hw) (p : Nat) (f : PhyPort → PhyPort) :
    (Hw.modPhy h p f).regs = h.regs ∧ (Hw.modPhy h p f).banks = h.banks ∧ (Hw.modPhy h p f).paths = h.paths ∧
    (Hw.modPhy h p f).now = h.now ∧ (Hw.modPhy h p f).free = h.free ∧ (Hw.modPhy h p f).cpl = h.cpl ∧ (Hw.modPhy h p f).bar = h.bar ∧
    (Hw.modPhy h p f).pins = h.pins ∧ (Hw.modPhy h p f).rst = h.rst ∧ (Hw.modPhy h p f).fuse = h.fuse ∧ (Hw.modPhy h p f).nvm = h.nvm ∧
    (Hw.modPhy h p f).health = h.health ∧ (Hw.modPhy h p f).boot = h.boot ∧ (Hw.modPhy h p f).doc = h.doc ∧
    (Hw.modPhy h p f).fault = h.fault ∧ (Hw.modPhy h p f).msix = h.msix ∧ (Hw.modPhy h p f).bnet = h.bnet ∧
    (Hw.modPhy h p f).cnet = h.cnet ∧ (Hw.modPhy h p f).snet = h.snet ∧ (Hw.modPhy h p f).fold = h.fold ∧
    (Hw.modPhy h p f).ports = h.ports ∧ (Hw.modPhy h p f).mem = h.mem ∧ (Hw.modPhy h p f).busy = h.busy ∧ (Hw.modPhy h p f).opId = h.opId ∧
    (Hw.modPhy h p f).coll = h.coll ∧ (Hw.modPhy h p f).host = h.host ∧ (Hw.modPhy h p f).jobs = h.jobs ∧ (Hw.modPhy h p f).link = h.link ∧
    (Hw.modPhy h p f).power = h.power ∧ (Hw.modPhy h p f).stw = h.stw ∧ (Hw.modPhy h p f).dbg = h.dbg ∧ (Hw.modPhy h p f).obs = h.obs := ⟨rfl, rfl, rfl, rfl, rfl, rfl, rfl, rfl, rfl, rfl, rfl, rfl, rfl, rfl, rfl, rfl, rfl, rfl, rfl, rfl, rfl, rfl, rfl, rfl, rfl, rfl, rfl, rfl, rfl, rfl, rfl, rfl⟩

@[simp] theorem Hw.setCtx_keeps (h : Hw) (n : Nat) (k : Nat) (c : FoldCtx) :
    (Hw.setCtx h n k c).regs = h.regs ∧ (Hw.setCtx h n k c).banks = h.banks ∧ (Hw.setCtx h n k c).paths = h.paths ∧
    (Hw.setCtx h n k c).now = h.now ∧ (Hw.setCtx h n k c).free = h.free ∧ (Hw.setCtx h n k c).cpl = h.cpl ∧
    (Hw.setCtx h n k c).bar = h.bar ∧ (Hw.setCtx h n k c).pins = h.pins ∧ (Hw.setCtx h n k c).rst = h.rst ∧
    (Hw.setCtx h n k c).fuse = h.fuse ∧ (Hw.setCtx h n k c).nvm = h.nvm ∧ (Hw.setCtx h n k c).health = h.health ∧
    (Hw.setCtx h n k c).boot = h.boot ∧ (Hw.setCtx h n k c).doc = h.doc ∧ (Hw.setCtx h n k c).fault = h.fault ∧
    (Hw.setCtx h n k c).msix = h.msix ∧ (Hw.setCtx h n k c).bnet = h.bnet ∧ (Hw.setCtx h n k c).cnet = h.cnet ∧
    (Hw.setCtx h n k c).snet = h.snet ∧ (Hw.setCtx h n k c).ports = h.ports ∧ (Hw.setCtx h n k c).mem = h.mem ∧
    (Hw.setCtx h n k c).busy = h.busy ∧ (Hw.setCtx h n k c).opId = h.opId ∧ (Hw.setCtx h n k c).coll = h.coll ∧
    (Hw.setCtx h n k c).host = h.host ∧ (Hw.setCtx h n k c).jobs = h.jobs ∧ (Hw.setCtx h n k c).phy = h.phy ∧
    (Hw.setCtx h n k c).link = h.link ∧ (Hw.setCtx h n k c).power = h.power ∧ (Hw.setCtx h n k c).stw = h.stw ∧
    (Hw.setCtx h n k c).dbg = h.dbg ∧ (Hw.setCtx h n k c).obs = h.obs := ⟨rfl, rfl, rfl, rfl, rfl, rfl, rfl, rfl, rfl, rfl, rfl, rfl, rfl, rfl, rfl, rfl, rfl, rfl, rfl, rfl, rfl, rfl, rfl, rfl, rfl, rfl, rfl, rfl, rfl, rfl, rfl, rfl⟩

@[simp] theorem Hw.setSeq_keeps (h : Hw) (q : Nat) (j : Nat) (s : SeqState) :
    (Hw.setSeq h q j s).regs = h.regs ∧ (Hw.setSeq h q j s).banks = h.banks ∧ (Hw.setSeq h q j s).paths = h.paths ∧
    (Hw.setSeq h q j s).now = h.now ∧ (Hw.setSeq h q j s).free = h.free ∧ (Hw.setSeq h q j s).cpl = h.cpl ∧
    (Hw.setSeq h q j s).bar = h.bar ∧ (Hw.setSeq h q j s).pins = h.pins ∧ (Hw.setSeq h q j s).rst = h.rst ∧
    (Hw.setSeq h q j s).fuse = h.fuse ∧ (Hw.setSeq h q j s).nvm = h.nvm ∧ (Hw.setSeq h q j s).health = h.health ∧
    (Hw.setSeq h q j s).boot = h.boot ∧ (Hw.setSeq h q j s).doc = h.doc ∧ (Hw.setSeq h q j s).fault = h.fault ∧
    (Hw.setSeq h q j s).msix = h.msix ∧ (Hw.setSeq h q j s).bnet = h.bnet ∧ (Hw.setSeq h q j s).cnet = h.cnet ∧
    (Hw.setSeq h q j s).snet = h.snet ∧ (Hw.setSeq h q j s).fold = h.fold ∧ (Hw.setSeq h q j s).ports = h.ports ∧
    (Hw.setSeq h q j s).mem = h.mem ∧ (Hw.setSeq h q j s).busy = h.busy ∧ (Hw.setSeq h q j s).opId = h.opId ∧
    (Hw.setSeq h q j s).host = h.host ∧ (Hw.setSeq h q j s).jobs = h.jobs ∧ (Hw.setSeq h q j s).phy = h.phy ∧
    (Hw.setSeq h q j s).link = h.link ∧ (Hw.setSeq h q j s).power = h.power ∧ (Hw.setSeq h q j s).stw = h.stw ∧
    (Hw.setSeq h q j s).dbg = h.dbg ∧ (Hw.setSeq h q j s).obs = h.obs := ⟨rfl, rfl, rfl, rfl, rfl, rfl, rfl, rfl, rfl, rfl, rfl, rfl, rfl, rfl, rfl, rfl, rfl, rfl, rfl, rfl, rfl, rfl, rfl, rfl, rfl, rfl, rfl, rfl, rfl, rfl, rfl, rfl⟩

@[simp] theorem Hw.setResp_keeps (h : Hw) (n : Nat) (k : Nat) (r : AgentResp) :
    (Hw.setResp h n k r).regs = h.regs ∧ (Hw.setResp h n k r).banks = h.banks ∧ (Hw.setResp h n k r).paths = h.paths ∧
    (Hw.setResp h n k r).now = h.now ∧ (Hw.setResp h n k r).free = h.free ∧ (Hw.setResp h n k r).cpl = h.cpl ∧
    (Hw.setResp h n k r).bar = h.bar ∧ (Hw.setResp h n k r).pins = h.pins ∧ (Hw.setResp h n k r).rst = h.rst ∧
    (Hw.setResp h n k r).fuse = h.fuse ∧ (Hw.setResp h n k r).nvm = h.nvm ∧ (Hw.setResp h n k r).health = h.health ∧
    (Hw.setResp h n k r).boot = h.boot ∧ (Hw.setResp h n k r).doc = h.doc ∧ (Hw.setResp h n k r).fault = h.fault ∧
    (Hw.setResp h n k r).msix = h.msix ∧ (Hw.setResp h n k r).bnet = h.bnet ∧ (Hw.setResp h n k r).snet = h.snet ∧
    (Hw.setResp h n k r).fold = h.fold ∧ (Hw.setResp h n k r).ports = h.ports ∧ (Hw.setResp h n k r).mem = h.mem ∧
    (Hw.setResp h n k r).busy = h.busy ∧ (Hw.setResp h n k r).opId = h.opId ∧ (Hw.setResp h n k r).coll = h.coll ∧
    (Hw.setResp h n k r).host = h.host ∧ (Hw.setResp h n k r).jobs = h.jobs ∧ (Hw.setResp h n k r).phy = h.phy ∧
    (Hw.setResp h n k r).link = h.link ∧ (Hw.setResp h n k r).power = h.power ∧ (Hw.setResp h n k r).stw = h.stw ∧
    (Hw.setResp h n k r).dbg = h.dbg ∧ (Hw.setResp h n k r).obs = h.obs := ⟨rfl, rfl, rfl, rfl, rfl, rfl, rfl, rfl, rfl, rfl, rfl, rfl, rfl, rfl, rfl, rfl, rfl, rfl, rfl, rfl, rfl, rfl, rfl, rfl, rfl, rfl, rfl, rfl, rfl, rfl, rfl, rfl⟩

@[simp] theorem Hw.setCplPend_keeps (h : Hw) (c : CplReg) (v : Option CplPend) :
    (Hw.setCplPend h c v).regs = h.regs ∧ (Hw.setCplPend h c v).banks = h.banks ∧ (Hw.setCplPend h c v).paths = h.paths ∧
    (Hw.setCplPend h c v).now = h.now ∧ (Hw.setCplPend h c v).free = h.free ∧ (Hw.setCplPend h c v).bar = h.bar ∧
    (Hw.setCplPend h c v).pins = h.pins ∧ (Hw.setCplPend h c v).rst = h.rst ∧ (Hw.setCplPend h c v).fuse = h.fuse ∧
    (Hw.setCplPend h c v).nvm = h.nvm ∧ (Hw.setCplPend h c v).health = h.health ∧ (Hw.setCplPend h c v).boot = h.boot ∧
    (Hw.setCplPend h c v).doc = h.doc ∧ (Hw.setCplPend h c v).fault = h.fault ∧ (Hw.setCplPend h c v).msix = h.msix ∧
    (Hw.setCplPend h c v).bnet = h.bnet ∧ (Hw.setCplPend h c v).cnet = h.cnet ∧ (Hw.setCplPend h c v).snet = h.snet ∧
    (Hw.setCplPend h c v).fold = h.fold ∧ (Hw.setCplPend h c v).ports = h.ports ∧ (Hw.setCplPend h c v).mem = h.mem ∧
    (Hw.setCplPend h c v).busy = h.busy ∧ (Hw.setCplPend h c v).opId = h.opId ∧ (Hw.setCplPend h c v).coll = h.coll ∧
    (Hw.setCplPend h c v).host = h.host ∧ (Hw.setCplPend h c v).jobs = h.jobs ∧ (Hw.setCplPend h c v).phy = h.phy ∧
    (Hw.setCplPend h c v).link = h.link ∧ (Hw.setCplPend h c v).power = h.power ∧ (Hw.setCplPend h c v).stw = h.stw ∧
    (Hw.setCplPend h c v).dbg = h.dbg ∧ (Hw.setCplPend h c v).obs = h.obs := by cases c <;> exact ⟨rfl, rfl, rfl, rfl, rfl, rfl, rfl, rfl, rfl, rfl, rfl, rfl, rfl, rfl, rfl, rfl, rfl, rfl, rfl, rfl, rfl, rfl, rfl, rfl, rfl, rfl, rfl, rfl, rfl, rfl, rfl, rfl⟩

@[simp] theorem Hw.notify_keeps (h : Hw) (n : Notice) :
    (Hw.notify h n).regs = h.regs ∧ (Hw.notify h n).banks = h.banks ∧ (Hw.notify h n).paths = h.paths ∧ (Hw.notify h n).now = h.now ∧
    (Hw.notify h n).free = h.free ∧ (Hw.notify h n).cpl = h.cpl ∧ (Hw.notify h n).bar = h.bar ∧ (Hw.notify h n).pins = h.pins ∧
    (Hw.notify h n).rst = h.rst ∧ (Hw.notify h n).fuse = h.fuse ∧ (Hw.notify h n).nvm = h.nvm ∧ (Hw.notify h n).health = h.health ∧
    (Hw.notify h n).boot = h.boot ∧ (Hw.notify h n).doc = h.doc ∧ (Hw.notify h n).msix = h.msix ∧ (Hw.notify h n).bnet = h.bnet ∧
    (Hw.notify h n).cnet = h.cnet ∧ (Hw.notify h n).snet = h.snet ∧ (Hw.notify h n).fold = h.fold ∧ (Hw.notify h n).ports = h.ports ∧
    (Hw.notify h n).mem = h.mem ∧ (Hw.notify h n).busy = h.busy ∧ (Hw.notify h n).opId = h.opId ∧ (Hw.notify h n).coll = h.coll ∧
    (Hw.notify h n).host = h.host ∧ (Hw.notify h n).jobs = h.jobs ∧ (Hw.notify h n).phy = h.phy ∧ (Hw.notify h n).link = h.link ∧
    (Hw.notify h n).power = h.power ∧ (Hw.notify h n).stw = h.stw ∧ (Hw.notify h n).dbg = h.dbg ∧ (Hw.notify h n).obs = h.obs := ⟨rfl, rfl, rfl, rfl, rfl, rfl, rfl, rfl, rfl, rfl, rfl, rfl, rfl, rfl, rfl, rfl, rfl, rfl, rfl, rfl, rfl, rfl, rfl, rfl, rfl, rfl, rfl, rfl, rfl, rfl, rfl, rfl⟩

@[simp] theorem Hw.raiseF1_keeps (h : Hw) (t : Nat) (gen : Nat) (cause : Nat) (node : Nat) (detail : Nat) (source : Nat) :
    (Hw.raiseF1 h t gen cause node detail source).regs = h.regs ∧ (Hw.raiseF1 h t gen cause node detail source).banks = h.banks ∧
    (Hw.raiseF1 h t gen cause node detail source).paths = h.paths ∧ (Hw.raiseF1 h t gen cause node detail source).now = h.now ∧
    (Hw.raiseF1 h t gen cause node detail source).free = h.free ∧ (Hw.raiseF1 h t gen cause node detail source).cpl = h.cpl ∧
    (Hw.raiseF1 h t gen cause node detail source).bar = h.bar ∧ (Hw.raiseF1 h t gen cause node detail source).pins = h.pins ∧
    (Hw.raiseF1 h t gen cause node detail source).rst = h.rst ∧ (Hw.raiseF1 h t gen cause node detail source).fuse = h.fuse ∧
    (Hw.raiseF1 h t gen cause node detail source).nvm = h.nvm ∧ (Hw.raiseF1 h t gen cause node detail source).health = h.health ∧
    (Hw.raiseF1 h t gen cause node detail source).boot = h.boot ∧ (Hw.raiseF1 h t gen cause node detail source).doc = h.doc ∧
    (Hw.raiseF1 h t gen cause node detail source).msix = h.msix ∧ (Hw.raiseF1 h t gen cause node detail source).bnet = h.bnet ∧
    (Hw.raiseF1 h t gen cause node detail source).cnet = h.cnet ∧ (Hw.raiseF1 h t gen cause node detail source).snet = h.snet ∧
    (Hw.raiseF1 h t gen cause node detail source).fold = h.fold ∧ (Hw.raiseF1 h t gen cause node detail source).ports = h.ports ∧
    (Hw.raiseF1 h t gen cause node detail source).mem = h.mem ∧ (Hw.raiseF1 h t gen cause node detail source).busy = h.busy ∧
    (Hw.raiseF1 h t gen cause node detail source).opId = h.opId ∧ (Hw.raiseF1 h t gen cause node detail source).coll = h.coll ∧
    (Hw.raiseF1 h t gen cause node detail source).host = h.host ∧ (Hw.raiseF1 h t gen cause node detail source).jobs = h.jobs ∧
    (Hw.raiseF1 h t gen cause node detail source).phy = h.phy ∧ (Hw.raiseF1 h t gen cause node detail source).link = h.link ∧
    (Hw.raiseF1 h t gen cause node detail source).power = h.power ∧ (Hw.raiseF1 h t gen cause node detail source).stw = h.stw ∧
    (Hw.raiseF1 h t gen cause node detail source).dbg = h.dbg ∧ (Hw.raiseF1 h t gen cause node detail source).obs = h.obs := ⟨rfl, rfl, rfl, rfl, rfl, rfl, rfl, rfl, rfl, rfl, rfl, rfl, rfl, rfl, rfl, rfl, rfl, rfl, rfl, rfl, rfl, rfl, rfl, rfl, rfl, rfl, rfl, rfl, rfl, rfl, rfl, rfl⟩

@[simp] theorem Hw.raiseF0_keeps (h : Hw) (cause : Nat) (node : Nat) (detail : Nat) :
    (Hw.raiseF0 h cause node detail).regs = h.regs ∧ (Hw.raiseF0 h cause node detail).banks = h.banks ∧
    (Hw.raiseF0 h cause node detail).paths = h.paths ∧ (Hw.raiseF0 h cause node detail).now = h.now ∧
    (Hw.raiseF0 h cause node detail).free = h.free ∧ (Hw.raiseF0 h cause node detail).cpl = h.cpl ∧
    (Hw.raiseF0 h cause node detail).bar = h.bar ∧ (Hw.raiseF0 h cause node detail).pins = h.pins ∧
    (Hw.raiseF0 h cause node detail).rst = h.rst ∧ (Hw.raiseF0 h cause node detail).fuse = h.fuse ∧
    (Hw.raiseF0 h cause node detail).nvm = h.nvm ∧ (Hw.raiseF0 h cause node detail).health = h.health ∧
    (Hw.raiseF0 h cause node detail).boot = h.boot ∧ (Hw.raiseF0 h cause node detail).doc = h.doc ∧
    (Hw.raiseF0 h cause node detail).msix = h.msix ∧ (Hw.raiseF0 h cause node detail).bnet = h.bnet ∧
    (Hw.raiseF0 h cause node detail).cnet = h.cnet ∧ (Hw.raiseF0 h cause node detail).snet = h.snet ∧
    (Hw.raiseF0 h cause node detail).fold = h.fold ∧ (Hw.raiseF0 h cause node detail).ports = h.ports ∧
    (Hw.raiseF0 h cause node detail).mem = h.mem ∧ (Hw.raiseF0 h cause node detail).busy = h.busy ∧
    (Hw.raiseF0 h cause node detail).opId = h.opId ∧ (Hw.raiseF0 h cause node detail).coll = h.coll ∧
    (Hw.raiseF0 h cause node detail).host = h.host ∧ (Hw.raiseF0 h cause node detail).jobs = h.jobs ∧
    (Hw.raiseF0 h cause node detail).phy = h.phy ∧ (Hw.raiseF0 h cause node detail).link = h.link ∧
    (Hw.raiseF0 h cause node detail).power = h.power ∧ (Hw.raiseF0 h cause node detail).stw = h.stw ∧
    (Hw.raiseF0 h cause node detail).dbg = h.dbg ∧ (Hw.raiseF0 h cause node detail).obs = h.obs := ⟨rfl, rfl, rfl, rfl, rfl, rfl, rfl, rfl, rfl, rfl, rfl, rfl, rfl, rfl, rfl, rfl, rfl, rfl, rfl, rfl, rfl, rfl, rfl, rfl, rfl, rfl, rfl, rfl, rfl, rfl, rfl, rfl⟩

@[simp] theorem Hw.cSend_keeps (h : Hw) (p : CPkt) :
    (Hw.cSend h p).regs = h.regs ∧ (Hw.cSend h p).banks = h.banks ∧ (Hw.cSend h p).paths = h.paths ∧ (Hw.cSend h p).now = h.now ∧
    (Hw.cSend h p).free = h.free ∧ (Hw.cSend h p).cpl = h.cpl ∧ (Hw.cSend h p).bar = h.bar ∧ (Hw.cSend h p).pins = h.pins ∧
    (Hw.cSend h p).rst = h.rst ∧ (Hw.cSend h p).fuse = h.fuse ∧ (Hw.cSend h p).nvm = h.nvm ∧ (Hw.cSend h p).health = h.health ∧
    (Hw.cSend h p).boot = h.boot ∧ (Hw.cSend h p).doc = h.doc ∧ (Hw.cSend h p).fault = h.fault ∧ (Hw.cSend h p).msix = h.msix ∧
    (Hw.cSend h p).bnet = h.bnet ∧ (Hw.cSend h p).snet = h.snet ∧ (Hw.cSend h p).fold = h.fold ∧ (Hw.cSend h p).ports = h.ports ∧
    (Hw.cSend h p).mem = h.mem ∧ (Hw.cSend h p).busy = h.busy ∧ (Hw.cSend h p).opId = h.opId ∧ (Hw.cSend h p).coll = h.coll ∧
    (Hw.cSend h p).host = h.host ∧ (Hw.cSend h p).jobs = h.jobs ∧ (Hw.cSend h p).phy = h.phy ∧ (Hw.cSend h p).link = h.link ∧
    (Hw.cSend h p).power = h.power ∧ (Hw.cSend h p).stw = h.stw ∧ (Hw.cSend h p).dbg = h.dbg ∧ (Hw.cSend h p).obs = h.obs := ⟨rfl, rfl, rfl, rfl, rfl, rfl, rfl, rfl, rfl, rfl, rfl, rfl, rfl, rfl, rfl, rfl, rfl, rfl, rfl, rfl, rfl, rfl, rfl, rfl, rfl, rfl, rfl, rfl, rfl, rfl, rfl, rfl⟩

@[simp] theorem Hw.answer_keeps (h : Hw) (p : Path) (w : Word) :
    (Hw.answer h p w).regs = h.regs ∧ (Hw.answer h p w).banks = h.banks ∧ (Hw.answer h p w).now = h.now ∧ (Hw.answer h p w).free = h.free ∧
    (Hw.answer h p w).cpl = h.cpl ∧ (Hw.answer h p w).bar = h.bar ∧ (Hw.answer h p w).pins = h.pins ∧ (Hw.answer h p w).rst = h.rst ∧
    (Hw.answer h p w).fuse = h.fuse ∧ (Hw.answer h p w).nvm = h.nvm ∧ (Hw.answer h p w).health = h.health ∧
    (Hw.answer h p w).boot = h.boot ∧ (Hw.answer h p w).doc = h.doc ∧ (Hw.answer h p w).fault = h.fault ∧ (Hw.answer h p w).msix = h.msix ∧
    (Hw.answer h p w).bnet = h.bnet ∧ (Hw.answer h p w).cnet = h.cnet ∧ (Hw.answer h p w).snet = h.snet ∧ (Hw.answer h p w).fold = h.fold ∧
    (Hw.answer h p w).ports = h.ports ∧ (Hw.answer h p w).mem = h.mem ∧ (Hw.answer h p w).busy = h.busy ∧ (Hw.answer h p w).opId = h.opId ∧
    (Hw.answer h p w).coll = h.coll ∧ (Hw.answer h p w).host = h.host ∧ (Hw.answer h p w).jobs = h.jobs ∧ (Hw.answer h p w).phy = h.phy ∧
    (Hw.answer h p w).link = h.link ∧ (Hw.answer h p w).power = h.power ∧ (Hw.answer h p w).stw = h.stw ∧
    (Hw.answer h p w).dbg = h.dbg ∧ (Hw.answer h p w).obs = h.obs := ⟨rfl, rfl, rfl, rfl, rfl, rfl, rfl, rfl, rfl, rfl, rfl, rfl, rfl, rfl, rfl, rfl, rfl, rfl, rfl, rfl, rfl, rfl, rfl, rfl, rfl, rfl, rfl, rfl, rfl, rfl, rfl, rfl⟩

@[simp] theorem Hw.refuse_keeps (h : Hw) (p : Path) (fault : Bool) :
    (Hw.refuse h p fault).regs = h.regs ∧ (Hw.refuse h p fault).banks = h.banks ∧ (Hw.refuse h p fault).now = h.now ∧
    (Hw.refuse h p fault).free = h.free ∧ (Hw.refuse h p fault).cpl = h.cpl ∧ (Hw.refuse h p fault).bar = h.bar ∧
    (Hw.refuse h p fault).pins = h.pins ∧ (Hw.refuse h p fault).rst = h.rst ∧ (Hw.refuse h p fault).fuse = h.fuse ∧
    (Hw.refuse h p fault).nvm = h.nvm ∧ (Hw.refuse h p fault).health = h.health ∧ (Hw.refuse h p fault).boot = h.boot ∧
    (Hw.refuse h p fault).doc = h.doc ∧ (Hw.refuse h p fault).fault = h.fault ∧ (Hw.refuse h p fault).msix = h.msix ∧
    (Hw.refuse h p fault).bnet = h.bnet ∧ (Hw.refuse h p fault).cnet = h.cnet ∧ (Hw.refuse h p fault).snet = h.snet ∧
    (Hw.refuse h p fault).fold = h.fold ∧ (Hw.refuse h p fault).ports = h.ports ∧ (Hw.refuse h p fault).mem = h.mem ∧
    (Hw.refuse h p fault).busy = h.busy ∧ (Hw.refuse h p fault).opId = h.opId ∧ (Hw.refuse h p fault).coll = h.coll ∧
    (Hw.refuse h p fault).host = h.host ∧ (Hw.refuse h p fault).jobs = h.jobs ∧ (Hw.refuse h p fault).phy = h.phy ∧
    (Hw.refuse h p fault).link = h.link ∧ (Hw.refuse h p fault).power = h.power ∧ (Hw.refuse h p fault).stw = h.stw ∧
    (Hw.refuse h p fault).dbg = h.dbg ∧ (Hw.refuse h p fault).obs = h.obs := ⟨rfl, rfl, rfl, rfl, rfl, rfl, rfl, rfl, rfl, rfl, rfl, rfl, rfl, rfl, rfl, rfl, rfl, rfl, rfl, rfl, rfl, rfl, rfl, rfl, rfl, rfl, rfl, rfl, rfl, rfl, rfl, rfl⟩

@[simp] theorem Hw.logF2_keeps (h : Hw) :
    (Hw.logF2 h).banks = h.banks ∧ (Hw.logF2 h).paths = h.paths ∧ (Hw.logF2 h).now = h.now ∧ (Hw.logF2 h).free = h.free ∧
    (Hw.logF2 h).cpl = h.cpl ∧ (Hw.logF2 h).bar = h.bar ∧ (Hw.logF2 h).pins = h.pins ∧ (Hw.logF2 h).rst = h.rst ∧
    (Hw.logF2 h).fuse = h.fuse ∧ (Hw.logF2 h).nvm = h.nvm ∧ (Hw.logF2 h).health = h.health ∧ (Hw.logF2 h).boot = h.boot ∧
    (Hw.logF2 h).doc = h.doc ∧ (Hw.logF2 h).fault = h.fault ∧ (Hw.logF2 h).msix = h.msix ∧ (Hw.logF2 h).bnet = h.bnet ∧
    (Hw.logF2 h).cnet = h.cnet ∧ (Hw.logF2 h).snet = h.snet ∧ (Hw.logF2 h).fold = h.fold ∧ (Hw.logF2 h).ports = h.ports ∧
    (Hw.logF2 h).mem = h.mem ∧ (Hw.logF2 h).busy = h.busy ∧ (Hw.logF2 h).opId = h.opId ∧ (Hw.logF2 h).coll = h.coll ∧
    (Hw.logF2 h).host = h.host ∧ (Hw.logF2 h).jobs = h.jobs ∧ (Hw.logF2 h).phy = h.phy ∧ (Hw.logF2 h).link = h.link ∧
    (Hw.logF2 h).power = h.power ∧ (Hw.logF2 h).stw = h.stw ∧ (Hw.logF2 h).dbg = h.dbg ∧ (Hw.logF2 h).obs = h.obs := ⟨rfl, rfl, rfl, rfl, rfl, rfl, rfl, rfl, rfl, rfl, rfl, rfl, rfl, rfl, rfl, rfl, rfl, rfl, rfl, rfl, rfl, rfl, rfl, rfl, rfl, rfl, rfl, rfl, rfl, rfl, rfl, rfl⟩

@[simp] theorem Hw.toHost_keeps (h : Hw) (a : Nat) (bs : List Byte) :
    (Hw.toHost h a bs).regs = h.regs ∧ (Hw.toHost h a bs).banks = h.banks ∧ (Hw.toHost h a bs).paths = h.paths ∧
    (Hw.toHost h a bs).now = h.now ∧ (Hw.toHost h a bs).free = h.free ∧ (Hw.toHost h a bs).cpl = h.cpl ∧ (Hw.toHost h a bs).bar = h.bar ∧
    (Hw.toHost h a bs).pins = h.pins ∧ (Hw.toHost h a bs).rst = h.rst ∧ (Hw.toHost h a bs).fuse = h.fuse ∧ (Hw.toHost h a bs).nvm = h.nvm ∧
    (Hw.toHost h a bs).health = h.health ∧ (Hw.toHost h a bs).boot = h.boot ∧ (Hw.toHost h a bs).doc = h.doc ∧
    (Hw.toHost h a bs).fault = h.fault ∧ (Hw.toHost h a bs).msix = h.msix ∧ (Hw.toHost h a bs).bnet = h.bnet ∧
    (Hw.toHost h a bs).cnet = h.cnet ∧ (Hw.toHost h a bs).snet = h.snet ∧ (Hw.toHost h a bs).fold = h.fold ∧
    (Hw.toHost h a bs).ports = h.ports ∧ (Hw.toHost h a bs).mem = h.mem ∧ (Hw.toHost h a bs).busy = h.busy ∧
    (Hw.toHost h a bs).opId = h.opId ∧ (Hw.toHost h a bs).coll = h.coll ∧ (Hw.toHost h a bs).jobs = h.jobs ∧
    (Hw.toHost h a bs).phy = h.phy ∧ (Hw.toHost h a bs).link = h.link ∧ (Hw.toHost h a bs).power = h.power ∧
    (Hw.toHost h a bs).stw = h.stw ∧ (Hw.toHost h a bs).dbg = h.dbg ∧ (Hw.toHost h a bs).obs = h.obs := ⟨rfl, rfl, rfl, rfl, rfl, rfl, rfl, rfl, rfl, rfl, rfl, rfl, rfl, rfl, rfl, rfl, rfl, rfl, rfl, rfl, rfl, rfl, rfl, rfl, rfl, rfl, rfl, rfl, rfl, rfl, rfl, rfl⟩

theorem Hw.vector_cases (h : Hw) (fn v : Nat) : h.vector fn v = h ∨
    h.vector fn v = { h with host := { h.host with requested := h.host.requested ++ [fn * 32 + v] } } := by
  unfold Hw.vector; split
  · exact .inl rfl
  · exact .inr rfl

@[simp] theorem Hw.vector_keeps (h : Hw) (fn : Nat) (v : Nat) :
    (Hw.vector h fn v).regs = h.regs ∧ (Hw.vector h fn v).banks = h.banks ∧ (Hw.vector h fn v).paths = h.paths ∧
    (Hw.vector h fn v).now = h.now ∧ (Hw.vector h fn v).free = h.free ∧ (Hw.vector h fn v).cpl = h.cpl ∧ (Hw.vector h fn v).bar = h.bar ∧
    (Hw.vector h fn v).pins = h.pins ∧ (Hw.vector h fn v).rst = h.rst ∧ (Hw.vector h fn v).fuse = h.fuse ∧ (Hw.vector h fn v).nvm = h.nvm ∧
    (Hw.vector h fn v).health = h.health ∧ (Hw.vector h fn v).boot = h.boot ∧ (Hw.vector h fn v).doc = h.doc ∧
    (Hw.vector h fn v).fault = h.fault ∧ (Hw.vector h fn v).msix = h.msix ∧ (Hw.vector h fn v).bnet = h.bnet ∧
    (Hw.vector h fn v).cnet = h.cnet ∧ (Hw.vector h fn v).snet = h.snet ∧ (Hw.vector h fn v).fold = h.fold ∧
    (Hw.vector h fn v).ports = h.ports ∧ (Hw.vector h fn v).mem = h.mem ∧ (Hw.vector h fn v).busy = h.busy ∧
    (Hw.vector h fn v).opId = h.opId ∧ (Hw.vector h fn v).coll = h.coll ∧ (Hw.vector h fn v).jobs = h.jobs ∧
    (Hw.vector h fn v).phy = h.phy ∧ (Hw.vector h fn v).link = h.link ∧ (Hw.vector h fn v).power = h.power ∧
    (Hw.vector h fn v).stw = h.stw ∧ (Hw.vector h fn v).dbg = h.dbg ∧ (Hw.vector h fn v).obs = h.obs := by
  rcases Hw.vector_cases h fn v with e | e <;> rw [e] <;> exact ⟨rfl, rfl, rfl, rfl, rfl, rfl, rfl, rfl, rfl, rfl, rfl, rfl, rfl, rfl, rfl, rfl, rfl, rfl, rfl, rfl, rfl, rfl, rfl, rfl, rfl, rfl, rfl, rfl, rfl, rfl, rfl, rfl⟩

@[simp] theorem Hw.pfEvent_keeps (h : Hw) (k : Nat) :
    (Hw.pfEvent h k).banks = h.banks ∧ (Hw.pfEvent h k).paths = h.paths ∧ (Hw.pfEvent h k).now = h.now ∧ (Hw.pfEvent h k).free = h.free ∧
    (Hw.pfEvent h k).cpl = h.cpl ∧ (Hw.pfEvent h k).bar = h.bar ∧ (Hw.pfEvent h k).pins = h.pins ∧ (Hw.pfEvent h k).rst = h.rst ∧
    (Hw.pfEvent h k).fuse = h.fuse ∧ (Hw.pfEvent h k).nvm = h.nvm ∧ (Hw.pfEvent h k).health = h.health ∧ (Hw.pfEvent h k).boot = h.boot ∧
    (Hw.pfEvent h k).doc = h.doc ∧ (Hw.pfEvent h k).fault = h.fault ∧ (Hw.pfEvent h k).msix = h.msix ∧ (Hw.pfEvent h k).bnet = h.bnet ∧
    (Hw.pfEvent h k).cnet = h.cnet ∧ (Hw.pfEvent h k).snet = h.snet ∧ (Hw.pfEvent h k).fold = h.fold ∧ (Hw.pfEvent h k).ports = h.ports ∧
    (Hw.pfEvent h k).mem = h.mem ∧ (Hw.pfEvent h k).busy = h.busy ∧ (Hw.pfEvent h k).opId = h.opId ∧ (Hw.pfEvent h k).coll = h.coll ∧
    (Hw.pfEvent h k).jobs = h.jobs ∧ (Hw.pfEvent h k).phy = h.phy ∧ (Hw.pfEvent h k).link = h.link ∧ (Hw.pfEvent h k).power = h.power ∧
    (Hw.pfEvent h k).stw = h.stw ∧ (Hw.pfEvent h k).dbg = h.dbg ∧ (Hw.pfEvent h k).obs = h.obs := by
  simp [Hw.pfEvent]

@[simp] theorem Hw.vfEvent_keeps (h : Hw) (t : Nat) (k : Nat) :
    (Hw.vfEvent h t k).banks = h.banks ∧ (Hw.vfEvent h t k).paths = h.paths ∧ (Hw.vfEvent h t k).now = h.now ∧
    (Hw.vfEvent h t k).free = h.free ∧ (Hw.vfEvent h t k).cpl = h.cpl ∧ (Hw.vfEvent h t k).bar = h.bar ∧ (Hw.vfEvent h t k).pins = h.pins ∧
    (Hw.vfEvent h t k).rst = h.rst ∧ (Hw.vfEvent h t k).fuse = h.fuse ∧ (Hw.vfEvent h t k).nvm = h.nvm ∧
    (Hw.vfEvent h t k).health = h.health ∧ (Hw.vfEvent h t k).boot = h.boot ∧ (Hw.vfEvent h t k).doc = h.doc ∧
    (Hw.vfEvent h t k).fault = h.fault ∧ (Hw.vfEvent h t k).msix = h.msix ∧ (Hw.vfEvent h t k).bnet = h.bnet ∧
    (Hw.vfEvent h t k).cnet = h.cnet ∧ (Hw.vfEvent h t k).snet = h.snet ∧ (Hw.vfEvent h t k).fold = h.fold ∧
    (Hw.vfEvent h t k).ports = h.ports ∧ (Hw.vfEvent h t k).mem = h.mem ∧ (Hw.vfEvent h t k).busy = h.busy ∧
    (Hw.vfEvent h t k).opId = h.opId ∧ (Hw.vfEvent h t k).coll = h.coll ∧ (Hw.vfEvent h t k).jobs = h.jobs ∧
    (Hw.vfEvent h t k).phy = h.phy ∧ (Hw.vfEvent h t k).link = h.link ∧ (Hw.vfEvent h t k).power = h.power ∧
    (Hw.vfEvent h t k).stw = h.stw ∧ (Hw.vfEvent h t k).dbg = h.dbg ∧ (Hw.vfEvent h t k).obs = h.obs := by
  simp [Hw.vfEvent]

@[simp] theorem Hw.setDieState_keeps (h : Hw) (s : Nat) :
    (Hw.setDieState h s).banks = h.banks ∧ (Hw.setDieState h s).paths = h.paths ∧ (Hw.setDieState h s).now = h.now ∧
    (Hw.setDieState h s).free = h.free ∧ (Hw.setDieState h s).cpl = h.cpl ∧ (Hw.setDieState h s).bar = h.bar ∧
    (Hw.setDieState h s).pins = h.pins ∧ (Hw.setDieState h s).rst = h.rst ∧ (Hw.setDieState h s).fuse = h.fuse ∧
    (Hw.setDieState h s).nvm = h.nvm ∧ (Hw.setDieState h s).health = h.health ∧ (Hw.setDieState h s).boot = h.boot ∧
    (Hw.setDieState h s).doc = h.doc ∧ (Hw.setDieState h s).fault = h.fault ∧ (Hw.setDieState h s).msix = h.msix ∧
    (Hw.setDieState h s).bnet = h.bnet ∧ (Hw.setDieState h s).cnet = h.cnet ∧ (Hw.setDieState h s).snet = h.snet ∧
    (Hw.setDieState h s).fold = h.fold ∧ (Hw.setDieState h s).ports = h.ports ∧ (Hw.setDieState h s).mem = h.mem ∧
    (Hw.setDieState h s).busy = h.busy ∧ (Hw.setDieState h s).opId = h.opId ∧ (Hw.setDieState h s).coll = h.coll ∧
    (Hw.setDieState h s).jobs = h.jobs ∧ (Hw.setDieState h s).phy = h.phy ∧ (Hw.setDieState h s).link = h.link ∧
    (Hw.setDieState h s).power = h.power ∧ (Hw.setDieState h s).stw = h.stw ∧ (Hw.setDieState h s).dbg = h.dbg ∧
    (Hw.setDieState h s).obs = h.obs := by
  unfold Hw.setDieState; split <;> simp

@[simp] theorem Hw.reg_vector (h : Hw) (fn v : Nat) (id : RegId) (i j : Nat) : (h.vector fn v).reg id i j = h.reg id i j :=
  Hw.reg_congr (Hw.vector_keeps h fn v).1 id i j

@[simp] theorem Hw.reg_setPath (h : Hw) (p : Path) (v : PathState) (id : RegId) (i j : Nat) : (h.setPath p v).reg id i j = h.reg id i j := rfl
@[simp] theorem Hw.reg_setPort (h : Hw) (k : Nat) (v : TilePort) (id : RegId) (i j : Nat) : (h.setPort k v).reg id i j = h.reg id i j := rfl
@[simp] theorem Hw.reg_modPort (h : Hw) (k : Nat) (f : TilePort → TilePort) (id : RegId) (i j : Nat) :
    (h.modPort k f).reg id i j = h.reg id i j := rfl
@[simp] theorem Hw.reg_modJob (h : Hw) (k : Nat) (f : JobState → JobState) (id : RegId) (i j : Nat) : (h.modJob k f).reg id i j = h.reg id i j := rfl
@[simp] theorem Hw.reg_modLink (h : Hw) (k : Nat) (f : LinkPort → LinkPort) (id : RegId) (i j : Nat) :
    (h.modLink k f).reg id i j = h.reg id i j := rfl
@[simp] theorem Hw.reg_modPhy (h : Hw) (k : Nat) (f : PhyPort → PhyPort) (id : RegId) (i j : Nat) : (h.modPhy k f).reg id i j = h.reg id i j := rfl
@[simp] theorem Hw.reg_raiseF1 (h : Hw) (t g c n d s : Nat) (id : RegId) (i j : Nat) : (h.raiseF1 t g c n d s).reg id i j = h.reg id i j := rfl
@[simp] theorem Hw.reg_raiseF0 (h : Hw) (c n d : Nat) (id : RegId) (i j : Nat) : (h.raiseF0 c n d).reg id i j = h.reg id i j := rfl

end Sys2Proof.Machine
end

