-- ==== Sys2Proof/Laws/Exec.lean ====
section
/-! SUPPORT. One lemma per command: it completes with P if and only if P holds of the block its own operation gives. -/

namespace Sys2Proof.Machine

theorem exec_pwrGoodLow (s : State) :
    exec (.pwrGoodLow) s = s.does (fun h => h.pwrGoodLow) := rfl

theorem completes_pwrGoodLow (s : State) (P : Hw → Prop) :
    Completes (.pwrGoodLow) s P ↔ P (s.hw.pwrGoodLow) := by
  rw [completes_iff (exec_pwrGoodLow s)]

theorem exec_rstNLow (s : State) :
    exec (.rstNLow) s = s.does (fun h => h.rstNLow) := rfl

theorem completes_rstNLow (s : State) (P : Hw → Prop) :
    Completes (.rstNLow) s P ↔ P (s.hw.rstNLow) := by
  rw [completes_iff (exec_rstNLow s)]

theorem exec_refclkLoss (s : State) :
    exec (.refclkLoss) s = s.does (fun h => h.refclkLoss) := rfl

theorem completes_refclkLoss (s : State) (P : Hw → Prop) :
    Completes (.refclkLoss) s P ↔ P (s.hw.refclkLoss) := by
  rw [completes_iff (exec_refclkLoss s)]

theorem exec_coldReset (s : State) :
    exec (.coldReset) s = s.does (fun h => h.coldBegins) := rfl

theorem completes_coldReset (s : State) (P : Hw → Prop) :
    Completes (.coldReset) s P ↔ P (s.hw.coldBegins) := by
  rw [completes_iff (exec_coldReset s)]

theorem exec_coldResetEnd (s : State) :
    exec (.coldResetEnd) s = s.does (fun h => h.coldEnd) := rfl

theorem completes_coldResetEnd (s : State) (P : Hw → Prop) :
    Completes (.coldResetEnd) s P ↔ P (s.hw.coldEnd) := by
  rw [completes_iff (exec_coldResetEnd s)]

theorem exec_perstNAssert (s : State) :
    exec (.perstNAssert) s = s.does (fun h => h.perstLow) := rfl

theorem completes_perstNAssert (s : State) (P : Hw → Prop) :
    Completes (.perstNAssert) s P ↔ P (s.hw.perstLow) := by
  rw [completes_iff (exec_perstNAssert s)]

theorem exec_pfFlr (s : State) :
    exec (.pfFlr) s = s.does (fun h => h.pfFlr) := rfl

theorem completes_pfFlr (s : State) (P : Hw → Prop) :
    Completes (.pfFlr) s P ↔ P (s.hw.pfFlr) := by
  rw [completes_iff (exec_pfFlr s)]

theorem exec_warmReset (s : State) :
    exec (.warmReset) s = s.does (fun h => h.warmBegins) := rfl

theorem completes_warmReset (s : State) (P : Hw → Prop) :
    Completes (.warmReset) s P ↔ P (s.hw.warmBegins) := by
  rw [completes_iff (exec_warmReset s)]

theorem exec_rootPllUnlock (s : State) :
    exec (.rootPllUnlock) s = s.does (fun h => h.rootUnlock) := rfl

theorem completes_rootPllUnlock (s : State) (P : Hw → Prop) :
    Completes (.rootPllUnlock) s P ↔ P (s.hw.rootUnlock) := by
  rw [completes_iff (exec_rootPllUnlock s)]

theorem exec_rootPllRelock (s : State) :
    exec (.rootPllRelock) s = s.does (fun h => h.rootRelock) := rfl

theorem completes_rootPllRelock (s : State) (P : Hw → Prop) :
    Completes (.rootPllRelock) s P ↔ P (s.hw.rootRelock) := by
  rw [completes_iff (exec_rootPllRelock s)]

theorem exec_pllLock (w : PllId) (s : State) :
    exec (.pllLock w) s = s.does (fun h => h.pllLocks w) := rfl

theorem completes_pllLock (w : PllId) (s : State) (P : Hw → Prop) :
    Completes (.pllLock w) s P ↔ P (s.hw.pllLocks w) := by
  rw [completes_iff (exec_pllLock w s)]

theorem exec_phyPllUnlock (p : Port) (s : State) :
    exec (.phyPllUnlock p) s = s.does (fun h => h.phyPllUnlock p) := rfl

theorem completes_phyPllUnlock (p : Port) (s : State) (P : Hw → Prop) :
    Completes (.phyPllUnlock p) s P ↔ P (s.hw.phyPllUnlock p) := by
  rw [completes_iff (exec_phyPllUnlock p s)]

theorem exec_hbmPllUnlock (k : Fin 6) (s : State) :
    exec (.hbmPllUnlock k) s = s.does (fun h => h.hbmPllUnlock k) := rfl

theorem completes_hbmPllUnlock (k : Fin 6) (s : State) (P : Hw → Prop) :
    Completes (.hbmPllUnlock k) s P ↔ P (s.hw.hbmPllUnlock k) := by
  rw [completes_iff (exec_hbmPllUnlock k s)]

theorem exec_pciePllUnlock (s : State) :
    exec (.pciePllUnlock) s = s.does (fun h => h.pciePllUnlock) := rfl

theorem completes_pciePllUnlock (s : State) (P : Hw → Prop) :
    Completes (.pciePllUnlock) s P ↔ P (s.hw.pciePllUnlock) := by
  rw [completes_iff (exec_pciePllUnlock s)]

theorem exec_portReset (p : PortId) (s : State) :
    exec (.portReset p) s = s.does (fun h => h.clocked (·.portReset p)) := rfl

theorem completes_portReset (p : PortId) (s : State) (P : Hw → Prop) :
    Completes (.portReset p) s P ↔ P (s.hw.clocked (·.portReset p)) := by
  rw [completes_iff (exec_portReset p s)]

theorem exec_partitionReset (t : Tenant) (s : State) :
    exec (.partitionReset t) s = s.does (fun h => h.clocked (·.partitionReset t)) := rfl

theorem completes_partitionReset (t : Tenant) (s : State) (P : Hw → Prop) :
    Completes (.partitionReset t) s P ↔ P (s.hw.clocked (·.partitionReset t)) := by
  rw [completes_iff (exec_partitionReset t s)]

theorem exec_cplValueWrite (p : Path) (c : CplReg) (v : Word) (s : State) :
    exec (.cplValueWrite p c v) s = s.does (fun h => h.writeAt p ⟨cplId c, 0, 0⟩ v) := rfl

theorem completes_cplValueWrite (p : Path) (c : CplReg) (v : Word) (s : State) (P : Hw → Prop) :
    Completes (.cplValueWrite p c v) s P ↔ P (s.hw.writeAt p ⟨cplId c, 0, 0⟩ v) := by
  rw [completes_iff (exec_cplValueWrite p c v s)]

theorem exec_cplGuardExpired (c : CplReg) (s : State) :
    exec (.cplGuardExpired c) s = s.does (fun h => h.cplExpire c) := rfl

theorem completes_cplGuardExpired (c : CplReg) (s : State) (P : Hw → Prop) :
    Completes (.cplGuardExpired c) s P ↔ P (s.hw.cplExpire c) := by
  rw [completes_iff (exec_cplGuardExpired c s)]

theorem exec_resetReqWarm (p : Path) (s : State) :
    exec (.resetReqWarm p) s = s.does (fun h => h.resetRequest p 1) := rfl

theorem completes_resetReqWarm (p : Path) (s : State) (P : Hw → Prop) :
    Completes (.resetReqWarm p) s P ↔ P (s.hw.resetRequest p 1) := by
  rw [completes_iff (exec_resetReqWarm p s)]

theorem exec_resetReqCold (p : Path) (s : State) :
    exec (.resetReqCold p) s = s.does (fun h => h.resetRequest p 2) := rfl

theorem completes_resetReqCold (p : Path) (s : State) (P : Hw → Prop) :
    Completes (.resetReqCold p) s P ↔ P (s.hw.resetRequest p 2) := by
  rw [completes_iff (exec_resetReqCold p s)]

theorem exec_resetReqPartition (p : Path) (s : State) :
    exec (.resetReqPartition p) s = s.does (fun h => h.resetRequest p 3) := rfl

theorem completes_resetReqPartition (p : Path) (s : State) (P : Hw → Prop) :
    Completes (.resetReqPartition p) s P ↔ P (s.hw.resetRequest p 3) := by
  rw [completes_iff (exec_resetReqPartition p s)]

theorem exec_resetReqTorusPort (p : Path) (s : State) :
    exec (.resetReqTorusPort p) s = s.does (fun h => h.resetRequest p 4) := rfl

theorem completes_resetReqTorusPort (p : Path) (s : State) (P : Hw → Prop) :
    Completes (.resetReqTorusPort p) s P ↔ P (s.hw.resetRequest p 4) := by
  rw [completes_iff (exec_resetReqTorusPort p s)]

theorem exec_resetReqTilePort (p : Path) (s : State) :
    exec (.resetReqTilePort p) s = s.does (fun h => h.resetRequest p 5) := rfl

theorem completes_resetReqTilePort (p : Path) (s : State) (P : Hw → Prop) :
    Completes (.resetReqTilePort p) s P ↔ P (s.hw.resetRequest p 5) := by
  rw [completes_iff (exec_resetReqTilePort p s)]

theorem exec_lockSet (p : Path) (s : State) :
    exec (.lockSet p) s = s.does (fun h => h.guardComplement p .lock) := rfl

theorem completes_lockSet (p : Path) (s : State) (P : Hw → Prop) :
    Completes (.lockSet p) s P ↔ P (s.hw.guardComplement p .lock) := by
  rw [completes_iff (exec_lockSet p s)]

theorem exec_budgetSet (p : Path) (s : State) :
    exec (.budgetSet p) s = s.does (fun h => h.guardComplement p .budget) := rfl

theorem completes_budgetSet (p : Path) (s : State) (P : Hw → Prop) :
    Completes (.budgetSet p) s P ↔ P (s.hw.guardComplement p .budget) := by
  rw [completes_iff (exec_budgetSet p s)]

theorem exec_fuseBurn (p : Path) (s : State) :
    exec (.fuseBurn p) s = s.does (fun h => h.guardComplement p .fuse) := rfl

theorem completes_fuseBurn (p : Path) (s : State) (P : Hw → Prop) :
    Completes (.fuseBurn p) s P ↔ P (s.hw.guardComplement p .fuse) := by
  rw [completes_iff (exec_fuseBurn p s)]

theorem exec_fuseBurnDone (differs : Bool) (s : State) :
    exec (.fuseBurnDone differs) s = s.does (fun h => h.burnDone differs) := rfl

theorem completes_fuseBurnDone (differs : Bool) (s : State) (P : Hw → Prop) :
    Completes (.fuseBurnDone differs) s P ↔ P (s.hw.burnDone differs) := by
  rw [completes_iff (exec_fuseBurnDone differs s)]

theorem exec_fuseLoadDone (ue : Bool) (corrected : BitVec 8) (s : State) :
    exec (.fuseLoadDone ue corrected) s = s.does (fun h => h.fuseLoad ue corrected.toNat) := rfl

theorem completes_fuseLoadDone (ue : Bool) (corrected : BitVec 8) (s : State) (P : Hw → Prop) :
    Completes (.fuseLoadDone ue corrected) s P ↔ P (s.hw.fuseLoad ue corrected.toNat) := by
  rw [completes_iff (exec_fuseLoadDone ue corrected s)]

theorem exec_pcieTrainingStart (s : State) :
    exec (.pcieTrainingStart) s = s.does (fun h => h.pcieTrain) := rfl

theorem completes_pcieTrainingStart (s : State) (P : Hw → Prop) :
    Completes (.pcieTrainingStart) s P ↔ P (s.hw.pcieTrain) := by
  rw [completes_iff (exec_pcieTrainingStart s)]

theorem exec_bistDone (f : BistFindings) (s : State) :
    exec (.bistDone f) s = s.does (fun h => h.bistFound f) := rfl

theorem completes_bistDone (f : BistFindings) (s : State) (P : Hw → Prop) :
    Completes (.bistDone f) s P ↔ P (s.hw.bistFound f) := by
  rw [completes_iff (exec_bistDone f s)]

theorem exec_bootStart (s : State) :
    exec (.bootStart) s = s.does (fun h => h.bootStart) := rfl

theorem completes_bootStart (s : State) (P : Hw → Prop) :
    Completes (.bootStart) s P ↔ P (s.hw.bootStart) := by
  rw [completes_iff (exec_bootStart s)]

theorem exec_nvmProbe (d : NvmDevice) (s : State) :
    exec (.nvmProbe d) s = s.does (fun h => h.nvmProbe d.jedec.toNat (d.sfdp.map (fun x => (x.1.toNat, x.2.1.toNat, x.2.2.toNat)))) := rfl

theorem completes_nvmProbe (d : NvmDevice) (s : State) (P : Hw → Prop) :
    Completes (.nvmProbe d) s P ↔ P (s.hw.nvmProbe d.jedec.toNat (d.sfdp.map (fun x => (x.1.toNat, x.2.1.toNat, x.2.2.toNat)))) := by
  rw [completes_iff (exec_nvmProbe d s)]

theorem exec_nvmCommandTimeout (copy : Fin 2) (s : State) :
    exec (.nvmCommandTimeout copy) s = s.does (fun h => h.nvmTimeout copy) := rfl

theorem completes_nvmCommandTimeout (copy : Fin 2) (s : State) (P : Hw → Prop) :
    Completes (.nvmCommandTimeout copy) s P ↔ P (s.hw.nvmTimeout copy) := by
  rw [completes_iff (exec_nvmCommandTimeout copy s)]

theorem exec_slotTableSelect (s : State) :
    exec (.slotTableSelect) s = s.does (fun h => h.slotTable) := rfl

theorem completes_slotTableSelect (s : State) (P : Hw → Prop) :
    Completes (.slotTableSelect) s P ↔ P (s.hw.slotTable) := by
  rw [completes_iff (exec_slotTableSelect s)]

theorem exec_slotAttempt (errs : List (Nat × Byte)) (again : List (Nat × Byte)) (s : State) :
    exec (.slotAttempt errs again) s = s.does (fun h => h.slotAttempt errs again) := rfl

theorem completes_slotAttempt (errs : List (Nat × Byte)) (again : List (Nat × Byte)) (s : State) (P : Hw → Prop) :
    Completes (.slotAttempt errs again) s P ↔ P (s.hw.slotAttempt errs again) := by
  rw [completes_iff (exec_slotAttempt errs again s)]

theorem exec_imageApply (s : State) :
    exec (.imageApply) s = s.does (fun h => h.imageApply) := rfl

theorem completes_imageApply (s : State) (P : Hw → Prop) :
    Completes (.imageApply) s P ↔ P (s.hw.imageApply) := by
  rw [completes_iff (exec_imageApply s)]

theorem exec_applyFault (s : State) :
    exec (.applyFault) s = s.does (fun h => h.applyFault) := rfl

theorem completes_applyFault (s : State) (P : Hw → Prop) :
    Completes (.applyFault) s P ↔ P (s.hw.applyFault) := by
  rw [completes_iff (exec_applyFault s)]

theorem exec_warmScrubDone (s : State) :
    exec (.warmScrubDone) s = s.does (fun h => h.scrubDone) := rfl

theorem completes_warmScrubDone (s : State) (P : Hw → Prop) :
    Completes (.warmScrubDone) s P ↔ P (s.hw.scrubDone) := by
  rw [completes_iff (exec_warmScrubDone s)]

theorem exec_runEntry (s : State) :
    exec (.runEntry) s = s.does (fun h => h.runEntry) := rfl

theorem completes_runEntry (s : State) (P : Hw → Prop) :
    Completes (.runEntry) s P ↔ P (s.hw.runEntry) := by
  rw [completes_iff (exec_runEntry s)]

theorem exec_fwReady (s : State) :
    exec (.fwReady) s = s.does (fun h => h.fwReady) := rfl

theorem completes_fwReady (s : State) (P : Hw → Prop) :
    Completes (.fwReady) s P ↔ P (s.hw.fwReady) := by
  rw [completes_iff (exec_fwReady s)]

theorem exec_progRead (p : Path) (d : NvmDevice) (s : State) :
    exec (.progRead p d) s = s.does (fun h => h.progWrite p 1#32 d) := rfl

theorem completes_progRead (p : Path) (d : NvmDevice) (s : State) (P : Hw → Prop) :
    Completes (.progRead p d) s P ↔ P (s.hw.progWrite p 1#32 d) := by
  rw [completes_iff (exec_progRead p d s)]

theorem exec_progProgram (p : Path) (d : NvmDevice) (s : State) :
    exec (.progProgram p d) s = s.does (fun h => h.progWrite p 2#32 d) := rfl

theorem completes_progProgram (p : Path) (d : NvmDevice) (s : State) (P : Hw → Prop) :
    Completes (.progProgram p d) s P ↔ P (s.hw.progWrite p 2#32 d) := by
  rw [completes_iff (exec_progProgram p d s)]

theorem exec_progEraseSector (p : Path) (d : NvmDevice) (s : State) :
    exec (.progEraseSector p d) s = s.does (fun h => h.progWrite p 3#32 d) := rfl

theorem completes_progEraseSector (p : Path) (d : NvmDevice) (s : State) (P : Hw → Prop) :
    Completes (.progEraseSector p d) s P ↔ P (s.hw.progWrite p 3#32 d) := by
  rw [completes_iff (exec_progEraseSector p d s)]

theorem exec_progEraseBlock (p : Path) (d : NvmDevice) (s : State) :
    exec (.progEraseBlock p d) s = s.does (fun h => h.progWrite p 4#32 d) := rfl

theorem completes_progEraseBlock (p : Path) (d : NvmDevice) (s : State) (P : Hw → Prop) :
    Completes (.progEraseBlock p d) s P ↔ P (s.hw.progWrite p 4#32 d) := by
  rw [completes_iff (exec_progEraseBlock p d s)]

theorem exec_progUnknownCommand (p : Path) (v : Word) (d : NvmDevice) (s : State) :
    exec (.progUnknownCommand p v d) s = s.does (fun h => h.progWrite p v d) := rfl

theorem completes_progUnknownCommand (p : Path) (v : Word) (d : NvmDevice) (s : State) (P : Hw → Prop) :
    Completes (.progUnknownCommand p v d) s P ↔ P (s.hw.progWrite p v d) := by
  rw [completes_iff (exec_progUnknownCommand p v d s)]

theorem exec_progCommandDone (timeout : Bool) (s : State) :
    exec (.progCommandDone timeout) s = s.does (fun h => h.progDone timeout) := rfl

theorem completes_progCommandDone (timeout : Bool) (s : State) (P : Hw → Prop) :
    Completes (.progCommandDone timeout) s P ↔ P (s.hw.progDone timeout) := by
  rw [completes_iff (exec_progCommandDone timeout s)]

theorem exec_barBoundary (tclk : List (Tile × BitVec 13)) (lanes : List LaneMeas) (rest : Fin 4) (s : State) :
    exec (.barBoundary tclk lanes rest) s = s.does (fun h => h.barBoundary (tclk.map (fun x => (x.1.val, x.2.toNat))) lanes rest) := rfl

theorem completes_barBoundary (tclk : List (Tile × BitVec 13)) (lanes : List LaneMeas) (rest : Fin 4) (s : State) (P : Hw → Prop) :
    Completes (.barBoundary tclk lanes rest) s P ↔ P (s.hw.barBoundary (tclk.map (fun x => (x.1.val, x.2.toNat))) lanes rest) := by
  rw [completes_iff (exec_barBoundary tclk lanes rest s)]

theorem exec_tclkOutOfRange (tile : Tile) (s : State) :
    exec (.tclkOutOfRange tile) s = s.does (fun h => h.clocked (·.tclkOutOfRange tile)) := rfl

theorem completes_tclkOutOfRange (tile : Tile) (s : State) (P : Hw → Prop) :
    Completes (.tclkOutOfRange tile) s P ↔ P (s.hw.clocked (·.tclkOutOfRange tile)) := by
  rw [completes_iff (exec_tclkOutOfRange tile s)]

theorem exec_registerWrite (p : Path) (addr : BitVec 28) (data : List Word) (enables : Bool) (d : NvmDevice) (s : State) :
    exec (.registerWrite p addr data enables d) s = s.does (fun h => h.writeRequest p addr.toNat data enables d) := rfl

theorem completes_registerWrite (p : Path) (addr : BitVec 28) (data : List Word) (enables : Bool) (d : NvmDevice) (s : State) (P : Hw → Prop) :
    Completes (.registerWrite p addr data enables d) s P ↔ P (s.hw.writeRequest p addr.toNat data enables d) := by
  rw [completes_iff (exec_registerWrite p addr data enables d s)]

theorem exec_aliasSet (p : Path) (addr : BitVec 26) (v : Word) (s : State) :
    exec (.aliasSet p addr v) s = s.does (fun h => h.aliasWrite p 1 addr.toNat v) := rfl

theorem completes_aliasSet (p : Path) (addr : BitVec 26) (v : Word) (s : State) (P : Hw → Prop) :
    Completes (.aliasSet p addr v) s P ↔ P (s.hw.aliasWrite p 1 addr.toNat v) := by
  rw [completes_iff (exec_aliasSet p addr v s)]

theorem exec_aliasClr (p : Path) (addr : BitVec 26) (v : Word) (s : State) :
    exec (.aliasClr p addr v) s = s.does (fun h => h.aliasWrite p 2 addr.toNat v) := rfl

theorem completes_aliasClr (p : Path) (addr : BitVec 26) (v : Word) (s : State) (P : Hw → Prop) :
    Completes (.aliasClr p addr v) s P ↔ P (s.hw.aliasWrite p 2 addr.toNat v) := by
  rw [completes_iff (exec_aliasClr p addr v s)]

theorem exec_aliasTgl (p : Path) (addr : BitVec 26) (v : Word) (s : State) :
    exec (.aliasTgl p addr v) s = s.does (fun h => h.aliasWrite p 3 addr.toNat v) := rfl

theorem completes_aliasTgl (p : Path) (addr : BitVec 26) (v : Word) (s : State) (P : Hw → Prop) :
    Completes (.aliasTgl p addr v) s P ↔ P (s.hw.aliasWrite p 3 addr.toNat v) := by
  rw [completes_iff (exec_aliasTgl p addr v s)]

theorem exec_evtRead (p : Path) (addr : BitVec 28) (len : BitVec 7) (enables : Bool) (s : State) :
    exec (.evtRead p addr len enables) s = s.does (fun h => h.readRequest p addr.toNat len.toNat enables) := rfl

theorem completes_evtRead (p : Path) (addr : BitVec 28) (len : BitVec 7) (enables : Bool) (s : State) (P : Hw → Prop) :
    Completes (.evtRead p addr len enables) s P ↔ P (s.hw.readRequest p addr.toNat len.toNat enables) := by
  rw [completes_iff (exec_evtRead p addr len enables s)]

theorem exec_misuseEvtRead (p : Path) (s : State) :
    exec (.misuseEvtRead p) s = s.does (fun h => h.busRead p (pathAddr p (Reg.addr ⟨.ancMisuseEvt, 0, 0⟩))) := rfl

theorem completes_misuseEvtRead (p : Path) (s : State) (P : Hw → Prop) :
    Completes (.misuseEvtRead p) s P ↔ P (s.hw.busRead p (pathAddr p (Reg.addr ⟨.ancMisuseEvt, 0, 0⟩))) := by
  rw [completes_iff (exec_misuseEvtRead p s)]

theorem exec_lowWordRead (p : Path) (addr : BitVec 28) (s : State) :
    exec (.lowWordRead p addr) s = s.does (fun h => h.busRead p addr.toNat) := rfl

theorem completes_lowWordRead (p : Path) (addr : BitVec 28) (s : State) (P : Hw → Prop) :
    Completes (.lowWordRead p addr) s P ↔ P (s.hw.busRead p addr.toNat) := by
  rw [completes_iff (exec_lowWordRead p addr s)]

theorem exec_clkBarLoRead (p : Path) (s : State) :
    exec (.clkBarLoRead p) s = s.does (fun h => h.busRead p (pathAddr p (Reg.addr ⟨.clkBarLo, 0, 0⟩))) := rfl

theorem completes_clkBarLoRead (p : Path) (s : State) (P : Hw → Prop) :
    Completes (.clkBarLoRead p) s P ↔ P (s.hw.busRead p (pathAddr p (Reg.addr ⟨.clkBarLo, 0, 0⟩))) := by
  rw [completes_iff (exec_clkBarLoRead p s)]

theorem exec_highWordWrite (p : Path) (addr : BitVec 28) (v : Word) (s : State) :
    exec (.highWordWrite p addr v) s = s.does (fun h => h.busWrite p addr.toNat v noDevice) := rfl

theorem completes_highWordWrite (p : Path) (addr : BitVec 28) (v : Word) (s : State) (P : Hw → Prop) :
    Completes (.highWordWrite p addr v) s P ↔ P (s.hw.busWrite p addr.toNat v noDevice) := by
  rw [completes_iff (exec_highWordWrite p addr v s)]

theorem exec_lowWordWrite (p : Path) (addr : BitVec 28) (v : Word) (s : State) :
    exec (.lowWordWrite p addr v) s = s.does (fun h => h.busWrite p addr.toNat v noDevice) := rfl

theorem completes_lowWordWrite (p : Path) (addr : BitVec 28) (v : Word) (s : State) (P : Hw → Prop) :
    Completes (.lowWordWrite p addr v) s P ↔ P (s.hw.busWrite p addr.toNat v noDevice) := by
  rw [completes_iff (exec_lowWordWrite p addr v s)]

theorem exec_snapshot (p : Path) (s : State) :
    exec (.snapshot p) s = s.does (fun h => h.writeAt p ⟨.ancSnapshot, 0, 0⟩ 1#32) := rfl

theorem completes_snapshot (p : Path) (s : State) (P : Hw → Prop) :
    Completes (.snapshot p) s P ↔ P (s.hw.writeAt p ⟨.ancSnapshot, 0, 0⟩ 1#32) := by
  rw [completes_iff (exec_snapshot p s)]

theorem exec_idxDataRead (p : Path) (s : State) :
    exec (.idxDataRead p) s = s.does (fun h => h.busRead p (pathAddr p idxDataAddr)) := rfl

theorem completes_idxDataRead (p : Path) (s : State) (P : Hw → Prop) :
    Completes (.idxDataRead p) s P ↔ P (s.hw.busRead p (pathAddr p idxDataAddr)) := by
  rw [completes_iff (exec_idxDataRead p s)]

theorem exec_idxDataWrite (p : Path) (v : Word) (s : State) :
    exec (.idxDataWrite p v) s = s.does (fun h => h.busWrite p (pathAddr p idxDataAddr) v noDevice) := rfl

theorem completes_idxDataWrite (p : Path) (v : Word) (s : State) (P : Hw → Prop) :
    Completes (.idxDataWrite p v) s P ↔ P (s.hw.busWrite p (pathAddr p idxDataAddr) v noDevice) := by
  rw [completes_iff (exec_idxDataWrite p v s)]

theorem exec_idxFarWriteDone (p : Path) (s : State) :
    exec (.idxFarWriteDone p) s = s.does (fun h => h.clocked (·.idxFarWriteDone p)) := rfl

theorem completes_idxFarWriteDone (p : Path) (s : State) (P : Hw → Prop) :
    Completes (.idxFarWriteDone p) s P ↔ P (s.hw.clocked (·.idxFarWriteDone p)) := by
  rw [completes_iff (exec_idxFarWriteDone p s)]

theorem exec_idxFarTimeout (p : Path) (s : State) :
    exec (.idxFarTimeout p) s = s.does (fun h => h.idxTimeout p) := rfl

theorem completes_idxFarTimeout (p : Path) (s : State) (P : Hw → Prop) :
    Completes (.idxFarTimeout p) s P ↔ P (s.hw.idxTimeout p) := by
  rw [completes_iff (exec_idxFarTimeout p s)]

theorem exec_flitInject (n : Node) (s : State) :
    exec (.flitInject n) s = s.does (fun h => h.clocked (·.grant n)) := rfl

theorem completes_flitInject (n : Node) (s : State) (P : Hw → Prop) :
    Completes (.flitInject n) s P ↔ P (s.hw.clocked (·.grant n)) := by
  rw [completes_iff (exec_flitInject n s)]

theorem exec_flitHop (n : Node) (out : Fin 5) (err : MeshErr) (s : State) :
    exec (.flitHop n out err) s = s.does (fun h => h.clocked (·.hop n out err)) := rfl

theorem completes_flitHop (n : Node) (out : Fin 5) (err : MeshErr) (s : State) (P : Hw → Prop) :
    Completes (.flitHop n out err) s P ↔ P (s.hw.clocked (·.hop n out err)) := by
  rw [completes_iff (exec_flitHop n out err s)]

theorem exec_flitSinkDelivery (n : Node) (ue : Bool) (s : State) :
    exec (.flitSinkDelivery n ue) s = s.does (fun h => h.clocked (·.sinkDeliver n ue)) := rfl

theorem completes_flitSinkDelivery (n : Node) (ue : Bool) (s : State) (P : Hw → Prop) :
    Completes (.flitSinkDelivery n ue) s P ↔ P (s.hw.clocked (·.sinkDeliver n ue)) := by
  rw [completes_iff (exec_flitSinkDelivery n ue s)]

theorem exec_flitLate (n : Node) (port : Fin 6) (sel : BitVec 13) (s : State) :
    exec (.flitLate n port sel) s = s.does (fun h => h.clocked (·.flitLate n port sel.toNat)) := rfl

theorem completes_flitLate (n : Node) (port : Fin 6) (sel : BitVec 13) (s : State) (P : Hw → Prop) :
    Completes (.flitLate n port sel) s P ↔ P (s.hw.clocked (·.flitLate n port sel.toNat)) := by
  rw [completes_iff (exec_flitLate n port sel s)]

theorem exec_bnetCreditReturn (n : Node) (port : Fin 5) (vc : Fin 8) (s : State) :
    exec (.bnetCreditReturn n port vc) s = s.does (fun h => h.clocked (·.bCreditReturn n port vc)) := rfl

theorem completes_bnetCreditReturn (n : Node) (port : Fin 5) (vc : Fin 8) (s : State) (P : Hw → Prop) :
    Completes (.bnetCreditReturn n port vc) s P ↔ P (s.hw.clocked (·.bCreditReturn n port vc)) := by
  rw [completes_iff (exec_bnetCreditReturn n port vc s)]

theorem exec_phaseTargetWrite (p : Path) (e : BitVec 12) (v : Word) (s : State) :
    exec (.phaseTargetWrite p e v) s = s.does (fun h => h.writeAt p ⟨.bnPhase, anchorNode, e.toNat⟩ v) := rfl

theorem completes_phaseTargetWrite (p : Path) (e : BitVec 12) (v : Word) (s : State) (P : Hw → Prop) :
    Completes (.phaseTargetWrite p e v) s P ↔ P (s.hw.writeAt p ⟨.bnPhase, anchorNode, e.toNat⟩ v) := by
  rw [completes_iff (exec_phaseTargetWrite p e v s)]

theorem exec_phaseSwitch (e : BitVec 12) (s : State) :
    exec (.phaseSwitch e) s = s.does (fun h => h.clocked (·.phaseSwitch e.toNat)) := rfl

theorem completes_phaseSwitch (e : BitVec 12) (s : State) (P : Hw → Prop) :
    Completes (.phaseSwitch e) s P ↔ P (s.hw.clocked (·.phaseSwitch e.toNat)) := by
  rw [completes_iff (exec_phaseSwitch e s)]

theorem exec_flowSlotEnable (p : Path) (n : Node) (k : BitVec 9) (v : Word) (s : State) :
    exec (.flowSlotEnable p n k v) s = s.does (fun h => h.writeAt p ⟨.bnFlowCfg, n, k.toNat⟩ v) := rfl

theorem completes_flowSlotEnable (p : Path) (n : Node) (k : BitVec 9) (v : Word) (s : State) (P : Hw → Prop) :
    Completes (.flowSlotEnable p n k v) s P ↔ P (s.hw.writeAt p ⟨.bnFlowCfg, n, k.toNat⟩ v) := by
  rw [completes_iff (exec_flowSlotEnable p n k v s)]

theorem exec_channelSend (n : Node) (k : BitVec 4) (c : BitVec 12) (data : BitVec 512) (s : State) :
    exec (.channelSend n k c data) s = s.does (fun h => h.clocked (·.agentSend n k.toNat c.toNat data)) := rfl

theorem completes_channelSend (n : Node) (k : BitVec 4) (c : BitVec 12) (data : BitVec 512) (s : State) (P : Hw → Prop) :
    Completes (.channelSend n k c data) s P ↔ P (s.hw.clocked (·.agentSend n k.toNat c.toNat data)) := by
  rw [completes_iff (exec_channelSend n k c data s)]

theorem exec_channelCreditArrival (c : BitVec 12) (errs : List CErr) (crossed : Bool) (s : State) :
    exec (.channelCreditArrival c errs crossed) s = s.does (fun h => h.clocked (·.creditArrival c.toNat errs crossed)) := rfl

theorem completes_channelCreditArrival (c : BitVec 12) (errs : List CErr) (crossed : Bool) (s : State) (P : Hw → Prop) :
    Completes (.channelCreditArrival c errs crossed) s P ↔ P (s.hw.clocked (·.creditArrival c.toNat errs crossed)) := by
  rw [completes_iff (exec_channelCreditArrival c errs crossed s)]

theorem exec_channelMsgArrival (c : BitVec 12) (errs : List CErr) (crossed : Bool) (s : State) :
    exec (.channelMsgArrival c errs crossed) s = s.does (fun h => h.clocked (·.chMsgArrival c.toNat errs crossed)) := rfl

theorem completes_channelMsgArrival (c : BitVec 12) (errs : List CErr) (crossed : Bool) (s : State) (P : Hw → Prop) :
    Completes (.channelMsgArrival c errs crossed) s P ↔ P (s.hw.clocked (·.chMsgArrival c.toNat errs crossed)) := by
  rw [completes_iff (exec_channelMsgArrival c errs crossed s)]

theorem exec_channelDequeue (n : Node) (k : BitVec 4) (c : BitVec 12) (merge : Bool) (s : State) :
    exec (.channelDequeue n k c merge) s = s.does (fun h => h.clocked (·.agentDequeue n k.toNat c.toNat merge)) := rfl

theorem completes_channelDequeue (n : Node) (k : BitVec 4) (c : BitVec 12) (merge : Bool) (s : State) (P : Hw → Prop) :
    Completes (.channelDequeue n k c merge) s P ↔ P (s.hw.clocked (·.agentDequeue n k.toNat c.toNat merge)) := by
  rw [completes_iff (exec_channelDequeue n k c merge s)]

theorem exec_channelEnable (p : Path) (c : BitVec 12) (v : Word) (s : State) :
    exec (.channelEnable p c v) s = s.does (fun h => h.writeAt p ⟨.chCfg, c.toNat, 0⟩ (setBit v 15 true)) := rfl

theorem completes_channelEnable (p : Path) (c : BitVec 12) (v : Word) (s : State) (P : Hw → Prop) :
    Completes (.channelEnable p c v) s P ↔ P (s.hw.writeAt p ⟨.chCfg, c.toNat, 0⟩ (setBit v 15 true)) := by
  rw [completes_iff (exec_channelEnable p c v s)]

theorem exec_channelDisable (p : Path) (c : BitVec 12) (v : Word) (s : State) :
    exec (.channelDisable p c v) s = s.does (fun h => h.writeAt p ⟨.chCfg, c.toNat, 0⟩ (setBit v 15 false)) := rfl

theorem completes_channelDisable (p : Path) (c : BitVec 12) (v : Word) (s : State) (P : Hw → Prop) :
    Completes (.channelDisable p c v) s P ↔ P (s.hw.writeAt p ⟨.chCfg, c.toNat, 0⟩ (setBit v 15 false)) := by
  rw [completes_iff (exec_channelDisable p c v s)]

theorem exec_nodeBellClear (p : Path) (n : Node) (v : Word) (s : State) :
    exec (.nodeBellClear p n v) s = s.does (fun h => h.writeAt p ⟨.nodeBell, n, 0⟩ v) := rfl

theorem completes_nodeBellClear (p : Path) (n : Node) (v : Word) (s : State) (P : Hw → Prop) :
    Completes (.nodeBellClear p n v) s P ↔ P (s.hw.writeAt p ⟨.nodeBell, n, 0⟩ v) := by
  rw [completes_iff (exec_nodeBellClear p n v s)]

theorem exec_bellRing (p : Path) (n : Node) (v : Word) (s : State) :
    exec (.bellRing p n v) s = s.does (fun h => h.writeAt p ⟨.nodeBellRing, n, 0⟩ v) := rfl

theorem completes_bellRing (p : Path) (n : Node) (v : Word) (s : State) (P : Hw → Prop) :
    Completes (.bellRing p n v) s P ↔ P (s.hw.writeAt p ⟨.nodeBellRing, n, 0⟩ v) := by
  rw [completes_iff (exec_bellRing p n v s)]

theorem exec_regRequest (p : Path) (addr : BitVec 28) (write : Option Word) (errs : List CErr) (crossed : Bool) (s : State) :
    exec (.regRequest p addr write errs crossed) s = s.does (fun h => h.clocked (·.regRequest p addr.toNat write errs crossed)) := rfl

theorem completes_regRequest (p : Path) (addr : BitVec 28) (write : Option Word) (errs : List CErr) (crossed : Bool) (s : State) (P : Hw → Prop) :
    Completes (.regRequest p addr write errs crossed) s P ↔ P (s.hw.clocked (·.regRequest p addr.toNat write errs crossed)) := by
  rw [completes_iff (exec_regRequest p addr write errs crossed s)]

theorem exec_regResponse (p : Path) (errs : List CErr) (crossed : Bool) (s : State) :
    exec (.regResponse p errs crossed) s = s.does (fun h => h.clocked (·.regResponse p errs crossed)) := rfl

theorem completes_regResponse (p : Path) (errs : List CErr) (crossed : Bool) (s : State) (P : Hw → Prop) :
    Completes (.regResponse p errs crossed) s P ↔ P (s.hw.clocked (·.regResponse p errs crossed)) := by
  rw [completes_iff (exec_regResponse p errs crossed s)]

theorem exec_syncContribute (tile : Tile) (k : BitVec 9) (s : State) :
    exec (.syncContribute tile k) s = s.does (fun h => h.clocked (·.syncContribute tile k.toNat)) := rfl

theorem completes_syncContribute (tile : Tile) (k : BitVec 9) (s : State) (P : Hw → Prop) :
    Completes (.syncContribute tile k) s P ↔ P (s.hw.clocked (·.syncContribute tile k.toNat)) := by
  rw [completes_iff (exec_syncContribute tile k s)]

theorem exec_snetUpCombine (n : Node) (k : BitVec 9) (err : MeshErr) (s : State) :
    exec (.snetUpCombine n k err) s = s.does (fun h => h.clocked (·.upCombine n k.toNat err)) := rfl

theorem completes_snetUpCombine (n : Node) (k : BitVec 9) (err : MeshErr) (s : State) (P : Hw → Prop) :
    Completes (.snetUpCombine n k err) s P ↔ P (s.hw.clocked (·.upCombine n k.toNat err)) := by
  rw [completes_iff (exec_snetUpCombine n k err s)]

theorem exec_snetDownDeliver (n : Node) (k : BitVec 9) (ueAt : Option Nat) (s : State) :
    exec (.snetDownDeliver n k ueAt) s = s.does (fun h => h.clocked (·.downDeliver n k.toNat ueAt)) := rfl

theorem completes_snetDownDeliver (n : Node) (k : BitVec 9) (ueAt : Option Nat) (s : State) (P : Hw → Prop) :
    Completes (.snetDownDeliver n k ueAt) s P ↔ P (s.hw.clocked (·.downDeliver n k.toNat ueAt)) := by
  rw [completes_iff (exec_snetDownDeliver n k ueAt s)]

theorem exec_ringPartialArrival (q : Port) (s : State) :
    exec (.ringPartialArrival q) s = s.does (fun h => h.clocked (·.ringPartial q)) := rfl

theorem completes_ringPartialArrival (q : Port) (s : State) (P : Hw → Prop) :
    Completes (.ringPartialArrival q) s P ↔ P (s.hw.clocked (·.ringPartial q)) := by
  rw [completes_iff (exec_ringPartialArrival q s)]

theorem exec_syncCfgDisable (p : Path) (k : BitVec 9) (v : Word) (s : State) :
    exec (.syncCfgDisable p k v) s = s.does (fun h => h.writeAt p ⟨syncCfgId k.toNat, anchorNode, k.toNat % 256⟩ (setBit v 15 false)) := rfl

theorem completes_syncCfgDisable (p : Path) (k : BitVec 9) (v : Word) (s : State) (P : Hw → Prop) :
    Completes (.syncCfgDisable p k v) s P ↔ P (s.hw.writeAt p ⟨syncCfgId k.toNat, anchorNode, k.toNat % 256⟩ (setBit v 15 false)) := by
  rw [completes_iff (exec_syncCfgDisable p k v s)]

theorem exec_gongFreezeReq (p : Path) (v : Word) (s : State) :
    exec (.gongFreezeReq p v) s = s.does (fun h => h.gongWrite p 1 v) := rfl

theorem completes_gongFreezeReq (p : Path) (v : Word) (s : State) (P : Hw → Prop) :
    Completes (.gongFreezeReq p v) s P ↔ P (s.hw.gongWrite p 1 v) := by
  rw [completes_iff (exec_gongFreezeReq p v s)]

theorem exec_gongThawReq (p : Path) (v : Word) (s : State) :
    exec (.gongThawReq p v) s = s.does (fun h => h.gongWrite p 2 v) := rfl

theorem completes_gongThawReq (p : Path) (v : Word) (s : State) (P : Hw → Prop) :
    Completes (.gongThawReq p v) s P ↔ P (s.hw.gongWrite p 2 v) := by
  rw [completes_iff (exec_gongThawReq p v s)]

theorem exec_gongFaultReq (p : Path) (v : Word) (s : State) :
    exec (.gongFaultReq p v) s = s.does (fun h => h.gongWrite p 3 v) := rfl

theorem completes_gongFaultReq (p : Path) (v : Word) (s : State) (P : Hw → Prop) :
    Completes (.gongFaultReq p v) s P ↔ P (s.hw.gongWrite p 3 v) := by
  rw [completes_iff (exec_gongFaultReq p v s)]

theorem exec_gongNoticeArrival (q : Option Port) (s : State) :
    exec (.gongNoticeArrival q) s = s.does (fun h => h.clocked (fun h => match q with | none => h.gongLocal | some q => h.gongArrive q)) := rfl

theorem completes_gongNoticeArrival (q : Option Port) (s : State) (P : Hw → Prop) :
    Completes (.gongNoticeArrival q) s P ↔ P ((fun h => h.clocked (fun h => match q with | none => h.gongLocal | some q => h.gongArrive q)) s.hw) := by
  rw [completes_iff (exec_gongNoticeArrival q s)]

theorem exec_freezeTakeEffect (s : State) :
    exec (.freezeTakeEffect) s = s.does (fun h => h.clocked (·.freezeDue)) := rfl

theorem completes_freezeTakeEffect (s : State) (P : Hw → Prop) :
    Completes (.freezeTakeEffect) s P ↔ P (s.hw.clocked (·.freezeDue)) := by
  rw [completes_iff (exec_freezeTakeEffect s)]

theorem exec_thawTakeEffect (s : State) :
    exec (.thawTakeEffect) s = s.does (fun h => h.clocked (·.thawDue)) := rfl

theorem completes_thawTakeEffect (s : State) (P : Hw → Prop) :
    Completes (.thawTakeEffect) s P ↔ P (s.hw.clocked (·.thawDue)) := by
  rw [completes_iff (exec_thawTakeEffect s)]

theorem exec_faultNotice (s : State) :
    exec (.faultNotice) s = s.does (fun h => h.clocked (·.faultNotice)) := rfl

theorem completes_faultNotice (s : State) (P : Hw → Prop) :
    Completes (.faultNotice) s P ↔ P (s.hw.clocked (·.faultNotice)) := by
  rw [completes_iff (exec_faultNotice s)]

theorem exec_remoteFaultNotice (q : Port) (s : State) :
    exec (.remoteFaultNotice q) s = s.does (fun h => h.clocked (·.remoteFault q)) := rfl

theorem completes_remoteFaultNotice (q : Port) (s : State) (P : Hw → Prop) :
    Completes (.remoteFaultNotice q) s P ↔ P (s.hw.clocked (·.remoteFault q)) := by
  rw [completes_iff (exec_remoteFaultNotice q s)]

theorem exec_beatSend (s : State) :
    exec (.beatSend) s = s.does (fun h => h.clocked (·.beatSend)) := rfl

theorem completes_beatSend (s : State) (P : Hw → Prop) :
    Completes (.beatSend) s P ↔ P (s.hw.clocked (·.beatSend)) := by
  rw [completes_iff (exec_beatSend s)]

theorem exec_beatArrival (q : Port) (hold : BitVec 24) (hops : BitVec 5) (s : State) :
    exec (.beatArrival q hold hops) s = s.does (fun h => h.clocked (·.beatArrive q hold.toNat hops.toNat)) := rfl

theorem completes_beatArrival (q : Port) (hold : BitVec 24) (hops : BitVec 5) (s : State) (P : Hw → Prop) :
    Completes (.beatArrival q hold hops) s P ↔ P (s.hw.clocked (·.beatArrive q hold.toNat hops.toNat)) := by
  rw [completes_iff (exec_beatArrival q hold hops s)]

theorem exec_downbeatLost (s : State) :
    exec (.downbeatLost) s = s.does (fun h => h.clocked (·.downbeatLost)) := rfl

theorem completes_downbeatLost (s : State) (P : Hw → Prop) :
    Completes (.downbeatLost) s P ↔ P (s.hw.clocked (·.downbeatLost)) := by
  rw [completes_iff (exec_downbeatLost s)]

theorem exec_foldContributionArrival (n : Node) (port : Fin 5) (sel : BitVec 13) (s : State) :
    exec (.foldContributionArrival n port sel) s = s.does (fun h => h.clocked (·.foldArrive n port sel.toNat)) := rfl

theorem completes_foldContributionArrival (n : Node) (port : Fin 5) (sel : BitVec 13) (s : State) (P : Hw → Prop) :
    Completes (.foldContributionArrival n port sel) s P ↔ P (s.hw.clocked (·.foldArrive n port sel.toNat)) := by
  rw [completes_iff (exec_foldContributionArrival n port sel s)]

theorem exec_foldCombine (n : Node) (k : BitVec 6) (err : FoldErr) (s : State) :
    exec (.foldCombine n k err) s = s.does (fun h => h.clocked (·.foldCombineAt n k.toNat err)) := rfl

theorem completes_foldCombine (n : Node) (k : BitVec 6) (err : FoldErr) (s : State) (P : Hw → Prop) :
    Completes (.foldCombine n k err) s P ↔ P (s.hw.clocked (·.foldCombineAt n k.toNat err)) := by
  rw [completes_iff (exec_foldCombine n k err s)]

theorem exec_foldContextEnable (p : Path) (n : Node) (k : BitVec 6) (v : Word) (s : State) :
    exec (.foldContextEnable p n k v) s = s.does (fun h => h.writeAt p ⟨.fldCfg, n, k.toNat⟩ (setBit v 15 true)) := rfl

theorem completes_foldContextEnable (p : Path) (n : Node) (k : BitVec 6) (v : Word) (s : State) (P : Hw → Prop) :
    Completes (.foldContextEnable p n k v) s P ↔ P (s.hw.writeAt p ⟨.fldCfg, n, k.toNat⟩ (setBit v 15 true)) := by
  rw [completes_iff (exec_foldContextEnable p n k v s)]

theorem exec_foldContextClear (p : Path) (n : Node) (k : BitVec 6) (v : Word) (s : State) :
    exec (.foldContextClear p n k v) s = s.does (fun h => h.writeAt p ⟨.fldCfg, n, k.toNat⟩ (setBit v 15 false)) := rfl

theorem completes_foldContextClear (p : Path) (n : Node) (k : BitVec 6) (v : Word) (s : State) (P : Hw → Prop) :
    Completes (.foldContextClear p n k v) s P ↔ P (s.hw.writeAt p ⟨.fldCfg, n, k.toNat⟩ (setBit v 15 false)) := by
  rw [completes_iff (exec_foldContextClear p n k v s)]

theorem exec_ccx (tile : Tile) (x : CmdHdr) (body : List (BitVec 64)) (s : State) :
    exec (.ccx tile x body) s = s.does (fun h => h.clocked (·.cmdCcx tile x body)) := rfl

theorem completes_ccx (tile : Tile) (x : CmdHdr) (body : List (BitVec 64)) (s : State) (P : Hw → Prop) :
    Completes (.ccx tile x body) s P ↔ P (s.hw.clocked (·.cmdCcx tile x body)) := by
  rw [completes_iff (exec_ccx tile x body s)]

theorem exec_tailStart (tile : Tile) (tag : BitVec 16) (ueAt : Option Nat) (s : State) :
    exec (.tailStart tile tag ueAt) s = s.does (fun h => h.clocked (·.tailStart tile tag.toNat ueAt)) := rfl

theorem completes_tailStart (tile : Tile) (tag : BitVec 16) (ueAt : Option Nat) (s : State) (P : Hw → Prop) :
    Completes (.tailStart tile tag ueAt) s P ↔ P (s.hw.clocked (·.tailStart tile tag.toNat ueAt)) := by
  rw [completes_iff (exec_tailStart tile tag ueAt s)]

theorem exec_tailComplete (tile : Tile) (tag : BitVec 16) (s : State) :
    exec (.tailComplete tile tag) s = s.does (fun h => h.clocked (·.tailComplete tile tag.toNat)) := rfl

theorem completes_tailComplete (tile : Tile) (tag : BitVec 16) (s : State) (P : Hw → Prop) :
    Completes (.tailComplete tile tag) s P ↔ P (s.hw.clocked (·.tailComplete tile tag.toNat)) := by
  rw [completes_iff (exec_tailComplete tile tag s)]

theorem exec_seqReport (q : Node) (s : State) :
    exec (.seqReport q) s = s.does (fun h => h.clocked (·.seqArrive q)) := rfl

theorem completes_seqReport (q : Node) (s : State) (P : Hw → Prop) :
    Completes (.seqReport q) s P ↔ P (s.hw.clocked (·.seqArrive q)) := by
  rw [completes_iff (exec_seqReport q s)]

theorem exec_seqArm (q : Node) (j : BitVec 6) (s : State) :
    exec (.seqArm q j) s = s.does (fun h => h.clocked (·.seqArm q j.toNat)) := rfl

theorem completes_seqArm (q : Node) (j : BitVec 6) (s : State) (P : Hw → Prop) :
    Completes (.seqArm q j) s P ↔ P (s.hw.clocked (·.seqArm q j.toNat)) := by
  rw [completes_iff (exec_seqArm q j s)]

theorem exec_ringRelay (n : Node) (k : BitVec 5) (port : Fin 5) (sel : BitVec 13) (s : State) :
    exec (.ringRelay n k port sel) s = s.does (fun h => h.clocked (·.ringRelay n k.toNat port sel.toNat)) := rfl

theorem completes_ringRelay (n : Node) (k : BitVec 5) (port : Fin 5) (sel : BitVec 13) (s : State) (P : Hw → Prop) :
    Completes (.ringRelay n k port sel) s P ↔ P (s.hw.clocked (·.ringRelay n k.toNat port sel.toNat)) := by
  rw [completes_iff (exec_ringRelay n k port sel s)]

theorem exec_portRelease (tile : Tile) (s : State) :
    exec (.portRelease tile) s = s.does (fun h => h.clocked (·.portRelease tile)) := rfl

theorem completes_portRelease (tile : Tile) (s : State) (P : Hw → Prop) :
    Completes (.portRelease tile) s P ↔ P (s.hw.clocked (·.portRelease tile)) := by
  rw [completes_iff (exec_portRelease tile s)]

theorem exec_tclkStartTimeout (tile : Tile) (s : State) :
    exec (.tclkStartTimeout tile) s = s.does (fun h => h.clocked (·.tclkStartTimeout tile)) := rfl

theorem completes_tclkStartTimeout (tile : Tile) (s : State) (P : Hw → Prop) :
    Completes (.tclkStartTimeout tile) s P ↔ P (s.hw.clocked (·.tclkStartTimeout tile)) := by
  rw [completes_iff (exec_tclkStartTimeout tile s)]

theorem exec_slabRead (tile : Tile) (line : BitVec 14) (err : PadErr) (ce : Bool) (s : State) :
    exec (.slabRead tile line err ce) s = s.does (fun h => h.clocked (·.slabLaneRead tile line.toNat err ce)) := rfl

theorem completes_slabRead (tile : Tile) (line : BitVec 14) (err : PadErr) (ce : Bool) (s : State) (P : Hw → Prop) :
    Completes (.slabRead tile line err ce) s P ↔ P (s.hw.clocked (·.slabLaneRead tile line.toNat err ce)) := by
  rw [completes_iff (exec_slabRead tile line err ce s)]

theorem exec_slabReadReturn (tile : Tile) (ue : Bool) (s : State) :
    exec (.slabReadReturn tile ue) s = s.does (fun h => h.clocked (·.slabReturn tile ue)) := rfl

theorem completes_slabReadReturn (tile : Tile) (ue : Bool) (s : State) (P : Hw → Prop) :
    Completes (.slabReadReturn tile ue) s P ↔ P (s.hw.clocked (·.slabReturn tile ue)) := by
  rw [completes_iff (exec_slabReadReturn tile ue s)]

theorem exec_slabWrite (tile : Tile) (unit : BitVec 15) (en : BitVec 128) (data : BitVec 1024) (err : PadErr) (ce : Bool) (s : State) :
    exec (.slabWrite tile unit en data err ce) s = s.does (fun h => h.clocked (·.slabLaneWrite tile unit.toNat en data err ce)) := rfl

theorem completes_slabWrite (tile : Tile) (unit : BitVec 15) (en : BitVec 128) (data : BitVec 1024) (err : PadErr) (ce : Bool) (s : State) (P : Hw → Prop) :
    Completes (.slabWrite tile unit en data err ce) s P ↔ P (s.hw.clocked (·.slabLaneWrite tile unit.toNat en data err ce)) := by
  rw [completes_iff (exec_slabWrite tile unit en data err ce s)]

theorem exec_fabricInFlit (tile : Tile) (flow : BitVec 13) (last : Bool) (poison : Bool) (data : BitVec 1024) (err : PadErr) (s : State) :
    exec (.fabricInFlit tile flow last poison data err) s = s.does (fun h => h.clocked (·.fabricIn tile flow.toNat last poison data err)) := rfl

theorem completes_fabricInFlit (tile : Tile) (flow : BitVec 13) (last : Bool) (poison : Bool) (data : BitVec 1024) (err : PadErr) (s : State) (P : Hw → Prop) :
    Completes (.fabricInFlit tile flow last poison data err) s P ↔ P (s.hw.clocked (·.fabricIn tile flow.toNat last poison data err)) := by
  rw [completes_iff (exec_fabricInFlit tile flow last poison data err s)]

theorem exec_tileCredit (tile : Tile) (co : Bool) (k : BitVec 7) (s : State) :
    exec (.tileCredit tile co k) s = s.does (fun h => h.clocked (·.tileCredit tile co k.toNat)) := rfl

theorem completes_tileCredit (tile : Tile) (co : Bool) (k : BitVec 7) (s : State) (P : Hw → Prop) :
    Completes (.tileCredit tile co k) s P ↔ P (s.hw.clocked (·.tileCredit tile co k.toNat)) := by
  rw [completes_iff (exec_tileCredit tile co k s)]

theorem exec_laneOverrun (tile : Tile) (lane : Lane) (cmd : Option (BitVec 8 × BitVec 16)) (s : State) :
    exec (.laneOverrun tile lane cmd) s = s.does (fun h => h.clocked (·.laneOverrun tile (if lane = .command then cmd.map (fun x => (x.1.toNat, x.2.toNat)) else none))) := rfl

theorem completes_laneOverrun (tile : Tile) (lane : Lane) (cmd : Option (BitVec 8 × BitVec 16)) (s : State) (P : Hw → Prop) :
    Completes (.laneOverrun tile lane cmd) s P ↔ P (s.hw.clocked (·.laneOverrun tile (if lane = .command then cmd.map (fun x => (x.1.toNat, x.2.toNat)) else none))) := by
  rw [completes_iff (exec_laneOverrun tile lane cmd s)]

theorem exec_malformed (tile : Tile) (cmd : Option (BitVec 8 × BitVec 16)) (s : State) :
    exec (.malformed tile cmd) s = s.does (fun h => h.clocked (fun h => match cmd with | some c => h.malformedCmd tile c.1.toNat c.2.toNat | none => h.malformedRun tile)) := rfl

theorem completes_malformed (tile : Tile) (cmd : Option (BitVec 8 × BitVec 16)) (s : State) (P : Hw → Prop) :
    Completes (.malformed tile cmd) s P ↔ P ((fun h => h.clocked (fun h => match cmd with | some c => h.malformedCmd tile c.1.toNat c.2.toNat | none => h.malformedRun tile)) s.hw) := by
  rw [completes_iff (exec_malformed tile cmd s)]

theorem exec_nop (tile : Tile) (x : CmdHdr) (body : List (BitVec 64)) (s : State) :
    exec (.nop tile x body) s = s.does (fun h => h.clocked (·.cmdNop tile x body)) := rfl

theorem completes_nop (tile : Tile) (x : CmdHdr) (body : List (BitVec 64)) (s : State) (P : Hw → Prop) :
    Completes (.nop tile x body) s P ↔ P (s.hw.clocked (·.cmdNop tile x body)) := by
  rw [completes_iff (exec_nop tile x body s)]

theorem exec_send (tile : Tile) (x : CmdHdr) (body : List (BitVec 64)) (ueAt : Option Nat) (s : State) :
    exec (.send tile x body ueAt) s = s.does (fun h => h.clocked (·.cmdSend tile x body ueAt)) := rfl

theorem completes_send (tile : Tile) (x : CmdHdr) (body : List (BitVec 64)) (ueAt : Option Nat) (s : State) (P : Hw → Prop) :
    Completes (.send tile x body ueAt) s P ↔ P (s.hw.clocked (·.cmdSend tile x body ueAt)) := by
  rw [completes_iff (exec_send tile x body ueAt s)]

theorem exec_sendDone (tile : Tile) (tag : BitVec 16) (s : State) :
    exec (.sendDone tile tag) s = s.does (fun h => h.clocked (·.sendDone tile tag.toNat)) := rfl

theorem completes_sendDone (tile : Tile) (tag : BitVec 16) (s : State) (P : Hw → Prop) :
    Completes (.sendDone tile tag) s P ↔ P (s.hw.clocked (·.sendDone tile tag.toNat)) := by
  rw [completes_iff (exec_sendDone tile tag s)]

theorem exec_recv (tile : Tile) (x : CmdHdr) (body : List (BitVec 64)) (s : State) :
    exec (.recv tile x body) s = s.does (fun h => h.clocked (·.cmdRecv tile x body)) := rfl

theorem completes_recv (tile : Tile) (x : CmdHdr) (body : List (BitVec 64)) (s : State) (P : Hw → Prop) :
    Completes (.recv tile x body) s P ↔ P (s.hw.clocked (·.cmdRecv tile x body)) := by
  rw [completes_iff (exec_recv tile x body s)]

theorem exec_recvDone (tile : Tile) (tag : BitVec 16) (s : State) :
    exec (.recvDone tile tag) s = s.does (fun h => h.clocked (·.recvDone tile tag.toNat)) := rfl

theorem completes_recvDone (tile : Tile) (tag : BitVec 16) (s : State) (P : Hw → Prop) :
    Completes (.recvDone tile tag) s P ↔ P (s.hw.clocked (·.recvDone tile tag.toNat)) := by
  rw [completes_iff (exec_recvDone tile tag s)]

theorem exec_move (tile : Tile) (x : CmdHdr) (body : List (BitVec 64)) (s : State) :
    exec (.move tile x body) s = s.does (fun h => h.clocked (·.cmdMove tile x body)) := rfl

theorem completes_move (tile : Tile) (x : CmdHdr) (body : List (BitVec 64)) (s : State) (P : Hw → Prop) :
    Completes (.move tile x body) s P ↔ P (s.hw.clocked (·.cmdMove tile x body)) := by
  rw [completes_iff (exec_move tile x body s)]

theorem exec_moveDone (tile : Tile) (tag : BitVec 16) (s : State) :
    exec (.moveDone tile tag) s = s.does (fun h => h.clocked (·.moveDone tile tag.toNat)) := rfl

theorem completes_moveDone (tile : Tile) (tag : BitVec 16) (s : State) (P : Hw → Prop) :
    Completes (.moveDone tile tag) s P ↔ P (s.hw.clocked (·.moveDone tile tag.toNat)) := by
  rw [completes_iff (exec_moveDone tile tag s)]

theorem exec_msgSend (tile : Tile) (x : CmdHdr) (body : List (BitVec 64)) (s : State) :
    exec (.msgSend tile x body) s = s.does (fun h => h.clocked (·.cmdMsgSend tile x body)) := rfl

theorem completes_msgSend (tile : Tile) (x : CmdHdr) (body : List (BitVec 64)) (s : State) (P : Hw → Prop) :
    Completes (.msgSend tile x body) s P ↔ P (s.hw.clocked (·.cmdMsgSend tile x body)) := by
  rw [completes_iff (exec_msgSend tile x body s)]

theorem exec_msgDeq (tile : Tile) (x : CmdHdr) (body : List (BitVec 64)) (merge : Bool) (s : State) :
    exec (.msgDeq tile x body merge) s = s.does (fun h => h.clocked (·.cmdMsgDeq tile x body merge)) := rfl

theorem completes_msgDeq (tile : Tile) (x : CmdHdr) (body : List (BitVec 64)) (merge : Bool) (s : State) (P : Hw → Prop) :
    Completes (.msgDeq tile x body merge) s P ↔ P (s.hw.clocked (·.cmdMsgDeq tile x body merge)) := by
  rw [completes_iff (exec_msgDeq tile x body merge s)]

theorem exec_sync (tile : Tile) (x : CmdHdr) (body : List (BitVec 64)) (s : State) :
    exec (.sync tile x body) s = s.does (fun h => h.clocked (·.cmdSync tile x body)) := rfl

theorem completes_sync (tile : Tile) (x : CmdHdr) (body : List (BitVec 64)) (s : State) (P : Hw → Prop) :
    Completes (.sync tile x body) s P ↔ P (s.hw.clocked (·.cmdSync tile x body)) := by
  rw [completes_iff (exec_sync tile x body s)]

theorem exec_phase (tile : Tile) (x : CmdHdr) (body : List (BitVec 64)) (s : State) :
    exec (.phase tile x body) s = s.does (fun h => h.clocked (·.cmdPhase tile x body)) := rfl

theorem completes_phase (tile : Tile) (x : CmdHdr) (body : List (BitVec 64)) (s : State) (P : Hw → Prop) :
    Completes (.phase tile x body) s P ↔ P (s.hw.clocked (·.cmdPhase tile x body)) := by
  rw [completes_iff (exec_phase tile x body s)]

theorem exec_computeDone (tile : Tile) (x : CmdHdr) (body : List (BitVec 64)) (s : State) :
    exec (.computeDone tile x body) s = s.does (fun h => h.clocked (·.cmdComputeDone tile x body)) := rfl

theorem completes_computeDone (tile : Tile) (x : CmdHdr) (body : List (BitVec 64)) (s : State) (P : Hw → Prop) :
    Completes (.computeDone tile x body) s P ↔ P (s.hw.clocked (·.cmdComputeDone tile x body)) := by
  rw [completes_iff (exec_computeDone tile x body s)]

theorem exec_leaseAlloc (tile : Tile) (x : CmdHdr) (body : List (BitVec 64)) (s : State) :
    exec (.leaseAlloc tile x body) s = s.does (fun h => h.clocked (·.cmdLeaseAlloc tile x body)) := rfl

theorem completes_leaseAlloc (tile : Tile) (x : CmdHdr) (body : List (BitVec 64)) (s : State) (P : Hw → Prop) :
    Completes (.leaseAlloc tile x body) s P ↔ P (s.hw.clocked (·.cmdLeaseAlloc tile x body)) := by
  rw [completes_iff (exec_leaseAlloc tile x body s)]

theorem exec_leaseAllocDone (tile : Tile) (tag : BitVec 16) (s : State) :
    exec (.leaseAllocDone tile tag) s = s.does (fun h => h.clocked (·.leaseAllocDone tile tag.toNat)) := rfl

theorem completes_leaseAllocDone (tile : Tile) (tag : BitVec 16) (s : State) (P : Hw → Prop) :
    Completes (.leaseAllocDone tile tag) s P ↔ P (s.hw.clocked (·.leaseAllocDone tile tag.toNat)) := by
  rw [completes_iff (exec_leaseAllocDone tile tag s)]

theorem exec_leaseFree (tile : Tile) (x : CmdHdr) (body : List (BitVec 64)) (s : State) :
    exec (.leaseFree tile x body) s = s.does (fun h => h.clocked (·.cmdLeaseFree tile x body)) := rfl

theorem completes_leaseFree (tile : Tile) (x : CmdHdr) (body : List (BitVec 64)) (s : State) (P : Hw → Prop) :
    Completes (.leaseFree tile x body) s P ↔ P (s.hw.clocked (·.cmdLeaseFree tile x body)) := by
  rw [completes_iff (exec_leaseFree tile x body s)]

theorem exec_bellClear (tile : Tile) (x : CmdHdr) (body : List (BitVec 64)) (s : State) :
    exec (.bellClear tile x body) s = s.does (fun h => h.clocked (·.cmdBellClear tile x body)) := rfl

theorem completes_bellClear (tile : Tile) (x : CmdHdr) (body : List (BitVec 64)) (s : State) (P : Hw → Prop) :
    Completes (.bellClear tile x body) s P ↔ P (s.hw.clocked (·.cmdBellClear tile x body)) := by
  rw [completes_iff (exec_bellClear tile x body s)]

theorem exec_cntReport (tile : Tile) (x : CmdHdr) (body : List (BitVec 64)) (s : State) :
    exec (.cntReport tile x body) s = s.does (fun h => h.clocked (·.cmdCntReport tile x body)) := rfl

theorem completes_cntReport (tile : Tile) (x : CmdHdr) (body : List (BitVec 64)) (s : State) (P : Hw → Prop) :
    Completes (.cntReport tile x body) s P ↔ P (s.hw.clocked (·.cmdCntReport tile x body)) := by
  rw [completes_iff (exec_cntReport tile x body s)]

theorem exec_jobDone (tile : Tile) (x : CmdHdr) (body : List (BitVec 64)) (s : State) :
    exec (.jobDone tile x body) s = s.does (fun h => h.clocked (·.cmdJobDone tile x body)) := rfl

theorem completes_jobDone (tile : Tile) (x : CmdHdr) (body : List (BitVec 64)) (s : State) (P : Hw → Prop) :
    Completes (.jobDone tile x body) s P ↔ P (s.hw.clocked (·.cmdJobDone tile x body)) := by
  rw [completes_iff (exec_jobDone tile x body s)]

theorem exec_unknownOpcode (tile : Tile) (op : BitVec 8) (x : CmdHdr) (body : List (BitVec 64)) (s : State) :
    exec (.unknownOpcode tile op x body) s = s.does (fun h => h.clocked (·.cmdUnknown tile op.toNat x body)) := rfl

theorem completes_unknownOpcode (tile : Tile) (op : BitVec 8) (x : CmdHdr) (body : List (BitVec 64)) (s : State) (P : Hw → Prop) :
    Completes (.unknownOpcode tile op x body) s P ↔ P (s.hw.clocked (·.cmdUnknown tile op.toNat x body)) := by
  rw [completes_iff (exec_unknownOpcode tile op x body s)]

theorem exec_completionDeliver (tile : Tile) (s : State) :
    exec (.completionDeliver tile) s = s.does (fun h => h.clocked (·.completionDeliver tile)) := rfl

theorem completes_completionDeliver (tile : Tile) (s : State) (P : Hw → Prop) :
    Completes (.completionDeliver tile) s P ↔ P (s.hw.clocked (·.completionDeliver tile)) := by
  rw [completes_iff (exec_completionDeliver tile s)]

theorem exec_violLeak (tile : Tile) (s : State) :
    exec (.violLeak tile) s = s.does (fun h => h.clocked (·.violLeak tile)) := rfl

theorem completes_violLeak (tile : Tile) (s : State) (P : Hw → Prop) :
    Completes (.violLeak tile) s P ↔ P (s.hw.clocked (·.violLeak tile)) := by
  rw [completes_iff (exec_violLeak tile s)]

theorem exec_drainRequest (tile : Tile) (s : State) :
    exec (.drainRequest tile) s = s.does (fun h => h.clocked (·.drainDue tile)) := rfl

theorem completes_drainRequest (tile : Tile) (s : State) (P : Hw → Prop) :
    Completes (.drainRequest tile) s P ↔ P (s.hw.clocked (·.drainDue tile)) := by
  rw [completes_iff (exec_drainRequest tile s)]

theorem exec_drainAck (tile : Tile) (level : Bool) (s : State) :
    exec (.drainAck tile level) s = s.does (fun h => h.clocked (·.drainAck tile level)) := rfl

theorem completes_drainAck (tile : Tile) (level : Bool) (s : State) (P : Hw → Prop) :
    Completes (.drainAck tile level) s P ↔ P (s.hw.clocked (·.drainAck tile level)) := by
  rw [completes_iff (exec_drainAck tile level s)]

theorem exec_drainTimeout (tile : Tile) (s : State) :
    exec (.drainTimeout tile) s = s.does (fun h => h.clocked (·.drainTimeout tile)) := rfl

theorem completes_drainTimeout (tile : Tile) (s : State) (P : Hw → Prop) :
    Completes (.drainTimeout tile) s P ↔ P (s.hw.clocked (·.drainTimeout tile)) := by
  rw [completes_iff (exec_drainTimeout tile s)]

theorem exec_drainRelease (tile : Tile) (s : State) :
    exec (.drainRelease tile) s = s.does (fun h => h.clocked (·.drainOver tile)) := rfl

theorem completes_drainRelease (tile : Tile) (s : State) (P : Hw → Prop) :
    Completes (.drainRelease tile) s P ↔ P (s.hw.clocked (·.drainOver tile)) := by
  rw [completes_iff (exec_drainRelease tile s)]

theorem exec_tileFault (tile : Tile) (code : BitVec 8) (early : Bool) (s : State) :
    exec (.tileFault tile code early) s = s.does (fun h => h.clocked (·.tileFault tile code.toNat early)) := rfl

theorem completes_tileFault (tile : Tile) (code : BitVec 8) (early : Bool) (s : State) (P : Hw → Prop) :
    Completes (.tileFault tile code early) s P ↔ P (s.hw.clocked (·.tileFault tile code.toNat early)) := by
  rw [completes_iff (exec_tileFault tile code early s)]

theorem exec_handshakeViolation (tile : Tile) (s : State) :
    exec (.handshakeViolation tile) s = s.does (fun h => h.clocked (·.handshake tile)) := rfl

theorem completes_handshakeViolation (tile : Tile) (s : State) (P : Hw → Prop) :
    Completes (.handshakeViolation tile) s P ↔ P (s.hw.clocked (·.handshake tile)) := by
  rw [completes_iff (exec_handshakeViolation tile s)]

theorem exec_cntWindowClose (tile : Tile) (s : State) :
    exec (.cntWindowClose tile) s = s.does (fun h => h.clocked (·.windowClose tile)) := rfl

theorem completes_cntWindowClose (tile : Tile) (s : State) (P : Hw → Prop) :
    Completes (.cntWindowClose tile) s P ↔ P (s.hw.clocked (·.windowClose tile)) := by
  rw [completes_iff (exec_cntWindowClose tile s)]

theorem exec_powerRequest (tile : Tile) (demand : BitVec 9) (draw : BitVec 9) (early : Bool) (s : State) :
    exec (.powerRequest tile demand draw early) s = s.does (fun h => h.clocked (·.powerReport tile demand.toNat draw.toNat early)) := rfl

theorem completes_powerRequest (tile : Tile) (demand : BitVec 9) (draw : BitVec 9) (early : Bool) (s : State) (P : Hw → Prop) :
    Completes (.powerRequest tile demand draw early) s P ↔ P (s.hw.clocked (·.powerReport tile demand.toNat draw.toNat early)) := by
  rw [completes_iff (exec_powerRequest tile demand draw early s)]

theorem exec_powerGrantAck (tile : Tile) (s : State) :
    exec (.powerGrantAck tile) s = s.does (fun h => h.clocked (·.grantAck tile)) := rfl

theorem completes_powerGrantAck (tile : Tile) (s : State) (P : Hw → Prop) :
    Completes (.powerGrantAck tile) s P ↔ P (s.hw.clocked (·.grantAck tile)) := by
  rw [completes_iff (exec_powerGrantAck tile s)]

theorem exec_grantAckLate (tile : Tile) (s : State) :
    exec (.grantAckLate tile) s = s.does (fun h => h.clocked (·.grantLate tile)) := rfl

theorem completes_grantAckLate (tile : Tile) (s : State) (P : Hw → Prop) :
    Completes (.grantAckLate tile) s P ↔ P (s.hw.clocked (·.grantLate tile)) := by
  rw [completes_iff (exec_grantAckLate tile s)]

theorem exec_siteRetire (p : Path) (tile : Tile) (v : Word) (s : State) :
    exec (.siteRetire p tile v) s = s.does (fun h => h.writeAt p ⟨.tpCfg, tileNode tile, 0⟩ (setBit v 31 true)) := rfl

theorem completes_siteRetire (p : Path) (tile : Tile) (v : Word) (s : State) (P : Hw → Prop) :
    Completes (.siteRetire p tile v) s P ↔ P (s.hw.writeAt p ⟨.tpCfg, tileNode tile, 0⟩ (setBit v 31 true)) := by
  rw [completes_iff (exec_siteRetire p tile v s)]

theorem exec_patrolScrub (tile : Tile) (ce : BitVec 5) (ue : Bool) (s : State) :
    exec (.patrolScrub tile ce ue) s = s.does (fun h => h.clocked (·.patrol tile ce.toNat ue)) := rfl

theorem completes_patrolScrub (tile : Tile) (ce : BitVec 5) (ue : Bool) (s : State) (P : Hw → Prop) :
    Completes (.patrolScrub tile ce ue) s P ↔ P (s.hw.clocked (·.patrol tile ce.toNat ue)) := by
  rw [completes_iff (exec_patrolScrub tile ce ue s)]

theorem exec_pageZeroDone (g : Fin 4096) (s : State) :
    exec (.pageZeroDone g) s = s.does (fun h => h.clocked (·.pageZeroDone g)) := rfl

theorem completes_pageZeroDone (g : Fin 4096) (s : State) (P : Hw → Prop) :
    Completes (.pageZeroDone g) s P ↔ P (s.hw.clocked (·.pageZeroDone g)) := by
  rw [completes_iff (exec_pageZeroDone g s)]

theorem exec_granuleZero (m : Fin 12) (s : State) :
    exec (.granuleZero m) s = s.does (fun h => h.clocked (·.zeroNext m)) := rfl

theorem completes_granuleZero (m : Fin 12) (s : State) (P : Hw → Prop) :
    Completes (.granuleZero m) s P ↔ P (s.hw.clocked (·.zeroNext m)) := by
  rw [completes_iff (exec_granuleZero m s)]

theorem exec_memoryPathAccess (id : Nat) (data : List Byte) (repeats : BitVec 3) (ok : Bool) (ce : Bool) (ue : Bool) (dead : Bool) (s : State) :
    exec (.memoryPathAccess id data repeats ok ce ue dead) s = s.does (fun h => h.clocked (·.memPerform id data repeats.toNat ok ce ue dead)) := rfl

theorem completes_memoryPathAccess (id : Nat) (data : List Byte) (repeats : BitVec 3) (ok : Bool) (ce : Bool) (ue : Bool) (dead : Bool) (s : State) (P : Hw → Prop) :
    Completes (.memoryPathAccess id data repeats ok ce ue dead) s P ↔ P (s.hw.clocked (·.memPerform id data repeats.toNat ok ce ue dead)) := by
  rw [completes_iff (exec_memoryPathAccess id data repeats ok ce ue dead s)]

theorem exec_hbmPairFail (q : Fin 96) (s : State) :
    exec (.hbmPairFail q) s = s.does (fun h => h.clocked (fun h => if h.running then h.pairFail q 0x46 else h)) := rfl

theorem completes_hbmPairFail (q : Fin 96) (s : State) (P : Hw → Prop) :
    Completes (.hbmPairFail q) s P ↔ P ((fun h => h.clocked (fun h => if h.running then h.pairFail q 0x46 else h)) s.hw) := by
  rw [completes_iff (exec_hbmPairFail q s)]

theorem exec_leaseWrite (p : Path) (hbm : Bool) (u : BitVec 16) (v : Word) (s : State) :
    exec (.leaseWrite p hbm u v) s = s.does (fun h => h.writeAt p ⟨if hbm then .slbHlease else .slbLease, u.toNat, 0⟩ v) := rfl

theorem completes_leaseWrite (p : Path) (hbm : Bool) (u : BitVec 16) (v : Word) (s : State) (P : Hw → Prop) :
    Completes (.leaseWrite p hbm u v) s P ↔ P (s.hw.writeAt p ⟨if hbm then .slbHlease else .slbLease, u.toNat, 0⟩ v) := by
  rw [completes_iff (exec_leaseWrite p hbm u v s)]

theorem exec_trainCalDone (p : Port) (s : State) :
    exec (.trainCalDone p) s = s.does (fun h => h.clocked (·.calDone p)) := rfl

theorem completes_trainCalDone (p : Port) (s : State) (P : Hw → Prop) :
    Completes (.trainCalDone p) s P ↔ P (s.hw.clocked (·.calDone p)) := by
  rw [completes_iff (exec_trainCalDone p s)]

theorem exec_trainingUnitRx (p : Port) (u : BitVec 64) (s : State) :
    exec (.trainingUnitRx p u) s = s.does (fun h => h.clocked (·.trainUnit p u)) := rfl

theorem completes_trainingUnitRx (p : Port) (u : BitVec 64) (s : State) (P : Hw → Prop) :
    Completes (.trainingUnitRx p u) s P ↔ P (s.hw.clocked (·.trainUnit p u)) := by
  rw [completes_iff (exec_trainingUnitRx p u s)]

theorem exec_sbAcqDone (p : Port) (ms : List LaneMeas) (s : State) :
    exec (.sbAcqDone p ms) s = s.does (fun h => h.clocked (·.sbAcqDone p ms)) := rfl

theorem completes_sbAcqDone (p : Port) (ms : List LaneMeas) (s : State) (P : Hw → Prop) :
    Completes (.sbAcqDone p ms) s P ↔ P (s.hw.clocked (·.sbAcqDone p ms)) := by
  rw [completes_iff (exec_sbAcqDone p ms s)]

theorem exec_dataEqDone (p : Port) (ms : List LaneMeas) (s : State) :
    exec (.dataEqDone p ms) s = s.does (fun h => h.clocked (·.dataEqDone p ms)) := rfl

theorem completes_dataEqDone (p : Port) (ms : List LaneMeas) (s : State) (P : Hw → Prop) :
    Completes (.dataEqDone p ms) s P ↔ P (s.hw.clocked (·.dataEqDone p ms)) := by
  rw [completes_iff (exec_dataEqDone p ms s)]

theorem exec_laneSelect (p : Port) (s : State) :
    exec (.laneSelect p) s = s.does (fun h => h.clocked (·.laneSelect p)) := rfl

theorem completes_laneSelect (p : Port) (s : State) (P : Hw → Prop) :
    Completes (.laneSelect p) s P ↔ P (s.hw.clocked (·.laneSelect p)) := by
  rw [completes_iff (exec_laneSelect p s)]

theorem exec_portActive (p : Port) (s : State) :
    exec (.portActive p) s = s.does (fun h => h.clocked (·.portActive p)) := rfl

theorem completes_portActive (p : Port) (s : State) (P : Hw → Prop) :
    Completes (.portActive p) s P ↔ P (s.hw.clocked (·.portActive p)) := by
  rw [completes_iff (exec_portActive p s)]

theorem exec_trainWaitExpiry (p : Port) (s : State) :
    exec (.trainWaitExpiry p) s = s.does (fun h => h.clocked (·.waitExpiry p)) := rfl

theorem completes_trainWaitExpiry (p : Port) (s : State) (P : Hw → Prop) :
    Completes (.trainWaitExpiry p) s P ↔ P (s.hw.clocked (·.waitExpiry p)) := by
  rw [completes_iff (exec_trainWaitExpiry p s)]

theorem exec_preambleDetect (p : Port) (k : Fin 18) (signs : List Bool) (win : List Bool) (s : State) :
    exec (.preambleDetect p k signs win) s = s.does (fun h => h.clocked (·.preambleRx p k signs win)) := rfl

theorem completes_preambleDetect (p : Port) (k : Fin 18) (signs : List Bool) (win : List Bool) (s : State) (P : Hw → Prop) :
    Completes (.preambleDetect p k signs win) s P ↔ P (s.hw.clocked (·.preambleRx p k signs win)) := by
  rw [completes_iff (exec_preambleDetect p k signs win s)]

theorem exec_burstEnd (p : Port) (k : Fin 18) (w1 : BitVec 64) (w2 : BitVec 64) (s : State) :
    exec (.burstEnd p k w1 w2) s = s.does (fun h => h.clocked (·.burstEnd p k w1 w2)) := rfl

theorem completes_burstEnd (p : Port) (k : Fin 18) (w1 : BitVec 64) (w2 : BitVec 64) (s : State) (P : Hw → Prop) :
    Completes (.burstEnd p k w1 w2) s P ↔ P (s.hw.clocked (·.burstEnd p k w1 w2)) := by
  rw [completes_iff (exec_burstEnd p k w1 w2 s)]

theorem exec_laneLos (p : Port) (k : Fin 18) (s : State) :
    exec (.laneLos p k) s = s.does (fun h => h.clocked (·.laneLos p k)) := rfl

theorem completes_laneLos (p : Port) (k : Fin 18) (s : State) (P : Hw → Prop) :
    Completes (.laneLos p k) s P ↔ P (s.hw.clocked (·.laneLos p k)) := by
  rw [completes_iff (exec_laneLos p k s)]

theorem exec_sidebandLost (p : Port) (s : State) :
    exec (.sidebandLost p) s = s.does (fun h => h.clocked (·.sbLost p)) := rfl

theorem completes_sidebandLost (p : Port) (s : State) (P : Hw → Prop) :
    Completes (.sidebandLost p) s P ↔ P (s.hw.clocked (·.sbLost p)) := by
  rw [completes_iff (exec_sidebandLost p s)]

theorem exec_laneIsolate (p : Port) (k : Fin 18) (s : State) :
    exec (.laneIsolate p k) s = s.does (fun h => h.clocked (·.laneIsolate p k)) := rfl

theorem completes_laneIsolate (p : Port) (k : Fin 18) (s : State) (P : Hw → Prop) :
    Completes (.laneIsolate p k) s P ↔ P (s.hw.clocked (·.laneIsolate p k)) := by
  rw [completes_iff (exec_laneIsolate p k s)]

theorem exec_isolate (p : Port) (s : State) :
    exec (.isolate p) s = s.does (fun h => h.clocked (·.isolateCmd p)) := rfl

theorem completes_isolate (p : Port) (s : State) (P : Hw → Prop) :
    Completes (.isolate p) s P ↔ P (s.hw.clocked (·.isolateCmd p)) := by
  rw [completes_iff (exec_isolate p s)]

theorem exec_rewake (p : Port) (s : State) :
    exec (.rewake p) s = s.does (fun h => h.clocked (·.rewakeCmd p)) := rfl

theorem completes_rewake (p : Port) (s : State) (P : Hw → Prop) :
    Completes (.rewake p) s P ↔ P (s.hw.clocked (·.rewakeCmd p)) := by
  rw [completes_iff (exec_rewake p s)]

theorem exec_badLaneCommand (p : Port) (s : State) :
    exec (.badLaneCommand p) s = s.does (fun h => h.clocked (·.badCmd p)) := rfl

theorem completes_badLaneCommand (p : Port) (s : State) (P : Hw → Prop) :
    Completes (.badLaneCommand p) s P ↔ P (s.hw.clocked (·.badCmd p)) := by
  rw [completes_iff (exec_badLaneCommand p s)]

theorem exec_directionSleep (p : Port) (s : State) :
    exec (.directionSleep p) s = s.does (fun h => h.clocked (fun h => h.phySleep p (h.txIdle p))) := rfl

theorem completes_directionSleep (p : Port) (s : State) (P : Hw → Prop) :
    Completes (.directionSleep p) s P ↔ P ((fun h => h.clocked (fun h => h.phySleep p (h.txIdle p))) s.hw) := by
  rw [completes_iff (exec_directionSleep p s)]

theorem exec_directionWake (p : Port) (s : State) :
    exec (.directionWake p) s = s.does (fun h => h.clocked (·.phyWake p)) := rfl

theorem completes_directionWake (p : Port) (s : State) (P : Hw → Prop) :
    Completes (.directionWake p) s P ↔ P (s.hw.clocked (·.phyWake p)) := by
  rw [completes_iff (exec_directionWake p s)]

theorem exec_frameTransmit (p : Port) (k : Fin 18) (s : State) :
    exec (.frameTransmit p k) s = s.does (fun h => h.clocked (·.frameTransmit p k)) := rfl

theorem completes_frameTransmit (p : Port) (k : Fin 18) (s : State) (P : Hw → Prop) :
    Completes (.frameTransmit p k) s P ↔ P (s.hw.clocked (·.frameTransmit p k)) := by
  rw [completes_iff (exec_frameTransmit p k s)]

theorem exec_frameReceive (p : Port) (k : Fin 18) (b : List Byte) (s : State) :
    exec (.frameReceive p k b) s = s.does (fun h => h.clocked (·.frameRx p k b)) := rfl

theorem completes_frameReceive (p : Port) (k : Fin 18) (b : List Byte) (s : State) (P : Hw → Prop) :
    Completes (.frameReceive p k b) s P ↔ P (s.hw.clocked (·.frameRx p k b)) := by
  rw [completes_iff (exec_frameReceive p k b s)]

theorem exec_controlWordRx (p : Port) (k : Fin 18) (b : List Byte) (s : State) :
    exec (.controlWordRx p k b) s = s.does (fun h => h.clocked (·.controlRx p k b)) := rfl

theorem completes_controlWordRx (p : Port) (k : Fin 18) (b : List Byte) (s : State) (P : Hw → Prop) :
    Completes (.controlWordRx p k b) s P ↔ P (s.hw.clocked (·.controlRx p k b)) := by
  rw [completes_iff (exec_controlWordRx p k b s)]

theorem exec_frameDeliver (p : Port) (s : State) :
    exec (.frameDeliver p) s = s.does (fun h => h.clocked (·.frameDeliver p)) := rfl

theorem completes_frameDeliver (p : Port) (s : State) (P : Hw → Prop) :
    Completes (.frameDeliver p) s P ↔ P (s.hw.clocked (·.frameDeliver p)) := by
  rw [completes_iff (exec_frameDeliver p s)]

theorem exec_frameRelease (p : Port) (s : State) :
    exec (.frameRelease p) s = s.does (fun h => h.clocked (·.frameRelease p)) := rfl

theorem completes_frameRelease (p : Port) (s : State) (P : Hw → Prop) :
    Completes (.frameRelease p) s P ↔ P (s.hw.clocked (·.frameRelease p)) := by
  rw [completes_iff (exec_frameRelease p s)]

theorem exec_nakReceive (p : Port) (seq : BitVec 16) (s : State) :
    exec (.nakReceive p seq) s = s.does (fun h => h.clocked (·.nakIn p seq.toNat)) := rfl

theorem completes_nakReceive (p : Port) (seq : BitVec 16) (s : State) (P : Hw → Prop) :
    Completes (.nakReceive p seq) s P ↔ P (s.hw.clocked (·.nakIn p seq.toNat)) := by
  rw [completes_iff (exec_nakReceive p seq s)]

theorem exec_replayTimeout (p : Port) (s : State) :
    exec (.replayTimeout p) s = s.does (fun h => h.clocked (·.replayTimeout p)) := rfl

theorem completes_replayTimeout (p : Port) (s : State) (P : Hw → Prop) :
    Completes (.replayTimeout p) s P ↔ P (s.hw.clocked (·.replayTimeout p)) := by
  rw [completes_iff (exec_replayTimeout p s)]

theorem exec_sidebandUnitRx (p : Port) (k : Fin 18) (part : Fin 8) (u : BitVec 64) (s : State) :
    exec (.sidebandUnitRx p k part u) s = s.does (fun h => h.clocked (·.sbUnitRx p k part u)) := rfl

theorem completes_sidebandUnitRx (p : Port) (k : Fin 18) (part : Fin 8) (u : BitVec 64) (s : State) (P : Hw → Prop) :
    Completes (.sidebandUnitRx p k part u) s P ↔ P (s.hw.clocked (·.sbUnitRx p k part u)) := by
  rw [completes_iff (exec_sidebandUnitRx p k part u s)]

theorem exec_sidebandTimeout (p : Port) (s : State) :
    exec (.sidebandTimeout p) s = s.does (fun h => h.clocked (·.sbTimedOut p)) := rfl

theorem completes_sidebandTimeout (p : Port) (s : State) (P : Hw → Prop) :
    Completes (.sidebandTimeout p) s P ↔ P (s.hw.clocked (·.sbTimedOut p)) := by
  rw [completes_iff (exec_sidebandTimeout p s)]

theorem exec_identReceive (p : Port) (rtt : BitVec 16) (s : State) :
    exec (.identReceive p rtt) s = s.does (fun h => h.clocked (·.identRx p rtt.toNat)) := rfl

theorem completes_identReceive (p : Port) (rtt : BitVec 16) (s : State) (P : Hw → Prop) :
    Completes (.identReceive p rtt) s P ↔ P (s.hw.clocked (·.identRx p rtt.toNat)) := by
  rw [completes_iff (exec_identReceive p rtt s)]

theorem exec_echo (p : Port) (s : State) :
    exec (.echo p) s = s.does (fun h => h.clocked (·.echoStep p)) := rfl

theorem completes_echo (p : Port) (s : State) (P : Hw → Prop) :
    Completes (.echo p) s P ↔ P (s.hw.clocked (·.echoStep p)) := by
  rw [completes_iff (exec_echo p s)]

theorem exec_portDeclaredDown (p : Port) (s : State) :
    exec (.portDeclaredDown p) s = s.does (fun h => h.clocked (·.downNow p)) := rfl

theorem completes_portDeclaredDown (p : Port) (s : State) (P : Hw → Prop) :
    Completes (.portDeclaredDown p) s P ↔ P (s.hw.clocked (·.downNow p)) := by
  rw [completes_iff (exec_portDeclaredDown p s)]

theorem exec_portReturnTimeout (p : Port) (s : State) :
    exec (.portReturnTimeout p) s = s.does (fun h => h.clocked (·.returnTimeout p)) := rfl

theorem completes_portReturnTimeout (p : Port) (s : State) (P : Hw → Prop) :
    Completes (.portReturnTimeout p) s P ↔ P (s.hw.clocked (·.returnTimeout p)) := by
  rw [completes_iff (exec_portReturnTimeout p s)]

theorem exec_dtrReceive (p : Port) (s : State) :
    exec (.dtrReceive p) s = s.does (fun h => h.clocked (·.dtrRx p)) := rfl

theorem completes_dtrReceive (p : Port) (s : State) (P : Hw → Prop) :
    Completes (.dtrReceive p) s P ↔ P (s.hw.clocked (·.dtrRx p)) := by
  rw [completes_iff (exec_dtrReceive p s)]

theorem exec_peerViolLeak (p : Port) (s : State) :
    exec (.peerViolLeak p) s = s.does (fun h => h.clocked (·.peerLeak p)) := rfl

theorem completes_peerViolLeak (p : Port) (s : State) (P : Hw → Prop) :
    Completes (.peerViolLeak p) s P ↔ P (s.hw.clocked (·.peerLeak p)) := by
  rw [completes_iff (exec_peerViolLeak p s)]

theorem exec_launchDoorbell (t : Tenant) (s : State) :
    exec (.launchDoorbell t) s = s.does (fun h => h.writeAt (.vf t) ⟨.hstLaunchDb, t, 0⟩ 1#32) := rfl

theorem completes_launchDoorbell (t : Tenant) (s : State) (P : Hw → Prop) :
    Completes (.launchDoorbell t) s P ↔ P (s.hw.writeAt (.vf t) ⟨.hstLaunchDb, t, 0⟩ 1#32) := by
  rw [completes_iff (exec_launchDoorbell t s)]

theorem exec_planReadDone (t : Tenant) (bytes : List Byte) (ok : Bool) (s : State) :
    exec (.planReadDone t bytes ok) s = s.does (fun h => h.clocked (·.planRead t bytes ok)) := rfl

theorem completes_planReadDone (t : Tenant) (bytes : List Byte) (ok : Bool) (s : State) (P : Hw → Prop) :
    Completes (.planReadDone t bytes ok) s P ↔ P (s.hw.clocked (·.planRead t bytes ok)) := by
  rw [completes_iff (exec_planReadDone t bytes ok s)]

theorem exec_admission (t : Tenant) (s : State) :
    exec (.admission t) s = s.does (fun h => h.clocked (·.admission t)) := rfl

theorem completes_admission (t : Tenant) (s : State) (P : Hw → Prop) :
    Completes (.admission t) s P ↔ P (s.hw.clocked (·.admission t)) := by
  rw [completes_iff (exec_admission t s)]

theorem exec_genWaitExpiry (t : Tenant) (s : State) :
    exec (.genWaitExpiry t) s = s.does (fun h => h.clocked (·.genWaitExpiry t)) := rfl

theorem completes_genWaitExpiry (t : Tenant) (s : State) (P : Hw → Prop) :
    Completes (.genWaitExpiry t) s P ↔ P (s.hw.clocked (·.genWaitExpiry t)) := by
  rw [completes_iff (exec_genWaitExpiry t s)]

theorem exec_jobStop (t : Tenant) (s : State) :
    exec (.jobStop t) s = s.does (fun h => h.writeAt (.vf t) ⟨.hstJobCtl, t, 0⟩ 1#32) := rfl

theorem completes_jobStop (t : Tenant) (s : State) (P : Hw → Prop) :
    Completes (.jobStop t) s P ↔ P (s.hw.writeAt (.vf t) ⟨.hstJobCtl, t, 0⟩ 1#32) := by
  rw [completes_iff (exec_jobStop t s)]

theorem exec_relaunch (t : Tenant) (s : State) :
    exec (.relaunch t) s = s.does (fun h => h.clocked (·.relaunch t)) := rfl

theorem completes_relaunch (t : Tenant) (s : State) (P : Hw → Prop) :
    Completes (.relaunch t) s P ↔ P (s.hw.clocked (·.relaunch t)) := by
  rw [completes_iff (exec_relaunch t s)]

theorem exec_bar2Read (t : Tenant) (off : BitVec 40) (len : BitVec 13) (err : PadErr) (s : State) :
    exec (.bar2Read t off len err) s = s.does (fun h => h.clocked (·.bar2Read t off.toNat len.toNat err)) := rfl

theorem completes_bar2Read (t : Tenant) (off : BitVec 40) (len : BitVec 13) (err : PadErr) (s : State) (P : Hw → Prop) :
    Completes (.bar2Read t off len err) s P ↔ P (s.hw.clocked (·.bar2Read t off.toNat len.toNat err)) := by
  rw [completes_iff (exec_bar2Read t off len err s)]

theorem exec_bar2Write (t : Tenant) (off : BitVec 40) (data : List (Option Byte)) (s : State) :
    exec (.bar2Write t off data) s = s.does (fun h => h.clocked (·.bar2Write t off.toNat data)) := rfl

theorem completes_bar2Write (t : Tenant) (off : BitVec 40) (data : List (Option Byte)) (s : State) (P : Hw → Prop) :
    Completes (.bar2Write t off data) s P ↔ P (s.hw.clocked (·.bar2Write t off.toNat data)) := by
  rw [completes_iff (exec_bar2Write t off data s)]

theorem exec_msixSend (fn : Fin 65) (v : Fin 32) (s : State) :
    exec (.msixSend fn v) s = s.does (fun h => h.msixSend fn v) := rfl

theorem completes_msixSend (fn : Fin 65) (v : Fin 32) (s : State) (P : Hw → Prop) :
    Completes (.msixSend fn v) s P ↔ P (s.hw.msixSend fn v) := by
  rw [completes_iff (exec_msixSend fn v s)]

theorem exec_aerError (e : AerError) (fn : Fin 65) (s : State) :
    exec (.aerError e fn) s = s.does (fun h => h.aerReport e fn) := rfl

theorem completes_aerError (e : AerError) (fn : Fin 65) (s : State) (P : Hw → Prop) :
    Completes (.aerError e fn) s P ↔ P (s.hw.aerReport e fn) := by
  rw [completes_iff (exec_aerError e fn s)]

theorem exec_pcieLinkDown (s : State) :
    exec (.pcieLinkDown) s = s.does (fun h => h.pcieLinkDown) := rfl

theorem completes_pcieLinkDown (s : State) (P : Hw → Prop) :
    Completes (.pcieLinkDown) s P ↔ P (s.hw.pcieLinkDown) := by
  rw [completes_iff (exec_pcieLinkDown s)]

theorem exec_pfD3hot (s : State) :
    exec (.pfD3hot) s = s.does (fun h => h.pfD3hot) := rfl

theorem completes_pfD3hot (s : State) (P : Hw → Prop) :
    Completes (.pfD3hot) s P ↔ P (s.hw.pfD3hot) := by
  rw [completes_iff (exec_pfD3hot s)]

theorem exec_vfFlr (t : Tenant) (s : State) :
    exec (.vfFlr t) s = s.does (fun h => h.clocked (·.vfReset t)) := rfl

theorem completes_vfFlr (t : Tenant) (s : State) (P : Hw → Prop) :
    Completes (.vfFlr t) s P ↔ P (s.hw.clocked (·.vfReset t)) := by
  rw [completes_iff (exec_vfFlr t s)]

theorem exec_vfDisable (vfs : List Tenant) (s : State) :
    exec (.vfDisable vfs) s = s.does (fun h => h.clocked (·.vfDisable vfs)) := rfl

theorem completes_vfDisable (vfs : List Tenant) (s : State) (P : Hw → Prop) :
    Completes (.vfDisable vfs) s P ↔ P (s.hw.clocked (·.vfDisable vfs)) := by
  rw [completes_iff (exec_vfDisable vfs s)]

theorem exec_windowWithdraw (p : Path) (t : Tenant) (w : Fin 16) (part : Fin 3) (v : Word) (s : State) :
    exec (.windowWithdraw p t w part v) s = s.does (fun h => h.writeAt p ⟨if part = 0 then .hstWinBaseLo else if part = 1 then .hstWinBaseHi else .hstWinSize, t, w⟩ v) := rfl

theorem completes_windowWithdraw (p : Path) (t : Tenant) (w : Fin 16) (part : Fin 3) (v : Word) (s : State) (P : Hw → Prop) :
    Completes (.windowWithdraw p t w part v) s P ↔ P (s.hw.writeAt p ⟨if part = 0 then .hstWinBaseLo else if part = 1 then .hstWinBaseHi else .hstWinSize, t, w⟩ v) := by
  rw [completes_iff (exec_windowWithdraw p t w part v s)]

theorem exec_relaySend (w : Option (Path × BitVec 12)) (s : State) :
    exec (.relaySend w) s = s.does (fun h => (h.relayWrites false w).clocked (·.relaySend)) := rfl

theorem completes_relaySend (w : Option (Path × BitVec 12)) (s : State) (P : Hw → Prop) :
    Completes (.relaySend w) s P ↔ P ((s.hw.relayWrites false w).clocked (·.relaySend)) := by
  rw [completes_iff (exec_relaySend w s)]

theorem exec_relayDequeue (w : Option (Path × BitVec 12)) (merge : Bool) (s : State) :
    exec (.relayDequeue w merge) s = s.does (fun h => (h.relayWrites true w).clocked (·.relayDequeue merge)) := rfl

theorem completes_relayDequeue (w : Option (Path × BitVec 12)) (merge : Bool) (s : State) (P : Hw → Prop) :
    Completes (.relayDequeue w merge) s P ↔ P ((s.hw.relayWrites true w).clocked (·.relayDequeue merge)) := by
  rw [completes_iff (exec_relayDequeue w merge s)]

theorem exec_faultAccept (s : State) :
    exec (.faultAccept) s = s.does (fun h => h.clocked (·.faultAccept)) := rfl

theorem completes_faultAccept (s : State) (P : Hw → Prop) :
    Completes (.faultAccept) s P ↔ P (s.hw.clocked (·.faultAccept)) := by
  rw [completes_iff (exec_faultAccept s)]

theorem exec_f0Accept (s : State) :
    exec (.f0Accept) s = s.does (fun h => h.clocked (·.f0Accept)) := rfl

theorem completes_f0Accept (s : State) (P : Hw → Prop) :
    Completes (.f0Accept) s P ↔ P (s.hw.clocked (·.f0Accept)) := by
  rw [completes_iff (exec_f0Accept s)]

theorem exec_restartDrainDone (t : Tenant) (s : State) :
    exec (.restartDrainDone t) s = s.does (fun h => h.clocked (·.drainDone t)) := rfl

theorem completes_restartDrainDone (t : Tenant) (s : State) (P : Hw → Prop) :
    Completes (.restartDrainDone t) s P ↔ P (s.hw.clocked (·.drainDone t)) := by
  rw [completes_iff (exec_restartDrainDone t s)]

theorem exec_restartSweepDone (t : Tenant) (s : State) :
    exec (.restartSweepDone t) s = s.does (fun h => h.clocked (·.sweepDone t)) := rfl

theorem completes_restartSweepDone (t : Tenant) (s : State) (P : Hw → Prop) :
    Completes (.restartSweepDone t) s P ↔ P (s.hw.clocked (·.sweepDone t)) := by
  rw [completes_iff (exec_restartSweepDone t s)]

theorem exec_restartReady (t : Tenant) (s : State) :
    exec (.restartReady t) s = s.does (fun h => h.clocked (·.restartReady t)) := rfl

theorem completes_restartReady (t : Tenant) (s : State) (P : Hw → Prop) :
    Completes (.restartReady t) s P ↔ P (s.hw.clocked (·.restartReady t)) := by
  rw [completes_iff (exec_restartReady t s)]

theorem exec_f0Reapply (s : State) :
    exec (.f0Reapply) s = s.does (fun h => h.clocked (·.f0Reapply)) := rfl

theorem completes_f0Reapply (s : State) (P : Hw → Prop) :
    Completes (.f0Reapply) s P ↔ P (s.hw.clocked (·.f0Reapply)) := by
  rw [completes_iff (exec_f0Reapply s)]

theorem exec_jobEndComplete (p : Path) (t : Tenant) (s : State) :
    exec (.jobEndComplete p t) s = s.does (fun h => h.writeAt p ⟨.tntCtl, t, 0⟩ 2#32) := rfl

theorem completes_jobEndComplete (p : Path) (t : Tenant) (s : State) (P : Hw → Prop) :
    Completes (.jobEndComplete p t) s P ↔ P (s.hw.writeAt p ⟨.tntCtl, t, 0⟩ 2#32) := by
  rw [completes_iff (exec_jobEndComplete p t s)]

theorem exec_startRoundJoin (p : Path) (t : Tenant) (s : State) :
    exec (.startRoundJoin p t) s = s.does (fun h => h.writeAt p ⟨.tntCtl, t, 0⟩ 1#32) := rfl

theorem completes_startRoundJoin (p : Path) (t : Tenant) (s : State) (P : Hw → Prop) :
    Completes (.startRoundJoin p t) s P ↔ P (s.hw.writeAt p ⟨.tntCtl, t, 0⟩ 1#32) := by
  rw [completes_iff (exec_startRoundJoin p t s)]

theorem exec_startBell (t : Tenant) (s : State) :
    exec (.startBell t) s = s.does (fun h => h.clocked (·.startBells t)) := rfl

theorem completes_startBell (t : Tenant) (s : State) (P : Hw → Prop) :
    Completes (.startBell t) s P ↔ P (s.hw.clocked (·.startBells t)) := by
  rw [completes_iff (exec_startBell t s)]

theorem exec_startTimeout (t : Tenant) (s : State) :
    exec (.startTimeout t) s = s.does (fun h => h.clocked (·.startTimeout t)) := rfl

theorem completes_startTimeout (t : Tenant) (s : State) (P : Hw → Prop) :
    Completes (.startTimeout t) s P ↔ P (s.hw.clocked (·.startTimeout t)) := by
  rw [completes_iff (exec_startTimeout t s)]

theorem exec_powerWindowCompute (sensors : List (BitVec 12 × BitVec 12 × Bool)) (temp : BitVec 8) (s : State) :
    exec (.powerWindowCompute sensors temp) s = s.does (fun h => h.clocked (·.powerWindow (sensors.map (fun x => (x.1.toNat, x.2.1.toNat, x.2.2))) temp.toNat)) := rfl

theorem completes_powerWindowCompute (sensors : List (BitVec 12 × BitVec 12 × Bool)) (temp : BitVec 8) (s : State) (P : Hw → Prop) :
    Completes (.powerWindowCompute sensors temp) s P ↔ P (s.hw.clocked (·.powerWindow (sensors.map (fun x => (x.1.toNat, x.2.1.toNat, x.2.2))) temp.toNat)) := by
  rw [completes_iff (exec_powerWindowCompute sensors temp s)]

theorem exec_powerAdapt (s : State) :
    exec (.powerAdapt) s = s.does (fun h => h.clocked (·.powerAdaptAll)) := rfl

theorem completes_powerAdapt (s : State) (P : Hw → Prop) :
    Completes (.powerAdapt) s P ↔ P (s.hw.clocked (·.powerAdaptAll)) := by
  rw [completes_iff (exec_powerAdapt s)]

theorem exec_startGrant (t : Tenant) (s : State) :
    exec (.startGrant t) s = s.does (fun h => h.clocked (·.startGrant t)) := rfl

theorem completes_startGrant (t : Tenant) (s : State) (P : Hw → Prop) :
    Completes (.startGrant t) s P ↔ P (s.hw.clocked (·.startGrant t)) := by
  rw [completes_iff (exec_startGrant t s)]

theorem exec_droopTrip (k : BitVec 4) (s : State) :
    exec (.droopTrip k) s = s.does (fun h => h.clocked (·.droopTrip k.toNat)) := rfl

theorem completes_droopTrip (k : BitVec 4) (s : State) (P : Hw → Prop) :
    Completes (.droopTrip k) s P ↔ P (s.hw.clocked (·.droopTrip k.toNat)) := by
  rw [completes_iff (exec_droopTrip k s)]

theorem exec_droopGateEnd (s : State) :
    exec (.droopGateEnd) s = s.does (fun h => h.clocked (·.droopEnd)) := rfl

theorem completes_droopGateEnd (s : State) (P : Hw → Prop) :
    Completes (.droopGateEnd) s P ↔ P (s.hw.clocked (·.droopEnd)) := by
  rw [completes_iff (exec_droopGateEnd s)]

theorem exec_thermNChange (level : Bool) (s : State) :
    exec (.thermNChange level) s = s.does (fun h => h.thermN level) := rfl

theorem completes_thermNChange (level : Bool) (s : State) (P : Hw → Prop) :
    Completes (.thermNChange level) s P ↔ P (s.hw.thermN level) := by
  rw [completes_iff (exec_thermNChange level s)]

theorem exec_heartbeatWrite (k : Core) (v : Word) (s : State) :
    exec (.heartbeatWrite k v) s = s.does (fun h => h.writeAt (.steward k) ⟨.stwHeartbeat, k, 0⟩ v) := rfl

theorem completes_heartbeatWrite (k : Core) (v : Word) (s : State) (P : Hw → Prop) :
    Completes (.heartbeatWrite k v) s P ↔ P (s.hw.writeAt (.steward k) ⟨.stwHeartbeat, k, 0⟩ v) := by
  rw [completes_iff (exec_heartbeatWrite k v s)]

theorem exec_stewardHeartbeatFail (k : Core) (s : State) :
    exec (.stewardHeartbeatFail k) s = s.does (fun h => h.clocked (·.heartbeatFail k)) := rfl

theorem completes_stewardHeartbeatFail (k : Core) (s : State) (P : Hw → Prop) :
    Completes (.stewardHeartbeatFail k) s P ↔ P (s.hw.clocked (·.heartbeatFail k)) := by
  rw [completes_iff (exec_stewardHeartbeatFail k s)]

theorem exec_stewardCoreUe (core : Option Core) (n : Node) (s : State) :
    exec (.stewardCoreUe core n) s = s.does (fun h => h.clocked (·.coreUe (core.map (·.val)) n)) := rfl

theorem completes_stewardCoreUe (core : Option Core) (n : Node) (s : State) (P : Hw → Prop) :
    Completes (.stewardCoreUe core n) s P ↔ P (s.hw.clocked (·.coreUe (core.map (·.val)) n)) := by
  rw [completes_iff (exec_stewardCoreUe core n s)]

theorem exec_mtimeInterrupt (k : Core) (s : State) :
    exec (.mtimeInterrupt k) s = s.does (fun h => h.clocked (·.timerDue k)) := rfl

theorem completes_mtimeInterrupt (k : Core) (s : State) (P : Hw → Prop) :
    Completes (.mtimeInterrupt k) s P ↔ P (s.hw.clocked (·.timerDue k)) := by
  rw [completes_iff (exec_mtimeInterrupt k s)]

theorem exec_mboxDoorbell (p : Path) (s : State) :
    exec (.mboxDoorbell p) s = s.does (fun h => h.writeAt p ⟨.stwMboxDb, 0, 0⟩ 1#32) := rfl

theorem completes_mboxDoorbell (p : Path) (s : State) (P : Hw → Prop) :
    Completes (.mboxDoorbell p) s P ↔ P (s.hw.writeAt p ⟨.stwMboxDb, 0, 0⟩ 1#32) := by
  rw [completes_iff (exec_mboxDoorbell p s)]

theorem exec_mboxDone (p : Path) (s : State) :
    exec (.mboxDone p) s = s.does (fun h => h.writeAt p ⟨.stwMboxDone, 0, 0⟩ 1#32) := rfl

theorem completes_mboxDone (p : Path) (s : State) (P : Hw → Prop) :
    Completes (.mboxDone p) s P ↔ P (s.hw.writeAt p ⟨.stwMboxDone, 0, 0⟩ 1#32) := by
  rw [completes_iff (exec_mboxDone p s)]

theorem exec_info (via : Option (BitVec 12 × BitVec 12)) (s : State) :
    exec (.info via) s = s.does (fun h => h.clocked (·.serviceInfo (via.map (fun x => (x.1.toNat, x.2.toNat))))) := rfl

theorem completes_info (via : Option (BitVec 12 × BitVec 12)) (s : State) (P : Hw → Prop) :
    Completes (.info via) s P ↔ P (s.hw.clocked (·.serviceInfo (via.map (fun x => (x.1.toNat, x.2.toNat))))) := by
  rw [completes_iff (exec_info via s)]

theorem exec_nvmRead (via : Option (BitVec 12 × BitVec 12)) (ok : Bool) (timeout : Bool) (s : State) :
    exec (.nvmRead via ok timeout) s = s.does (fun h => h.clocked (·.serviceNvmRead (via.map (fun x => (x.1.toNat, x.2.toNat))) ok timeout)) := rfl

theorem completes_nvmRead (via : Option (BitVec 12 × BitVec 12)) (ok : Bool) (timeout : Bool) (s : State) (P : Hw → Prop) :
    Completes (.nvmRead via ok timeout) s P ↔ P (s.hw.clocked (·.serviceNvmRead (via.map (fun x => (x.1.toNat, x.2.toNat))) ok timeout)) := by
  rw [completes_iff (exec_nvmRead via ok timeout s)]

theorem exec_nvmWrite (via : Option (BitVec 12 × BitVec 12)) (data : List Byte) (stop : Option (Nat × Bool)) (s : State) :
    exec (.nvmWrite via data stop) s = s.does (fun h => h.clocked (·.serviceNvmWrite (via.map (fun x => (x.1.toNat, x.2.toNat))) data stop)) := rfl

theorem completes_nvmWrite (via : Option (BitVec 12 × BitVec 12)) (data : List Byte) (stop : Option (Nat × Bool)) (s : State) (P : Hw → Prop) :
    Completes (.nvmWrite via data stop) s P ↔ P (s.hw.clocked (·.serviceNvmWrite (via.map (fun x => (x.1.toNat, x.2.toNat))) data stop)) := by
  rw [completes_iff (exec_nvmWrite via data stop s)]

theorem exec_nvmErase (via : Option (BitVec 12 × BitVec 12)) (stop : Option Nat) (s : State) :
    exec (.nvmErase via stop) s = s.does (fun h => h.clocked (·.serviceNvmErase (via.map (fun x => (x.1.toNat, x.2.toNat))) stop)) := rfl

theorem completes_nvmErase (via : Option (BitVec 12 × BitVec 12)) (stop : Option Nat) (s : State) (P : Hw → Prop) :
    Completes (.nvmErase via stop) s P ↔ P (s.hw.clocked (·.serviceNvmErase (via.map (fun x => (x.1.toNat, x.2.toNat))) stop)) := by
  rw [completes_iff (exec_nvmErase via stop s)]

theorem exec_retireSite (via : Option (BitVec 12 × BitVec 12)) (s : State) :
    exec (.retireSite via) s = s.does (fun h => h.clocked (·.serviceRetire (via.map (fun x => (x.1.toNat, x.2.toNat))))) := rfl

theorem completes_retireSite (via : Option (BitVec 12 × BitVec 12)) (s : State) (P : Hw → Prop) :
    Completes (.retireSite via) s P ↔ P (s.hw.clocked (·.serviceRetire (via.map (fun x => (x.1.toNat, x.2.toNat))))) := by
  rw [completes_iff (exec_retireSite via s)]

theorem exec_counterDump (via : Option (BitVec 12 × BitVec 12)) (ok : Bool) (s : State) :
    exec (.counterDump via ok) s = s.does (fun h => h.clocked (·.serviceDump (via.map (fun x => (x.1.toNat, x.2.toNat))) ok)) := rfl

theorem completes_counterDump (via : Option (BitVec 12 × BitVec 12)) (ok : Bool) (s : State) (P : Hw → Prop) :
    Completes (.counterDump via ok) s P ↔ P (s.hw.clocked (·.serviceDump (via.map (fun x => (x.1.toNat, x.2.toNat))) ok)) := by
  rw [completes_iff (exec_counterDump via ok s)]

theorem exec_hangReport (via : Option (BitVec 12 × BitVec 12)) (ok : Bool) (s : State) :
    exec (.hangReport via ok) s = s.does (fun h => h.clocked (·.serviceHang (via.map (fun x => (x.1.toNat, x.2.toNat))) ok)) := rfl

theorem completes_hangReport (via : Option (BitVec 12 × BitVec 12)) (ok : Bool) (s : State) (P : Hw → Prop) :
    Completes (.hangReport via ok) s P ↔ P (s.hw.clocked (·.serviceHang (via.map (fun x => (x.1.toNat, x.2.toNat))) ok)) := by
  rw [completes_iff (exec_hangReport via ok s)]

theorem exec_badService (via : Option (BitVec 12 × BitVec 12)) (s : State) :
    exec (.badService via) s = s.does (fun h => h.clocked (·.serviceBad (via.map (fun x => (x.1.toNat, x.2.toNat))))) := rfl

theorem completes_badService (via : Option (BitVec 12 × BitVec 12)) (s : State) (P : Hw → Prop) :
    Completes (.badService via) s P ↔ P (s.hw.clocked (·.serviceBad (via.map (fun x => (x.1.toNat, x.2.toNat))))) := by
  rw [completes_iff (exec_badService via s)]

theorem exec_vfIrq (p : Path) (v : Word) (s : State) :
    exec (.vfIrq p v) s = s.does (fun h => h.writeAt p ⟨.stwVfIrq, 0, 0⟩ v) := rfl

theorem completes_vfIrq (p : Path) (v : Word) (s : State) (P : Hw → Prop) :
    Completes (.vfIrq p v) s P ↔ P (s.hw.writeAt p ⟨.stwVfIrq, 0, 0⟩ v) := by
  rw [completes_iff (exec_vfIrq p v s)]

theorem exec_coreHalt (k : Core) (s : State) :
    exec (.coreHalt k) s = s.does (fun h => h.clocked (·.coreHalt k)) := rfl

theorem completes_coreHalt (k : Core) (s : State) (P : Hw → Prop) :
    Completes (.coreHalt k) s P ↔ P (s.hw.clocked (·.coreHalt k)) := by
  rw [completes_iff (exec_coreHalt k s)]

theorem exec_coreResume (k : Core) (s : State) :
    exec (.coreResume k) s = s.does (fun h => h.clocked (·.coreResume k)) := rfl

theorem completes_coreResume (k : Core) (s : State) (P : Hw → Prop) :
    Completes (.coreResume k) s P ↔ P (s.hw.clocked (·.coreResume k)) := by
  rw [completes_iff (exec_coreResume k s)]

theorem exec_breakScopeWrite (p : Path) (v : Word) (s : State) :
    exec (.breakScopeWrite p v) s = s.does (fun h => h.writeAt p ⟨.stwBreakCtl, 0, 0⟩ v) := rfl

theorem completes_breakScopeWrite (p : Path) (v : Word) (s : State) (P : Hw → Prop) :
    Completes (.breakScopeWrite p v) s P ↔ P (s.hw.writeAt p ⟨.stwBreakCtl, 0, 0⟩ v) := by
  rw [completes_iff (exec_breakScopeWrite p v s)]

theorem exec_tapReset (s : State) :
    exec (.tapReset) s = s.does (fun h => h.tapReset) := rfl

theorem completes_tapReset (s : State) (P : Hw → Prop) :
    Completes (.tapReset) s P ↔ P (s.hw.tapReset) := by
  rw [completes_iff (exec_tapReset s)]

theorem exec_idcode (s : State) :
    exec (.idcode) s = s.does (fun h => h.tapSelect 1 Sys2Proof.Machine.idcode) := rfl

theorem completes_idcode (s : State) (P : Hw → Prop) :
    Completes (.idcode) s P ↔ P (s.hw.tapSelect 1 Sys2Proof.Machine.idcode) := by
  rw [completes_iff (exec_idcode s)]

theorem exec_samplePreload (nvm : BitVec 12) (nvmOn : Bool) (dq : BitVec 9) (load : BitVec 28) (s : State) :
    exec (.samplePreload nvm nvmOn dq load) s = s.does (fun h => h.samplePreload nvm nvmOn dq load) := rfl

theorem completes_samplePreload (nvm : BitVec 12) (nvmOn : Bool) (dq : BitVec 9) (load : BitVec 28) (s : State) (P : Hw → Prop) :
    Completes (.samplePreload nvm nvmOn dq load) s P ↔ P (s.hw.samplePreload nvm nvmOn dq load) := by
  rw [completes_iff (exec_samplePreload nvm nvmOn dq load s)]

theorem exec_extest (nvm : BitVec 12) (nvmOn : Bool) (dq : BitVec 9) (load : Option (BitVec 28)) (s : State) :
    exec (.extest nvm nvmOn dq load) s = s.does (fun h => h.extest nvm nvmOn dq load) := rfl

theorem completes_extest (nvm : BitVec 12) (nvmOn : Bool) (dq : BitVec 9) (load : Option (BitVec 28)) (s : State) (P : Hw → Prop) :
    Completes (.extest nvm nvmOn dq load) s P ↔ P (s.hw.extest nvm nvmOn dq load) := by
  rw [completes_iff (exec_extest nvm nvmOn dq load s)]

theorem exec_clamp (s : State) :
    exec (.clamp) s = s.does (fun h => h.clamp) := rfl

theorem completes_clamp (s : State) (P : Hw → Prop) :
    Completes (.clamp) s P ↔ P (s.hw.clamp) := by
  rw [completes_iff (exec_clamp s)]

theorem exec_highz (s : State) :
    exec (.highz) s = s.does (fun h => h.highz) := rfl

theorem completes_highz (s : State) (P : Hw → Prop) :
    Completes (.highz) s P ↔ P (s.hw.highz) := by
  rw [completes_iff (exec_highz s)]

theorem exec_bypass (s : State) :
    exec (.bypass) s = s.does (fun h => h.tapSelect 0xff 0#64) := rfl

theorem completes_bypass (s : State) (P : Hw → Prop) :
    Completes (.bypass) s P ↔ P (s.hw.tapSelect 0xff 0#64) := by
  rw [completes_iff (exec_bypass s)]

theorem exec_dmi (a : BitVec 7) (write : Option Word) (s : State) :
    exec (.dmi a write) s = s.does (fun h => h.dmi a write) := rfl

theorem completes_dmi (a : BitVec 7) (write : Option Word) (s : State) (P : Hw → Prop) :
    Completes (.dmi a write) s P ↔ P (s.hw.dmi a write) := by
  rw [completes_iff (exec_dmi a write s)]

theorem exec_debugSysbusAccess (addr : BitVec 28) (write : Option Word) (s : State) :
    exec (.debugSysbusAccess addr write) s = s.does (fun h => h.debugAccess addr.toNat write) := rfl

theorem completes_debugSysbusAccess (addr : BitVec 28) (write : Option Word) (s : State) (P : Hw → Prop) :
    Completes (.debugSysbusAccess addr write) s P ↔ P (s.hw.debugAccess addr.toNat write) := by
  rw [completes_iff (exec_debugSysbusAccess addr write s)]

theorem exec_pmcFreeze (p : Path) (v : Word) (s : State) :
    exec (.pmcFreeze p v) s = s.does (fun h => h.pmcGongWrite p 1 v) := rfl

theorem completes_pmcFreeze (p : Path) (v : Word) (s : State) (P : Hw → Prop) :
    Completes (.pmcFreeze p v) s P ↔ P (s.hw.pmcGongWrite p 1 v) := by
  rw [completes_iff (exec_pmcFreeze p v s)]

theorem exec_pmcThaw (p : Path) (v : Word) (s : State) :
    exec (.pmcThaw p v) s = s.does (fun h => h.pmcGongWrite p 2 v) := rfl

theorem completes_pmcThaw (p : Path) (v : Word) (s : State) (P : Hw → Prop) :
    Completes (.pmcThaw p v) s P ↔ P (s.hw.pmcGongWrite p 2 v) := by
  rw [completes_iff (exec_pmcThaw p v s)]

theorem exec_hangWatchdogTrip (n : Node) (e : Fin 12) (s : State) :
    exec (.hangWatchdogTrip n e) s = s.does (fun h => h.clocked (·.hangTrip n e)) := rfl

theorem completes_hangWatchdogTrip (n : Node) (e : Fin 12) (s : State) (P : Hw → Prop) :
    Completes (.hangWatchdogTrip n e) s P ↔ P (s.hw.clocked (·.hangTrip n e)) := by
  rw [completes_iff (exec_hangWatchdogTrip n e s)]

theorem exec_dieWaitLimit (n : Node) (e : Fin 12) (s : State) :
    exec (.dieWaitLimit n e) s = s.does (fun h => h.clocked (·.dieWaitLimit n e)) := rfl

theorem completes_dieWaitLimit (n : Node) (e : Fin 12) (s : State) (P : Hw → Prop) :
    Completes (.dieWaitLimit n e) s P ↔ P (s.hw.clocked (·.dieWaitLimit n e)) := by
  rw [completes_iff (exec_dieWaitLimit n e s)]

theorem exec_hangRelease (p : Path) (s : State) :
    exec (.hangRelease p) s = s.does (fun h => h.writeAt p ⟨.pmcHangRel, 0, 0⟩ 1#32) := rfl

theorem completes_hangRelease (p : Path) (s : State) (P : Hw → Prop) :
    Completes (.hangRelease p) s P ↔ P (s.hw.writeAt p ⟨.pmcHangRel, 0, 0⟩ 1#32) := by
  rw [completes_iff (exec_hangRelease p s)]

theorem exec_hangReportAssemble (s : State) :
    exec (.hangReportAssemble) s = s.does (fun h => h.clocked (·.hangAssemble)) := rfl

theorem completes_hangReportAssemble (s : State) (P : Hw → Prop) :
    Completes (.hangReportAssemble) s P ↔ P (s.hw.clocked (·.hangAssemble)) := by
  rw [completes_iff (exec_hangReportAssemble s)]

theorem exec_binFree (p : Path) (n : Node) (b : BitVec 5) (s : State) :
    exec (.binFree p n b) s = s.does (fun h => h.writeAt p ⟨.pmcBinCmds, n, b.toNat⟩ 0#32) := rfl

theorem completes_binFree (p : Path) (n : Node) (b : BitVec 5) (s : State) (P : Hw → Prop) :
    Completes (.binFree p n b) s P ↔ P (s.hw.writeAt p ⟨.pmcBinCmds, n, b.toNat⟩ 0#32) := by
  rw [completes_iff (exec_binFree p n b s)]

theorem exec_idxFarReadDone (p : Path) (s : State) :
    exec (.idxFarReadDone p) s = s.does (fun h => h.clocked (·.idxFarReadDone p)) := rfl

theorem completes_idxFarReadDone (p : Path) (s : State) (P : Hw → Prop) :
    Completes (.idxFarReadDone p) s P ↔ P (s.hw.clocked (·.idxFarReadDone p)) := by
  rw [completes_iff (exec_idxFarReadDone p s)]

theorem exec_pcieLinkUp (speed : BitVec 4) (width : BitVec 6) (ari : Bool) (s : State) :
    exec (.pcieLinkUp speed width ari) s = s.does (fun h => h.pcieLinkUp speed.toNat width.toNat ari) := rfl

theorem completes_pcieLinkUp (speed : BitVec 4) (width : BitVec 6) (ari : Bool) (s : State) (P : Hw → Prop) :
    Completes (.pcieLinkUp speed width ari) s P ↔ P (s.hw.pcieLinkUp speed.toNat width.toNat ari) := by
  rw [completes_iff (exec_pcieLinkUp speed width ari s)]

theorem exec_pfD0Return (s : State) :
    exec (.pfD0Return) s = s.does (fun h => h.pfD0) := rfl

theorem completes_pfD0Return (s : State) (P : Hw → Prop) :
    Completes (.pfD0Return) s P ↔ P (s.hw.pfD0) := by
  rw [completes_iff (exec_pfD0Return s)]

theorem exec_msixVectorUnmask (fn : Fin 65) (v : Fin 32) (s : State) :
    exec (.msixVectorUnmask fn v) s = s.does (fun h => h.msixUnmask fn v) := rfl

theorem completes_msixVectorUnmask (fn : Fin 65) (v : Fin 32) (s : State) (P : Hw → Prop) :
    Completes (.msixVectorUnmask fn v) s P ↔ P (s.hw.msixUnmask fn v) := by
  rw [completes_iff (exec_msixVectorUnmask fn v s)]

theorem exec_vfBusMasterClear (t : Tenant) (s : State) :
    exec (.vfBusMasterClear t) s = s.does (fun h => h.clocked (·.busMasterClear t)) := rfl

theorem completes_vfBusMasterClear (t : Tenant) (s : State) (P : Hw → Prop) :
    Completes (.vfBusMasterClear t) s P ↔ P (s.hw.clocked (·.busMasterClear t)) := by
  rw [completes_iff (exec_vfBusMasterClear t s)]

end Sys2Proof.Machine
end

