-- ==== Sys2Proof/Laws/Access.lean ====
section
/-! SUPPORT. A write that passes its checks is the write rule of its register; a guard write that is accepted is its CPL register's effect. -/

namespace Sys2Proof.Machine

theorem Hw.idxFarReadDone_none {h : Hw} {p : Path} (e : (h.path p).idxRead = none) : h.idxFarReadDone p = h := by
  unfold Hw.idxFarReadDone; rw [e]

/-- A write that passes its checks is regWrite on the path's own state. -/
theorem Hw.busWrite_open {h : Hw} {p : Path} {addr view : Nat} {r : Reg} (o : h.gateOpen p addr view r) (v : Word) (dev : NvmDevice) :
    h.busWrite p addr v dev = (h.readied p).regWrite p addr view r v dev := by
  obtain ⟨a, b, c⟩ := o
  unfold Hw.busWrite
  rw [Hw.idxFarReadDone_none a]
  have b' : (h.readied p).hostReaches p = true := b
  unfold Hw.readied at b' c ⊢
  dsimp only
  rw [b']; simp only [Bool.not_true, Bool.false_eq_true, if_false]
  rw [c]

/-- A write of a register where the path finds it. -/
theorem Hw.writeAt_open {h : Hw} {p : Path} {r : Reg} (o : h.writeOpen p r) (v : Word) :
    h.writeAt p r v = (h.readied p).regWrite p (pathAddr p r.addr) 0 r v noDevice := Hw.busWrite_open o v noDevice

/-- The programmer's command register, with the answer of the device. -/
theorem Hw.progWrite_open {h : Hw} {p : Path} (o : h.writeOpen p ⟨.bootProgCtl, 0, 0⟩) (v : Word) (dev : NvmDevice) :
    h.progWrite p v dev = (h.readied p).regWrite p (pathAddr p (Reg.addr ⟨.bootProgCtl, 0, 0⟩)) 0 ⟨.bootProgCtl, 0, 0⟩ v dev :=
  Hw.busWrite_open o v dev

/-- A plain register takes the write of chapter 5. -/
theorem Hw.regWrite_plain (h : Hw) (p : Path) (addr view : Nat) {r : Reg} (n : r.id.plain = true) (v : Word) (dev : NvmDevice) :
    h.regWrite p addr view r v dev = h.plainWrite p addr view r v := by
  obtain ⟨id, i, j⟩ := r
  have n' : id.plain = true := n
  clear n
  cases id <;> first | rfl | (exact absurd n' (by decide))

/-- A read that passes its checks answers the register's value, with its side effect; a read of the IDX set waits for the path's far write, and
one of IDX_DATA goes on to the far register. -/
theorem Hw.busRead_open {h : Hw} {p : Path} {addr : Nat} {r : Reg} (o : h.readOpen p addr r) :
    h.busRead p addr =
      (let h' := if idxRegs.contains r.id then h.idxFarWriteDone p else h
       if r.id = .idxData then h'.idxRead p addr else (h'.readEffect p r).answer p (h'.value p r)) := by
  obtain ⟨a, b, c, d, e, f, g⟩ := o
  unfold Hw.busRead
  rw [Hw.idxFarReadDone_none a]
  dsimp only
  rw [b]; simp only [Bool.not_true, Bool.false_eq_true, if_false]
  rw [f, e]; simp only [Bool.not_true, Bool.false_eq_true, if_false]
  rw [if_neg (by omega), g, d]; simp

theorem Hw.cplPend_readied (h : Hw) (p : Path) (c : CplReg) : (h.readied p).cplPend c = h.cplPend c := by cases c <;> rfl

theorem Hw.setCplPend_reg (h : Hw) (c : CplReg) (x : Option CplPend) (id : RegId) (i j : Nat) : (h.setCplPend c x).reg id i j = h.reg id i j := by
  cases c <;> rfl

/-- A guard write that is accepted has the effect of the pending value. -/
theorem Hw.guardComplement_open {h : Hw} {p : Path} {c : CplReg} {v : Word} (o : h.guardOpen p c v) :
    h.guardComplement p c = ((h.readied p).setCplPend c none).cplAccept p c v (pathAddr p (Reg.addr ⟨cplGuardId c, 0, 0⟩)) := by
  obtain ⟨a, ⟨t, hq, ht⟩, l⟩ := o
  unfold Hw.guardComplement
  rw [hq]; dsimp only
  rw [Hw.writeAt_open a]
  have e : ∀ x : Hw, x = (h.readied p).guardWrite p c (~~~v) (pathAddr p (Reg.addr ⟨cplGuardId c, 0, 0⟩)) →
      x = ((h.readied p).setCplPend c none).cplAccept p c v (pathAddr p (Reg.addr ⟨cplGuardId c, 0, 0⟩)) := by
    rintro x rfl
    unfold Hw.guardWrite Hw.cplGuard
    rw [Hw.cplPend_readied, hq]
    have n : ¬ t + guardWindow ≤ (h.readied p).now := Nat.not_le.mpr ht
    have l' : ((h.readied p).setCplPend c none).cplLocked c v = false := by
      unfold Hw.cplLocked at *; rw [Hw.setCplPend_reg, Hw.setCplPend_reg]; exact l
    simp only [n, if_false, ne_eq, not_true, l', Bool.false_eq_true]
  apply e
  cases c <;> rfl

end Sys2Proof.Machine
end

