-- ==== Sys2Proof/Laws/Bits.lean ====
section
/-! SUPPORT. Laws of bit fields: what a field, or a bit, reads after a field or a bit of the word has been set. -/

namespace Sys2Proof.Machine

theorem testBit_fld (w : BitVec n) (lo len i : Nat) : (fld w lo len).testBit i = (decide (i < len) && w.getLsbD (lo + i)) := by
  simp [fld, Nat.testBit_mod_two_pow, Nat.testBit_div_two_pow, BitVec.testBit_toNat, Nat.add_comm]

theorem getLsbD_setFld (w : BitVec n) (lo len v i : Nat) :
    (setFld w lo len v).getLsbD i = if lo ≤ i ∧ i < lo + len ∧ i < n then v.testBit (i - lo) else w.getLsbD i := by
  unfold setFld
  by_cases hn : i < n
  · have h1 : ((2 ^ len - 1) * 2 ^ lo).testBit i = (decide (lo ≤ i) && decide (i - lo < len)) := by
      rw [Nat.testBit_mul_two_pow]
      simp [Nat.testBit_two_pow_sub_one]
    have h2 : (v % 2 ^ len * 2 ^ lo).testBit i = (decide (lo ≤ i) && (decide (i - lo < len) && v.testBit (i - lo))) := by
      rw [Nat.testBit_mul_two_pow, Nat.testBit_mod_two_pow]
    simp only [BitVec.getLsbD_or, BitVec.getLsbD_and, BitVec.getLsbD_not, BitVec.getLsbD_ofNat, h1, h2, hn, decide_true, Bool.true_and,
      and_true]
    by_cases ha : lo ≤ i
    · by_cases hb : i - lo < len
      · have : i < lo + len := by omega
        simp [ha, hb, this]
      · have : ¬ i < lo + len := by omega
        simp [ha, hb, this]
    · simp [ha]
  · have hge : n ≤ i := Nat.le_of_not_lt hn
    simp [hn, BitVec.getLsbD_of_ge _ i hge]

theorem fld_setFld_same (w : BitVec n) (lo len v : Nat) (h : lo + len ≤ n) : fld (setFld w lo len v) lo len = v % 2 ^ len := by
  apply Nat.eq_of_testBit_eq
  intro i
  rw [testBit_fld, getLsbD_setFld, Nat.testBit_mod_two_pow]
  by_cases hi : i < len
  · have : lo + i < n := by omega
    simp [hi, this]
  · simp [hi]

theorem fld_setFld_other (w : BitVec n) (lo len v lo' len' : Nat) (h : lo' + len' ≤ lo ∨ lo + len ≤ lo') :
    fld (setFld w lo len v) lo' len' = fld w lo' len' := by
  apply Nat.eq_of_testBit_eq
  intro i
  rw [testBit_fld, testBit_fld, getLsbD_setFld]
  by_cases hi : i < len'
  · have : ¬ (lo ≤ lo' + i ∧ lo' + i < lo + len ∧ lo' + i < n) := by omega
    simp [hi, this]
  · simp [hi]

theorem bit_setFld_other (w : BitVec n) (lo len v i : Nat) (h : i < lo ∨ lo + len ≤ i) : bit (setFld w lo len v) i = bit w i := by
  unfold bit
  rw [getLsbD_setFld, if_neg (by omega)]

theorem bit_setBit_same (w : BitVec n) (i : Nat) (b : Bool) (h : i < n) : bit (setBit w i b) i = b := by
  unfold bit setBit
  rw [getLsbD_setFld, if_pos (by omega)]
  cases b <;> simp

theorem bit_setBit_other (w : BitVec n) (i j : Nat) (b : Bool) (h : j ≠ i) : bit (setBit w i b) j = bit w j :=
  bit_setFld_other w i 1 _ j (by omega)

theorem fld_setBit_other (w : BitVec n) (i lo len : Nat) (b : Bool) (h : i < lo ∨ lo + len ≤ i) :
    fld (setBit w i b) lo len = fld w lo len := fld_setFld_other w i 1 _ lo len (by omega)

theorem fld_setBit_same (w : BitVec n) (i : Nat) (b : Bool) (h : i < n) : fld (setBit w i b) i 1 = b2n b := by
  unfold setBit
  rw [fld_setFld_same w i 1 _ (by omega)]
  cases b <;> rfl

theorem fld_lt (w : BitVec n) (lo len : Nat) : fld w lo len < 2 ^ len := Nat.mod_lt _ (Nat.two_pow_pos len)

theorem fld_zero (lo len : Nat) : fld (0 : BitVec n) lo len = 0 := by simp [fld]

/-- A saturating field after d more: the sum, or all ones. -/
theorem fld_bumpFld (w : Word) (lo len d : Nat) (h : lo + len ≤ 32) : fld (bumpFld w lo len d) lo len = satAdd len (fld w lo len) d := by
  unfold bumpFld
  rw [fld_setFld_same w lo len _ h]
  apply Nat.mod_eq_of_lt
  have := Nat.two_pow_pos len
  exact Nat.lt_of_le_of_lt (Nat.min_le_left _ _) (by omega)

end Sys2Proof.Machine
end

