-- ==== Sys2Proof/Laws/Memory.lean ====
section
/-! SUPPORT. Laws of byte memories: what a read gives after a write or a clear, and that every operation keeps the canonical form. -/

namespace Sys2Proof.Machine

theorem memByte_memSet (d : Byte) (m : List Host.Cell) (a a' : Nat) (b : Byte) :
    memByte d (memSet d m a b) a' = if a = a' then b else memByte d m a' := nget_nset m a a' b d

/-- A byte after a byte string has been written: that of the string inside it, the old one outside. -/
theorem memByte_memWrite (d : Byte) (bs : List Byte) : ∀ (m : List Host.Cell) (a x : Nat),
    memByte d (memWrite d m a bs) x = if a ≤ x ∧ x < a + bs.length then byteAt bs (x - a) else memByte d m x := by
  induction bs with
  | nil => intro m a x; exact (if_neg (show ¬ (a ≤ x ∧ x < a + 0) by omega)).symm
  | cons b bs ih =>
    intro m a x
    simp only [memWrite, ih, memByte_memSet, List.length_cons]
    by_cases h1 : a + 1 ≤ x ∧ x < a + 1 + bs.length
    · have h2 : a ≤ x ∧ x < a + (bs.length + 1) := by omega
      have h3 : x - a = (x - (a + 1)) + 1 := by omega
      simp [h1, h2, h3, byteAt]
    · by_cases h4 : a = x
      · subst h4; rw [if_neg h1]; simp [byteAt]
      · have h2 : ¬ (a ≤ x ∧ x < a + (bs.length + 1)) := by omega
        rw [if_neg h1, if_neg h4, if_neg h2]

/-- A byte outside a written string is unchanged. -/
theorem memByte_memWrite_out (d : Byte) (m : List Host.Cell) (a x : Nat) (bs : List Byte) (h : x < a ∨ a + bs.length ≤ x) :
    memByte d (memWrite d m a bs) x = memByte d m x := by
  rw [memByte_memWrite, if_neg (by omega)]

/-- A read of what has just been written gives it back. -/
theorem memRead_memWrite (d : Byte) (m : List Host.Cell) (a : Nat) (bs : List Byte) :
    memRead d (memWrite d m a bs) a bs.length = bs := by
  apply List.ext_getElem
  · simp [memRead]
  · intro k h1 h2
    have hk : k < bs.length := h2
    simp [memRead, memByte_memWrite, byteAt, hk]

/-- A cleared range reads as the default, the rest as before. -/
theorem memByte_memClear (d : Byte) (m : List Host.Cell) (a len x : Nat) :
    memByte d (memClear m a len) x = if a ≤ x ∧ x < a + len then d else memByte d m x := by
  unfold memByte memClear nget
  rw [sget_filter m (fun k => !(decide (a ≤ k) && decide (k < a + len)))]
  by_cases h : a ≤ x ∧ x < a + len
  · simp [h]
  · have : ¬ (a ≤ x) ∨ ¬ (x < a + len) := by omega
    rcases this with h1 | h1 <;> simp [h1]

theorem Memory.wf_memSet (d : Byte) (m : List Host.Cell) (a : Nat) (b : Byte) (h : Memory.wf d m = true) :
    Memory.wf d (memSet d m a b) = true := swf_nset m a b d h

theorem Memory.wf_memWrite (d : Byte) (bs : List Byte) : ∀ (m : List Host.Cell) (a : Nat), Memory.wf d m = true →
    Memory.wf d (memWrite d m a bs) = true := by
  induction bs with
  | nil => intro m a h; exact h
  | cons b bs ih => intro m a h; exact ih _ _ (Memory.wf_memSet d m a b h)

theorem Memory.wf_memClear (d : Byte) (m : List Host.Cell) (a len : Nat) (h : Memory.wf d m = true) :
    Memory.wf d (memClear m a len) = true := swf_filter m d _ h

theorem Memory.wf_nil (d : Byte) : Memory.wf d [] = true := rfl

end Sys2Proof.Machine
end

