-- ==== Sys2Proof/Laws/Vault.lean ====
section
/-! SUPPORT. Which operations leave the block's lasting store alone: the burned fuses, the bytes of the NVM, of the slabs and of the HBM, and
the bar counter (Hw.vault). One lemma per operation of the block, in the order in which they call each other; the few operations that do
change the store stand in Laws/Kept.lean. -/

set_option maxRecDepth 4000

namespace Sys2Proof.Machine

@[simp ↓] theorem Hw.vault_mk (a1 a2 a3 a4 a5 a6 a7 a8 a9 a10 a11 a12 a13 a14 a15 a16 a17 a18 a19 a20 a21 a22 a23 a24 a25 a26 a27 a28 a29 a30 a31 a32 a33) :
    (Hw.mk a1 a2 a3 a4 a5 a6 a7 a8 a9 a10 a11 a12 a13 a14 a15 a16 a17 a18 a19 a20 a21 a22 a23 a24 a25 a26 a27 a28 a29 a30 a31 a32 a33).vault =
      ({ a10 with burning := none }, a11.cells, a22.slab, a22.hbm, a7) := rfl

@[simp ↓] theorem Hw.vault_eta (h : Hw) : ({ h.fuse with burning := none }, h.nvm.cells, h.mem.slab, h.mem.hbm, h.bar) = h.vault := rfl

theorem Hw.foldl_vault (l : List α) (g : Hw → α → Hw) (hg : ∀ h x, (g h x).vault = h.vault) : ∀ h, (l.foldl g h).vault = h.vault := by
  induction l with
  | nil => intro h; rfl
  | cons a l ih => intro h; simp [List.foldl, ih, hg]

theorem Hw.vault_clocked (h : Hw) (f : Hw → Hw) (hf : ∀ h, (f h).vault = h.vault) : (h.clocked f).vault = h.vault := by
  unfold Hw.clocked; split <;> simp [hf]

theorem Hw.vault_of_pair {α : Type} {x : Hw × α} {g h : Hw} {b : α} (hq : x = (g, b)) (hv : x.1.vault = h.vault) : g.vault = h.vault := by subst hq; exact hv
theorem Hw.vault_units (h : Hw) (x y) : ({ h with mem := { h.mem with units := x, windows := y } } : Hw).vault = h.vault := rfl
theorem Hw.vault_set_obs (h : Hw) (x) : ({ h with obs := x } : Hw).vault = h.vault := rfl
theorem Hw.vault_set_stw (h : Hw) (x) : ({ h with stw := x } : Hw).vault = h.vault := rfl
theorem Hw.vault_set_boot (h : Hw) (x) : ({ h with boot := x } : Hw).vault = h.vault := rfl
theorem Hw.vault_set_host (h : Hw) (x) : ({ h with host := x } : Hw).vault = h.vault := rfl
theorem Hw.vault_set_snet (h : Hw) (x) : ({ h with snet := x } : Hw).vault = h.vault := rfl
theorem Hw.vault_set_free (h : Hw) (x) : ({ h with free := x } : Hw).vault = h.vault := rfl
theorem Hw.vault_set_fault (h : Hw) (x) : ({ h with fault := x } : Hw).vault = h.vault := rfl
theorem Hw.vault_set_cnet (h : Hw) (x) : ({ h with cnet := x } : Hw).vault = h.vault := rfl
theorem Hw.vault_set_power (h : Hw) (x) : ({ h with power := x } : Hw).vault = h.vault := rfl
theorem Hw.vault_set_ports (h : Hw) (x) : ({ h with ports := x } : Hw).vault = h.vault := rfl

@[simp ↓] theorem Hw.vault_setReg (h : Hw) (id : RegId) (i : Nat) (j : Nat) (v : Word) : (Hw.setReg h id i j v).vault = h.vault := by unfold Hw.setReg; (try dsimp only); simp [↓apply_ite Hw.vault, ↓Hw.foldl_vault]
@[simp ↓] theorem Hw.vault_act (h : Hw) (n : Nat) (e : Nat) : (Hw.act h n e).vault = h.vault := by unfold Hw.act; (try dsimp only); simp [↓apply_ite Hw.vault, ↓Hw.foldl_vault]
@[simp ↓] theorem Hw.vault_setPort (h : Hw) (i : Nat) (p : TilePort) : (Hw.setPort h i p).vault = h.vault := by unfold Hw.setPort; (try dsimp only); simp [↓apply_ite Hw.vault, ↓Hw.foldl_vault]
@[simp ↓] theorem Hw.vault_modPort (h : Hw) (i : Nat) (f : TilePort → TilePort) : (Hw.modPort h i f).vault = h.vault := by unfold Hw.modPort; (try dsimp only); simp [↓apply_ite Hw.vault, ↓Hw.foldl_vault]
@[simp ↓] theorem Hw.vault_answerCounted (h : Hw) (i : Nat) (op : Nat) (tag : Nat) (status : Nat) (viol : Nat) : (Hw.answerCounted h i op tag status viol).vault = h.vault := by unfold Hw.answerCounted; (try dsimp only); simp [↓apply_ite Hw.vault, ↓Hw.foldl_vault]
@[simp ↓] theorem Hw.vault_ciTake (h : Hw) (i : Nat) (n : Nat) : (Hw.ciTake h i n).vault = h.vault := by unfold Hw.ciTake; (try dsimp only); simp [↓apply_ite Hw.vault, ↓Hw.foldl_vault]
@[simp ↓] theorem Hw.vault_modReg (h : Hw) (id : RegId) (i : Nat) (j : Nat) (f : Word → Word) : (Hw.modReg h id i j f).vault = h.vault := by unfold Hw.modReg; (try dsimp only); simp [↓apply_ite Hw.vault, ↓Hw.foldl_vault]
@[simp ↓] theorem Hw.vault_chooseBin (h : Hw) (i : Nat) (key : Word) : (Hw.chooseBin h i key).1.vault = h.vault := by unfold Hw.chooseBin; (try dsimp only); (repeat' split) <;> simp [↓apply_ite Hw.vault, ↓Hw.foldl_vault]
@[simp ↓] theorem Hw.vault_cmdOpen (h : Hw) (i : Nat) (op : Nat) (x : CmdHdr) (src : Nat) (dst : Nat) (len : Nat) : (Hw.cmdOpen h i op x src dst len).1.vault = h.vault := by unfold Hw.cmdOpen; (try dsimp only); (repeat' split) <;> simp [↓apply_ite Hw.vault, ↓Hw.foldl_vault]
@[simp ↓] theorem Hw.vault_logF2 (h : Hw) : (Hw.logF2 h).vault = h.vault := by unfold Hw.logF2; (try dsimp only); simp [↓apply_ite Hw.vault, ↓Hw.foldl_vault]
@[simp ↓] theorem Hw.vault_notify (h : Hw) (n : Notice) : (Hw.notify h n).vault = h.vault := by unfold Hw.notify; (try dsimp only); simp [↓apply_ite Hw.vault, ↓Hw.foldl_vault]
@[simp ↓] theorem Hw.vault_raiseF1 (h : Hw) (t : Nat) (gen : Nat) (cause : Nat) (node : Nat) (detail : Nat) (source : Nat) : (Hw.raiseF1 h t gen cause node detail source).vault = h.vault := by unfold Hw.raiseF1; (try dsimp only); simp [↓apply_ite Hw.vault, ↓Hw.foldl_vault]
@[simp ↓] theorem Hw.vault_tileF1 (h : Hw) (i : Nat) (cause : Nat) (detail : Nat) : (Hw.tileF1 h i cause detail).vault = h.vault := by unfold Hw.tileF1; (try dsimp only); (repeat' split) <;> simp [↓apply_ite Hw.vault, ↓Hw.foldl_vault]
@[simp ↓] theorem Hw.vault_padCheck (h : Hw) (i : Nat) (k : Nat) (e : PadErr) : (Hw.padCheck h i k e).1.vault = h.vault := by unfold Hw.padCheck; (try dsimp only); (repeat' split) <;> simp [↓apply_ite Hw.vault, ↓Hw.foldl_vault]
@[simp ↓] theorem Hw.vault_binDone (h : Hw) (i : Nat) (c : TileCmd) : (Hw.binDone h i c).vault = h.vault := by unfold Hw.binDone; (try dsimp only); simp [↓apply_ite Hw.vault, ↓Hw.foldl_vault]
@[simp ↓] theorem Hw.vault_record (h : Hw) (i : Nat) (c : TileCmd) (status : Nat) (len : Nat) : (Hw.record h i c status len).vault = h.vault := by unfold Hw.record; (try dsimp only); simp [↓apply_ite Hw.vault, ↓Hw.foldl_vault]
@[simp ↓] theorem Hw.vault_observeDone (h : Hw) (i : Nat) (c : TileCmd) (status : Nat) (len : Nat) : (Hw.observeDone h i c status len).vault = h.vault := by unfold Hw.observeDone; (try dsimp only); simp [↓apply_ite Hw.vault, ↓Hw.foldl_vault]
@[simp ↓] theorem Hw.vault_violation (h : Hw) (i : Nat) (code : Nat) (tag : Nat) (op : Nat) : (Hw.violation h i code tag op).vault = h.vault := by unfold Hw.violation; (try dsimp only); simp [↓apply_ite Hw.vault, ↓Hw.foldl_vault]
@[simp ↓] theorem Hw.vault_respond (h : Hw) (i : Nat) (op : Nat) (tag : Nat) (status : Nat) (body : List (BitVec 64)) (frees : Bool) : (Hw.respond h i op tag status body frees).vault = h.vault := by unfold Hw.respond; (try dsimp only); simp [↓apply_ite Hw.vault, ↓Hw.foldl_vault]
@[simp ↓] theorem Hw.vault_refuseCmd (h : Hw) (i : Nat) (c : TileCmd) (status : Nat) : (Hw.refuseCmd h i c status).vault = h.vault := by unfold Hw.refuseCmd; (try dsimp only); simp [↓apply_ite Hw.vault, ↓Hw.foldl_vault]
@[simp ↓] theorem Hw.vault_misuse (h : Hw) (p : Path) (write : Bool) (cause : Nat) (addr : Nat) : (Hw.misuse h p write cause addr).vault = h.vault := by unfold Hw.misuse; (try dsimp only); simp [↓apply_ite Hw.vault, ↓Hw.foldl_vault]
@[simp ↓] theorem Hw.vault_acceptBurn (h : Hw) (p : Path) (v : Word) (addr : Nat) : (Hw.acceptBurn h p v addr).vault = h.vault := by unfold Hw.acceptBurn; (try dsimp only); simp [↓apply_ite Hw.vault, ↓Hw.foldl_vault]
@[simp ↓] theorem Hw.vault_setPortState (h : Hw) (i : Nat) (s : Nat) : (Hw.setPortState h i s).vault = h.vault := by unfold Hw.setPortState; (try dsimp only); simp [↓apply_ite Hw.vault, ↓Hw.foldl_vault]
@[simp ↓] theorem Hw.vault_drainRequest (h : Hw) (i : Nat) : (Hw.drainRequest h i).vault = h.vault := by unfold Hw.drainRequest; (try dsimp only); simp [↓apply_ite Hw.vault, ↓Hw.foldl_vault]
@[simp ↓] theorem Hw.vault_setJob (h : Hw) (t : Nat) (j : JobState) : (Hw.setJob h t j).vault = h.vault := by unfold Hw.setJob; (try dsimp only); simp [↓apply_ite Hw.vault, ↓Hw.foldl_vault]
@[simp ↓] theorem Hw.vault_modJob (h : Hw) (t : Nat) (f : JobState → JobState) : (Hw.modJob h t f).vault = h.vault := by unfold Hw.modJob; (try dsimp only); simp [↓apply_ite Hw.vault, ↓Hw.foldl_vault]
@[simp ↓] theorem Hw.vault_beginEnd (h : Hw) (t : Nat) (cause : Nat) (t0 : Nat) : (Hw.beginEnd h t cause t0).vault = h.vault := by unfold Hw.beginEnd; (try dsimp only); simp [↓apply_ite Hw.vault, ↓Hw.foldl_vault]
@[simp ↓] theorem Hw.vault_faultEvt (h : Hw) (t : Nat) (cause : Nat) (gen : Nat) (f0 : Bool) (remote : Bool) : (Hw.faultEvt h t cause gen f0 remote).vault = h.vault := by unfold Hw.faultEvt; (try dsimp only); simp [↓apply_ite Hw.vault, ↓Hw.foldl_vault]
@[simp ↓] theorem Hw.vault_recordEnd (h : Hw) (t : Nat) (cause : Nat) (gen : Nat) (node : Nat) (origin : Nat) (bar : Nat) (phase : Nat) (detail : Nat) (source : Nat) (remote : Bool) (f0 : Bool) : (Hw.recordEnd h t cause gen node origin bar phase detail source remote f0).vault = h.vault := by unfold Hw.recordEnd; (try dsimp only); simp [↓apply_ite Hw.vault, ↓Hw.foldl_vault]
@[simp ↓] theorem Hw.vault_vector (h : Hw) (fn : Nat) (v : Nat) : (Hw.vector h fn v).vault = h.vault := by unfold Hw.vector; (try dsimp only); simp [↓apply_ite Hw.vault, ↓Hw.foldl_vault]
@[simp ↓] theorem Hw.vault_vfEvent (h : Hw) (t : Nat) (k : Nat) : (Hw.vfEvent h t k).vault = h.vault := by unfold Hw.vfEvent; (try dsimp only); simp [↓apply_ite Hw.vault, ↓Hw.foldl_vault]
@[simp ↓] theorem Hw.vault_endBy (h : Hw) (t : Nat) (x : Notice) : (Hw.endBy h t x).vault = h.vault := by unfold Hw.endBy; (try dsimp only); simp [↓apply_ite Hw.vault, ↓Hw.foldl_vault]
@[simp ↓] theorem Hw.vault_pfEvent (h : Hw) (k : Nat) : (Hw.pfEvent h k).vault = h.vault := by unfold Hw.pfEvent; (try dsimp only); simp [↓apply_ite Hw.vault, ↓Hw.foldl_vault]
@[simp ↓] theorem Hw.vault_recordF0 (h : Hw) (cause : Nat) (node : Nat) (bar : Nat) : (Hw.recordF0 h cause node bar).vault = h.vault := by unfold Hw.recordF0; (try dsimp only); simp [↓apply_ite Hw.vault, ↓Hw.foldl_vault]
@[simp ↓] theorem Hw.vault_acceptF0 (h : Hw) (x : Notice) : (Hw.acceptF0 h x).vault = h.vault := by unfold Hw.acceptF0; (try dsimp only); simp [↓apply_ite Hw.vault, ↓Hw.foldl_vault]
@[simp ↓] theorem Hw.vault_torusTx (h : Hw) (p : Nat) (kind : Nat) (ws : List Word) : (Hw.torusTx h p kind ws).vault = h.vault := by unfold Hw.torusTx; (try dsimp only); simp [↓apply_ite Hw.vault, ↓Hw.foldl_vault]
@[simp ↓] theorem Hw.vault_castFrom (h : Hw) (kind : Nat) (stage : Nat) (w0 : Word) (w1 : Word) : (Hw.castFrom h kind stage w0 w1).vault = h.vault := by unfold Hw.castFrom; (try dsimp only); simp [↓apply_ite Hw.vault, ↓Hw.foldl_vault]
@[simp ↓] theorem Hw.vault_gongSee (h : Hw) (w1 : Word) : (Hw.gongSee h w1).vault = h.vault := by unfold Hw.gongSee; (try dsimp only); simp [↓apply_ite Hw.vault, ↓Hw.foldl_vault]
@[simp ↓] theorem Hw.vault_gongSend (h : Hw) (op : Nat) (f0 : Bool) (torus : Bool) (tenant : Nat) (gen : Nat) (arg : Nat) (node : Nat) : (Hw.gongSend h op f0 torus tenant gen arg node).vault = h.vault := by unfold Hw.gongSend; (try dsimp only); simp [↓apply_ite Hw.vault, ↓Hw.foldl_vault]
@[simp ↓] theorem Hw.vault_gongTimed (h : Hw) (op : Nat) (lead : Nat) (torus : Bool) (snap : Bool) : (Hw.gongTimed h op lead torus snap).vault = h.vault := by unfold Hw.gongTimed; (try dsimp only); simp [↓apply_ite Hw.vault, ↓Hw.foldl_vault]
@[simp ↓] theorem Hw.vault_setLink (h : Hw) (p : Nat) (v : LinkPort) : (Hw.setLink h p v).vault = h.vault := by unfold Hw.setLink; (try dsimp only); simp [↓apply_ite Hw.vault, ↓Hw.foldl_vault]
@[simp ↓] theorem Hw.vault_refreshWaits (h : Hw) : (Hw.refreshWaits h).vault = h.vault := by
 unfold Hw.refreshWaits; dsimp only; refine (Hw.vault_set_free _ _).trans ?_; rw [Hw.foldl_vault]; intro h x; rw [Hw.foldl_vault]; intro h x; simp [Hw.foldl_vault]
@[simp ↓] theorem Hw.vault_capture (h : Hw) (t : Nat) (cause : Nat) : (Hw.capture h t cause).vault = h.vault := by
 unfold Hw.capture; dsimp only; split
 · simp
 · have e : ∀ g : Hw, g.vault = h.vault → (if bit (g.reg .pmcCtl) 2 then g.gongTimed 1 3 false true else g).vault = h.vault := by
     intro g hg; split <;> simp [hg]
   apply e
   refine (Hw.vault_set_obs _ _).trans ?_
   rw [Hw.vault_setReg, Hw.vault_setReg, Hw.foldl_vault]
   · simp
   · intro h x; rw [Hw.foldl_vault]; intro h x; simp
@[simp ↓] theorem Hw.vault_gongDup (h : Hw) : (Hw.gongDup h).vault = h.vault := by unfold Hw.gongDup; (try dsimp only); simp [↓apply_ite Hw.vault, ↓Hw.foldl_vault]
@[simp ↓] theorem Hw.vault_stale (h : Hw) (t : Nat) (k : Nat) : (Hw.stale h t k).vault = h.vault := by unfold Hw.stale; (try dsimp only); simp [↓apply_ite Hw.vault, ↓Hw.foldl_vault]
@[simp ↓] theorem Hw.vault_acceptF1 (h : Hw) (x : Notice) : (Hw.acceptF1 h x).vault = h.vault := by unfold Hw.acceptF1; (try dsimp only); simp [↓apply_ite Hw.vault, ↓Hw.foldl_vault]
@[simp ↓] theorem Hw.vault_acceptReset (h : Hw) (p : Path) (v : Word) (addr : Nat) : (Hw.acceptReset h p v addr).vault = h.vault := by unfold Hw.acceptReset; (try dsimp only); (repeat' split) <;> simp [↓apply_ite Hw.vault, ↓Hw.foldl_vault]
@[simp ↓] theorem Hw.vault_linkEvt (h : Hw) (p : Nat) (b : Nat) : (Hw.linkEvt h p b).vault = h.vault := by unfold Hw.linkEvt; (try dsimp only); simp [↓apply_ite Hw.vault, ↓Hw.foldl_vault]
@[simp ↓] theorem Hw.vault_modLink (h : Hw) (p : Nat) (f : LinkPort → LinkPort) : (Hw.modLink h p f).vault = h.vault := by unfold Hw.modLink; (try dsimp only); simp [↓apply_ite Hw.vault, ↓Hw.foldl_vault]
@[simp ↓] theorem Hw.vault_setPhy (h : Hw) (p : Nat) (v : PhyPort) : (Hw.setPhy h p v).vault = h.vault := by unfold Hw.setPhy; (try dsimp only); simp [↓apply_ite Hw.vault, ↓Hw.foldl_vault]
@[simp ↓] theorem Hw.vault_modPhy (h : Hw) (p : Nat) (f : PhyPort → PhyPort) : (Hw.modPhy h p f).vault = h.vault := by unfold Hw.modPhy; (try dsimp only); simp [↓apply_ite Hw.vault, ↓Hw.foldl_vault]
@[simp ↓] theorem Hw.vault_dropRegs (h : Hw) (p : Reg → Bool) : (Hw.dropRegs h p).vault = h.vault := by unfold Hw.dropRegs; (try dsimp only); simp [↓apply_ite Hw.vault, ↓Hw.foldl_vault]
@[simp ↓] theorem Hw.vault_modLane (h : Hw) (p : Nat) (k : Nat) (f : Word → Word) : (Hw.modLane h p k f).vault = h.vault := by unfold Hw.modLane; (try dsimp only); simp [↓apply_ite Hw.vault, ↓Hw.foldl_vault]
@[simp ↓] theorem Hw.vault_lane17Mode (h : Hw) (p : Nat) (nrz : Bool) : (Hw.lane17Mode h p nrz).vault = h.vault := by unfold Hw.lane17Mode; (try dsimp only); simp [↓apply_ite Hw.vault, ↓Hw.foldl_vault]
@[simp ↓] theorem Hw.vault_laneTx (h : Hw) (p : Nat) (k : Nat) (on : Bool) : (Hw.laneTx h p k on).vault = h.vault := by unfold Hw.laneTx; (try dsimp only); simp [↓apply_ite Hw.vault, ↓Hw.foldl_vault]
@[simp ↓] theorem Hw.vault_setLane (h : Hw) (p : Nat) (k : Nat) (s : Nat) : (Hw.setLane h p k s).vault = h.vault := by unfold Hw.setLane; (try dsimp only); simp [↓apply_ite Hw.vault, ↓Hw.foldl_vault]
@[simp ↓] theorem Hw.vault_lanesTo (h : Hw) (p : Nat) (ks : List Nat) (s : Nat) (tx : Bool) : (Hw.lanesTo h p ks s tx).vault = h.vault := by unfold Hw.lanesTo; (try dsimp only); simp [↓apply_ite Hw.vault, ↓Hw.foldl_vault]
@[simp ↓] theorem Hw.vault_setPhyState (h : Hw) (p : Nat) (s : Nat) : (Hw.setPhyState h p s).vault = h.vault := by unfold Hw.setPhyState; (try dsimp only); simp [↓apply_ite Hw.vault, ↓Hw.foldl_vault]
@[simp ↓] theorem Hw.vault_phySbAcq (h : Hw) (p : Nat) : (Hw.phySbAcq h p).vault = h.vault := by unfold Hw.phySbAcq; (try dsimp only); simp [↓apply_ite Hw.vault, ↓Hw.foldl_vault]
@[simp ↓] theorem Hw.vault_setLanes (h : Hw) (p : Nat) (tx : Bool) (m : Nat) : (Hw.setLanes h p tx m).vault = h.vault := by unfold Hw.setLanes; (try dsimp only); simp [↓apply_ite Hw.vault, ↓Hw.foldl_vault]
@[simp ↓] theorem Hw.vault_phyStop (h : Hw) (p : Nat) (s : Nat) : (Hw.phyStop h p s).vault = h.vault := by unfold Hw.phyStop; (try dsimp only); simp [↓apply_ite Hw.vault, ↓Hw.foldl_vault]
@[simp ↓] theorem Hw.vault_phyTrain (h : Hw) (p : Nat) (cold : Bool) : (Hw.phyTrain h p cold).vault = h.vault := by unfold Hw.phyTrain; (try dsimp only); simp [↓apply_ite Hw.vault, ↓Hw.foldl_vault]
@[simp ↓] theorem Hw.vault_setLinkState (h : Hw) (p : Nat) (s : Nat) : (Hw.setLinkState h p s).vault = h.vault := by unfold Hw.setLinkState; (try dsimp only); simp [↓apply_ite Hw.vault, ↓Hw.foldl_vault]
@[simp ↓] theorem Hw.vault_torusPortReset (h : Hw) (p : Nat) : (Hw.torusPortReset h p).vault = h.vault := by unfold Hw.torusPortReset; (try dsimp only); simp [↓apply_ite Hw.vault, ↓Hw.foldl_vault]
@[simp ↓] theorem Hw.vault_replayDue (h : Hw) (p : Nat) (pick : TxFrame → Bool) : (Hw.replayDue h p pick).vault = h.vault := by unfold Hw.replayDue; (try dsimp only); simp [↓apply_ite Hw.vault, ↓Hw.foldl_vault]
@[simp ↓] theorem Hw.vault_ackIn (h : Hw) (p : Nat) (ack : Nat) (cred : Option (Nat × Nat)) (nak : Option Nat) : (Hw.ackIn h p ack cred nak).vault = h.vault := by unfold Hw.ackIn; (try dsimp only); (repeat' split) <;> simp [↓apply_ite Hw.vault, ↓Hw.foldl_vault]
@[simp ↓] theorem Hw.vault_add64 (h : Hw) (lo : RegId) (hi : RegId) (i : Nat) (j : Nat) (d : Nat) : (Hw.add64 h lo hi i j d).vault = h.vault := by unfold Hw.add64; (try dsimp only); simp [↓apply_ite Hw.vault, ↓Hw.foldl_vault]
@[simp ↓] theorem Hw.vault_addRoute (h : Hw) (n : Nat) (r : Nat) (mask : Nat) : (Hw.addRoute h n r mask).vault = h.vault := by unfold Hw.addRoute; (try dsimp only); simp [↓apply_ite Hw.vault, ↓Hw.foldl_vault]
@[simp ↓] theorem Hw.vault_jobStop (h : Hw) (t : Nat) : (Hw.jobStop h t).vault = h.vault := by unfold Hw.jobStop; (try dsimp only); simp [↓apply_ite Hw.vault, ↓Hw.foldl_vault]
@[simp ↓] theorem Hw.vault_heldStop (h : Hw) (t : Nat) : (Hw.heldStop h t).vault = h.vault := by unfold Hw.heldStop; (try dsimp only); simp [↓apply_ite Hw.vault, ↓Hw.foldl_vault]
@[simp ↓] theorem Hw.vault_postResult (h : Hw) (t : Nat) (code : Nat) (cookie : Word) (busy : Bool) : (Hw.postResult h t code cookie busy).vault = h.vault := by unfold Hw.postResult; (try dsimp only); simp [↓apply_ite Hw.vault, ↓Hw.foldl_vault]
@[simp ↓] theorem Hw.vault_launchOver (h : Hw) (t : Nat) (code : Nat) : (Hw.launchOver h t code).vault = h.vault := by unfold Hw.launchOver; (try dsimp only); simp [↓apply_ite Hw.vault, ↓Hw.foldl_vault]
@[simp ↓] theorem Hw.vault_fresh (h : Hw) : (Hw.fresh h).2.vault = h.vault := by unfold Hw.fresh; (try dsimp only); simp [↓apply_ite Hw.vault, ↓Hw.foldl_vault]
@[simp ↓] theorem Hw.vault_pickFree (n : Nat) (x1 : Nat) (x2 : List Nat) (x3 : Hw) : (pickFree n x1 x2 x3).2.vault = x3.vault := by
 induction x1 generalizing x2 x3 with
 | zero => rfl
 | succ k ih => simp [pickFree, ih]
@[simp ↓] theorem Hw.vault_planMap (h : Hw) (t : Nat) (g : Nat) (d : Doc) : (Hw.planMap h t g d).2.vault = h.vault := by unfold Hw.planMap; (try dsimp only); simp [↓apply_ite Hw.vault, ↓Hw.foldl_vault]
@[simp ↓] theorem Hw.vault_powerAdmit (h : Hw) (t : Nat) : (Hw.powerAdmit h t).vault = h.vault := by unfold Hw.powerAdmit; (try dsimp only); simp [↓apply_ite Hw.vault, ↓Hw.foldl_vault]
@[simp ↓] theorem Hw.vault_putMap (h : Hw) (id : RegId) (n : Nat) (cnt : Nat) (planLen : Nat) (dieLen : Nat) (es : List (Nat × Nat)) : (Hw.putMap h id n cnt planLen dieLen es).vault = h.vault := by unfold Hw.putMap; (try dsimp only); simp [↓apply_ite Hw.vault, ↓Hw.foldl_vault]
@[simp ↓] theorem Hw.vault_putMaps (h : Hw) (d : Doc) (m : DieMap) (i : Nat) : (Hw.putMaps h d m i).vault = h.vault := by unfold Hw.putMaps; (try dsimp only); simp [↓apply_ite Hw.vault, ↓Hw.foldl_vault]
@[simp ↓] theorem Hw.vault_putPhases (h : Hw) (d : Doc) (m : DieMap) : (Hw.putPhases h d m).vault = h.vault := by unfold Hw.putPhases; (try dsimp only); simp [↓apply_ite Hw.vault, ↓Hw.foldl_vault]
@[simp ↓] theorem Hw.vault_setChStatus (h : Hw) (c : Nat) (occ : Nat) (credits : Nat) (stalled : Bool) : (Hw.setChStatus h c occ credits stalled).vault = h.vault := by unfold Hw.setChStatus; (try dsimp only); simp [↓apply_ite Hw.vault, ↓Hw.foldl_vault]
@[simp ↓] theorem Hw.vault_chEnable (h : Hw) (c : Nat) (w : Word) : (Hw.chEnable h c w).vault = h.vault := by unfold Hw.chEnable; (try dsimp only); simp [↓apply_ite Hw.vault, ↓Hw.foldl_vault]
@[simp ↓] theorem Hw.vault_putChannel (h : Hw) (d : Doc) (m : DieMap) (c : ChannelRec) : (Hw.putChannel h d m c).vault = h.vault := by unfold Hw.putChannel; (try dsimp only); (repeat' split) <;> simp [↓apply_ite Hw.vault, ↓Hw.foldl_vault]
@[simp ↓] theorem Hw.vault_putEndpoint (h : Hw) (m : DieMap) (e : EndpointRec) : (Hw.putEndpoint h m e).vault = h.vault := by unfold Hw.putEndpoint; (try dsimp only); simp [↓apply_ite Hw.vault, ↓Hw.foldl_vault]
@[simp ↓] theorem Hw.vault_flowCfgSet (h : Hw) (n : Nat) (s : Nat) (w : Word) : (Hw.flowCfgSet h n s w).vault = h.vault := by unfold Hw.flowCfgSet; (try dsimp only); simp [↓apply_ite Hw.vault, ↓Hw.foldl_vault]
@[simp ↓] theorem Hw.vault_putSlot (h : Hw) (n : Nat) (cfg : Nat) (rate : Nat) (bound : Nat) (phase : Nat) : (Hw.putSlot h n cfg rate bound phase).vault = h.vault := by unfold Hw.putSlot; (try dsimp only); simp [↓apply_ite Hw.vault, ↓Hw.foldl_vault]
@[simp ↓] theorem Hw.vault_putFlow (h : Hw) (d : Doc) (m : DieMap) (f : FlowRec) : (Hw.putFlow h d m f).vault = h.vault := by unfold Hw.putFlow; (try dsimp only); simp [↓apply_ite Hw.vault, ↓Hw.foldl_vault]
@[simp ↓] theorem Hw.vault_setCtx (h : Hw) (n : Nat) (k : Nat) (c : FoldCtx) : (Hw.setCtx h n k c).vault = h.vault := by unfold Hw.setCtx; (try dsimp only); simp [↓apply_ite Hw.vault, ↓Hw.foldl_vault]
@[simp ↓] theorem Hw.vault_foldEnable (h : Hw) (n : Nat) (k : Nat) (w : Word) : (Hw.foldEnable h n k w).vault = h.vault := by unfold Hw.foldEnable; (try dsimp only); simp [↓apply_ite Hw.vault, ↓Hw.foldl_vault]
@[simp ↓] theorem Hw.vault_putFold (h : Hw) (m : DieMap) (f : FoldRec) : (Hw.putFold h m f).vault = h.vault := by unfold Hw.putFold; (try dsimp only); simp [↓apply_ite Hw.vault, ↓Hw.foldl_vault]
@[simp ↓] theorem Hw.vault_putRing (h : Hw) (m : DieMap) (group : Nat) (n : Nat) (gate : Bool) (flow : Word) : (Hw.putRing h m group n gate flow).vault = h.vault := by unfold Hw.putRing; (try dsimp only); simp [↓apply_ite Hw.vault, ↓Hw.foldl_vault]
@[simp ↓] theorem Hw.vault_setSeq (h : Hw) (q : Nat) (j : Nat) (s : SeqState) : (Hw.setSeq h q j s).vault = h.vault := by unfold Hw.setSeq; (try dsimp only); simp [↓apply_ite Hw.vault, ↓Hw.foldl_vault]
@[simp ↓] theorem Hw.vault_putGroup (h : Hw) (d : Doc) (m : DieMap) (g : GroupRec) : (Hw.putGroup h d m g).vault = h.vault := by unfold Hw.putGroup; (try dsimp only); simp [↓apply_ite Hw.vault, ↓Hw.foldl_vault]
@[simp ↓] theorem Hw.vault_joinFrom (h : Hw) (s : Nat) (x2 : Nat) (x3 : Nat) (x4 : Nat) : (Hw.joinFrom h s x2 x3 x4).vault = h.vault := by
 induction x2 generalizing h x3 x4 with
 | zero => rfl
 | succ k ih => unfold Hw.joinFrom; dsimp only; split <;> simp [ih]
@[simp ↓] theorem Hw.vault_putRoles (h : Hw) (g : GroupRec) (s : Nat) : (Hw.putRoles h g s).vault = h.vault := by unfold Hw.putRoles; (try dsimp only); simp [↓apply_ite Hw.vault, ↓Hw.foldl_vault]
@[simp ↓] theorem Hw.vault_putSync (h : Hw) (d : Doc) (m : DieMap) (i : Nat) : (Hw.putSync h d m i).vault = h.vault := by unfold Hw.putSync; (try dsimp only); (repeat' split) <;> simp [↓apply_ite Hw.vault, ↓Hw.foldl_vault]
@[simp ↓] theorem Hw.vault_putResources (h : Hw) (d : Doc) (m : DieMap) : (Hw.putResources h d m).vault = h.vault := by unfold Hw.putResources; (try dsimp only); simp [↓apply_ite Hw.vault, ↓Hw.foldl_vault]
@[simp ↓] theorem Hw.vault_putPath (h : Hw) (r : RouteRec) (die : Nat) : (Hw.putPath h r die).vault = h.vault := by unfold Hw.putPath; (try dsimp only); simp [↓apply_ite Hw.vault, ↓Hw.foldl_vault]
@[simp ↓] theorem Hw.vault_putRoutes (h : Hw) (d : Doc) (m : DieMap) : (Hw.putRoutes h d m).vault = h.vault := by unfold Hw.putRoutes; (try dsimp only); simp [↓apply_ite Hw.vault, ↓Hw.foldl_vault]
@[simp ↓] theorem Hw.vault_leaseUnit (h : Hw) (g : Nat) (u : Nat) : (Hw.leaseUnit h g u).vault = h.vault := by unfold Hw.leaseUnit; (try dsimp only); simp [↓apply_ite Hw.vault, ↓Hw.foldl_vault]
@[simp ↓] theorem Hw.vault_putSpill (h : Hw) (t : Nat) (g : Nat) (b : List Byte) (d : Doc) : (Hw.putSpill h t g b d).vault = h.vault := by unfold Hw.putSpill; (try dsimp only); simp [↓apply_ite Hw.vault, ↓Hw.foldl_vault]
@[simp ↓] theorem Hw.vault_program (h : Hw) (t : Nat) (b : List Byte) : (Hw.program h t b).vault = h.vault := by unfold Hw.program; (try dsimp only); simp [↓apply_ite Hw.vault, ↓Hw.foldl_vault]
@[simp ↓] theorem Hw.vault_admission (h : Hw) (t : Nat) : (Hw.admission h t).vault = h.vault := by unfold Hw.admission; (try dsimp only); (repeat' split) <;> simp [↓apply_ite Hw.vault, ↓Hw.foldl_vault]
@[simp ↓] theorem Hw.vault_binStall (h : Hw) (n : Nat) (k : Nat) : (Hw.binStall h n k).vault = h.vault := by unfold Hw.binStall; (try dsimp only); (repeat' split) <;> simp [↓apply_ite Hw.vault, ↓Hw.foldl_vault]
@[simp ↓] theorem Hw.vault_engineCount (h : Hw) (k : Nat) (n : Nat) (e : Nat) : (Hw.engineCount h k n e).vault = h.vault := by
 have hf : h.fresh.2.vault = h.vault := Hw.vault_fresh h
 unfold Hw.engineCount; dsimp only
 repeat' split
 all_goals simp [↓apply_ite Hw.vault, ↓apply_ite (Prod.snd (α := Nat) (β := Hw))]
@[simp ↓] theorem Hw.vault_observeTime (h : Hw) (k : Nat) : (Hw.observeTime h k).vault = h.vault := by unfold Hw.observeTime; (try dsimp only); simp [↓apply_ite Hw.vault, ↓Hw.foldl_vault]
@[simp ↓] theorem Hw.vault_chCount (h : Hw) (lo : RegId) (hi : RegId) (c : Nat) (d : Nat) : (Hw.chCount h lo hi c d).vault = h.vault := by unfold Hw.chCount; (try dsimp only); simp [↓apply_ite Hw.vault, ↓Hw.foldl_vault]
@[simp ↓] theorem Hw.vault_stallTime (h : Hw) (k : Nat) : (Hw.stallTime h k).vault = h.vault := by unfold Hw.stallTime; (try dsimp only); simp [↓apply_ite Hw.vault, ↓Hw.foldl_vault]
@[simp ↓] theorem Hw.vault_advance (h : Hw) (k : Nat) : (Hw.advance h k).vault = h.vault := by unfold Hw.advance; (try dsimp only); simp [↓apply_ite Hw.vault, ↓Hw.foldl_vault]
@[simp ↓] theorem Hw.vault_aerReport (h : Hw) (e : AerError) (fn : Nat) : (Hw.aerReport h e fn).vault = h.vault := by unfold Hw.aerReport; (try dsimp only); simp [↓apply_ite Hw.vault, ↓Hw.foldl_vault]
@[simp ↓] theorem Hw.vault_ageWaits (h : Hw) : (Hw.ageWaits h).vault = h.vault := by unfold Hw.ageWaits; (try dsimp only); simp [↓apply_ite Hw.vault, ↓Hw.foldl_vault]
@[simp ↓] theorem Hw.vault_cSend (h : Hw) (p : CPkt) : (Hw.cSend h p).vault = h.vault := by unfold Hw.cSend; (try dsimp only); simp [↓apply_ite Hw.vault, ↓Hw.foldl_vault]
theorem Hw.vault_of_cTake {h g : Hw} {a b : Nat} {q : CPkt} (hq : h.cTake a b = some (q, g)) : g.vault = h.vault := by
  simp only [Hw.cTake, Option.map_eq_some_iff] at hq
  obtain ⟨a, _, hq⟩ := hq; cases hq; rfl
@[simp ↓] theorem Hw.vault_chReturnCredit (h : Hw) (c : Nat) (merge : Bool) : (Hw.chReturnCredit h c merge).vault = h.vault := by
 unfold Hw.chReturnCredit; split
 · rename_i q g hq
   have hg : g.vault = h.vault := by
     cases merge
     · simp at hq
     · simp only [if_true] at hq; exact Hw.vault_of_cTake hq
   split <;> simp [hg]
 · simp
@[simp ↓] theorem Hw.vault_chUpdate (h : Hw) (c : Nat) (occ : Nat) (credits : Nat) : (Hw.chUpdate h c occ credits).vault = h.vault := by unfold Hw.chUpdate; (try dsimp only); simp [↓apply_ite Hw.vault, ↓Hw.foldl_vault]
@[simp ↓] theorem Hw.vault_chDequeue (h : Hw) (n : Nat) (k : Nat) (c : Nat) (merge : Bool) : (Hw.chDequeue h n k c merge).1.vault = h.vault := by unfold Hw.chDequeue; (try dsimp only); (repeat' split) <;> simp [↓apply_ite Hw.vault, ↓Hw.foldl_vault]
@[simp ↓] theorem Hw.vault_setResp (h : Hw) (n : Nat) (k : Nat) (r : AgentResp) : (Hw.setResp h n k r).vault = h.vault := by unfold Hw.setResp; (try dsimp only); simp [↓apply_ite Hw.vault, ↓Hw.foldl_vault]
@[simp ↓] theorem Hw.vault_agentDequeue (h : Hw) (n : Nat) (k : Nat) (c : Nat) (merge : Bool) : (Hw.agentDequeue h n k c merge).vault = h.vault := by unfold Hw.agentDequeue; (try dsimp only); simp [↓apply_ite Hw.vault, ↓Hw.foldl_vault]
@[simp ↓] theorem Hw.vault_cNote (h : Hw) (n : Nat) (cause : Nat) (c : Nat) : (Hw.cNote h n cause c).vault = h.vault := by unfold Hw.cNote; (try dsimp only); simp [↓apply_ite Hw.vault, ↓Hw.foldl_vault]
@[simp ↓] theorem Hw.vault_cDrop (h : Hw) (n : Nat) (cause : Nat) (c : Nat) : (Hw.cDrop h n cause c).vault = h.vault := by unfold Hw.cDrop; (try dsimp only); simp [↓apply_ite Hw.vault, ↓Hw.foldl_vault]
@[simp ↓] theorem Hw.vault_chAccept (h : Hw) (c : Nat) (data : BitVec 512) : (Hw.chAccept h c data).vault = h.vault := by unfold Hw.chAccept; (try dsimp only); simp [↓apply_ite Hw.vault, ↓Hw.foldl_vault]
@[simp ↓] theorem Hw.vault_chSend (h : Hw) (n : Nat) (k : Nat) (t : Option Nat) (c : Nat) (data : BitVec 512) (cmd : Option (Nat × Nat)) : (Hw.chSend h n k t c data cmd).1.vault = h.vault := by unfold Hw.chSend; (try dsimp only); (repeat' split) <;> simp [↓apply_ite Hw.vault, ↓Hw.foldl_vault]
@[simp ↓] theorem Hw.vault_agentSend (h : Hw) (n : Nat) (k : Nat) (c : Nat) (data : BitVec 512) : (Hw.agentSend h n k c data).vault = h.vault := by
 unfold Hw.agentSend; split
 · rfl
 · split <;> (rename_i hq; have hv := Hw.vault_of_pair hq (Hw.vault_chSend _ _ _ _ _ _ _); simp [hv])
@[simp ↓] theorem Hw.vault_setPath (h : Hw) (p : Path) (v : PathState) : (Hw.setPath h p v).vault = h.vault := by unfold Hw.setPath; (try dsimp only); simp [↓apply_ite Hw.vault, ↓Hw.foldl_vault]
@[simp ↓] theorem Hw.vault_answer (h : Hw) (p : Path) (w : Word) : (Hw.answer h p w).vault = h.vault := by unfold Hw.answer; (try dsimp only); simp [↓apply_ite Hw.vault, ↓Hw.foldl_vault]
@[simp ↓] theorem Hw.vault_readEffect (h : Hw) (p : Path) (r : Reg) : (Hw.readEffect h p r).vault = h.vault := by unfold Hw.readEffect; (try dsimp only); (repeat' split) <;> simp [↓apply_ite Hw.vault, ↓Hw.foldl_vault]
theorem Hw.vault_of_nextPacket {h g : Hw} {p t : Nat} {us : List (Nat × BitVec 36)} (hq : h.nextPacket p t = some (us, g)) : g.vault = h.vault := by
  unfold Hw.nextPacket at hq; dsimp only at hq
  (repeat' split at hq) <;> cases hq <;> first | rfl | simp
@[simp ↓] theorem Hw.vault_loadPacket (h : Hw) (p : Nat) (type : Nat) : (Hw.loadPacket h p type).vault = h.vault := by
 have e : ∀ f : List (Nat × BitVec 36) → LinkPort → LinkPort, (match h.nextPacket p type with | some (us, h) => Hw.modLink h p (f us) | none => h).vault = h.vault := by
   intro f; split
   · rename_i hq; simp [Hw.vault_of_nextPacket hq]
   · rfl
 unfold Hw.loadPacket; dsimp only; generalize h.linkOf p = l
 by_cases hc : (!(if type = 2 then l.cur0 else l.cur1).isEmpty) = true
 · rw [if_pos hc]
 · rw [if_neg hc]; exact e _
@[simp ↓] theorem Hw.vault_sbNumber (h : Hw) (p : Nat) (type : Nat) (body : BitVec 36) : (Hw.sbNumber h p type body).2.vault = h.vault := by unfold Hw.sbNumber; (try dsimp only); simp [↓apply_ite Hw.vault, ↓Hw.foldl_vault]
@[simp ↓] theorem Hw.vault_sbNextUnit (h : Hw) (p : Nat) : (Hw.sbNextUnit h p).2.vault = h.vault := by unfold Hw.sbNextUnit; (try dsimp only); (repeat' split) <;> simp [↓apply_ite Hw.vault, ↓Hw.foldl_vault]
@[simp ↓] theorem Hw.vault_idxFarReadDone (h : Hw) (p : Path) : (Hw.idxFarReadDone h p).vault = h.vault := by unfold Hw.idxFarReadDone; (try dsimp only); (repeat' split) <;> simp [↓apply_ite Hw.vault, ↓Hw.foldl_vault]
@[simp ↓] theorem Hw.vault_msixPut (h : Hw) (fn : Nat) (off : Nat) (w : Word) : (Hw.msixPut h fn off w).vault = h.vault := by unfold Hw.msixPut; (try dsimp only); simp [↓apply_ite Hw.vault, ↓Hw.foldl_vault]
@[simp ↓] theorem Hw.vault_msixMessage (h : Hw) (fn : Nat) (v : Nat) : (Hw.msixMessage h fn v).vault = h.vault := by unfold Hw.msixMessage; (try dsimp only); simp [↓apply_ite Hw.vault, ↓Hw.foldl_vault]
@[simp ↓] theorem Hw.vault_msixUnmasked (h : Hw) (fn : Nat) (v : Nat) : (Hw.msixUnmasked h fn v).vault = h.vault := by unfold Hw.msixUnmasked; (try dsimp only); simp [↓apply_ite Hw.vault, ↓Hw.foldl_vault]
@[simp ↓] theorem Hw.vault_msixWrite (h : Hw) (fn : Nat) (off : Nat) (w : Word) : (Hw.msixWrite h fn off w).vault = h.vault := by unfold Hw.msixWrite; (try dsimp only); simp [↓apply_ite Hw.vault, ↓Hw.foldl_vault]
@[simp ↓] theorem Hw.vault_binFree (h : Hw) (n : Nat) (b : Nat) : (Hw.binFree h n b).vault = h.vault := by unfold Hw.binFree; (try dsimp only); simp [↓apply_ite Hw.vault, ↓Hw.foldl_vault]
@[simp ↓] theorem Hw.vault_haltPart (h : Hw) (t : Nat) : (Hw.haltPart h t).vault = h.vault := by unfold Hw.haltPart; (try dsimp only); simp [↓apply_ite Hw.vault, ↓Hw.foldl_vault]
@[simp ↓] theorem Hw.vault_drainRelease (h : Hw) (i : Nat) : (Hw.drainRelease h i).vault = h.vault := by unfold Hw.drainRelease; (try dsimp only); simp [↓apply_ite Hw.vault, ↓Hw.foldl_vault]
@[simp ↓] theorem Hw.vault_resumePart (h : Hw) (t : Nat) : (Hw.resumePart h t).vault = h.vault := by unfold Hw.resumePart; (try dsimp only); simp [↓apply_ite Hw.vault, ↓Hw.foldl_vault]
@[simp ↓] theorem Hw.vault_haltRefresh (h : Hw) : (Hw.haltRefresh h).vault = h.vault := by unfold Hw.haltRefresh; (try dsimp only); simp [↓apply_ite Hw.vault, ↓Hw.foldl_vault]
@[simp ↓] theorem Hw.vault_lockFilter (h : Hw) (p : Path) (addr : Nat) (id : RegId) (w : Word) (v : Word) : (Hw.lockFilter h p addr id w v).1.vault = h.vault := by unfold Hw.lockFilter; (try dsimp only); (repeat' split) <;> simp [↓apply_ite Hw.vault, ↓Hw.foldl_vault]
@[simp ↓] theorem Hw.vault_plainWrite (h : Hw) (p : Path) (addr : Nat) (view : Nat) (r : Reg) (v : Word) : (Hw.plainWrite h p addr view r v).vault = h.vault := by unfold Hw.plainWrite; (try dsimp only); simp [↓apply_ite Hw.vault, ↓Hw.foldl_vault]
@[simp ↓] theorem Hw.vault_breakWrite (h : Hw) (p : Path) (addr : Nat) (view : Nat) (r : Reg) (v : Word) : (Hw.breakWrite h p addr view r v).vault = h.vault := by unfold Hw.breakWrite; (try dsimp only); simp [↓apply_ite Hw.vault, ↓Hw.foldl_vault]
@[simp ↓] theorem Hw.vault_chDisable (h : Hw) (c : Nat) : (Hw.chDisable h c).vault = h.vault := by unfold Hw.chDisable; (try dsimp only); simp [↓apply_ite Hw.vault, ↓Hw.foldl_vault]
@[simp ↓] theorem Hw.vault_chRegWrite (h : Hw) (p : Path) (addr : Nat) (r : Reg) (w : Word) : (Hw.chRegWrite h p addr r w).vault = h.vault := by unfold Hw.chRegWrite; (try dsimp only); (repeat' split) <;> simp [↓apply_ite Hw.vault, ↓Hw.foldl_vault]
@[simp ↓] theorem Hw.vault_ringBell (h : Hw) (n : Nat) (mask : Nat) : (Hw.ringBell h n mask).vault = h.vault := by unfold Hw.ringBell; (try dsimp only); simp [↓apply_ite Hw.vault, ↓Hw.foldl_vault]
@[simp ↓] theorem Hw.vault_clearBells (h : Hw) (n : Nat) (mask : Nat) : (Hw.clearBells h n mask).vault = h.vault := by unfold Hw.clearBells; (try dsimp only); simp [↓apply_ite Hw.vault, ↓Hw.foldl_vault]
@[simp ↓] theorem Hw.vault_setCplPend (h : Hw) (c : CplReg) (v : Option CplPend) : (Hw.setCplPend h c v).vault = h.vault := by unfold Hw.setCplPend; (try dsimp only); (repeat' split) <;> simp [↓apply_ite Hw.vault, ↓Hw.foldl_vault]
@[simp ↓] theorem Hw.vault_cplValue (h : Hw) (p : Path) (c : CplReg) (v : Word) (addr : Nat) : (Hw.cplValue h p c v addr).vault = h.vault := by unfold Hw.cplValue; (try dsimp only); simp [↓apply_ite Hw.vault, ↓Hw.foldl_vault]
@[simp ↓] theorem Hw.vault_slotDiscard (h : Hw) (i : Nat) (k : Nat) : (Hw.slotDiscard h i k).vault = h.vault := by unfold Hw.slotDiscard; (try dsimp only); simp [↓apply_ite Hw.vault, ↓Hw.foldl_vault]
@[simp ↓] theorem Hw.vault_cqRegWrite (h : Hw) (p : Path) (addr : Nat) (r : Reg) (w : Word) : (Hw.cqRegWrite h p addr r w).vault = h.vault := by unfold Hw.cqRegWrite; (try dsimp only); (repeat' split) <;> simp [↓apply_ite Hw.vault, ↓Hw.foldl_vault]
@[simp ↓] theorem Hw.vault_flowRegWrite (h : Hw) (p : Path) (addr : Nat) (r : Reg) (w : Word) : (Hw.flowRegWrite h p addr r w).vault = h.vault := by unfold Hw.flowRegWrite; (try dsimp only); (repeat' split) <;> simp [↓apply_ite Hw.vault, ↓Hw.foldl_vault]
@[simp ↓] theorem Hw.vault_foldClear (h : Hw) (n : Nat) (k : Nat) : (Hw.foldClear h n k).vault = h.vault := by unfold Hw.foldClear; (try dsimp only); simp [↓apply_ite Hw.vault, ↓Hw.foldl_vault]
@[simp ↓] theorem Hw.vault_foldRegWrite (h : Hw) (p : Path) (addr : Nat) (r : Reg) (w : Word) : (Hw.foldRegWrite h p addr r w).vault = h.vault := by unfold Hw.foldRegWrite; (try dsimp only); (repeat' split) <;> simp [↓apply_ite Hw.vault, ↓Hw.foldl_vault]
@[simp ↓] theorem Hw.vault_freezeReq (h : Hw) (p : Path) (addr : Nat) (v : Word) : (Hw.freezeReq h p addr v).vault = h.vault := by unfold Hw.freezeReq; (try dsimp only); simp [↓apply_ite Hw.vault, ↓Hw.foldl_vault]
@[simp ↓] theorem Hw.vault_raiseF0 (h : Hw) (cause : Nat) (node : Nat) (detail : Nat) : (Hw.raiseF0 h cause node detail).vault = h.vault := by unfold Hw.raiseF0; (try dsimp only); simp [↓apply_ite Hw.vault, ↓Hw.foldl_vault]
@[simp ↓] theorem Hw.vault_gongFault (h : Hw) (f0 : Bool) (tenant : Nat) : (Hw.gongFault h f0 tenant).vault = h.vault := by unfold Hw.gongFault; (try dsimp only); simp [↓apply_ite Hw.vault, ↓Hw.foldl_vault]
@[simp ↓] theorem Hw.vault_gongCtl (h : Hw) (p : Path) (addr : Nat) (w : Word) : (Hw.gongCtl h p addr w).vault = h.vault := by unfold Hw.gongCtl; (try dsimp only); (repeat' split) <;> simp [↓apply_ite Hw.vault, ↓Hw.foldl_vault]
@[simp ↓] theorem Hw.vault_cplAccept (h : Hw) (p : Path) (c : CplReg) (v : Word) (addr : Nat) : (Hw.cplAccept h p c v addr).vault = h.vault := by unfold Hw.cplAccept; (try dsimp only); (repeat' split) <;> simp [↓apply_ite Hw.vault, ↓Hw.foldl_vault]
@[simp ↓] theorem Hw.vault_cplExpire (h : Hw) (c : CplReg) : (Hw.cplExpire h c).vault = h.vault := by unfold Hw.cplExpire; (try dsimp only); (repeat' split) <;> simp [↓apply_ite Hw.vault, ↓Hw.foldl_vault]
@[simp ↓] theorem Hw.vault_cplGuard (h : Hw) (p : Path) (c : CplReg) (g : Word) (addr : Nat) : (Hw.cplGuard h p c g addr).1.vault = h.vault := by unfold Hw.cplGuard; (try dsimp only); (repeat' split) <;> simp [↓apply_ite Hw.vault, ↓Hw.foldl_vault]
@[simp ↓] theorem Hw.vault_guardWrite (h : Hw) (p : Path) (c : CplReg) (g : Word) (addr : Nat) : (Hw.guardWrite h p c g addr).vault = h.vault := by
 unfold Hw.guardWrite; split <;> (rename_i hq; have hv := Hw.vault_of_pair hq (Hw.vault_cplGuard h p c g addr); simp [hv])
@[simp ↓] theorem Hw.vault_guardedWrite (h : Hw) (p : Path) (addr : Nat) (view : Nat) (r : Reg) (v : Word) (ok : Word → Bool) : (Hw.guardedWrite h p addr view r v ok).vault = h.vault := by unfold Hw.guardedWrite; (try dsimp only); simp [↓apply_ite Hw.vault, ↓Hw.foldl_vault]
@[simp ↓] theorem Hw.vault_hangRelease (h : Hw) : (Hw.hangRelease h).vault = h.vault := by unfold Hw.hangRelease; (try dsimp only); simp [↓apply_ite Hw.vault, ↓Hw.foldl_vault]
@[simp ↓] theorem Hw.vault_heartbeat (h : Hw) (k : Nat) (v : Word) : (Hw.heartbeat h k v).vault = h.vault := by unfold Hw.heartbeat; (try dsimp only); simp [↓apply_ite Hw.vault, ↓Hw.foldl_vault]
@[simp ↓] theorem Hw.vault_phyRegWrite (h : Hw) (p : Path) (addr : Nat) (r : Reg) (v : Word) (w : Word) : (Hw.phyRegWrite h p addr r v w).vault = h.vault := by unfold Hw.phyRegWrite; (try dsimp only); (repeat' split) <;> simp [↓apply_ite Hw.vault, ↓Hw.foldl_vault]
@[simp ↓] theorem Hw.vault_farWrite (h : Hw) (p : Path) (r : Reg) (v : Word) (addr : Nat) : (Hw.farWrite h p r v addr).vault = h.vault := by unfold Hw.farWrite; (try dsimp only); simp [↓apply_ite Hw.vault, ↓Hw.foldl_vault]
@[simp ↓] theorem Hw.vault_idxFarWriteDone (h : Hw) (p : Path) : (Hw.idxFarWriteDone h p).vault = h.vault := by unfold Hw.idxFarWriteDone; (try dsimp only); (repeat' split) <;> simp [↓apply_ite Hw.vault, ↓Hw.foldl_vault]
@[simp ↓] theorem Hw.vault_idxAdvance (h : Hw) (p : Path) : (Hw.idxAdvance h p).vault = h.vault := by unfold Hw.idxAdvance; (try dsimp only); simp [↓apply_ite Hw.vault, ↓Hw.foldl_vault]
@[simp ↓] theorem Hw.vault_refuse (h : Hw) (p : Path) (fault : Bool) : (Hw.refuse h p fault).vault = h.vault := by unfold Hw.refuse; (try dsimp only); simp [↓apply_ite Hw.vault, ↓Hw.foldl_vault]
@[simp ↓] theorem Hw.vault_idxRefuse (h : Hw) (p : Path) (write : Bool) (cause : Nat) (addr : Nat) : (Hw.idxRefuse h p write cause addr).vault = h.vault := by unfold Hw.idxRefuse; (try dsimp only); simp [↓apply_ite Hw.vault, ↓Hw.foldl_vault]
@[simp ↓] theorem Hw.vault_idxPost (h : Hw) (p : Path) (addr : Nat) (v : Word) : (Hw.idxPost h p addr v).vault = h.vault := by unfold Hw.idxPost; (try dsimp only); (repeat' split) <;> simp [↓apply_ite Hw.vault, ↓Hw.foldl_vault]
@[simp ↓] theorem Hw.vault_idxWrite (h : Hw) (p : Path) (addr : Nat) (view : Nat) (r : Reg) (v : Word) : (Hw.idxWrite h p addr view r v).vault = h.vault := by unfold Hw.idxWrite; (try dsimp only); (repeat' split) <;> simp [↓apply_ite Hw.vault, ↓Hw.foldl_vault]
@[simp ↓] theorem Hw.vault_launchDoorbell (h : Hw) (t : Nat) : (Hw.launchDoorbell h t).vault = h.vault := by unfold Hw.launchDoorbell; (try dsimp only); simp [↓apply_ite Hw.vault, ↓Hw.foldl_vault]
@[simp ↓] theorem Hw.vault_freePage (h : Hw) (p : Nat) : (Hw.freePage h p).vault = h.vault := by unfold Hw.freePage; (try dsimp only); simp [↓apply_ite Hw.vault, ↓Hw.foldl_vault]
@[simp ↓] theorem Hw.vault_leaseWrite (h : Hw) (p : Path) (addr : Nat) (r : Reg) (w : Word) : (Hw.leaseWrite h p addr r w).vault = h.vault := by unfold Hw.leaseWrite; (try dsimp only); simp [↓apply_ite Hw.vault, ↓Hw.foldl_vault]
@[simp ↓] theorem Hw.vault_linkRegWrite (h : Hw) (p : Path) (addr : Nat) (r : Reg) (w : Word) : (Hw.linkRegWrite h p addr r w).vault = h.vault := by unfold Hw.linkRegWrite; (try dsimp only); simp [↓apply_ite Hw.vault, ↓Hw.foldl_vault]
@[simp ↓] theorem Hw.vault_mboxDone (h : Hw) (v : Word) : (Hw.mboxDone h v).vault = h.vault := by unfold Hw.mboxDone; (try dsimp only); simp [↓apply_ite Hw.vault, ↓Hw.foldl_vault]
@[simp ↓] theorem Hw.vault_mboxDoorbell (h : Hw) (p : Path) (v : Word) : (Hw.mboxDoorbell h p v).vault = h.vault := by unfold Hw.mboxDoorbell; (try dsimp only); simp [↓apply_ite Hw.vault, ↓Hw.foldl_vault]
@[simp ↓] theorem Hw.vault_mboxWrite (h : Hw) (p : Path) (addr : Nat) (view : Nat) (r : Reg) (v : Word) : (Hw.mboxWrite h p addr view r v).vault = h.vault := by unfold Hw.mboxWrite; (try dsimp only); simp [↓apply_ite Hw.vault, ↓Hw.foldl_vault]
@[simp ↓] theorem Hw.vault_setPhaseStage (h : Hw) (e : Nat) (v : Nat) : (Hw.setPhaseStage h e v).vault = h.vault := by unfold Hw.setPhaseStage; (try dsimp only); simp [↓apply_ite Hw.vault, ↓Hw.foldl_vault]
@[simp ↓] theorem Hw.vault_phaseTarget (h : Hw) (e : Nat) (v : Nat) : (Hw.phaseTarget h e v).vault = h.vault := by unfold Hw.phaseTarget; (try dsimp only); simp [↓apply_ite Hw.vault, ↓Hw.foldl_vault]
@[simp ↓] theorem Hw.vault_phaseRegWrite (h : Hw) (p : Path) (addr : Nat) (r : Reg) (w : Word) : (Hw.phaseRegWrite h p addr r w).vault = h.vault := by unfold Hw.phaseRegWrite; (try dsimp only); simp [↓apply_ite Hw.vault, ↓Hw.foldl_vault]
@[simp ↓] theorem Hw.vault_powerRegWrite (h : Hw) (p : Path) (addr : Nat) (r : Reg) (w : Word) : (Hw.powerRegWrite h p addr r w).vault = h.vault := by unfold Hw.powerRegWrite; (try dsimp only); simp [↓apply_ite Hw.vault, ↓Hw.foldl_vault]
@[simp ↓] theorem Hw.vault_nvmChoose (h : Hw) (sfdp : Option (Nat × Nat × Nat)) : (Hw.nvmChoose h sfdp).vault = h.vault := by unfold Hw.nvmChoose; (try dsimp only); simp [↓apply_ite Hw.vault, ↓Hw.foldl_vault]
@[simp ↓] theorem Hw.vault_progStart (h : Hw) (p : Path) (cmd : Nat) (jedec : Nat) (sfdp : Option (Nat × Nat × Nat)) : (Hw.progStart h p cmd jedec sfdp).vault = h.vault := by unfold Hw.progStart; (try dsimp only); simp [↓apply_ite Hw.vault, ↓Hw.foldl_vault]
@[simp ↓] theorem Hw.vault_relayWrite (h : Hw) (p : Path) (addr : Nat) (rx : Bool) (v : Word) : (Hw.relayWrite h p addr rx v).vault = h.vault := by unfold Hw.relayWrite; (try dsimp only); simp [↓apply_ite Hw.vault, ↓Hw.foldl_vault]
@[simp ↓] theorem Hw.vault_modSyncStatus (h : Hw) (s : Nat) (f : Word → Word) : (Hw.modSyncStatus h s f).vault = h.vault := by unfold Hw.modSyncStatus; (try dsimp only); simp [↓apply_ite Hw.vault, ↓Hw.foldl_vault]
@[simp ↓] theorem Hw.vault_syncDiscard (h : Hw) (s : Nat) : (Hw.syncDiscard h s).vault = h.vault := by unfold Hw.syncDiscard; (try dsimp only); simp [↓apply_ite Hw.vault, ↓Hw.foldl_vault]
@[simp ↓] theorem Hw.vault_syncDisable (h : Hw) (s : Nat) : (Hw.syncDisable h s).vault = h.vault := by unfold Hw.syncDisable; (try dsimp only); simp [↓apply_ite Hw.vault, ↓Hw.foldl_vault]
@[simp ↓] theorem Hw.vault_syncRegWrite (h : Hw) (p : Path) (addr : Nat) (r : Reg) (w : Word) : (Hw.syncRegWrite h p addr r w).vault = h.vault := by unfold Hw.syncRegWrite; (try dsimp only); simp [↓apply_ite Hw.vault, ↓Hw.foldl_vault]
@[simp ↓] theorem Hw.vault_openWindows (h : Hw) : (Hw.openWindows h).vault = h.vault := by
 unfold Hw.openWindows; apply Hw.foldl_vault; intro h i; dsimp only; (repeat' split) <;> simp
@[simp ↓] theorem Hw.vault_snapshot (h : Hw) : (Hw.snapshot h).vault = h.vault := by unfold Hw.snapshot; (try dsimp only); simp [↓apply_ite Hw.vault, ↓Hw.foldl_vault]
@[simp ↓] theorem Hw.vault_takeSnapshot (h : Hw) : (Hw.takeSnapshot h).vault = h.vault := by unfold Hw.takeSnapshot; (try dsimp only); simp [↓apply_ite Hw.vault, ↓Hw.foldl_vault]
@[simp ↓] theorem Hw.vault_timerRefresh (h : Hw) (k : Nat) : (Hw.timerRefresh h k).vault = h.vault := by unfold Hw.timerRefresh; (try dsimp only); simp [↓apply_ite Hw.vault, ↓Hw.foldl_vault]
@[simp ↓] theorem Hw.vault_jobComplete (h : Hw) (t : Nat) : (Hw.jobComplete h t).vault = h.vault := by unfold Hw.jobComplete; (try dsimp only); simp [↓apply_ite Hw.vault, ↓Hw.foldl_vault]
@[simp ↓] theorem Hw.vault_sDrop (h : Hw) (n : Nat) (cause : Nat) (s : Nat) : (Hw.sDrop h n cause s).vault = h.vault := by unfold Hw.sDrop; (try dsimp only); simp [↓apply_ite Hw.vault, ↓Hw.foldl_vault]
@[simp ↓] theorem Hw.vault_downSend (h : Hw) (p : SPkt) : (Hw.downSend h p).vault = h.vault := by unfold Hw.downSend; (try dsimp only); (repeat' split) <;> simp [↓apply_ite Hw.vault, ↓Hw.foldl_vault]
@[simp ↓] theorem Hw.vault_downRings (h : Hw) (p : SPkt) : (Hw.downRings h p).vault = h.vault := by unfold Hw.downRings; (try dsimp only); simp [↓apply_ite Hw.vault, ↓Hw.foldl_vault]
@[simp ↓] theorem Hw.vault_torusDone (h : Hw) (p : SPkt) : (Hw.torusDone h p).vault = h.vault := by unfold Hw.torusDone; (try dsimp only); simp [↓apply_ite Hw.vault, ↓Hw.foldl_vault]
@[simp ↓] theorem Hw.vault_torusStep (h : Hw) (s : Nat) (x2 : Nat) (x3 : SPkt) (x4 : Nat) : (Hw.torusStep h s x2 x3 x4).vault = h.vault := by
 induction x2 generalizing h x3 x4 with
 | zero => rfl
 | succ k ih => unfold Hw.torusStep; dsimp only; (repeat' split) <;> simp [ih]
@[simp ↓] theorem Hw.vault_anchorDone (h : Hw) (p : SPkt) : (Hw.anchorDone h p).vault = h.vault := by unfold Hw.anchorDone; (try dsimp only); simp [↓apply_ite Hw.vault, ↓Hw.foldl_vault]
@[simp ↓] theorem Hw.vault_startJoin (h : Hw) (t : Nat) : (Hw.startJoin h t).vault = h.vault := by unfold Hw.startJoin; (try dsimp only); simp [↓apply_ite Hw.vault, ↓Hw.foldl_vault]
@[simp ↓] theorem Hw.vault_tntCtl (h : Hw) (p : Path) (addr : Nat) (t : Nat) (v : Word) : (Hw.tntCtl h p addr t v).vault = h.vault := by unfold Hw.tntCtl; (try dsimp only); simp [↓apply_ite Hw.vault, ↓Hw.foldl_vault]
@[simp ↓] theorem Hw.vault_tpRegWrite (h : Hw) (p : Path) (addr : Nat) (r : Reg) (w : Word) : (Hw.tpRegWrite h p addr r w).vault = h.vault := by unfold Hw.tpRegWrite; (try dsimp only); (repeat' split) <;> simp [↓apply_ite Hw.vault, ↓Hw.foldl_vault]
@[simp ↓] theorem Hw.vault_vfIrq (h : Hw) (p : Path) (addr : Nat) (v : Word) : (Hw.vfIrq h p addr v).vault = h.vault := by unfold Hw.vfIrq; (try dsimp only); simp [↓apply_ite Hw.vault, ↓Hw.foldl_vault]
@[simp ↓] theorem Hw.vault_winWrite (h : Hw) (p : Path) (addr : Nat) (view : Nat) (r : Reg) (v : Word) : (Hw.winWrite h p addr view r v).vault = h.vault := by unfold Hw.winWrite; (try dsimp only); simp [↓apply_ite Hw.vault, ↓Hw.foldl_vault]
@[simp ↓] theorem Hw.vault_regWrite (h : Hw) (p : Path) (addr : Nat) (view : Nat) (r : Reg) (v : Word) (dev : NvmDevice) : (Hw.regWrite h p addr view r v dev).vault = h.vault := by unfold Hw.regWrite; (try dsimp only); (repeat' split) <;> simp [↓apply_ite Hw.vault, ↓Hw.foldl_vault]
theorem Hw.vault_of_writeGate {h g : Hw} {p : Path} {a : Nat} (hg : h.writeGate p a = .done g) : g.vault = h.vault := by
  unfold Hw.writeGate at hg; dsimp only at hg
  (repeat' split at hg) <;> cases hg <;> simp [apply_ite Hw.vault]
@[simp ↓] theorem Hw.vault_busWrite (h : Hw) (p : Path) (addr : Nat) (v : Word) (dev : NvmDevice) : (Hw.busWrite h p addr v dev).vault = h.vault := by
 unfold Hw.busWrite; dsimp only; split
 · simp
 · split
   · rename_i h1 g hg
     simp [Hw.vault_of_writeGate hg]
   · simp
   · simp
@[simp ↓] theorem Hw.vault_aliasWrite (h : Hw) (p : Path) (view : Nat) (addr : Nat) (v : Word) : (Hw.aliasWrite h p view addr v).vault = h.vault := by unfold Hw.aliasWrite; (try dsimp only); simp [↓apply_ite Hw.vault, ↓Hw.foldl_vault]
@[simp ↓] theorem Hw.vault_setDieState (h : Hw) (s : Nat) : (Hw.setDieState h s).vault = h.vault := by unfold Hw.setDieState; (try dsimp only); simp [↓apply_ite Hw.vault, ↓Hw.foldl_vault]
@[simp ↓] theorem Hw.vault_setPhase (h : Hw) (p : Nat) : (Hw.setPhase h p).vault = h.vault := by unfold Hw.setPhase; (try dsimp only); simp [↓apply_ite Hw.vault, ↓Hw.foldl_vault]
@[simp ↓] theorem Hw.vault_safeHold (h : Hw) (code : Nat) : (Hw.safeHold h code).vault = h.vault := (Hw.vault_set_boot _ _).trans (by simp)
@[simp ↓] theorem Hw.vault_failSlot (h : Hw) (code : Nat) (sect : Nat) (rec : Nat) : (Hw.failSlot h code sect rec).vault = h.vault := by unfold Hw.failSlot; (try dsimp only); simp [↓apply_ite Hw.vault, ↓Hw.foldl_vault]
@[simp ↓] theorem Hw.vault_applyFault (h : Hw) : (Hw.applyFault h).vault = h.vault := by unfold Hw.applyFault; (try dsimp only); simp [↓apply_ite Hw.vault, ↓Hw.foldl_vault]
@[simp ↓] theorem Hw.vault_arbitrated (h : Hw) (n : Nat) (out : Nat) (port : Nat) (vc : Nat) : (Hw.arbitrated h n out port vc).vault = h.vault := by unfold Hw.arbitrated; (try dsimp only); simp [↓apply_ite Hw.vault, ↓Hw.foldl_vault]
@[simp ↓] theorem Hw.vault_bDrop (h : Hw) (n : Nat) (cause : Nat) (flow : Nat) : (Hw.bDrop h n cause flow).vault = h.vault := by unfold Hw.bDrop; (try dsimp only); simp [↓apply_ite Hw.vault, ↓Hw.foldl_vault]
@[simp ↓] theorem Hw.vault_ctxStop (h : Hw) (n : Nat) (k : Nat) : (Hw.ctxStop h n k).vault = h.vault := by unfold Hw.ctxStop; (try dsimp only); simp [↓apply_ite Hw.vault, ↓Hw.foldl_vault]
@[simp ↓] theorem Hw.vault_foldStop (h : Hw) (f : Nat) : (Hw.foldStop h f).vault = h.vault := by unfold Hw.foldStop; (try dsimp only); (repeat' split) <;> simp [↓apply_ite Hw.vault, ↓Hw.foldl_vault]
@[simp ↓] theorem Hw.vault_raiseOwner (h : Hw) (t : Nat) (gen : Nat) (cause : Nat) (node : Nat) (detail : Nat) (dieCause : Nat) : (Hw.raiseOwner h t gen cause node detail dieCause).vault = h.vault := by unfold Hw.raiseOwner; (try dsimp only); simp [↓apply_ite Hw.vault, ↓Hw.foldl_vault]
@[simp ↓] theorem Hw.vault_bLate (h : Hw) (n : Nat) (f : Flit) : (Hw.bLate h n f).vault = h.vault := by unfold Hw.bLate; (try dsimp only); (repeat' split) <;> simp [↓apply_ite Hw.vault, ↓Hw.foldl_vault]
@[simp ↓] theorem Hw.vault_setBOwed (h : Hw) (k : Nat) (v : Nat) : (Hw.setBOwed h k v).vault = h.vault := by unfold Hw.setBOwed; (try dsimp only); simp [↓apply_ite Hw.vault, ↓Hw.foldl_vault]
@[simp ↓] theorem Hw.vault_setBq (h : Hw) (n : Nat) (port : Nat) (vc : Nat) (q : List Flit) : (Hw.setBq h n port vc q).vault = h.vault := by unfold Hw.setBq; (try dsimp only); simp [↓apply_ite Hw.vault, ↓Hw.foldl_vault]
@[simp ↓] theorem Hw.vault_bPop (h : Hw) (n : Nat) (port : Nat) (vc : Nat) : (Hw.bPop h n port vc).vault = h.vault := by unfold Hw.bPop; (try dsimp only); simp [↓apply_ite Hw.vault, ↓Hw.foldl_vault]
@[simp ↓] theorem Hw.vault_bTook (h : Hw) (n : Nat) (port : Nat) (vc : Nat) (out : Nat) : (Hw.bTook h n port vc out).vault = h.vault := by unfold Hw.bTook; (try dsimp only); (repeat' split) <;> simp [↓apply_ite Hw.vault, ↓Hw.foldl_vault]
@[simp ↓] theorem Hw.vault_bClean (h : Hw) (n : Nat) (port : Nat) (vc : Nat) : (Hw.bClean h n port vc).vault = h.vault := by unfold Hw.bClean; (try dsimp only); (repeat' split) <;> simp [↓apply_ite Hw.vault, ↓Hw.foldl_vault]
@[simp ↓] theorem Hw.vault_bCleanAll (h : Hw) (n : Nat) : (Hw.bCleanAll h n).vault = h.vault := by unfold Hw.bCleanAll; (try dsimp only); simp [↓apply_ite Hw.vault, ↓Hw.foldl_vault]
@[simp ↓] theorem Hw.vault_setBUsed (h : Hw) (k : Nat) (v : Nat) : (Hw.setBUsed h k v).vault = h.vault := by unfold Hw.setBUsed; (try dsimp only); simp [↓apply_ite Hw.vault, ↓Hw.foldl_vault]
@[simp ↓] theorem Hw.vault_bCreditReturn (h : Hw) (n : Nat) (port : Nat) (vc : Nat) : (Hw.bCreditReturn h n port vc).vault = h.vault := by unfold Hw.bCreditReturn; (try dsimp only); simp [↓apply_ite Hw.vault, ↓Hw.foldl_vault]
@[simp ↓] theorem Hw.vault_meshLinkDown (h : Hw) (net : Nat) (n : Nat) (dir : Nat) : (Hw.meshLinkDown h net n dir).vault = h.vault := by unfold Hw.meshLinkDown; (try dsimp only); simp [↓apply_ite Hw.vault, ↓Hw.foldl_vault]
@[simp ↓] theorem Hw.vault_linkError (h : Hw) (net : Nat) (id : RegId) (n : Nat) (dir : Nat) : (Hw.linkError h net id n dir).vault = h.vault := by unfold Hw.linkError; (try dsimp only); simp [↓apply_ite Hw.vault, ↓Hw.foldl_vault]
@[simp ↓] theorem Hw.vault_bReceive (h : Hw) (n : Nat) (out : Nat) (vc : Nat) (f : Flit) (err : MeshErr) : (Hw.bReceive h n out vc f err).vault = h.vault := by unfold Hw.bReceive; (try dsimp only); (repeat' split) <;> simp [↓apply_ite Hw.vault, ↓Hw.foldl_vault]
@[simp ↓] theorem Hw.vault_peerViol (h : Hw) (p : Nat) (code : Nat) : (Hw.peerViol h p code).vault = h.vault := by unfold Hw.peerViol; (try dsimp only); simp [↓apply_ite Hw.vault, ↓Hw.foldl_vault]
@[simp ↓] theorem Hw.vault_phyEvt (h : Hw) (p : Nat) (b : Nat) : (Hw.phyEvt h p b).vault = h.vault := by unfold Hw.phyEvt; (try dsimp only); simp [↓apply_ite Hw.vault, ↓Hw.foldl_vault]
theorem Hw.vault_of_takeCmd {h g : Hw} {p k : Nat} {c : BitVec 32 → Bool} (hq : h.takeCmd p c = some (k, g)) : g.vault = h.vault := by
  unfold Hw.takeCmd at hq; split at hq
  · split at hq <;> cases hq; simp
  · cases hq
@[simp ↓] theorem Hw.vault_badCmd (h : Hw) (p : Nat) : (Hw.badCmd h p).vault = h.vault := by
 unfold Hw.badCmd; split
 · rfl
 · rename_i hq; simp [Hw.vault_of_takeCmd hq]
@[simp ↓] theorem Hw.vault_badRequest (h : Hw) (p : Path) (write : Bool) (addr : Nat) : (Hw.badRequest h p write addr).vault = h.vault := by unfold Hw.badRequest; (try dsimp only); simp [↓apply_ite Hw.vault, ↓Hw.foldl_vault]
@[simp ↓] theorem Hw.vault_bar2Give (h : Hw) (bs : List Byte) (poison : Bool) : (Hw.bar2Give h bs poison).vault = h.vault := by unfold Hw.bar2Give; (try dsimp only); simp [↓apply_ite Hw.vault, ↓Hw.foldl_vault]
@[simp ↓] theorem Hw.vault_bar2Refuse (h : Hw) (t : Nat) : (Hw.bar2Refuse h t).vault = h.vault := by unfold Hw.bar2Refuse; (try dsimp only); simp [↓apply_ite Hw.vault, ↓Hw.foldl_vault]
@[simp ↓] theorem Hw.vault_slabCe (h : Hw) (p : Nat) : (Hw.slabCe h p).vault = h.vault := by unfold Hw.slabCe; (try dsimp only); simp [↓apply_ite Hw.vault, ↓Hw.foldl_vault]
@[simp ↓] theorem Hw.vault_slabUe (h : Hw) (p : Nat) : (Hw.slabUe h p).vault = h.vault := by unfold Hw.slabUe; (try dsimp only); simp [↓apply_ite Hw.vault, ↓Hw.foldl_vault]
@[simp ↓] theorem Hw.vault_bar2Read (h : Hw) (t : Nat) (off : Nat) (len : Nat) (err : PadErr) : (Hw.bar2Read h t off len err).vault = h.vault := by unfold Hw.bar2Read; (try dsimp only); (repeat' split) <;> simp [↓apply_ite Hw.vault, ↓Hw.foldl_vault]
@[simp ↓] theorem Hw.vault_msixPutBytes (h : Hw) (fn : Nat) (off : Nat) (data : List (Option Byte)) : (Hw.msixPutBytes h fn off data).vault = h.vault := by unfold Hw.msixPutBytes; (try dsimp only); simp [↓apply_ite Hw.vault, ↓Hw.foldl_vault]
@[simp ↓] theorem Hw.vault_heartbeatBar (h : Hw) : (Hw.heartbeatBar h).vault = h.vault := by unfold Hw.heartbeatBar; (try dsimp only); simp [↓apply_ite Hw.vault, ↓Hw.foldl_vault]
@[simp ↓] theorem Hw.vault_laneEq (h : Hw) (p : Nat) (k : Nat) (m : LaneMeas) (sweep : Bool) : (Hw.laneEq h p k m sweep).vault = h.vault := by unfold Hw.laneEq; (try dsimp only); (repeat' split) <;> simp [↓apply_ite Hw.vault, ↓Hw.foldl_vault]
@[simp ↓] theorem Hw.vault_laneEvt (h : Hw) (p : Nat) (k : Nat) (b : Nat) : (Hw.laneEvt h p k b).vault = h.vault := by unfold Hw.laneEvt; (try dsimp only); simp [↓apply_ite Hw.vault, ↓Hw.foldl_vault]
@[simp ↓] theorem Hw.vault_laneGainStep (h : Hw) (p : Nat) (k : Nat) (m : LaneMeas) (training : Bool) : (Hw.laneGainStep h p k m training).vault = h.vault := by unfold Hw.laneGainStep; (try dsimp only); simp [↓apply_ite Hw.vault, ↓Hw.foldl_vault]
@[simp ↓] theorem Hw.vault_laneQuality (h : Hw) (p : Nat) (k : Nat) (errSq : Nat) (samples : Nat) (pmmSum : Nat) (steps : Nat) : (Hw.laneQuality h p k errSq samples pmmSum steps).vault = h.vault := by unfold Hw.laneQuality; (try dsimp only); simp [↓apply_ite Hw.vault, ↓Hw.foldl_vault]
@[simp ↓] theorem Hw.vault_laneBar (h : Hw) (m : LaneMeas) : (Hw.laneBar h m).vault = h.vault := by unfold Hw.laneBar; (try dsimp only); simp [↓apply_ite Hw.vault, ↓Hw.foldl_vault]
@[simp ↓] theorem Hw.vault_linkBar (h : Hw) (p : Nat) : (Hw.linkBar h p).vault = h.vault := by unfold Hw.linkBar; (try dsimp only); simp [↓apply_ite Hw.vault, ↓Hw.foldl_vault]
@[simp ↓] theorem Hw.vault_linkErrorBar (h : Hw) : (Hw.linkErrorBar h).vault = h.vault := by unfold Hw.linkErrorBar; (try dsimp only); simp [↓apply_ite Hw.vault, ↓Hw.foldl_vault]
@[simp ↓] theorem Hw.vault_phaseSwitch (h : Hw) (e : Nat) : (Hw.phaseSwitch h e).vault = h.vault := by unfold Hw.phaseSwitch; (try dsimp only); simp [↓apply_ite Hw.vault, ↓Hw.foldl_vault]
@[simp ↓] theorem Hw.vault_phaseBar (h : Hw) : (Hw.phaseBar h).vault = h.vault := by unfold Hw.phaseBar; (try dsimp only); simp [↓apply_ite Hw.vault, ↓Hw.foldl_vault]
@[simp ↓] theorem Hw.vault_portBar (h : Hw) (i : Nat) : (Hw.portBar h i).vault = h.vault := by unfold Hw.portBar; (try dsimp only); simp [↓apply_ite Hw.vault, ↓Hw.foldl_vault]
@[simp ↓] theorem Hw.vault_sleepBar (h : Hw) (p : Nat) : (Hw.sleepBar h p).vault = h.vault := by unfold Hw.sleepBar; (try dsimp only); simp [↓apply_ite Hw.vault, ↓Hw.foldl_vault]
@[simp ↓] theorem Hw.vault_tclkBar (h : Hw) (i : Nat) (count : Nat) : (Hw.tclkBar h i count).vault = h.vault := by unfold Hw.tclkBar; (try dsimp only); simp [↓apply_ite Hw.vault, ↓Hw.foldl_vault]
@[simp ↓] theorem Hw.vault_barEnd (h : Hw) (tclk : List (Nat × Nat)) (lanes : List LaneMeas) : (Hw.barEnd h tclk lanes).vault = h.vault := by unfold Hw.barEnd; (try dsimp only); simp [↓apply_ite Hw.vault, ↓Hw.foldl_vault]
@[simp ↓] theorem Hw.vault_powerBar (h : Hw) : (Hw.powerBar h).vault = h.vault := by unfold Hw.powerBar; (try dsimp only); simp [↓apply_ite Hw.vault, ↓Hw.foldl_vault]
@[simp ↓] theorem Hw.vault_firstWindow (h : Hw) : (Hw.firstWindow h).vault = h.vault := by unfold Hw.firstWindow; (try dsimp only); simp [↓apply_ite Hw.vault, ↓Hw.foldl_vault]
@[simp ↓] theorem Hw.vault_postReply (h : Hw) (r : Nat) (m : BitVec 512) : (Hw.postReply h r m).vault = h.vault := by
 unfold Hw.postReply; split <;> (rename_i hq; have hv := Hw.vault_of_pair hq (Hw.vault_chSend _ _ _ _ _ _ _); simp [hv])
@[simp ↓] theorem Hw.vault_repost (h : Hw) : (Hw.repost h).vault = h.vault := by unfold Hw.repost; (try dsimp only); simp [↓apply_ite Hw.vault, ↓Hw.foldl_vault]
@[simp ↓] theorem Hw.vault_tokenRefill (h : Hw) : (Hw.tokenRefill h).vault = h.vault := by unfold Hw.tokenRefill; (try dsimp only); simp [↓apply_ite Hw.vault, ↓Hw.foldl_vault]
@[simp ↓] theorem Hw.vault_castOn (h : Hw) (kind : Nat) (w0 : Word) (w1 : Word) : (Hw.castOn h kind w0 w1).vault = h.vault := by unfold Hw.castOn; (try dsimp only); simp [↓apply_ite Hw.vault, ↓Hw.foldl_vault]
@[simp ↓] theorem Hw.vault_beatSend (h : Hw) : (Hw.beatSend h).vault = h.vault := by unfold Hw.beatSend; (try dsimp only); simp [↓apply_ite Hw.vault, ↓Hw.foldl_vault]
@[simp ↓] theorem Hw.vault_beginAttempt (h : Hw) (slot : Nat) : (Hw.beginAttempt h slot).vault = h.vault := by unfold Hw.beginAttempt; (try dsimp only); simp [↓apply_ite Hw.vault, ↓Hw.foldl_vault]
@[simp ↓] theorem Hw.vault_belowMin (h : Hw) (p : Nat) : (Hw.belowMin h p).vault = h.vault := by unfold Hw.belowMin; (try dsimp only); simp [↓apply_ite Hw.vault, ↓Hw.foldl_vault]
@[simp ↓] theorem Hw.vault_binBytes (h : Hw) (i : Nat) (tag : Nat) (k : Nat) : (Hw.binBytes h i tag k).vault = h.vault := by unfold Hw.binBytes; (try dsimp only); (repeat' split) <;> simp [↓apply_ite Hw.vault, ↓Hw.foldl_vault]
@[simp ↓] theorem Hw.vault_maskPorts (h : Hw) : (Hw.maskPorts h).vault = h.vault := by unfold Hw.maskPorts; (try dsimp only); simp [↓apply_ite Hw.vault, ↓Hw.foldl_vault]
@[simp ↓] theorem Hw.vault_pairOut (h : Hw) (pair : Nat) (run : Bool) : (Hw.pairOut h pair run).vault = h.vault := by unfold Hw.pairOut; (try dsimp only); simp [↓apply_ite Hw.vault, ↓Hw.foldl_vault]
@[simp ↓] theorem Hw.vault_retirePage (h : Hw) (p : Nat) : (Hw.retirePage h p).vault = h.vault := by unfold Hw.retirePage; (try dsimp only); simp [↓apply_ite Hw.vault, ↓Hw.foldl_vault]
@[simp ↓] theorem Hw.vault_bist (h : Hw) (routers : List Nat) (down : List MeshDown) (repaired : List MeshDown) (pages : List Nat) (stewards : Nat) (sram : Bool) (pairs : List Nat) (tiles : Nat) : (Hw.bist h routers down repaired pages stewards sram pairs tiles).vault = h.vault := by unfold Hw.bist; (try dsimp only); simp [↓apply_ite Hw.vault, ↓Hw.foldl_vault]
@[simp ↓] theorem Hw.vault_bistFound (h : Hw) (f : BistFindings) : (Hw.bistFound h f).vault = h.vault := by unfold Hw.bistFound; (try dsimp only); simp [↓apply_ite Hw.vault, ↓Hw.foldl_vault]
@[simp ↓] theorem Hw.vault_burstOver (h : Hw) (p : Nat) (k : Nat) : (Hw.burstOver h p k).vault = h.vault := by unfold Hw.burstOver; (try dsimp only); simp [↓apply_ite Hw.vault, ↓Hw.foldl_vault]
@[simp ↓] theorem Hw.vault_burstEnd (h : Hw) (p : Nat) (k : Nat) (w1 : BitVec 64) (w2 : BitVec 64) : (Hw.burstEnd h p k w1 w2).vault = h.vault := by unfold Hw.burstEnd; (try dsimp only); simp [↓apply_ite Hw.vault, ↓Hw.foldl_vault]
@[simp ↓] theorem Hw.vault_burstStart (h : Hw) (p : Nat) (k : Nat) : (Hw.burstStart h p k).vault = h.vault := by unfold Hw.burstStart; (try dsimp only); simp [↓apply_ite Hw.vault, ↓Hw.foldl_vault]
@[simp ↓] theorem Hw.vault_planRead (h : Hw) (t : Nat) (bytes : List Byte) (ok : Bool) : (Hw.planRead h t bytes ok).vault = h.vault := by unfold Hw.planRead; (try dsimp only); (repeat' split) <;> simp [↓apply_ite Hw.vault, ↓Hw.foldl_vault]
@[simp ↓] theorem Hw.vault_busMasterClear (h : Hw) (t : Nat) : (Hw.busMasterClear h t).vault = h.vault := by unfold Hw.busMasterClear; (try dsimp only); simp [↓apply_ite Hw.vault, ↓Hw.foldl_vault]
@[simp ↓] theorem Hw.vault_idxRead (h : Hw) (p : Path) (addr : Nat) : (Hw.idxRead h p addr).vault = h.vault := by unfold Hw.idxRead; (try dsimp only); (repeat' split) <;> simp [↓apply_ite Hw.vault, ↓Hw.foldl_vault]
@[simp ↓] theorem Hw.vault_busRead (h : Hw) (p : Path) (addr : Nat) : (Hw.busRead h p addr).vault = h.vault := by unfold Hw.busRead; (try dsimp only); (repeat' split) <;> simp [↓apply_ite Hw.vault, ↓Hw.foldl_vault]
@[simp ↓] theorem Hw.vault_cCross (h : Hw) (p : CPkt) (errs : List CErr) (crossed : Bool) : (Hw.cCross h p errs crossed).1.vault = h.vault := by
 unfold Hw.cCross; dsimp only; split
 · split <;> simp
 · rename_i hd; clear hd
   suffices H : ∀ acc : Hw × Option CPkt, acc.1.vault = h.vault → (List.foldl _ acc errs).1.vault = h.vault from H (h, some p) rfl
   induction errs with
   | nil => intro acc ha; exact ha
   | cons e es ih =>
     intro acc ha; rw [List.foldl_cons]; apply ih
     (repeat' split) <;> simp_all [↓apply_ite Hw.vault]
@[simp ↓] theorem Hw.vault_calDone (h : Hw) (p : Nat) : (Hw.calDone h p).vault = h.vault := by unfold Hw.calDone; (try dsimp only); simp [↓apply_ite Hw.vault, ↓Hw.foldl_vault]
@[simp ↓] theorem Hw.vault_chFault (h : Hw) (c : Nat) (cause : Nat) (n : Nat) : (Hw.chFault h c cause n).vault = h.vault := by unfold Hw.chFault; (try dsimp only); simp [↓apply_ite Hw.vault, ↓Hw.foldl_vault]
@[simp ↓] theorem Hw.vault_chCredit (h : Hw) (p : CPkt) : (Hw.chCredit h p).vault = h.vault := by unfold Hw.chCredit; (try dsimp only); simp [↓apply_ite Hw.vault, ↓Hw.foldl_vault]
@[simp ↓] theorem Hw.vault_chDeliver (h : Hw) (p : CPkt) : (Hw.chDeliver h p).vault = h.vault := by unfold Hw.chDeliver; (try dsimp only); (repeat' split) <;> simp [↓apply_ite Hw.vault, ↓Hw.foldl_vault]
@[simp ↓] theorem Hw.vault_chMsgArrival (h : Hw) (c : Nat) (errs : List CErr) (crossed : Bool) : (Hw.chMsgArrival h c errs crossed).vault = h.vault := by
 unfold Hw.chMsgArrival; split
 · rfl
 · rename_i p g hq
   have hg := Hw.vault_of_cTake hq
   split <;> (rename_i hc; have hv := Hw.vault_of_pair hc (Hw.vault_cCross g p errs crossed); simp [hv, hg])
@[simp ↓] theorem Hw.vault_chUnstall (h : Hw) (c : Nat) : (Hw.chUnstall h c).1.vault = h.vault := by unfold Hw.chUnstall; (try dsimp only); (repeat' split) <;> simp [↓apply_ite Hw.vault, ↓Hw.foldl_vault]
@[simp ↓] theorem Hw.vault_tapSelect (h : Hw) (code : Nat) (dr : BitVec 64) : (Hw.tapSelect h code dr).vault = h.vault := by unfold Hw.tapSelect; (try dsimp only); simp [↓apply_ite Hw.vault, ↓Hw.foldl_vault]
@[simp ↓] theorem Hw.vault_clamp (h : Hw) : (Hw.clamp h).vault = h.vault := by unfold Hw.clamp; (try dsimp only); simp [↓apply_ite Hw.vault, ↓Hw.foldl_vault]
@[simp ↓] theorem Hw.vault_clearCounters (h : Hw) (tiles : List Nat) : (Hw.clearCounters h tiles).vault = h.vault := by unfold Hw.clearCounters; (try dsimp only); simp [↓apply_ite Hw.vault, ↓Hw.foldl_vault]
@[simp ↓] theorem Hw.vault_clearMaps (h : Hw) (tiles : List Nat) : (Hw.clearMaps h tiles).vault = h.vault := by unfold Hw.clearMaps; (try dsimp only); simp [↓apply_ite Hw.vault, ↓Hw.foldl_vault]
@[simp ↓] theorem Hw.vault_clearRoute (h : Hw) (r : Nat) : (Hw.clearRoute h r).vault = h.vault := by unfold Hw.clearRoute; (try dsimp only); simp [↓apply_ite Hw.vault, ↓Hw.foldl_vault]
@[simp ↓] theorem Hw.vault_clearUp (h : Hw) (n : Nat) (port : Nat) (s : Nat) : (Hw.clearUp h n port s).vault = h.vault := by unfold Hw.clearUp; (try dsimp only); simp [↓apply_ite Hw.vault, ↓Hw.foldl_vault]
@[simp ↓] theorem Hw.vault_finish (h : Hw) (i : Nat) (tag : Nat) (status : Nat) (body : List (BitVec 64)) (len : Nat) : (Hw.finish h i tag status body len).vault = h.vault := by unfold Hw.finish; (try dsimp only); (repeat' split) <;> simp [↓apply_ite Hw.vault, ↓Hw.foldl_vault]
theorem Hw.vault_accept (h : Hw) (i op : Nat) (x : CmdHdr) (body : List (BitVec 64)) (lens : List Nat) (masks : List Nat) (go : Hw → Hw)
    (hg : ∀ h, (go h).vault = h.vault) : (h.accept i op x body lens masks go).vault = h.vault := by
  unfold Hw.accept; dsimp only
  by_cases h1 : (!h.portUp i) = true
  · simp [h1]
  rw [if_neg h1]; split
  · simp
  split
  · simp
  split
  · simp
  rw [Hw.vault_ciTake]
  (repeat' split) <;> simp [hg]
@[simp ↓] theorem Hw.vault_cmdBellClear (h : Hw) (i : Nat) (x : CmdHdr) (body : List (BitVec 64)) : (Hw.cmdBellClear h i x body).vault = h.vault := by
 unfold Hw.cmdBellClear; apply Hw.vault_accept; intro h; simp
@[simp ↓] theorem Hw.vault_failCmd (h : Hw) (i : Nat) (tag : Nat) (status : Nat) : (Hw.failCmd h i tag status).vault = h.vault := by unfold Hw.failCmd; (try dsimp only); (repeat' split) <;> simp [↓apply_ite Hw.vault, ↓Hw.foldl_vault]
@[simp ↓] theorem Hw.vault_newId (h : Hw) : (Hw.newId h).2.vault = h.vault := by unfold Hw.newId; (try dsimp only); simp [↓apply_ite Hw.vault, ↓Hw.foldl_vault]
@[simp ↓] theorem Hw.vault_tailEvt (h : Hw) (i : Nat) (status : Nat) (tag : Nat) : (Hw.tailEvt h i status tag).vault = h.vault := by unfold Hw.tailEvt; (try dsimp only); simp [↓apply_ite Hw.vault, ↓Hw.foldl_vault]
@[simp ↓] theorem Hw.vault_cmdCcx (h : Hw) (i : Nat) (x : CmdHdr) (body : List (BitVec 64)) : (Hw.cmdCcx h i x body).vault = h.vault := by
 unfold Hw.cmdCcx; apply Hw.vault_accept; intro h; dsimp only; (repeat' split) <;> simp [Hw.foldl_vault]
@[simp ↓] theorem Hw.vault_cmdCntReport (h : Hw) (i : Nat) (x : CmdHdr) (body : List (BitVec 64)) : (Hw.cmdCntReport h i x body).vault = h.vault := by
 unfold Hw.cmdCntReport; apply Hw.vault_accept; intro h; dsimp only; (repeat' split) <;> simp [Hw.foldl_vault]
@[simp ↓] theorem Hw.vault_modCcx (h : Hw) (i : Nat) (id : Nat) (f : CcxOp → CcxOp) : (Hw.modCcx h i id f).vault = h.vault := by unfold Hw.modCcx; (try dsimp only); simp [↓apply_ite Hw.vault, ↓Hw.foldl_vault]
@[simp ↓] theorem Hw.vault_cmdComputeDone (h : Hw) (i : Nat) (x : CmdHdr) (body : List (BitVec 64)) : (Hw.cmdComputeDone h i x body).vault = h.vault := by
 unfold Hw.cmdComputeDone; apply Hw.vault_accept; intro h; dsimp only; (repeat' split) <;> simp [Hw.foldl_vault]
@[simp ↓] theorem Hw.vault_cmdJobDone (h : Hw) (i : Nat) (x : CmdHdr) (body : List (BitVec 64)) : (Hw.cmdJobDone h i x body).vault = h.vault := by
 unfold Hw.cmdJobDone; apply Hw.vault_accept; intro h; dsimp only; rw [Hw.vault_finish]; (repeat' split) <;> simp [↓apply_ite Hw.vault]
@[simp ↓] theorem Hw.vault_leasePage (h : Hw) (t : Nat) (g : Nat) (p : Nat) : (Hw.leasePage h t g p).vault = h.vault := by unfold Hw.leasePage; (try dsimp only); simp [↓apply_ite Hw.vault, ↓Hw.foldl_vault]
theorem Hw.vault_of_leaseAlloc {h g : Hw} {i k n a : Nat} {ps : List Nat} (hq : h.leaseAlloc i k n = some (g, a, ps)) : g.vault = h.vault := by
  unfold Hw.leaseAlloc at hq; dsimp only at hq
  (repeat' split at hq) <;> cases hq <;> simp [Hw.foldl_vault]
@[simp ↓] theorem Hw.vault_cmdLeaseAlloc (h : Hw) (i : Nat) (x : CmdHdr) (body : List (BitVec 64)) : (Hw.cmdLeaseAlloc h i x body).vault = h.vault := by
 unfold Hw.cmdLeaseAlloc; apply Hw.vault_accept; intro h; dsimp only; split
 · simp
 · split
   · simp
   · rename_i hq; have := Hw.vault_of_leaseAlloc hq; split <;> simp [this]
@[simp ↓] theorem Hw.vault_freeError (h : Hw) (t : Nat) (kind : Nat) (notOwner : Bool) (u : Nat) : (Hw.freeError h t kind notOwner u).vault = h.vault := by unfold Hw.freeError; (try dsimp only); simp [↓apply_ite Hw.vault, ↓Hw.foldl_vault]
@[simp ↓] theorem Hw.vault_freeUnit (h : Hw) (u : Nat) : (Hw.freeUnit h u).vault = h.vault := by unfold Hw.freeUnit; (try dsimp only); simp [↓apply_ite Hw.vault, ↓Hw.foldl_vault]
@[simp ↓] theorem Hw.vault_leaseFree (h : Hw) (i : Nat) (kind : Nat) (a : Nat) : (Hw.leaseFree h i kind a).1.vault = h.vault := by
 unfold Hw.leaseFree; extract_lets t g; split
 · (repeat' split) <;> simp
 · split
   · split
     · dsimp only; (repeat' split) <;> simp
     · rfl
   · rfl
@[simp ↓] theorem Hw.vault_cmdLeaseFree (h : Hw) (i : Nat) (x : CmdHdr) (body : List (BitVec 64)) : (Hw.cmdLeaseFree h i x body).vault = h.vault := by
 unfold Hw.cmdLeaseFree; apply Hw.vault_accept; intro h; dsimp only; (repeat' split) <;> simp [Hw.foldl_vault]
@[simp ↓] theorem Hw.vault_setWaiting (h : Hw) (n : Nat) (s : Nat) (q : List Flit) : (Hw.setWaiting h n s q).vault = h.vault := by unfold Hw.setWaiting; (try dsimp only); simp [↓apply_ite Hw.vault, ↓Hw.foldl_vault]
@[simp ↓] theorem Hw.vault_inject (h : Hw) (n : Nat) (owner : Option Nat) (f : Flit) : (Hw.inject h n owner f).vault = h.vault := by unfold Hw.inject; (try dsimp only); (repeat' split) <;> simp [↓apply_ite Hw.vault, ↓Hw.foldl_vault]
@[simp ↓] theorem Hw.vault_memStart (h : Hw) (i : Nat) (op : Nat) (addr : Nat) (write : Bool) (bs : List Byte) (len : Nat) : (Hw.memStart h i op addr write bs len).vault = h.vault := by unfold Hw.memStart; (try dsimp only); (repeat' split) <;> simp [↓apply_ite Hw.vault, ↓Hw.foldl_vault]
@[simp ↓] theorem Hw.vault_cmdMsgDeq (h : Hw) (i : Nat) (x : CmdHdr) (body : List (BitVec 64)) (merge : Bool) : (Hw.cmdMsgDeq h i x body merge).vault = h.vault := by
 unfold Hw.cmdMsgDeq; apply Hw.vault_accept; intro h; dsimp only; split
 · simp
 · rename_i c hc; generalize hq : h.chDequeue _ _ _ _ = r; obtain ⟨g, r⟩ := r; have hv := Hw.vault_of_pair hq (Hw.vault_chDequeue _ _ _ _ _); cases r <;> simp [hv]
@[simp ↓] theorem Hw.vault_cmdMsgSend (h : Hw) (i : Nat) (x : CmdHdr) (body : List (BitVec 64)) : (Hw.cmdMsgSend h i x body).vault = h.vault := by
 unfold Hw.cmdMsgSend; apply Hw.vault_accept; intro h; dsimp only; split
 · simp
 · rename_i c hc; split <;> (rename_i hq; have hv := Hw.vault_of_pair hq (Hw.vault_chSend _ _ _ _ _ _ _); simp [hv])
@[simp ↓] theorem Hw.vault_cmdNop (h : Hw) (i : Nat) (x : CmdHdr) (body : List (BitVec 64)) : (Hw.cmdNop h i x body).vault = h.vault := by
 unfold Hw.cmdNop; apply Hw.vault_accept; intro h; simp
@[simp ↓] theorem Hw.vault_cmdPhase (h : Hw) (i : Nat) (x : CmdHdr) (body : List (BitVec 64)) : (Hw.cmdPhase h i x body).vault = h.vault := by
 unfold Hw.cmdPhase; apply Hw.vault_accept; intro h; dsimp only; (repeat' split) <;> simp [Hw.foldl_vault]
@[simp ↓] theorem Hw.vault_cmdRecv (h : Hw) (i : Nat) (x : CmdHdr) (body : List (BitVec 64)) : (Hw.cmdRecv h i x body).vault = h.vault := by
 unfold Hw.cmdRecv; apply Hw.vault_accept; intro h; dsimp only; (repeat' split) <;> simp [Hw.foldl_vault]
@[simp ↓] theorem Hw.vault_sendUnit (h : Hw) (i : Nat) (s : SendOp) (bs : Option (List Byte)) (poison : Bool) : (Hw.sendUnit h i s bs poison).vault = h.vault := by unfold Hw.sendUnit; (try dsimp only); simp [↓apply_ite Hw.vault, ↓Hw.foldl_vault]
@[simp ↓] theorem Hw.vault_pumpFlow (h : Hw) (i : Nat) (flow : Nat) : (Hw.pumpFlow h i flow).vault = h.vault := by unfold Hw.pumpFlow; (try dsimp only); (repeat' split) <;> simp [↓apply_ite Hw.vault, ↓Hw.foldl_vault]
@[simp ↓] theorem Hw.vault_pump (h : Hw) (i : Nat) : (Hw.pump h i).vault = h.vault := by unfold Hw.pump; (try dsimp only); simp [↓apply_ite Hw.vault, ↓Hw.foldl_vault]
@[simp ↓] theorem Hw.vault_cmdSend (h : Hw) (i : Nat) (x : CmdHdr) (body : List (BitVec 64)) (ueAt : Option Nat) : (Hw.cmdSend h i x body ueAt).vault = h.vault := by
 unfold Hw.cmdSend; apply Hw.vault_accept; intro h; dsimp only; (repeat' split) <;> simp [Hw.foldl_vault]
@[simp ↓] theorem Hw.vault_cmdSync (h : Hw) (i : Nat) (x : CmdHdr) (body : List (BitVec 64)) : (Hw.cmdSync h i x body).vault = h.vault := by
 unfold Hw.cmdSync; apply Hw.vault_accept; intro h; dsimp only; (repeat' split) <;> simp [Hw.foldl_vault]
@[simp ↓] theorem Hw.vault_cmdUnknown (h : Hw) (i : Nat) (op : Nat) (x : CmdHdr) (body : List (BitVec 64)) : (Hw.cmdUnknown h i op x body).vault = h.vault := by
 unfold Hw.cmdUnknown; apply Hw.vault_accept; intro h; rfl
@[simp ↓] theorem Hw.vault_coldEnd (h : Hw) : (Hw.coldEnd h).vault = h.vault := by unfold Hw.coldEnd; (try dsimp only); simp [↓apply_ite Hw.vault, ↓Hw.foldl_vault]
@[simp ↓] theorem Hw.vault_completionDeliver (h : Hw) (i : Nat) : (Hw.completionDeliver h i).vault = h.vault := by unfold Hw.completionDeliver; (try dsimp only); (repeat' split) <;> simp [↓apply_ite Hw.vault, ↓Hw.foldl_vault]
@[simp ↓] theorem Hw.vault_sFail (h : Hw) (n : Nat) (cause : Nat) (p : SPkt) : (Hw.sFail h n cause p).vault = h.vault := by unfold Hw.sFail; (try dsimp only); simp [↓apply_ite Hw.vault, ↓Hw.foldl_vault]
@[simp ↓] theorem Hw.vault_setUp (h : Hw) (n : Nat) (port : Nat) (s : Nat) (p : SPkt) : (Hw.setUp h n port s p).vault = h.vault := by unfold Hw.setUp; (try dsimp only); simp [↓apply_ite Hw.vault, ↓Hw.foldl_vault]
@[simp ↓] theorem Hw.vault_upArrive (h : Hw) (n : Nat) (port : Nat) (p : SPkt) : (Hw.upArrive h n port p).vault = h.vault := by unfold Hw.upArrive; (try dsimp only); simp [↓apply_ite Hw.vault, ↓Hw.foldl_vault]
@[simp ↓] theorem Hw.vault_contribute (h : Hw) (n : Nat) (p : SPkt) (round : Nat) : (Hw.contribute h n p round).1.vault = h.vault := by unfold Hw.contribute; (try dsimp only); (repeat' split) <;> simp [↓apply_ite Hw.vault, ↓Hw.foldl_vault]
@[simp ↓] theorem Hw.vault_lctl (h : Hw) (p : Nat) (body : Nat) : (Hw.lctl h p body).vault = h.vault := by unfold Hw.lctl; (try dsimp only); simp [↓apply_ite Hw.vault, ↓Hw.foldl_vault]
@[simp ↓] theorem Hw.vault_laneError (h : Hw) (p : Nat) (k : Nat) : (Hw.laneError h p k).vault = h.vault := by unfold Hw.laneError; (try dsimp only); simp [↓apply_ite Hw.vault, ↓Hw.foldl_vault]
@[simp ↓] theorem Hw.vault_laneGood (h : Hw) (p : Nat) (k : Nat) : (Hw.laneGood h p k).vault = h.vault := by unfold Hw.laneGood; (try dsimp only); simp [↓apply_ite Hw.vault, ↓Hw.foldl_vault]
@[simp ↓] theorem Hw.vault_lanePrev (h : Hw) (p : Nat) (lp : Nat) : (Hw.lanePrev h p lp).vault = h.vault := by unfold Hw.lanePrev; (try dsimp only); simp [↓apply_ite Hw.vault, ↓Hw.foldl_vault]
@[simp ↓] theorem Hw.vault_controlRx (h : Hw) (p : Nat) (k : Nat) (b : List Byte) : (Hw.controlRx h p k b).vault = h.vault := by unfold Hw.controlRx; (try dsimp only); simp [↓apply_ite Hw.vault, ↓Hw.foldl_vault]
@[simp ↓] theorem Hw.vault_giveDuty (h : Hw) (d : Nat) (k : Option Nat) : (Hw.giveDuty h d k).vault = h.vault := by unfold Hw.giveDuty; (try dsimp only); (repeat' split) <;> simp [↓apply_ite Hw.vault, ↓Hw.foldl_vault]
@[simp ↓] theorem Hw.vault_coreFail (h : Hw) (k : Nat) : (Hw.coreFail h k).vault = h.vault := by unfold Hw.coreFail; (try dsimp only); simp [↓apply_ite Hw.vault, ↓Hw.foldl_vault]
@[simp ↓] theorem Hw.vault_coreHalt (h : Hw) (k : Nat) : (Hw.coreHalt h k).vault = h.vault := by unfold Hw.coreHalt; (try dsimp only); simp [↓apply_ite Hw.vault, ↓Hw.foldl_vault]
@[simp ↓] theorem Hw.vault_coreResume (h : Hw) (k : Nat) : (Hw.coreResume h k).vault = h.vault := by unfold Hw.coreResume; (try dsimp only); simp [↓apply_ite Hw.vault, ↓Hw.foldl_vault]
@[simp ↓] theorem Hw.vault_coreUe (h : Hw) (core : Option Nat) (n : Nat) : (Hw.coreUe h core n).vault = h.vault := by unfold Hw.coreUe; (try dsimp only); (repeat' split) <;> simp [↓apply_ite Hw.vault, ↓Hw.foldl_vault]
@[simp ↓] theorem Hw.vault_pumpTail (h : Hw) (i : Nat) (id : Nat) : (Hw.pumpTail h i id).vault = h.vault := by unfold Hw.pumpTail; (try dsimp only); (repeat' split) <;> simp [↓apply_ite Hw.vault, ↓Hw.foldl_vault]
@[simp ↓] theorem Hw.vault_tailMove (h : Hw) (i : Nat) (c : CcxOp) (ueAt : Option Nat) : (Hw.tailMove h i c ueAt).vault = h.vault := by unfold Hw.tailMove; (try dsimp only); simp [↓apply_ite Hw.vault, ↓Hw.foldl_vault]
@[simp ↓] theorem Hw.vault_countOutcome (h : Hw) (i : Nat) (c : CcxOp) (ws : List Word) (ueAt : Option Nat) : (Hw.countOutcome h i c ws ueAt).vault = h.vault := by unfold Hw.countOutcome; (try dsimp only); simp [↓apply_ite Hw.vault, ↓Hw.foldl_vault]
@[simp ↓] theorem Hw.vault_relayStatus (h : Hw) (rx : Bool) (code : Nat) (busy : Bool) : (Hw.relayStatus h rx code busy).vault = h.vault := by unfold Hw.relayStatus; (try dsimp only); simp [↓apply_ite Hw.vault, ↓Hw.foldl_vault]
@[simp ↓] theorem Hw.vault_sendAccepted (h : Hw) (c : Nat) (cmd : Option (Nat × Nat)) : (Hw.sendAccepted h c cmd).vault = h.vault := by unfold Hw.sendAccepted; (try dsimp only); (repeat' split) <;> simp [↓apply_ite Hw.vault, ↓Hw.foldl_vault]
@[simp ↓] theorem Hw.vault_unstall (h : Hw) (c : Nat) (x2 : Nat) : (Hw.unstall h c x2).vault = h.vault := by
 induction x2 generalizing h with
 | zero => rfl
 | succ k ih => unfold Hw.unstall; split <;> (rename_i hq; have hv := Hw.vault_of_pair hq (Hw.vault_chUnstall h c); simp [ih, hv])
@[simp ↓] theorem Hw.vault_creditArrival (h : Hw) (c : Nat) (errs : List CErr) (crossed : Bool) : (Hw.creditArrival h c errs crossed).vault = h.vault := by
 unfold Hw.creditArrival; split
 · rfl
 · rename_i p g hq
   have hg := Hw.vault_of_cTake hq
   split <;> (rename_i hc; have hv := Hw.vault_of_pair hc (Hw.vault_cCross g p errs crossed); simp [hv, hg])
@[simp ↓] theorem Hw.vault_ctxShow (h : Hw) (n : Nat) (k : Nat) (waiting : Bool) : (Hw.ctxShow h n k waiting).vault = h.vault := by unfold Hw.ctxShow; (try dsimp only); simp [↓apply_ite Hw.vault, ↓Hw.foldl_vault]
@[simp ↓] theorem Hw.vault_laneTrained (h : Hw) (p : Nat) (m : LaneMeas) : (Hw.laneTrained h p m).vault = h.vault := by unfold Hw.laneTrained; (try dsimp only); simp [↓apply_ite Hw.vault, ↓Hw.foldl_vault]
@[simp ↓] theorem Hw.vault_dataEqDone (h : Hw) (p : Nat) (ms : List LaneMeas) : (Hw.dataEqDone h p ms).vault = h.vault := by unfold Hw.dataEqDone; (try dsimp only); simp [↓apply_ite Hw.vault, ↓Hw.foldl_vault]
@[simp ↓] theorem Hw.vault_setDm (h : Hw) (a : Nat) (v : Word) : (Hw.setDm h a v).vault = h.vault := by unfold Hw.setDm; (try dsimp only); simp [↓apply_ite Hw.vault, ↓Hw.foldl_vault]
@[simp ↓] theorem Hw.vault_sbError (h : Hw) (e : Nat) : (Hw.sbError h e).vault = h.vault := by unfold Hw.sbError; (try dsimp only); simp [↓apply_ite Hw.vault, ↓Hw.foldl_vault]
@[simp ↓] theorem Hw.vault_sbAccess (h : Hw) (addr : Nat) (write : Option Word) : (Hw.sbAccess h addr write).vault = h.vault := by unfold Hw.sbAccess; (try dsimp only); (repeat' split) <;> simp [↓apply_ite Hw.vault, ↓Hw.foldl_vault]
@[simp ↓] theorem Hw.vault_debugAccess (h : Hw) (addr : Nat) (write : Option Word) : (Hw.debugAccess h addr write).vault = h.vault := by unfold Hw.debugAccess; (try dsimp only); simp [↓apply_ite Hw.vault, ↓Hw.foldl_vault]
@[simp ↓] theorem Hw.vault_declareDown (h : Hw) (p : Nat) (cause : Nat) : (Hw.declareDown h p cause).vault = h.vault := by unfold Hw.declareDown; (try dsimp only); (repeat' split) <;> simp [↓apply_ite Hw.vault, ↓Hw.foldl_vault]
@[simp ↓] theorem Hw.vault_modRecv (h : Hw) (i : Nat) (id : Nat) (f : RecvOp → RecvOp) : (Hw.modRecv h i id f).vault = h.vault := by unfold Hw.modRecv; (try dsimp only); simp [↓apply_ite Hw.vault, ↓Hw.foldl_vault]
@[simp ↓] theorem Hw.vault_memDrop (h : Hw) (id : Nat) : (Hw.memDrop h id).vault = h.vault := by unfold Hw.memDrop; (try dsimp only); simp [↓apply_ite Hw.vault, ↓Hw.foldl_vault]
@[simp ↓] theorem Hw.vault_memSet (h : Hw) (r : MemReq) : (Hw.memSet h r).vault = h.vault := by unfold Hw.memSet; (try dsimp only); simp [↓apply_ite Hw.vault, ↓Hw.foldl_vault]
@[simp ↓] theorem Hw.vault_linkEnqueue (h : Hw) (p : Nat) (f : Flit) : (Hw.linkEnqueue h p f).vault = h.vault := by unfold Hw.linkEnqueue; (try dsimp only); simp [↓apply_ite Hw.vault, ↓Hw.foldl_vault]
@[simp ↓] theorem Hw.vault_toLink (h : Hw) (n : Nat) (f : Flit) : (Hw.toLink h n f).vault = h.vault := by unfold Hw.toLink; (try dsimp only); simp [↓apply_ite Hw.vault, ↓Hw.foldl_vault]
@[simp ↓] theorem Hw.vault_dieWaitLimit (h : Hw) (n : Nat) (e : Nat) : (Hw.dieWaitLimit h n e).vault = h.vault := by unfold Hw.dieWaitLimit; (try dsimp only); simp [↓apply_ite Hw.vault, ↓Hw.foldl_vault]
@[simp ↓] theorem Hw.vault_dmCommand (h : Hw) (v : Word) : (Hw.dmCommand h v).vault = h.vault := by unfold Hw.dmCommand; (try dsimp only); (repeat' split) <;> simp [↓apply_ite Hw.vault, ↓Hw.foldl_vault]
@[simp ↓] theorem Hw.vault_dmReset (h : Hw) : (Hw.dmReset h).vault = h.vault := by unfold Hw.dmReset; (try dsimp only); simp [↓apply_ite Hw.vault, ↓Hw.foldl_vault]
@[simp ↓] theorem Hw.vault_dmControl (h : Hw) (v : Word) : (Hw.dmControl h v).vault = h.vault := by unfold Hw.dmControl; (try dsimp only); (repeat' split) <;> simp [↓apply_ite Hw.vault, ↓Hw.foldl_vault]
@[simp ↓] theorem Hw.vault_dmiRead (h : Hw) (a : Nat) : (Hw.dmiRead h a).1.vault = h.vault := by unfold Hw.dmiRead; (try dsimp only); (repeat' split) <;> simp [↓apply_ite Hw.vault, ↓Hw.foldl_vault]
@[simp ↓] theorem Hw.vault_dmiWrite (h : Hw) (a : Nat) (v : Word) : (Hw.dmiWrite h a v).vault = h.vault := by unfold Hw.dmiWrite; (try dsimp only); simp [↓apply_ite Hw.vault, ↓Hw.foldl_vault]
@[simp ↓] theorem Hw.vault_dmi (h : Hw) (a : BitVec 7) (write : Option Word) : (Hw.dmi h a write).vault = h.vault := by unfold Hw.dmi; (try dsimp only); (repeat' split) <;> simp [↓apply_ite Hw.vault, ↓Hw.foldl_vault]
@[simp ↓] theorem Hw.vault_downDeliver (h : Hw) (n : Nat) (s : Nat) (ueAt : Option Nat) : (Hw.downDeliver h n s ueAt).vault = h.vault := by unfold Hw.downDeliver; (try dsimp only); (repeat' split) <;> simp [↓apply_ite Hw.vault, ↓Hw.foldl_vault]
@[simp ↓] theorem Hw.vault_downNow (h : Hw) (p : Nat) : (Hw.downNow h p).vault = h.vault := by unfold Hw.downNow; (try dsimp only); simp [↓apply_ite Hw.vault, ↓Hw.foldl_vault]
@[simp ↓] theorem Hw.vault_downbeatLost (h : Hw) : (Hw.downbeatLost h).vault = h.vault := by unfold Hw.downbeatLost; (try dsimp only); simp [↓apply_ite Hw.vault, ↓Hw.foldl_vault]
@[simp ↓] theorem Hw.vault_drainAck (h : Hw) (i : Nat) (level : Bool) : (Hw.drainAck h i level).vault = h.vault := by unfold Hw.drainAck; (try dsimp only); simp [↓apply_ite Hw.vault, ↓Hw.foldl_vault]
@[simp ↓] theorem Hw.vault_sweepFlows (h : Hw) (t : Nat) : (Hw.sweepFlows h t).vault = h.vault := by unfold Hw.sweepFlows; (try dsimp only); simp [↓apply_ite Hw.vault, ↓Hw.foldl_vault]
@[simp ↓] theorem Hw.vault_sweepGroups (h : Hw) (t : Nat) : (Hw.sweepGroups h t).vault = h.vault := by unfold Hw.sweepGroups; (try dsimp only); simp [↓apply_ite Hw.vault, ↓Hw.foldl_vault]
@[simp ↓] theorem Hw.vault_sweepWaits (h : Hw) (t : Nat) : (Hw.sweepWaits h t).vault = h.vault := by unfold Hw.sweepWaits; (try dsimp only); simp [↓apply_ite Hw.vault, ↓Hw.foldl_vault]
@[simp ↓] theorem Hw.vault_tilePortReset (h : Hw) (i : Nat) : (Hw.tilePortReset h i).vault = h.vault := by unfold Hw.tilePortReset; (try dsimp only); simp [↓apply_ite Hw.vault, ↓Hw.foldl_vault]
@[simp ↓] theorem Hw.vault_sweep (h : Hw) (t : Nat) : (Hw.sweep h t).vault = h.vault := by unfold Hw.sweep; (try dsimp only); simp [↓apply_ite Hw.vault, ↓Hw.foldl_vault]
@[simp ↓] theorem Hw.vault_drainDone (h : Hw) (t : Nat) : (Hw.drainDone h t).vault = h.vault := by unfold Hw.drainDone; (try dsimp only); simp [↓apply_ite Hw.vault, ↓Hw.foldl_vault]
@[simp ↓] theorem Hw.vault_drainDue (h : Hw) (i : Nat) : (Hw.drainDue h i).vault = h.vault := by unfold Hw.drainDue; (try dsimp only); simp [↓apply_ite Hw.vault, ↓Hw.foldl_vault]
@[simp ↓] theorem Hw.vault_drainOver (h : Hw) (i : Nat) : (Hw.drainOver h i).vault = h.vault := by unfold Hw.drainOver; (try dsimp only); simp [↓apply_ite Hw.vault, ↓Hw.foldl_vault]
@[simp ↓] theorem Hw.vault_drainTimeout (h : Hw) (i : Nat) : (Hw.drainTimeout h i).vault = h.vault := by unfold Hw.drainTimeout; (try dsimp only); simp [↓apply_ite Hw.vault, ↓Hw.foldl_vault]
@[simp ↓] theorem Hw.vault_pumpFi (h : Hw) (i : Nat) : (Hw.pumpFi h i).vault = h.vault := by unfold Hw.pumpFi; (try dsimp only); (repeat' split) <;> simp [↓apply_ite Hw.vault, ↓Hw.foldl_vault]
@[simp ↓] theorem Hw.vault_droopTrip (h : Hw) (det : Nat) : (Hw.droopTrip h det).vault = h.vault := by unfold Hw.droopTrip; (try dsimp only); simp [↓apply_ite Hw.vault, ↓Hw.foldl_vault]
@[simp ↓] theorem Hw.vault_release (h : Hw) (p : Nat) (v : Nat) : (Hw.release h p v).vault = h.vault := by unfold Hw.release; (try dsimp only); simp [↓apply_ite Hw.vault, ↓Hw.foldl_vault]
@[simp ↓] theorem Hw.vault_dtrRx (h : Hw) (p : Nat) : (Hw.dtrRx h p).vault = h.vault := by unfold Hw.dtrRx; (try dsimp only); (repeat' split) <;> simp [↓apply_ite Hw.vault, ↓Hw.foldl_vault]
@[simp ↓] theorem Hw.vault_echoStep (h : Hw) (p : Nat) : (Hw.echoStep h p).vault = h.vault := by unfold Hw.echoStep; (try dsimp only); (repeat' split) <;> simp [↓apply_ite Hw.vault, ↓Hw.foldl_vault]
@[simp ↓] theorem Hw.vault_endpointReset (h : Hw) : (Hw.endpointReset h).vault = h.vault := by unfold Hw.endpointReset; (try dsimp only); simp [↓apply_ite Hw.vault, ↓Hw.foldl_vault]
@[simp ↓] theorem Hw.vault_extest (h : Hw) (nvm : BitVec 12) (nvmOn : Bool) (dq : BitVec 9) (load : Option (BitVec 28)) : (Hw.extest h nvm nvmOn dq load).vault = h.vault := by unfold Hw.extest; (try dsimp only); (repeat' split) <;> simp [↓apply_ite Hw.vault, ↓Hw.foldl_vault]
@[simp ↓] theorem Hw.vault_f0Accept (h : Hw) : (Hw.f0Accept h).vault = h.vault := by unfold Hw.f0Accept; (try dsimp only); (repeat' split) <;> simp [↓apply_ite Hw.vault, ↓Hw.foldl_vault]
@[simp ↓] theorem Hw.vault_f0Settled (h : Hw) : (Hw.f0Settled h).vault = h.vault := by unfold Hw.f0Settled; (try dsimp only); simp [↓apply_ite Hw.vault, ↓Hw.foldl_vault]
@[simp ↓] theorem Hw.vault_f0Reapply (h : Hw) : (Hw.f0Reapply h).vault = h.vault := by unfold Hw.f0Reapply; (try dsimp only); simp [↓apply_ite Hw.vault, ↓Hw.foldl_vault]
@[simp ↓] theorem Hw.vault_withhold (h : Hw) (i : Nat) (f : Nat × Nat × Nat → Nat × Nat × Nat) : (Hw.withhold h i f).vault = h.vault := by unfold Hw.withhold; (try dsimp only); simp [↓apply_ite Hw.vault, ↓Hw.foldl_vault]
@[simp ↓] theorem Hw.vault_fabricIn (h : Hw) (i : Nat) (flow : Nat) (last : Bool) (poison : Bool) (data : BitVec 1024) (err : PadErr) : (Hw.fabricIn h i flow last poison data err).vault = h.vault := by unfold Hw.fabricIn; (try dsimp only); (repeat' split) <;> simp [↓apply_ite Hw.vault, ↓Hw.foldl_vault]
@[simp ↓] theorem Hw.vault_faultAccept (h : Hw) : (Hw.faultAccept h).vault = h.vault := by unfold Hw.faultAccept; (try dsimp only); (repeat' split) <;> simp [↓apply_ite Hw.vault, ↓Hw.foldl_vault]
@[simp ↓] theorem Hw.vault_gongTaken (h : Hw) (w0 : Word) (w1 : Word) : (Hw.gongTaken h w0 w1).vault = h.vault := by unfold Hw.gongTaken; (try dsimp only); simp [↓apply_ite Hw.vault, ↓Hw.foldl_vault]
@[simp ↓] theorem Hw.vault_noticeTo (h : Hw) (x : Notice) : (Hw.noticeTo h x).vault = h.vault := by
 unfold Hw.noticeTo; dsimp only; split
 · rfl
 · split
   · split
     · rw [Hw.vault_gongDup, Hw.vault_gongTaken]
     · exact (Hw.vault_set_fault _ _).trans ((Hw.vault_gongSend _ _ _ _ _ _ _ _).trans ((Hw.vault_set_fault _ _).trans (Hw.vault_gongTaken _ _ _)))
   · split
     · exact (Hw.vault_set_fault _ _).trans (Hw.vault_gongTaken _ _ _)
     · exact (Hw.vault_set_fault _ _).trans ((Hw.vault_gongSend _ _ _ _ _ _ _ _).trans ((Hw.vault_set_fault _ _).trans (Hw.vault_gongTaken _ _ _)))
@[simp ↓] theorem Hw.vault_faultNotice (h : Hw) : (Hw.faultNotice h).vault = h.vault := by unfold Hw.faultNotice; (try dsimp only); (repeat' split) <;> simp [↓apply_ite Hw.vault, ↓Hw.foldl_vault]
@[simp ↓] theorem Hw.vault_finishCounted (h : Hw) (i : Nat) (tag : Nat) (status : Nat) (body : List (BitVec 64)) (len : Nat) : (Hw.finishCounted h i tag status body len).vault = h.vault := by unfold Hw.finishCounted; (try dsimp only); (repeat' split) <;> simp [↓apply_ite Hw.vault, ↓Hw.foldl_vault]
@[simp ↓] theorem Hw.vault_flitHop (h : Hw) (n : Nat) (out : Nat) (err : MeshErr) : (Hw.flitHop h n out err).vault = h.vault := by unfold Hw.flitHop; (try dsimp only); (repeat' split) <;> simp [↓apply_ite Hw.vault, ↓Hw.foldl_vault]
@[simp ↓] theorem Hw.vault_flitIn (h : Hw) (p : Nat) (f : Flit) : (Hw.flitIn h p f).vault = h.vault := by unfold Hw.flitIn; (try dsimp only); (repeat' split) <;> simp [↓apply_ite Hw.vault, ↓Hw.foldl_vault]
@[simp ↓] theorem Hw.vault_flitInject (h : Hw) (gated : Bool) (n : Nat) : (Hw.flitInject h gated n).vault = h.vault := by unfold Hw.flitInject; (try dsimp only); (repeat' split) <;> simp [↓apply_ite Hw.vault, ↓Hw.foldl_vault]
@[simp ↓] theorem Hw.vault_foldPop (h : Hw) (n : Nat) (port : Nat) (sel : Nat) : (Hw.foldPop h n port sel).vault = h.vault := by unfold Hw.foldPop; (try dsimp only); simp [↓apply_ite Hw.vault, ↓Hw.foldl_vault]
@[simp ↓] theorem Hw.vault_flitLate (h : Hw) (n : Nat) (port : Nat) (sel : Nat) : (Hw.flitLate h n port sel).vault = h.vault := by unfold Hw.flitLate; (try dsimp only); (repeat' split) <;> simp [↓apply_ite Hw.vault, ↓Hw.foldl_vault]
@[simp ↓] theorem Hw.vault_foldDup (h : Hw) (n : Nat) (k : Nat) (cid : Nat) : (Hw.foldDup h n k cid).vault = h.vault := by unfold Hw.foldDup; (try dsimp only); simp [↓apply_ite Hw.vault, ↓Hw.foldl_vault]
@[simp ↓] theorem Hw.vault_foldEvt (h : Hw) (n : Nat) (k : Nat) (cause : Nat) : (Hw.foldEvt h n k cause).vault = h.vault := by unfold Hw.foldEvt; (try dsimp only); simp [↓apply_ite Hw.vault, ↓Hw.foldl_vault]
@[simp ↓] theorem Hw.vault_foldFault (h : Hw) (n : Nat) (k : Nat) : (Hw.foldFault h n k).vault = h.vault := by unfold Hw.foldFault; (try dsimp only); simp [↓apply_ite Hw.vault, ↓Hw.foldl_vault]
@[simp ↓] theorem Hw.vault_setSinkSeq (h : Hw) (n : Nat) (s : Nat) (v : Nat) : (Hw.setSinkSeq h n s v).vault = h.vault := by unfold Hw.setSinkSeq; (try dsimp only); simp [↓apply_ite Hw.vault, ↓Hw.foldl_vault]
@[simp ↓] theorem Hw.vault_sinkChecked (h : Hw) (n : Nat) (f : Flit) (c : Nat) (s : Option Nat) : (Hw.sinkChecked h n f c s).vault = h.vault := by unfold Hw.sinkChecked; (try dsimp only); (repeat' split) <;> simp [↓apply_ite Hw.vault, ↓Hw.foldl_vault]
@[simp ↓] theorem Hw.vault_foldArrive (h : Hw) (n : Nat) (port : Nat) (sel : Nat) : (Hw.foldArrive h n port sel).vault = h.vault := by unfold Hw.foldArrive; (try dsimp only); (repeat' split) <;> simp [↓apply_ite Hw.vault, ↓Hw.foldl_vault]
@[simp ↓] theorem Hw.vault_foldPresent (h : Hw) (n : Nat) (k : Nat) (elems : List Nat) (last : Bool) (poison : Bool) : (Hw.foldPresent h n k elems last poison).vault = h.vault := by unfold Hw.foldPresent; (try dsimp only); simp [↓apply_ite Hw.vault, ↓Hw.foldl_vault]
@[simp ↓] theorem Hw.vault_ringPassed (h : Hw) (n : Nat) (r : Nat) : (Hw.ringPassed h n r).vault = h.vault := by unfold Hw.ringPassed; (try dsimp only); simp [↓apply_ite Hw.vault, ↓Hw.foldl_vault]
@[simp ↓] theorem Hw.vault_foldCombine (h : Hw) (n : Nat) (k : Nat) (loc : Option (List Nat × Bool)) (err : FoldErr) : (Hw.foldCombine h n k loc err).1.vault = h.vault := by
 have ek : ∀ (g : Hw) (l : List FoldBlock), (l.foldl (fun h b => match b.flit with
     | some f => (h.foldPop n b.port b.sel).sinkChecked n f 0 (h.foldSink n b.port f).2
     | none => h) g).vault = g.vault := by
   intro g l; rw [Hw.foldl_vault]; intro h x; split <;> simp
 have el : ∀ (g : Hw) (c : FoldCtx) (w : Bool) (f f' : Word → Word), (if w = true then ((g.setCtx n k c).setReg .fldBlocks n k 0#32).modReg .fldStatus n k f
     else g.modReg .fldBlocks n k f').vault = g.vault := by
   intro g c w f f'; split <;> simp
 unfold Hw.foldCombine; dsimp only; split
 · rfl
 · split
   · simp
   · split
     · rfl
     · split
       · rw [Hw.foldl_vault]; intro h x; split <;> simp
       · split
         · rfl
         · split
           · simp
           · rw [Hw.vault_ctxShow, el]
             split
             · rw [Hw.vault_ringPassed, Hw.vault_act, Hw.vault_foldPresent]; (split; exact (Hw.vault_foldEvt _ _ _ _).trans (ek _ _); exact ek _ _)
             · rw [Hw.vault_act, Hw.vault_foldPresent]; (split; exact (Hw.vault_foldEvt _ _ _ _).trans (ek _ _); exact ek _ _)
@[simp ↓] theorem Hw.vault_tailConsumed (h : Hw) (n : Nat) (k : Nat) (c : CcxOp) (last : Bool) : (Hw.tailConsumed h n k c last).vault = h.vault := by unfold Hw.tailConsumed; (try dsimp only); simp [↓apply_ite Hw.vault, ↓Hw.foldl_vault]
@[simp ↓] theorem Hw.vault_foldCombineAt (h : Hw) (n : Nat) (k : Nat) (err : FoldErr) : (Hw.foldCombineAt h n k err).vault = h.vault := by
 unfold Hw.foldCombineAt; dsimp only; split
 · rename_i hq; have hv := Hw.vault_of_pair hq (Hw.vault_foldCombine _ _ _ _ _); split <;> simp [hv]
 · rename_i hq; exact Hw.vault_of_pair hq (Hw.vault_foldCombine _ _ _ _ _)
@[simp ↓] theorem Hw.vault_frameDeliver (h : Hw) (p : Nat) : (Hw.frameDeliver h p).vault = h.vault := by unfold Hw.frameDeliver; (try dsimp only); (repeat' split) <;> simp [↓apply_ite Hw.vault, ↓Hw.foldl_vault]
@[simp ↓] theorem Hw.vault_unitTail (h : Hw) (p : Nat) (k : Nat) : (Hw.unitTail h p k).2.vault = h.vault := by unfold Hw.unitTail; (try dsimp only); (repeat' split) <;> simp [↓apply_ite Hw.vault, ↓Hw.foldl_vault]
@[simp ↓] theorem Hw.vault_frameOut (h : Hw) (p : Nat) (k : Nat) (f : Frame) : (Hw.frameOut h p k f).vault = h.vault := by unfold Hw.frameOut; (try dsimp only); simp [↓apply_ite Hw.vault, ↓Hw.foldl_vault]
@[simp ↓] theorem Hw.vault_frameRelease (h : Hw) (p : Nat) : (Hw.frameRelease h p).vault = h.vault := by unfold Hw.frameRelease; (try dsimp only); (repeat' split) <;> simp [↓apply_ite Hw.vault, ↓Hw.foldl_vault]
@[simp ↓] theorem Hw.vault_frameStore (h : Hw) (p : Nat) (f : Frame) : (Hw.frameStore h p f).vault = h.vault := by unfold Hw.frameStore; (try dsimp only); simp [↓apply_ite Hw.vault, ↓Hw.foldl_vault]
@[simp ↓] theorem Hw.vault_headerFail (h : Hw) (p : Nat) (k : Nat) : (Hw.headerFail h p k).vault = h.vault := by unfold Hw.headerFail; (try dsimp only); simp [↓apply_ite Hw.vault, ↓Hw.foldl_vault]
@[simp ↓] theorem Hw.vault_lctlIn (h : Hw) (p : Nat) (part : Nat) (b : BitVec 36) : (Hw.lctlIn h p part b).vault = h.vault := by unfold Hw.lctlIn; (try dsimp only); (repeat' split) <;> simp [↓apply_ite Hw.vault, ↓Hw.foldl_vault]
@[simp ↓] theorem Hw.vault_sbPacket (h : Hw) (p : Nat) (i : SbIn) : (Hw.sbPacket h p i).vault = h.vault := by unfold Hw.sbPacket; (try dsimp only); (repeat' split) <;> simp [↓apply_ite Hw.vault, ↓Hw.foldl_vault]
@[simp ↓] theorem Hw.vault_sbWord (h : Hw) (p : Nat) (type : Nat) (body : BitVec 36) : (Hw.sbWord h p type body).vault = h.vault := by unfold Hw.sbWord; (try dsimp only); simp [↓apply_ite Hw.vault, ↓Hw.foldl_vault]
@[simp ↓] theorem Hw.vault_uackIn (h : Hw) (p : Nat) (uack : Nat) : (Hw.uackIn h p uack).vault = h.vault := by unfold Hw.uackIn; (try dsimp only); (repeat' split) <;> simp [↓apply_ite Hw.vault, ↓Hw.foldl_vault]
@[simp ↓] theorem Hw.vault_sbAccept (h : Hw) (p : Nat) (part : Nat) (u : BitVec 64) : (Hw.sbAccept h p part u).vault = h.vault := by unfold Hw.sbAccept; (try dsimp only); (repeat' split) <;> simp [↓apply_ite Hw.vault, ↓Hw.foldl_vault]
@[simp ↓] theorem Hw.vault_frameRx (h : Hw) (p : Nat) (k : Nat) (b : List Byte) : (Hw.frameRx h p k b).vault = h.vault := by unfold Hw.frameRx; (try dsimp only); simp [↓apply_ite Hw.vault, ↓Hw.foldl_vault]
@[simp ↓] theorem Hw.vault_sbUnits (h : Hw) (p : Nat) (x2 : Nat) : (Hw.sbUnits h p x2).2.vault = h.vault := by
 induction x2 generalizing h with
 | zero => rfl
 | succ k ih => unfold Hw.sbUnits; dsimp only; split <;> simp [ih]
theorem Hw.vault_of_newFrame {h g : Hw} {p : Nat} {f : Frame} {b : Bool} (hq : h.newFrame p = some (f, b, g)) : g.vault = h.vault := by
  unfold Hw.newFrame at hq; dsimp only at hq
  (repeat' split at hq) <;> cases hq <;> simp
@[simp ↓] theorem Hw.vault_frameTransmit (h : Hw) (p : Nat) (k : Nat) : (Hw.frameTransmit h p k).vault = h.vault := by
 unfold Hw.frameTransmit; dsimp only; (repeat' split)
 all_goals first | rfl | (simp; done) | skip
 all_goals (rename_i hq _; have hv := Hw.vault_of_newFrame hq; simp [hv])
@[simp ↓] theorem Hw.vault_freezeNow (h : Hw) (snap : Bool) : (Hw.freezeNow h snap).vault = h.vault := by unfold Hw.freezeNow; (try dsimp only); simp [↓apply_ite Hw.vault, ↓Hw.foldl_vault]
@[simp ↓] theorem Hw.vault_freezeDue (h : Hw) : (Hw.freezeDue h).vault = h.vault := by unfold Hw.freezeDue; (try dsimp only); (repeat' split) <;> simp [↓apply_ite Hw.vault, ↓Hw.foldl_vault]
@[simp ↓] theorem Hw.vault_loadRegs (h : Hw) (id : RegId) (x2 : Nat) (x3 : List Word) : (Hw.loadRegs h id x2 x3).vault = h.vault := by
 induction x3 generalizing h x2 with
 | nil => rfl
 | cons w ws ih => unfold Hw.loadRegs; simp [ih]
@[simp ↓] theorem Hw.vault_fuseLoad (h : Hw) (ue : Bool) (corrected : Nat) : (Hw.fuseLoad h ue corrected).vault = h.vault := by unfold Hw.fuseLoad; (try dsimp only); simp [↓apply_ite Hw.vault, ↓Hw.foldl_vault]
@[simp ↓] theorem Hw.vault_fwReady (h : Hw) : (Hw.fwReady h).vault = h.vault := by unfold Hw.fwReady; (try dsimp only); simp [↓apply_ite Hw.vault, ↓Hw.foldl_vault]
@[simp ↓] theorem Hw.vault_relaunchOver (h : Hw) (t : Nat) (code : Nat) : (Hw.relaunchOver h t code).vault = h.vault := by unfold Hw.relaunchOver; (try dsimp only); simp [↓apply_ite Hw.vault, ↓Hw.foldl_vault]
@[simp ↓] theorem Hw.vault_relaunch (h : Hw) (t : Nat) : (Hw.relaunch h t).vault = h.vault := by unfold Hw.relaunch; (try dsimp only); (repeat' split) <;> simp [↓apply_ite Hw.vault, ↓Hw.foldl_vault]
@[simp ↓] theorem Hw.vault_genWaitExpiry (h : Hw) (t : Nat) : (Hw.genWaitExpiry h t).vault = h.vault := by unfold Hw.genWaitExpiry; (try dsimp only); simp [↓apply_ite Hw.vault, ↓Hw.foldl_vault]
@[simp ↓] theorem Hw.vault_thawNow (h : Hw) : (Hw.thawNow h).vault = h.vault := by unfold Hw.thawNow; (try dsimp only); simp [↓apply_ite Hw.vault, ↓Hw.foldl_vault]
@[simp ↓] theorem Hw.vault_gongHold (h : Hw) (w0 : Word) (w1 : Word) : (Hw.gongHold h w0 w1).vault = h.vault := by unfold Hw.gongHold; (try dsimp only); simp [↓apply_ite Hw.vault, ↓Hw.foldl_vault]
theorem Hw.vault_of_torusRx {h g : Hw} {q : Nat} {ks : List Nat} {k : Nat} {ws : List Word} (hq : h.torusRx q ks = some (k, ws, g)) :
    g.vault = h.vault := by
  simp only [Hw.torusRx, Option.map_eq_some_iff] at hq
  obtain ⟨a, _, hq⟩ := hq; cases hq; rfl
theorem Hw.vault_of_gongRemote {h g : Hw} {w0 w1 : Word} (hq : h.gongRemote w0 w1 = some g) : g.vault = h.vault := by
  unfold Hw.gongRemote at hq; split at hq <;> cases hq; simp
@[simp ↓] theorem Hw.vault_gongArrive (h : Hw) (q : Nat) : (Hw.gongArrive h q).vault = h.vault := by
 unfold Hw.gongArrive; split
 · split
   · rfl
   · split
     · rename_i g1 hq; have h1 := Hw.vault_of_torusRx hq
       split
       · rename_i hr; simp [Hw.vault_of_gongRemote hr, h1]
       · simp [h1]
     · rfl
 · rfl
@[simp ↓] theorem Hw.vault_gongLocal (h : Hw) : (Hw.gongLocal h).vault = h.vault := by unfold Hw.gongLocal; (try dsimp only); (repeat' split) <;> simp [↓apply_ite Hw.vault, ↓Hw.foldl_vault]
@[simp ↓] theorem Hw.vault_writeAt (h : Hw) (p : Path) (r : Reg) (v : Word) : (Hw.writeAt h p r v).vault = h.vault := by unfold Hw.writeAt; (try dsimp only); simp [↓apply_ite Hw.vault, ↓Hw.foldl_vault]
@[simp ↓] theorem Hw.vault_gongWrite (h : Hw) (p : Path) (op : Nat) (v : Word) : (Hw.gongWrite h p op v).vault = h.vault := by unfold Hw.gongWrite; (try dsimp only); simp [↓apply_ite Hw.vault, ↓Hw.foldl_vault]
@[simp ↓] theorem Hw.vault_pumpNode (h : Hw) (n : Nat) : (Hw.pumpNode h n).vault = h.vault := by unfold Hw.pumpNode; (try dsimp only); simp [↓apply_ite Hw.vault, ↓Hw.foldl_vault]
@[simp ↓] theorem Hw.vault_grant (h : Hw) (n : Nat) : (Hw.grant h n).vault = h.vault := by unfold Hw.grant; (try dsimp only); simp [↓apply_ite Hw.vault, ↓Hw.foldl_vault]
@[simp ↓] theorem Hw.vault_showPending (h : Hw) (i : Nat) : (Hw.showPending h i).vault = h.vault := by unfold Hw.showPending; (try dsimp only); simp [↓apply_ite Hw.vault, ↓Hw.foldl_vault]
@[simp ↓] theorem Hw.vault_sendGrant (h : Hw) (i : Nat) (g : Nat) : (Hw.sendGrant h i g).vault = h.vault := by unfold Hw.sendGrant; (try dsimp only); simp [↓apply_ite Hw.vault, ↓Hw.foldl_vault]
@[simp ↓] theorem Hw.vault_sendIncreases (h : Hw) : (Hw.sendIncreases h).vault = h.vault := by unfold Hw.sendIncreases; (try dsimp only); simp [↓apply_ite Hw.vault, ↓Hw.foldl_vault]
@[simp ↓] theorem Hw.vault_grantAck (h : Hw) (i : Nat) : (Hw.grantAck h i).vault = h.vault := by unfold Hw.grantAck; (try dsimp only); (repeat' split) <;> simp [↓apply_ite Hw.vault, ↓Hw.foldl_vault]
@[simp ↓] theorem Hw.vault_grantLate (h : Hw) (i : Nat) : (Hw.grantLate h i).vault = h.vault := by unfold Hw.grantLate; (try dsimp only); simp [↓apply_ite Hw.vault, ↓Hw.foldl_vault]
@[simp ↓] theorem Hw.vault_guardComplement (h : Hw) (p : Path) (c : CplReg) : (Hw.guardComplement h p c).vault = h.vault := by unfold Hw.guardComplement; (try dsimp only); (repeat' split) <;> simp [↓apply_ite Hw.vault, ↓Hw.foldl_vault]
@[simp ↓] theorem Hw.vault_handshake (h : Hw) (i : Nat) : (Hw.handshake h i).vault = h.vault := by unfold Hw.handshake; (try dsimp only); simp [↓apply_ite Hw.vault, ↓Hw.foldl_vault]
@[simp ↓] theorem Hw.vault_hangAssemble (h : Hw) : (Hw.hangAssemble h).vault = h.vault := by unfold Hw.hangAssemble; (try dsimp only); simp [↓apply_ite Hw.vault, ↓Hw.foldl_vault]
@[simp ↓] theorem Hw.vault_hangTrip (h : Hw) (n : Nat) (e : Nat) : (Hw.hangTrip h n e).vault = h.vault := by unfold Hw.hangTrip; (try dsimp only); simp [↓apply_ite Hw.vault, ↓Hw.foldl_vault]
@[simp ↓] theorem Hw.vault_pllUnlock (h : Hw) (w : PllId) : (Hw.pllUnlock h w).vault = h.vault := by unfold Hw.pllUnlock; (try dsimp only); simp [↓apply_ite Hw.vault, ↓Hw.foldl_vault]
@[simp ↓] theorem Hw.vault_hbmPllUnlock (h : Hw) (s : Fin 6) : (Hw.hbmPllUnlock h s).vault = h.vault := by unfold Hw.hbmPllUnlock; (try dsimp only); simp [↓apply_ite Hw.vault, ↓Hw.foldl_vault]
@[simp ↓] theorem Hw.vault_heartbeatFail (h : Hw) (k : Nat) : (Hw.heartbeatFail h k).vault = h.vault := by unfold Hw.heartbeatFail; (try dsimp only); simp [↓apply_ite Hw.vault, ↓Hw.foldl_vault]
@[simp ↓] theorem Hw.vault_highz (h : Hw) : (Hw.highz h).vault = h.vault := by unfold Hw.highz; (try dsimp only); simp [↓apply_ite Hw.vault, ↓Hw.foldl_vault]
@[simp ↓] theorem Hw.vault_hop (h : Hw) (n : Nat) (out : Nat) (err : MeshErr) : (Hw.hop h n out err).vault = h.vault := by unfold Hw.hop; (try dsimp only); (repeat' split) <;> simp [↓apply_ite Hw.vault, ↓Hw.foldl_vault]
@[simp ↓] theorem Hw.vault_identRx (h : Hw) (p : Nat) (rtt : Nat) : (Hw.identRx h p rtt).vault = h.vault := by unfold Hw.identRx; (try dsimp only); (repeat' split) <;> simp [↓apply_ite Hw.vault, ↓Hw.foldl_vault]
@[simp ↓] theorem Hw.vault_idxTimeout (h : Hw) (p : Path) : (Hw.idxTimeout h p).vault = h.vault := by unfold Hw.idxTimeout; (try dsimp only); simp [↓apply_ite Hw.vault, ↓Hw.foldl_vault]
@[simp ↓] theorem Hw.vault_putSpillFlows (h : Hw) (d : Doc) : (Hw.putSpillFlows h d).vault = h.vault := by unfold Hw.putSpillFlows; (try dsimp only); simp [↓apply_ite Hw.vault, ↓Hw.foldl_vault]
@[simp ↓] theorem Hw.vault_putImage (h : Hw) (d : Doc) : (Hw.putImage h d).vault = h.vault := by unfold Hw.putImage; (try dsimp only); simp [↓apply_ite Hw.vault, ↓Hw.foldl_vault]
@[simp ↓] theorem Hw.vault_putPartition (h : Hw) (p : PartRec) : (Hw.putPartition h p).vault = h.vault := by unfold Hw.putPartition; (try dsimp only); simp [↓apply_ite Hw.vault, ↓Hw.foldl_vault]
@[simp ↓] theorem Hw.vault_putPower (h : Hw) (d : Doc) : (Hw.putPower h d).vault = h.vault := by unfold Hw.putPower; (try dsimp only); (repeat' split) <;> simp [↓apply_ite Hw.vault, ↓Hw.foldl_vault]
@[simp ↓] theorem Hw.vault_putSlots (h : Hw) (d : Doc) : (Hw.putSlots h d).vault = h.vault := by
 unfold Hw.putSlots; dsimp only
 suffices H : ∀ (l : List _) (acc : Hw × Nat), acc.1.vault = h.vault → (List.foldl _ acc l).1.vault = h.vault from H _ (h, 0) rfl
 intro l; induction l with
 | nil => intro acc ha; exact ha
 | cons e es ih => intro acc ha; rw [List.foldl_cons]; apply ih; simp [Hw.foldl_vault, ha]
@[simp ↓] theorem Hw.vault_imageApply (h : Hw) : (Hw.imageApply h).vault = h.vault := by unfold Hw.imageApply; (try dsimp only); simp [↓apply_ite Hw.vault, ↓Hw.foldl_vault]
@[simp ↓] theorem Hw.vault_isolateTx (h : Hw) (p : Nat) (k : Nat) : (Hw.isolateTx h p k).vault = h.vault := by unfold Hw.isolateTx; (try dsimp only); simp [↓apply_ite Hw.vault, ↓Hw.foldl_vault]
@[simp ↓] theorem Hw.vault_phyDownDue (h : Hw) (p : Nat) : (Hw.phyDownDue h p).vault = h.vault := by unfold Hw.phyDownDue; (try dsimp only); simp [↓apply_ite Hw.vault, ↓Hw.foldl_vault]
@[simp ↓] theorem Hw.vault_isolateCmd (h : Hw) (p : Nat) : (Hw.isolateCmd h p).vault = h.vault := by
 unfold Hw.isolateCmd; split
 · rfl
 · rename_i hq; have := Hw.vault_of_takeCmd hq; dsimp only; split <;> simp [this]
@[simp ↓] theorem Hw.vault_laneDead (h : Hw) (p : Nat) (k : Nat) : (Hw.laneDead h p k).vault = h.vault := by unfold Hw.laneDead; (try dsimp only); simp [↓apply_ite Hw.vault, ↓Hw.foldl_vault]
@[simp ↓] theorem Hw.vault_isolateRx (h : Hw) (p : Nat) (k : Nat) : (Hw.isolateRx h p k).vault = h.vault := by unfold Hw.isolateRx; (try dsimp only); simp [↓apply_ite Hw.vault, ↓Hw.foldl_vault]
@[simp ↓] theorem Hw.vault_keepAnswer (h : Hw) (p : Path) (k : Nat) : (Hw.keepAnswer h p k).vault = h.vault := by unfold Hw.keepAnswer; (try dsimp only); simp [↓apply_ite Hw.vault, ↓Hw.foldl_vault]
@[simp ↓] theorem Hw.vault_laneIsolate (h : Hw) (p : Nat) (k : Nat) : (Hw.laneIsolate h p k).vault = h.vault := by unfold Hw.laneIsolate; (try dsimp only); simp [↓apply_ite Hw.vault, ↓Hw.foldl_vault]
@[simp ↓] theorem Hw.vault_laneLos (h : Hw) (p : Nat) (k : Nat) : (Hw.laneLos h p k).vault = h.vault := by unfold Hw.laneLos; (try dsimp only); simp [↓apply_ite Hw.vault, ↓Hw.foldl_vault]
@[simp ↓] theorem Hw.vault_laneOverrun (h : Hw) (i : Nat) (cmd : Option (Nat × Nat)) : (Hw.laneOverrun h i cmd).vault = h.vault := by unfold Hw.laneOverrun; (try dsimp only); (repeat' split) <;> simp [↓apply_ite Hw.vault, ↓Hw.foldl_vault]
@[simp ↓] theorem Hw.vault_laneSelect (h : Hw) (p : Nat) : (Hw.laneSelect h p).vault = h.vault := by unfold Hw.laneSelect; (try dsimp only); (repeat' split) <;> simp [↓apply_ite Hw.vault, ↓Hw.foldl_vault]
@[simp ↓] theorem Hw.vault_leaseAllocDone (h : Hw) (i : Nat) (tag : Nat) : (Hw.leaseAllocDone h i tag).vault = h.vault := by
 unfold Hw.leaseAllocDone; split
 · rfl
 · dsimp only; split
   · split
     · simp [Hw.foldl_vault]
     · rename_i hq; have := Hw.vault_of_leaseAlloc hq; simp [this, Hw.foldl_vault]
   · split <;> simp
@[simp ↓] theorem Hw.vault_linkIdent (h : Hw) (p : Nat) : (Hw.linkIdent h p).vault = h.vault := by unfold Hw.linkIdent; (try dsimp only); simp [↓apply_ite Hw.vault, ↓Hw.foldl_vault]
@[simp ↓] theorem Hw.vault_loadBuf (h : Hw) (b : List Byte) : (Hw.loadBuf h b).vault = h.vault := by unfold Hw.loadBuf; (try dsimp only); simp [↓apply_ite Hw.vault, ↓Hw.foldl_vault]
@[simp ↓] theorem Hw.vault_malformedCmd (h : Hw) (i : Nat) (op : Nat) (tag : Nat) : (Hw.malformedCmd h i op tag).vault = h.vault := by unfold Hw.malformedCmd; (try dsimp only); simp [↓apply_ite Hw.vault, ↓Hw.foldl_vault]
@[simp ↓] theorem Hw.vault_malformedRun (h : Hw) (i : Nat) : (Hw.malformedRun h i).vault = h.vault := by unfold Hw.malformedRun; (try dsimp only); simp [↓apply_ite Hw.vault, ↓Hw.foldl_vault]
@[simp ↓] theorem Hw.vault_pairFail (h : Hw) (q : Nat) (cause : Nat) : (Hw.pairFail h q cause).vault = h.vault := by unfold Hw.pairFail; (try dsimp only); simp [↓apply_ite Hw.vault, ↓Hw.foldl_vault]
@[simp ↓] theorem Hw.vault_msixSend (h : Hw) (fn : Nat) (v : Nat) : (Hw.msixSend h fn v).vault = h.vault := by unfold Hw.msixSend; (try dsimp only); simp [↓apply_ite Hw.vault, ↓Hw.foldl_vault]
@[simp ↓] theorem Hw.vault_msixUnmask (h : Hw) (fn : Nat) (v : Nat) : (Hw.msixUnmask h fn v).vault = h.vault := by unfold Hw.msixUnmask; (try dsimp only); simp [↓apply_ite Hw.vault, ↓Hw.foldl_vault]
@[simp ↓] theorem Hw.vault_nakIn (h : Hw) (p : Nat) (seq : Nat) : (Hw.nakIn h p seq).vault = h.vault := by unfold Hw.nakIn; (try dsimp only); simp [↓apply_ite Hw.vault, ↓Hw.foldl_vault]
@[simp ↓] theorem Hw.vault_nvmProbe (h : Hw) (jedec : Nat) (sfdp : Option (Nat × Nat × Nat)) : (Hw.nvmProbe h jedec sfdp).vault = h.vault := by unfold Hw.nvmProbe; (try dsimp only); simp [↓apply_ite Hw.vault, ↓Hw.foldl_vault]
@[simp ↓] theorem Hw.vault_progEnd (h : Hw) (err : Bool) : (Hw.progEnd h err).vault = h.vault := by unfold Hw.progEnd; (try dsimp only); simp [↓apply_ite Hw.vault, ↓Hw.foldl_vault]
@[simp ↓] theorem Hw.vault_partitionReset (h : Hw) (t : Nat) : (Hw.partitionReset h t).vault = h.vault := by unfold Hw.partitionReset; (try dsimp only); (repeat' split) <;> simp [↓apply_ite Hw.vault, ↓Hw.foldl_vault]
@[simp ↓] theorem Hw.vault_pcieLinkDown (h : Hw) : (Hw.pcieLinkDown h).vault = h.vault := by unfold Hw.pcieLinkDown; (try dsimp only); simp [↓apply_ite Hw.vault, ↓Hw.foldl_vault]
@[simp ↓] theorem Hw.vault_pcieLinkUp (h : Hw) (speed : Nat) (width : Nat) (ari : Bool) : (Hw.pcieLinkUp h speed width ari).vault = h.vault := by unfold Hw.pcieLinkUp; (try dsimp only); simp [↓apply_ite Hw.vault, ↓Hw.foldl_vault]
@[simp ↓] theorem Hw.vault_pciePllUnlock (h : Hw) : (Hw.pciePllUnlock h).vault = h.vault := by unfold Hw.pciePllUnlock; (try dsimp only); simp [↓apply_ite Hw.vault, ↓Hw.foldl_vault]
@[simp ↓] theorem Hw.vault_pcieTrain (h : Hw) : (Hw.pcieTrain h).vault = h.vault := by unfold Hw.pcieTrain; (try dsimp only); simp [↓apply_ite Hw.vault, ↓Hw.foldl_vault]
@[simp ↓] theorem Hw.vault_peerLeak (h : Hw) (p : Nat) : (Hw.peerLeak h p).vault = h.vault := by unfold Hw.peerLeak; (try dsimp only); simp [↓apply_ite Hw.vault, ↓Hw.foldl_vault]
@[simp ↓] theorem Hw.vault_pfD0 (h : Hw) : (Hw.pfD0 h).vault = h.vault := by unfold Hw.pfD0; (try dsimp only); simp [↓apply_ite Hw.vault, ↓Hw.foldl_vault]
@[simp ↓] theorem Hw.vault_pfD3hot (h : Hw) : (Hw.pfD3hot h).vault = h.vault := by unfold Hw.pfD3hot; (try dsimp only); simp [↓apply_ite Hw.vault, ↓Hw.foldl_vault]
@[simp ↓] theorem Hw.vault_phyActivate (h : Hw) (p : Nat) : (Hw.phyActivate h p).vault = h.vault := by unfold Hw.phyActivate; (try dsimp only); simp [↓apply_ite Hw.vault, ↓Hw.foldl_vault]
@[simp ↓] theorem Hw.vault_phyPllUnlock (h : Hw) (p : Port) : (Hw.phyPllUnlock h p).vault = h.vault := by unfold Hw.phyPllUnlock; (try dsimp only); simp [↓apply_ite Hw.vault, ↓Hw.foldl_vault]
@[simp ↓] theorem Hw.vault_phySleep (h : Hw) (p : Nat) (idle : Bool) : (Hw.phySleep h p idle).vault = h.vault := by unfold Hw.phySleep; (try dsimp only); simp [↓apply_ite Hw.vault, ↓Hw.foldl_vault]
@[simp ↓] theorem Hw.vault_phyWake (h : Hw) (p : Nat) : (Hw.phyWake h p).vault = h.vault := by unfold Hw.phyWake; (try dsimp only); simp [↓apply_ite Hw.vault, ↓Hw.foldl_vault]
@[simp ↓] theorem Hw.vault_pllLock (h : Hw) (w : PllId) : (Hw.pllLock h w).vault = h.vault := by unfold Hw.pllLock; (try dsimp only); simp [↓apply_ite Hw.vault, ↓Hw.foldl_vault]
@[simp ↓] theorem Hw.vault_pmcGongWrite (h : Hw) (p : Path) (op : Nat) (v : Word) : (Hw.pmcGongWrite h p op v).vault = h.vault := by unfold Hw.pmcGongWrite; (try dsimp only); simp [↓apply_ite Hw.vault, ↓Hw.foldl_vault]
@[simp ↓] theorem Hw.vault_portActive (h : Hw) (p : Nat) : (Hw.portActive h p).vault = h.vault := by unfold Hw.portActive; (try dsimp only); simp [↓apply_ite Hw.vault, ↓Hw.foldl_vault]
@[simp ↓] theorem Hw.vault_portRelease (h : Hw) (i : Nat) : (Hw.portRelease h i).vault = h.vault := by unfold Hw.portRelease; (try dsimp only); simp [↓apply_ite Hw.vault, ↓Hw.foldl_vault]
@[simp ↓] theorem Hw.vault_portResetBegins (h : Hw) (k : Nat) : (Hw.portResetBegins h k).vault = h.vault := by unfold Hw.portResetBegins; (try dsimp only); simp [↓apply_ite Hw.vault, ↓Hw.foldl_vault]
@[simp ↓] theorem Hw.vault_portReset (h : Hw) (p : PortId) : (Hw.portReset h p).vault = h.vault := by unfold Hw.portReset; (try dsimp only); (repeat' split) <;> simp [↓apply_ite Hw.vault, ↓Hw.foldl_vault]
@[simp ↓] theorem Hw.vault_powerAdapt (h : Hw) (t : Nat) : (Hw.powerAdapt h t).vault = h.vault := by unfold Hw.powerAdapt; (try dsimp only); (repeat' split) <;> simp [↓apply_ite Hw.vault, ↓Hw.foldl_vault]
@[simp ↓] theorem Hw.vault_powerAdaptAll (h : Hw) : (Hw.powerAdaptAll h).vault = h.vault := by unfold Hw.powerAdaptAll; (try dsimp only); simp [↓apply_ite Hw.vault, ↓Hw.foldl_vault]
@[simp ↓] theorem Hw.vault_powerRequest (h : Hw) (i : Nat) (demand : Nat) (draw : Nat) (early : Bool) : (Hw.powerRequest h i demand draw early).vault = h.vault := by unfold Hw.powerRequest; (try dsimp only); simp [↓apply_ite Hw.vault, ↓Hw.foldl_vault]
@[simp ↓] theorem Hw.vault_powerReport (h : Hw) (i : Nat) (demand : Nat) (draw : Nat) (early : Bool) : (Hw.powerReport h i demand draw early).vault = h.vault := by unfold Hw.powerReport; (try dsimp only); simp [↓apply_ite Hw.vault, ↓Hw.foldl_vault]
@[simp ↓] theorem Hw.vault_sensorIn (h : Hw) (k : Nat) (s : Nat × Nat × Bool) : (Hw.sensorIn h k s).vault = h.vault := by unfold Hw.sensorIn; (try dsimp only); simp [↓apply_ite Hw.vault, ↓Hw.foldl_vault]
@[simp ↓] theorem Hw.vault_powerWindow (h : Hw) (sensors : List (Nat × Nat × Bool)) (temp : Nat) : (Hw.powerWindow h sensors temp).vault = h.vault := by
 unfold Hw.powerWindow; split
 · rfl
 · dsimp only; rw [Hw.vault_sendIncreases, Hw.foldl_vault]
   · refine (Hw.vault_set_power _ _).trans ?_
     rw [Hw.foldl_vault]
     · rw [apply_ite Hw.vault]; simp [Hw.foldl_vault]
     · intro h x; simp
   · intro h x; simp
@[simp ↓] theorem Hw.vault_preambleRx (h : Hw) (p : Nat) (k : Nat) (signs : List Bool) (win : List Bool) : (Hw.preambleRx h p k signs win).vault = h.vault := by unfold Hw.preambleRx; (try dsimp only); simp [↓apply_ite Hw.vault, ↓Hw.foldl_vault]
@[simp ↓] theorem Hw.vault_progWrite (h : Hw) (p : Path) (v : Word) (dev : NvmDevice) : (Hw.progWrite h p v dev).vault = h.vault := by unfold Hw.progWrite; (try dsimp only); simp [↓apply_ite Hw.vault, ↓Hw.foldl_vault]
@[simp ↓] theorem Hw.vault_readRequest (h : Hw) (p : Path) (addr : Nat) (len : Nat) (enables : Bool) : (Hw.readRequest h p addr len enables).vault = h.vault := by unfold Hw.readRequest; (try dsimp only); simp [↓apply_ite Hw.vault, ↓Hw.foldl_vault]
@[simp ↓] theorem Hw.vault_recvDone (h : Hw) (i : Nat) (tag : Nat) : (Hw.recvDone h i tag).vault = h.vault := by unfold Hw.recvDone; (try dsimp only); (repeat' split) <;> simp [↓apply_ite Hw.vault, ↓Hw.foldl_vault]
@[simp ↓] theorem Hw.vault_regRequest (h : Hw) (p : Path) (addr : Nat) (write : Option Word) (errs : List CErr) (crossed : Bool) : (Hw.regRequest h p addr write errs crossed).vault = h.vault := by
 unfold Hw.regRequest; dsimp only; split
 · rfl
 · split
   · rename_i hq; have := congrArg (·.1.vault) hq; simpa using this.symm
   · rename_i g pkt hq; have := congrArg (·.1.vault) hq
     refine (Hw.vault_set_cnet _ _).trans ?_
     rw [Hw.vault_setPath]
     have hg : g.vault = h.vault := by simpa using this.symm
     (repeat' split) <;> simp [hg]
@[simp ↓] theorem Hw.vault_regResponse (h : Hw) (p : Path) (errs : List CErr) (crossed : Bool) : (Hw.regResponse h p errs crossed).vault = h.vault := by
 unfold Hw.regResponse; split
 · rfl
 · dsimp only; split
   · rename_i hq; have := congrArg (·.1.vault) hq; simp at this; exact this.symm
   · rename_i g pkt hq; have := congrArg (·.1.vault) hq
     have hg : g.vault = h.vault := by simp at this; exact this.symm
     (repeat' split) <;> simp [hg]
@[simp ↓] theorem Hw.vault_relayDequeue (h : Hw) (merge : Bool) : (Hw.relayDequeue h merge).vault = h.vault := by
 unfold Hw.relayDequeue; split
 · rfl
 · dsimp only; split
   · rw [Hw.vault_relayStatus]; rfl
   · generalize hq : Hw.chDequeue _ _ _ _ _ = r; obtain ⟨g, r⟩ := r
     have hv := Hw.vault_of_pair hq (Hw.vault_chDequeue _ _ _ _ _); rw [Hw.vault_set_host] at hv; cases r <;> simp [Hw.foldl_vault, hv]
@[simp ↓] theorem Hw.vault_relaySend (h : Hw) : (Hw.relaySend h).vault = h.vault := by
 unfold Hw.relaySend; split
 · rfl
 · dsimp only; split
   · rw [Hw.vault_relayStatus]; rfl
   · split <;> (rename_i hq; have := congrArg (·.1.vault) hq; rw [Hw.vault_chSend, Hw.vault_set_host] at this; simp [← this])
@[simp ↓] theorem Hw.vault_relayWrites (h : Hw) (rx : Bool) (w : Option (Path × BitVec 12)) : (Hw.relayWrites h rx w).vault = h.vault := by unfold Hw.relayWrites; (try dsimp only); (repeat' split) <;> simp [↓apply_ite Hw.vault, ↓Hw.foldl_vault]
@[simp ↓] theorem Hw.vault_releaseAll (h : Hw) (t : Nat) : (Hw.releaseAll h t).vault = h.vault := by
 unfold Hw.releaseAll; dsimp only; rw [Hw.foldl_vault]
 · refine (Hw.vault_units _ _ _).trans ?_
   simp [Hw.foldl_vault]
 · intro h x; simp
@[simp ↓] theorem Hw.vault_releaseStewards (h : Hw) : (Hw.releaseStewards h).vault = h.vault := by unfold Hw.releaseStewards; (try dsimp only); simp [↓apply_ite Hw.vault, ↓Hw.foldl_vault]
@[simp ↓] theorem Hw.vault_remoteNotice (h : Hw) (t : Nat) (gen : Nat) (cause : Nat) (node : Nat) (origin : Nat) : (Hw.remoteNotice h t gen cause node origin).vault = h.vault := by unfold Hw.remoteNotice; (try dsimp only); simp [↓apply_ite Hw.vault, ↓Hw.foldl_vault]
@[simp ↓] theorem Hw.vault_remoteFault (h : Hw) (q : Nat) : (Hw.remoteFault h q).vault = h.vault := by
 unfold Hw.remoteFault; split
 · split
   · rfl
   · split
     · rfl
     · rename_i g1 hq; have h1 := Hw.vault_of_torusRx hq
       split
       · simp [h1]
       · rename_i hr; dsimp only; (repeat' split) <;> simp [Hw.foldl_vault, Hw.vault_of_gongRemote hr, h1]
 · rfl
@[simp ↓] theorem Hw.vault_replayTimeout (h : Hw) (p : Nat) : (Hw.replayTimeout h p).vault = h.vault := by unfold Hw.replayTimeout; (try dsimp only); (repeat' split) <;> simp [↓apply_ite Hw.vault, ↓Hw.foldl_vault]
@[simp ↓] theorem Hw.vault_reply (h : Hw) (via : Option (Nat × Nat)) (b : List Byte) : (Hw.reply h via b).vault = h.vault := by unfold Hw.reply; (try dsimp only); (repeat' split) <;> simp [↓apply_ite Hw.vault, ↓Hw.foldl_vault]
@[simp ↓] theorem Hw.vault_resetRequest (h : Hw) (p : Path) (kind : Nat) : (Hw.resetRequest h p kind).vault = h.vault := by unfold Hw.resetRequest; (try dsimp only); (repeat' split) <;> simp [↓apply_ite Hw.vault, ↓Hw.foldl_vault]
@[simp ↓] theorem Hw.vault_returnTimeout (h : Hw) (p : Nat) : (Hw.returnTimeout h p).vault = h.vault := by unfold Hw.returnTimeout; (try dsimp only); (repeat' split) <;> simp [↓apply_ite Hw.vault, ↓Hw.foldl_vault]
@[simp ↓] theorem Hw.vault_rewakeCmd (h : Hw) (p : Nat) : (Hw.rewakeCmd h p).vault = h.vault := by
 unfold Hw.rewakeCmd; split
 · rfl
 · rename_i hq; have := Hw.vault_of_takeCmd hq; (repeat' split) <;> simp [this]
@[simp ↓] theorem Hw.vault_ringPartial (h : Hw) (q : Nat) : (Hw.ringPartial h q).vault = h.vault := by
 unfold Hw.ringPartial; split
 · rfl
 · rename_i hq; have h1 := Hw.vault_of_torusRx hq
   dsimp only; (repeat' split) <;> simp [h1]
@[simp ↓] theorem Hw.vault_seqRefresh (h : Hw) (q : Nat) (j : Nat) : (Hw.seqRefresh h q j).vault = h.vault := by unfold Hw.seqRefresh; (try dsimp only); simp [↓apply_ite Hw.vault, ↓Hw.foldl_vault]
@[simp ↓] theorem Hw.vault_seqRefreshAll (h : Hw) : (Hw.seqRefreshAll h).vault = h.vault := by unfold Hw.seqRefreshAll; (try dsimp only); simp [↓apply_ite Hw.vault, ↓Hw.foldl_vault]
@[simp ↓] theorem Hw.vault_ringRelay (h : Hw) (n : Nat) (r : Nat) (port : Nat) (sel : Nat) : (Hw.ringRelay h n r port sel).vault = h.vault := by unfold Hw.ringRelay; (try dsimp only); (repeat' split) <;> simp [↓apply_ite Hw.vault, ↓Hw.foldl_vault]
@[simp ↓] theorem Hw.vault_rootUnlock (h : Hw) : (Hw.rootUnlock h).vault = h.vault := by unfold Hw.rootUnlock; (try dsimp only); simp [↓apply_ite Hw.vault, ↓Hw.foldl_vault]
@[simp ↓] theorem Hw.vault_startPorts (h : Hw) : (Hw.startPorts h).vault = h.vault := by unfold Hw.startPorts; (try dsimp only); simp [↓apply_ite Hw.vault, ↓Hw.foldl_vault]
@[simp ↓] theorem Hw.vault_samplePreload (h : Hw) (nvm : BitVec 12) (nvmOn : Bool) (dq : BitVec 9) (load : BitVec 28) : (Hw.samplePreload h nvm nvmOn dq load).vault = h.vault := by unfold Hw.samplePreload; (try dsimp only); simp [↓apply_ite Hw.vault, ↓Hw.foldl_vault]
@[simp ↓] theorem Hw.vault_sbAcqDone (h : Hw) (p : Nat) (ms : List LaneMeas) : (Hw.sbAcqDone h p ms).vault = h.vault := by unfold Hw.sbAcqDone; (try dsimp only); (repeat' split) <;> simp [↓apply_ite Hw.vault, ↓Hw.foldl_vault]
@[simp ↓] theorem Hw.vault_sbLost (h : Hw) (p : Nat) : (Hw.sbLost h p).vault = h.vault := by unfold Hw.sbLost; (try dsimp only); simp [↓apply_ite Hw.vault, ↓Hw.foldl_vault]
@[simp ↓] theorem Hw.vault_sbTimedOut (h : Hw) (p : Nat) : (Hw.sbTimedOut h p).vault = h.vault := by unfold Hw.sbTimedOut; (try dsimp only); (repeat' split) <;> simp [↓apply_ite Hw.vault, ↓Hw.foldl_vault]
@[simp ↓] theorem Hw.vault_sbUnitRx (h : Hw) (p : Nat) (k : Nat) (part : Nat) (u : BitVec 64) : (Hw.sbUnitRx h p k part u).vault = h.vault := by unfold Hw.sbUnitRx; (try dsimp only); simp [↓apply_ite Hw.vault, ↓Hw.foldl_vault]
@[simp ↓] theorem Hw.vault_sendDone (h : Hw) (i : Nat) (tag : Nat) : (Hw.sendDone h i tag).vault = h.vault := by unfold Hw.sendDone; (try dsimp only); (repeat' split) <;> simp [↓apply_ite Hw.vault, ↓Hw.foldl_vault]
@[simp ↓] theorem Hw.vault_seqArm (h : Hw) (q : Nat) (j : Nat) : (Hw.seqArm h q j).vault = h.vault := by unfold Hw.seqArm; (try dsimp only); simp [↓apply_ite Hw.vault, ↓Hw.foldl_vault]
@[simp ↓] theorem Hw.vault_seqArrive (h : Hw) (q : Nat) : (Hw.seqArrive h q).vault = h.vault := by unfold Hw.seqArrive; (try dsimp only); (repeat' split) <;> simp [↓apply_ite Hw.vault, ↓Hw.foldl_vault]
@[simp ↓] theorem Hw.vault_seqReport (h : Hw) (i : Nat) (k : Nat) (start : Bool) (moved : Nat) : (Hw.seqReport h i k start moved).vault = h.vault := by unfold Hw.seqReport; (try dsimp only); simp [↓apply_ite Hw.vault, ↓Hw.foldl_vault]
@[simp ↓] theorem Hw.vault_serviceBad (h : Hw) (via : Option (Nat × Nat)) : (Hw.serviceBad h via).vault = h.vault := by unfold Hw.serviceBad; (try dsimp only); (repeat' split) <;> simp [↓apply_ite Hw.vault, ↓Hw.foldl_vault]
@[simp ↓] theorem Hw.vault_toHost (h : Hw) (a : Nat) (bs : List Byte) : (Hw.toHost h a bs).vault = h.vault := by unfold Hw.toHost; (try dsimp only); simp [↓apply_ite Hw.vault, ↓Hw.foldl_vault]
theorem Hw.vault_serve (h : Hw) (via : Option (Nat × Nat)) (code : Nat) (f : Hw → List Byte → Served) (hf : ∀ h b, (f h b).1.vault = h.vault) :
    (h.serve via code f).vault = h.vault := by
  unfold Hw.serve; split
  · rfl
  · dsimp only; split
    · rfl
    · rw [Hw.vault_reply]; split <;> simp [hf]
@[simp ↓] theorem Hw.vault_serviceDump (h : Hw) (via : Option (Nat × Nat)) (ok : Bool) : (Hw.serviceDump h via ok).vault = h.vault := by
 unfold Hw.serviceDump; apply Hw.vault_serve; intro h b; dsimp only; (repeat' split) <;> simp
@[simp ↓] theorem Hw.vault_serviceHang (h : Hw) (via : Option (Nat × Nat)) (ok : Bool) : (Hw.serviceHang h via ok).vault = h.vault := by
 unfold Hw.serviceHang; apply Hw.vault_serve; intro h b; dsimp only; (repeat' split) <;> simp
@[simp ↓] theorem Hw.vault_serviceInfo (h : Hw) (via : Option (Nat × Nat)) : (Hw.serviceInfo h via).vault = h.vault := by
 unfold Hw.serviceInfo; apply Hw.vault_serve; intro h b; rfl
@[simp ↓] theorem Hw.vault_serviceNvmRead (h : Hw) (via : Option (Nat × Nat)) (ok : Bool) (timeout : Bool) : (Hw.serviceNvmRead h via ok timeout).vault = h.vault := by
 unfold Hw.serviceNvmRead; apply Hw.vault_serve; intro h b; dsimp only; (repeat' split) <;> simp
@[simp ↓] theorem Hw.vault_serviceRetire (h : Hw) (via : Option (Nat × Nat)) : (Hw.serviceRetire h via).vault = h.vault := by
 unfold Hw.serviceRetire; apply Hw.vault_serve; intro h b; (repeat' split) <;> simp
@[simp ↓] theorem Hw.vault_slabLaneRead (h : Hw) (i : Nat) (line : Nat) (err : PadErr) (ce : Bool) : (Hw.slabLaneRead h i line err ce).vault = h.vault := by unfold Hw.slabLaneRead; (try dsimp only); simp [↓apply_ite Hw.vault, ↓Hw.foldl_vault]
@[simp ↓] theorem Hw.vault_slabReturn (h : Hw) (i : Nat) (ue : Bool) : (Hw.slabReturn h i ue).vault = h.vault := by unfold Hw.slabReturn; (try dsimp only); (repeat' split) <;> simp [↓apply_ite Hw.vault, ↓Hw.foldl_vault]
@[simp ↓] theorem Hw.vault_slotAttempt (h : Hw) (errs : List (Nat × Byte)) (errs2 : List (Nat × Byte)) : (Hw.slotAttempt h errs errs2).vault = h.vault := by unfold Hw.slotAttempt; (try dsimp only); (repeat' split) <;> simp [↓apply_ite Hw.vault, ↓Hw.foldl_vault]
@[simp ↓] theorem Hw.vault_slotTable (h : Hw) : (Hw.slotTable h).vault = h.vault := by unfold Hw.slotTable; (try dsimp only); (repeat' split) <;> simp [↓apply_ite Hw.vault, ↓Hw.foldl_vault]
@[simp ↓] theorem Hw.vault_startBells (h : Hw) (t : Nat) : (Hw.startBells h t).vault = h.vault := by unfold Hw.startBells; (try dsimp only); simp [↓apply_ite Hw.vault, ↓Hw.foldl_vault]
@[simp ↓] theorem Hw.vault_startGrant (h : Hw) (t : Nat) : (Hw.startGrant h t).vault = h.vault := by unfold Hw.startGrant; (try dsimp only); simp [↓apply_ite Hw.vault, ↓Hw.foldl_vault]
@[simp ↓] theorem Hw.vault_startTimeout (h : Hw) (t : Nat) : (Hw.startTimeout h t).vault = h.vault := by unfold Hw.startTimeout; (try dsimp only); simp [↓apply_ite Hw.vault, ↓Hw.foldl_vault]
@[simp ↓] theorem Hw.vault_sweepDone (h : Hw) (t : Nat) : (Hw.sweepDone h t).vault = h.vault := by unfold Hw.sweepDone; (try dsimp only); simp [↓apply_ite Hw.vault, ↓Hw.foldl_vault]
@[simp ↓] theorem Hw.vault_syncContribute (h : Hw) (i : Nat) (s : Nat) : (Hw.syncContribute h i s).vault = h.vault := by unfold Hw.syncContribute; (try dsimp only); (repeat' split) <;> simp [↓apply_ite Hw.vault, ↓Hw.foldl_vault]
@[simp ↓] theorem Hw.vault_tailComplete (h : Hw) (i : Nat) (tag : Nat) : (Hw.tailComplete h i tag).vault = h.vault := by unfold Hw.tailComplete; (try dsimp only); (repeat' split) <;> simp [↓apply_ite Hw.vault, ↓Hw.foldl_vault]
@[simp ↓] theorem Hw.vault_tailStart (h : Hw) (i : Nat) (tag : Nat) (ueAt : Option Nat) : (Hw.tailStart h i tag ueAt).vault = h.vault := by unfold Hw.tailStart; (try dsimp only); (repeat' split) <;> simp [↓apply_ite Hw.vault, ↓Hw.foldl_vault]
@[simp ↓] theorem Hw.vault_tapReset (h : Hw) : (Hw.tapReset h).vault = h.vault := by unfold Hw.tapReset; (try dsimp only); simp [↓apply_ite Hw.vault, ↓Hw.foldl_vault]
@[simp ↓] theorem Hw.vault_tclkOutOfRange (h : Hw) (i : Nat) : (Hw.tclkOutOfRange h i).vault = h.vault := by unfold Hw.tclkOutOfRange; (try dsimp only); simp [↓apply_ite Hw.vault, ↓Hw.foldl_vault]
@[simp ↓] theorem Hw.vault_tclkStartTimeout (h : Hw) (i : Nat) : (Hw.tclkStartTimeout h i).vault = h.vault := by unfold Hw.tclkStartTimeout; (try dsimp only); simp [↓apply_ite Hw.vault, ↓Hw.foldl_vault]
@[simp ↓] theorem Hw.vault_thawDue (h : Hw) : (Hw.thawDue h).vault = h.vault := by unfold Hw.thawDue; (try dsimp only); (repeat' split) <;> simp [↓apply_ite Hw.vault, ↓Hw.foldl_vault]
@[simp ↓] theorem Hw.vault_thermN (h : Hw) (level : Bool) : (Hw.thermN h level).vault = h.vault := by unfold Hw.thermN; (try dsimp only); simp [↓apply_ite Hw.vault, ↓Hw.foldl_vault]
@[simp ↓] theorem Hw.vault_tileCredit (h : Hw) (i : Nat) (co : Bool) (k : Nat) : (Hw.tileCredit h i co k).vault = h.vault := by unfold Hw.tileCredit; (try dsimp only); simp [↓apply_ite Hw.vault, ↓Hw.foldl_vault]
@[simp ↓] theorem Hw.vault_tileFault (h : Hw) (i : Nat) (code : Nat) (early : Bool) : (Hw.tileFault h i code early).vault = h.vault := by unfold Hw.tileFault; (try dsimp only); simp [↓apply_ite Hw.vault, ↓Hw.foldl_vault]
@[simp ↓] theorem Hw.vault_timerDue (h : Hw) (k : Nat) : (Hw.timerDue h k).vault = h.vault := by unfold Hw.timerDue; (try dsimp only); simp [↓apply_ite Hw.vault, ↓Hw.foldl_vault]
@[simp ↓] theorem Hw.vault_trainUnit (h : Hw) (p : Nat) (u : BitVec 64) : (Hw.trainUnit h p u).vault = h.vault := by unfold Hw.trainUnit; (try dsimp only); simp [↓apply_ite Hw.vault, ↓Hw.foldl_vault]
@[simp ↓] theorem Hw.vault_upCombine (h : Hw) (n : Nat) (s : Nat) (err : MeshErr) : (Hw.upCombine h n s err).vault = h.vault := by unfold Hw.upCombine; (try dsimp only); (repeat' split) <;> simp [↓apply_ite Hw.vault, ↓Hw.foldl_vault]
@[simp ↓] theorem Hw.vault_vfReset (h : Hw) (t : Nat) : (Hw.vfReset h t).vault = h.vault := by unfold Hw.vfReset; (try dsimp only); simp [↓apply_ite Hw.vault, ↓Hw.foldl_vault]
@[simp ↓] theorem Hw.vault_vfDisable (h : Hw) (vfs : List Tenant) : (Hw.vfDisable h vfs).vault = h.vault := by unfold Hw.vfDisable; (try dsimp only); simp [↓apply_ite Hw.vault, ↓Hw.foldl_vault]
@[simp ↓] theorem Hw.vault_violLeak (h : Hw) (i : Nat) : (Hw.violLeak h i).vault = h.vault := by unfold Hw.violLeak; (try dsimp only); simp [↓apply_ite Hw.vault, ↓Hw.foldl_vault]
@[simp ↓] theorem Hw.vault_waitExpiry (h : Hw) (p : Nat) : (Hw.waitExpiry h p).vault = h.vault := by unfold Hw.waitExpiry; (try dsimp only); simp [↓apply_ite Hw.vault, ↓Hw.foldl_vault]
@[simp ↓] theorem Hw.vault_windowClose (h : Hw) (i : Nat) : (Hw.windowClose h i).vault = h.vault := by unfold Hw.windowClose; (try dsimp only); simp [↓apply_ite Hw.vault, ↓Hw.foldl_vault]
@[simp ↓] theorem Hw.vault_writeWords (h : Hw) (p : Path) (addr : Nat) (dev : NvmDevice) (x4 : List Word) : (Hw.writeWords h p addr dev x4).vault = h.vault := by
 induction x4 generalizing h addr with
 | nil => rfl
 | cons w ws ih => unfold Hw.writeWords; simp [ih]
@[simp ↓] theorem Hw.vault_writeRequest (h : Hw) (p : Path) (addr : Nat) (data : List Word) (enables : Bool) (dev : NvmDevice) : (Hw.writeRequest h p addr data enables dev).vault = h.vault := by unfold Hw.writeRequest; (try dsimp only); simp [↓apply_ite Hw.vault, ↓Hw.foldl_vault]

end Sys2Proof.Machine
end

