-- ==== Sys2Proof/Laws/Kept.lean ====
section
/-! SUPPORT. The operations that do change the lasting store (Hw.vault), and that each keeps it sound: the memories stay in their canonical
form, no burned fuse bit is taken back, the bar counter stays in range. -/

namespace Sys2Proof.Machine

/-- What v' keeps of the lasting store v. -/
structure Kept (v v' : FuseArray × List Host.Cell × List Host.Cell × List Host.Cell × BarState) : Prop where
  fuses : v.1.Grows v'.1
  nvm : Memory.wf nvmByte v.2.1 = true → Memory.wf nvmByte v'.2.1 = true
  slab : Memory.wf 0#8 v.2.2.1 = true → Memory.wf 0#8 v'.2.2.1 = true
  hbm : Memory.wf 0#8 v.2.2.2.1 = true → Memory.wf 0#8 v'.2.2.2.1 = true
  bar : v.2.2.2.2.InRange → v'.2.2.2.2.InRange

theorem bitsKept_refl (v : Word) : bitsKept v v := fun _ h => h

theorem bitsKept_or (u v w : Word) (h : bitsKept u v) : bitsKept u (v ||| w) := fun i hi => by simp [h i hi]

theorem bitsKept_trans {u v w : Word} (h : bitsKept u v) (h' : bitsKept v w) : bitsKept u w := fun i hi => h' i (h i hi)

theorem FuseArray.Grows.rfl' (f : FuseArray) : f.Grows f :=
  ⟨bitsKept_refl _, bitsKept_refl _, Nat.le_refl _, fun _ _ => bitsKept_refl _, rfl, rfl, rfl, rfl⟩

theorem FuseArray.Grows.trans {f g k : FuseArray} (a : f.Grows g) (b : g.Grows k) : f.Grows k :=
  ⟨bitsKept_trans a.1 b.1, bitsKept_trans a.2.1 b.2.1, Nat.le_trans a.2.2.1 b.2.2.1,
    fun i hi => bitsKept_trans (a.2.2.2.1 i hi) (b.2.2.2.1 i hi), b.2.2.2.2.1.trans a.2.2.2.2.1, b.2.2.2.2.2.1.trans a.2.2.2.2.2.1,
    b.2.2.2.2.2.2.1.trans a.2.2.2.2.2.2.1, b.2.2.2.2.2.2.2.trans a.2.2.2.2.2.2.2⟩

/-- A burn takes back no bit (R235, R236). -/
theorem FuseArray.grows_burn (f : FuseArray) (row : Nat) (d : Word) : f.Grows (f.burn row d) := by
  unfold FuseArray.burn
  (repeat' split)
  · exact ⟨bitsKept_or _ _ _ (bitsKept_refl _), bitsKept_refl _, Nat.le_refl _, fun _ _ => bitsKept_refl _, rfl, rfl, rfl, rfl⟩
  · refine ⟨bitsKept_refl _, bitsKept_refl _, Nat.le_refl _, fun i hi => ?_, rfl, rfl, rfl, rfl⟩
    simp only [List.getD_eq_getElem?_getD, List.getElem?_map, List.getElem?_range hi, Option.map_some, Option.getD_some]
    exact bitsKept_or _ _ _ (bitsKept_refl _)
  · exact ⟨bitsKept_refl _, bitsKept_refl _, Nat.le_max_left _ _, fun _ _ => bitsKept_refl _, rfl, rfl, rfl, rfl⟩
  · exact ⟨bitsKept_refl _, bitsKept_or _ _ _ (bitsKept_refl _), Nat.le_refl _, fun _ _ => bitsKept_refl _, rfl, rfl, rfl, rfl⟩
  · exact .rfl' f

theorem FuseArray.Grows.idle {f g : FuseArray} (h : f.Grows g) (a : Option (Nat × Word)) :
    ({ f with burning := a } : FuseArray).Grows { ({ g with burning := none } : FuseArray) with burning := a } := h

theorem Kept.rfl' (v) : Kept v v := ⟨.rfl' _, id, id, id, id⟩

variable {v : FuseArray × List Host.Cell × List Host.Cell × List Host.Cell × BarState}

theorem Kept.setFuse {f g n s m b} (h : Kept v (f, n, s, m, b)) (hg : f.Grows g) : Kept v (g, n, s, m, b) :=
  ⟨h.fuses.trans hg, h.nvm, h.slab, h.hbm, h.bar⟩

theorem Kept.setNvm {f n n' s m b} (h : Kept v (f, n, s, m, b)) (hn : Memory.wf nvmByte n = true → Memory.wf nvmByte n' = true) :
    Kept v (f, n', s, m, b) := ⟨h.fuses, fun x => hn (h.nvm x), h.slab, h.hbm, h.bar⟩

theorem Kept.setSlab {f n s s' m b} (h : Kept v (f, n, s, m, b)) (hn : Memory.wf 0#8 s = true → Memory.wf 0#8 s' = true) :
    Kept v (f, n, s', m, b) := ⟨h.fuses, h.nvm, fun x => hn (h.slab x), h.hbm, h.bar⟩

theorem Kept.setHbm {f n s m m' b} (h : Kept v (f, n, s, m, b)) (hn : Memory.wf 0#8 m = true → Memory.wf 0#8 m' = true) :
    Kept v (f, n, s, m', b) := ⟨h.fuses, h.nvm, h.slab, fun x => hn (h.hbm x), h.bar⟩

theorem Kept.setBar {f n s m b b'} (h : Kept v (f, n, s, m, b)) (hb : b.InRange → b'.InRange) : Kept v (f, n, s, m, b') :=
  ⟨h.fuses, h.nvm, h.slab, h.hbm, fun x => hb (h.bar x)⟩

theorem Hw.kept_cells (h : Hw) (n : List Host.Cell) (hk : Kept v h.vault) (hn : Memory.wf nvmByte h.nvm.cells = true → Memory.wf nvmByte n = true) :
    Kept v ({ h with nvm := { h.nvm with cells := n } } : Hw).vault := Kept.setNvm hk hn

theorem Hw.kept_bar (h : Hw) (b : BarState) (hk : Kept v h.vault) (hb : h.bar.InRange → b.InRange) : Kept v ({ h with bar := b } : Hw).vault :=
  Kept.setBar hk hb

theorem kept_foldl (l : List α) (g : Hw → α → Hw) (hg : ∀ h x, Kept v h.vault → Kept v (g h x).vault) :
    ∀ h, Kept v h.vault → Kept v (l.foldl g h).vault := by
  induction l with
  | nil => intro h hk; exact hk
  | cons a l ih => intro h hk; exact ih _ (hg _ _ hk)

theorem Hw.kept_clocked (h : Hw) (f : Hw → Hw) (hk : Kept v h.vault) (hf : Kept v (f h).vault) : Kept v (h.clocked f).vault := by
  unfold Hw.clocked; split
  · exact hk
  · exact hf

/-! The memories. -/

theorem Hw.kept_slabWrite (h : Hw) (a : Nat) (bs : List Byte) (hk : Kept v h.vault) : Kept v (h.slabWrite a bs).vault :=
  Kept.setSlab hk (Memory.wf_memWrite _ _ _ _)

theorem Hw.kept_granuleZero (h : Hw) (u g : Nat) (hk : Kept v h.vault) : Kept v (h.granuleZero u g).vault := by
  unfold Hw.granuleZero; split
  · rw [Hw.vault_modReg]; exact Kept.setHbm hk (Memory.wf_memClear _ _ _ _)
  · exact hk

theorem Hw.kept_hbmWrite (h : Hw) (a : Nat) (bs : List Byte) (hk : Kept v h.vault) : Kept v (h.hbmWrite a bs).vault :=
  Kept.setHbm (h.kept_granuleZero _ _ hk) (Memory.wf_memWrite _ _ _ _)

theorem Hw.kept_pageZeroDone (h : Hw) (p : Nat) (hk : Kept v h.vault) : Kept v (h.pageZeroDone p).vault := by
  unfold Hw.pageZeroDone; split
  · exact Kept.setSlab hk (Memory.wf_memClear _ _ _ _)
  · exact hk

theorem Hw.kept_zeroNext (h : Hw) (m : Nat) (hk : Kept v h.vault) : Kept v (h.zeroNext m).vault := by
  unfold Hw.zeroNext; split
  · exact h.kept_granuleZero _ _ hk
  · exact hk

theorem Hw.kept_scrubDone (h : Hw) (hk : Kept v h.vault) : Kept v h.scrubDone.vault := by
  unfold Hw.scrubDone; split
  · exact hk
  · exact Kept.setSlab hk (fun _ => rfl)

theorem Hw.kept_patrolUe (h : Hw) (n p : Nat) (hk : Kept v h.vault) : Kept v (h.patrolUe n p).vault := by
  unfold Hw.patrolUe; split
  · rw [Hw.vault_slabUe]; exact hk
  · extract_lets g
    have gk : Kept v g.vault := (congrArg (Kept v) ((Hw.vault_retirePage _ _).trans (Hw.vault_modReg _ _ _ _ _))).mpr hk
    exact Kept.setSlab gk (Memory.wf_memClear _ _ _ _)

theorem Hw.kept_patrol (h : Hw) (i ce : Nat) (ue : Bool) (hk : Kept v h.vault) : Kept v (h.patrol i ce ue).vault := by
  have e : ∀ (g : Hw) (p : Nat), Kept v g.vault → Kept v ((List.range ce).foldl (fun h _ => h.slabCe p) g).vault := fun g p gk => by
    rw [Hw.foldl_vault _ _ (fun h x => Hw.vault_slabCe h _)]; exact gk
  have m : ∀ (n : Nat) (f : Word → Word), Kept v (h.modReg .slbScrub n 0 f).vault := fun n f => by rw [Hw.vault_modReg]; exact hk
  unfold Hw.patrol; split
  · exact hk
  · split
    · exact Hw.kept_patrolUe _ _ _ (e _ _ (m _ _))
    · exact e _ _ (m _ _)

theorem Memory.wf_nvmProgram (m : List Host.Cell) (a : Nat) (bs : List Byte) (h : Memory.wf nvmByte m = true) :
    Memory.wf nvmByte (nvmProgram m a bs) = true := Memory.wf_memWrite _ _ _ _ h

theorem Memory.wf_nvmOpen (k : Nat) : ∀ (a f : Nat) (m : List Host.Cell), Memory.wf nvmByte m = true → Memory.wf nvmByte (nvmOpen k a f m) = true := by
  induction k with
  | zero => intro a f m h; exact h
  | succ k ih => intro a f m h; exact ih _ _ _ (Memory.wf_memSet _ _ _ _ h)

theorem Hw.kept_nvmPages (h : Hw) (a : Nat) (bs : List Byte) (hk : Kept v h.vault) : Kept v (h.nvmPages a bs).vault :=
  Kept.setNvm hk (Memory.wf_nvmProgram _ _ _)

theorem Hw.kept_nvmSpoil (h : Hw) (a span : Nat) (hk : Kept v h.vault) : Kept v (h.nvmSpoil a span).vault :=
  Kept.setNvm hk (Memory.wf_nvmOpen _ _ _ _)

theorem Hw.kept_nvmCut (h : Hw) (hk : Kept v h.vault) : Kept v h.nvmCut.vault := by
  unfold Hw.nvmCut; split
  · exact hk
  · split
    · exact Kept.setNvm hk (Memory.wf_nvmOpen _ _ _ _)
    · exact hk

theorem Hw.kept_progPerform (h : Hw) (cmd a : Nat) (hk : Kept v h.vault) : Kept v (h.progPerform cmd a).vault := by
  unfold Hw.progPerform
  by_cases h1 : cmd = 1
  · rw [if_pos h1, Hw.vault_loadBuf]; exact hk
  rw [if_neg h1]
  by_cases h2 : cmd = 2
  · rw [if_pos h2]; exact Hw.kept_cells _ _ hk (fun w => Memory.wf_nvmProgram h.nvm.cells a h.progBuf w)
  rw [if_neg h2]
  by_cases h3 : cmd = 3
  · rw [if_pos h3]; exact Hw.kept_cells _ _ hk (fun w => Memory.wf_memClear nvmByte h.nvm.cells a 4096 w)
  rw [if_neg h3]
  by_cases h4 : cmd = 4
  · rw [if_pos h4]; exact Hw.kept_cells _ _ hk (fun w => Memory.wf_memClear nvmByte h.nvm.cells a 65536 w)
  rw [if_neg h4]; exact hk

theorem Hw.kept_progDone (h : Hw) (timeout : Bool) (hk : Kept v h.vault) : Kept v (h.progDone timeout).vault := by
  unfold Hw.progDone; split
  · exact hk
  · split
    · rw [Hw.vault_progEnd]; exact h.kept_nvmCut hk
    · rw [Hw.vault_progEnd]; exact h.kept_progPerform _ _ hk

theorem Hw.kept_nvmTimeout (h : Hw) (copy : Nat) (hk : Kept v h.vault) : Kept v (h.nvmTimeout copy).vault := by
  unfold Hw.nvmTimeout; (repeat' split)
  · exact h.kept_progDone _ hk
  · exact hk
  · rw [Hw.vault_failSlot, Hw.vault_beginAttempt]; exact hk
  · exact hk
  · exact hk

theorem Hw.kept_serve (h : Hw) (via : Option (Nat × Nat)) (code : Nat) (f : Hw → List Byte → Served) (hk : Kept v h.vault)
    (hf : ∀ b, Kept v (f h b).1.vault) : Kept v (h.serve via code f).vault := by
  unfold Hw.serve; split
  · exact hk
  · dsimp only; split
    · exact hk
    · rw [Hw.vault_reply]; split
      · exact hk
      · exact hf _

theorem Hw.kept_serviceNvmWrite (h : Hw) (via : Option (Nat × Nat)) (data : List Byte) (stop : Option (Nat × Bool)) (hk : Kept v h.vault) :
    Kept v (h.serviceNvmWrite via data stop).vault := by
  apply h.kept_serve via _ _ hk
  intro b; dsimp only
  (repeat' split) <;> first | exact hk | exact h.kept_nvmPages _ _ hk | exact Hw.kept_nvmSpoil _ _ _ (h.kept_nvmPages _ _ hk)

theorem Hw.kept_serviceNvmErase (h : Hw) (via : Option (Nat × Nat)) (stop : Option Nat) (hk : Kept v h.vault) :
    Kept v (h.serviceNvmErase via stop).vault := by
  have run : ∀ xs : List (Nat × Nat), Kept v (xs.foldl (fun (h : Hw) x =>
      { h with nvm := { h.nvm with cells := memClear h.nvm.cells x.1 x.2 } }) h).vault := fun xs =>
    kept_foldl xs (fun (h : Hw) x => { h with nvm := { h.nvm with cells := memClear h.nvm.cells x.1 x.2 } })
      (fun _ _ k => Kept.setNvm k (Memory.wf_memClear _ _ _ _)) h hk
  apply h.kept_serve via _ _ hk
  intro b; dsimp only
  (repeat' split) <;> first | exact hk | exact run _ | exact Hw.kept_nvmSpoil _ _ _ (run _)

/-! Mesh, memory path and movers. -/

theorem Hw.kept_bar2Write (h : Hw) (t off : Nat) (data : List (Option Byte)) (hk : Kept v h.vault) : Kept v (h.bar2Write t off data).vault := by
  unfold Hw.bar2Write; (repeat' split)
  · exact hk
  · exact hk
  · exact hk
  · rw [Hw.vault_msixPutBytes]; exact hk
  · dsimp only; (repeat' split)
    · rw [Hw.vault_bar2Refuse]; exact hk
    · exact h.kept_slabWrite _ _ hk
    · exact h.kept_hbmWrite _ _ hk
    · exact hk

theorem Hw.kept_moverSlabWrite (h : Hw) (i a : Nat) (bs : List Byte) (hk : Kept v h.vault) : Kept v (h.moverSlabWrite i a bs).1.vault := by
  unfold Hw.moverSlabWrite; dsimp only; (repeat' split)
  · exact h.kept_slabWrite _ _ hk
  · exact hk
  · exact hk

theorem Hw.kept_moveUnit (h : Hw) (i : Nat) (m : MoveOp) (hk : Kept v h.vault) : Kept v (h.moveUnit i m).vault := by
  have k : Kept v ((h.act (tileNode i) 6).binBytes i m.tag 128).vault := by rw [Hw.vault_binBytes, Hw.vault_act]; exact hk
  unfold Hw.moveUnit; dsimp only; (repeat' split)
  · rw [Hw.vault_memStart, Hw.vault_modPort]; exact k
  · rw [Hw.vault_memStart, Hw.vault_modPort]; exact k
  · rw [Hw.vault_modPort]; exact Hw.kept_moverSlabWrite _ _ _ _ k

theorem Hw.kept_moveRun (i id : Nat) (k : Nat) : ∀ h : Hw, Kept v h.vault → Kept v (h.moveRun i id k).vault := by
  induction k with
  | zero => intro h hk; exact hk
  | succ k ih =>
    intro h hk; unfold Hw.moveRun; split
    · split
      · exact hk
      · exact ih _ (h.kept_moveUnit _ _ hk)
    · exact hk

theorem Hw.kept_accept (h : Hw) (i op : Nat) (x : CmdHdr) (body : List (BitVec 64)) (lens : List Nat) (masks : List Nat) (go : Hw → Hw)
    (hk : Kept v h.vault) (hg : ∀ h, Kept v h.vault → Kept v (go h).vault) : Kept v (h.accept i op x body lens masks go).vault := by
  unfold Hw.accept; dsimp only
  by_cases h1 : (!h.portUp i) = true
  · rw [if_pos h1]; exact hk
  rw [if_neg h1]; split
  · simpa using hk
  split
  · simpa using hk
  split
  · simpa using hk
  rw [Hw.vault_ciTake]
  repeat' split
  case isFalse => apply hg; simpa using hk
  all_goals simpa using hk

theorem Hw.kept_cmdMove (h : Hw) (i : Nat) (x : CmdHdr) (body : List (BitVec 64)) (hk : Kept v h.vault) : Kept v (h.cmdMove i x body).vault := by
  apply h.kept_accept _ _ _ _ _ _ _ hk
  intro g gk; dsimp only; split
  · rw [Hw.vault_failCmd]; exact gk
  · split
    · rw [Hw.vault_failCmd]; exact gk
    apply Hw.kept_moveRun; rw [Hw.vault_modPort, Hw.vault_newId]; exact gk

theorem Hw.kept_moveDone (h : Hw) (i tag : Nat) (hk : Kept v h.vault) : Kept v (h.moveDone i tag).vault := by
  unfold Hw.moveDone; split
  · exact hk
  · rename_i m _
    split
    · exact hk
    · extract_lets remote g
      have k : Kept v g.vault := Hw.kept_moveRun _ _ _ _ hk
      clear_value g
      split
      · split
        · rw [Hw.vault_finish, Hw.vault_modPort]; exact k
        · exact k
      · exact k

theorem Hw.kept_deliverRecv (h : Hw) (i : Nat) (r : RecvOp) (plan : Nat) (f : Flit) (hk : Kept v h.vault) :
    Kept v (h.deliverRecv i r plan f).vault := by
  unfold Hw.deliverRecv; extract_lets k g bs x
  have gk : Kept v g.vault := by
    have e : g.vault = h.vault := by simp only [g, Hw.vault_act, Hw.vault_modRecv]
    rw [e]; exact hk
  have xk : Kept v x.1.vault := Hw.kept_moverSlabWrite _ _ _ _ gk
  (repeat' split)
  · exact gk
  · rw [Hw.vault_modPort]; exact gk
  · rw [Hw.vault_memStart, Hw.vault_modRecv]; exact gk
  · exact xk
  · rw [Hw.vault_modRecv]; exact xk

theorem Hw.kept_memReturn (h : Hw) (r : MemReq) (bs : Option (List Byte)) (poison : Bool) (hk : Kept v h.vault) :
    Kept v (h.memReturn r bs poison).vault := by
  unfold Hw.memReturn; dsimp only; (repeat' split)
  · rw [Hw.vault_pump, Hw.vault_sendUnit]; exact hk
  · rw [Hw.vault_modRecv]; exact hk
  · rw [Hw.vault_modPort]; exact hk
  · rw [Hw.vault_modPort]; exact Hw.kept_moverSlabWrite _ _ _ _ hk
  · rw [Hw.vault_modPort]; exact hk

theorem Hw.kept_memSink (h : Hw) (n : Nat) (f : Flit) (hk : Kept v h.vault) : Kept v (h.memSink n f).vault := by
  unfold Hw.memSink; (repeat' split)
  · exact hk
  · rw [Hw.vault_inject, Hw.vault_memSet]; exact hk
  · rw [Hw.vault_memSet]; exact hk
  all_goals (apply Hw.kept_memReturn; rw [Hw.vault_memDrop]; exact hk)

theorem Hw.kept_deliver (h : Hw) (n : Nat) (f : Flit) (hk : Kept v h.vault) : Kept v (h.deliver n f).vault := by
  unfold Hw.deliver; (repeat' split)
  · rw [Hw.vault_toLink]; exact hk
  · exact h.kept_memSink _ _ hk
  · dsimp only; split
    · split
      · rw [Hw.vault_act]; exact h.kept_deliverRecv _ _ _ _ hk
      · exact h.kept_deliverRecv _ _ _ _ hk
    · exact hk

theorem Hw.kept_sinkDeliver (h : Hw) (n : Nat) (ue : Bool) (hk : Kept v h.vault) : Kept v (h.sinkDeliver n ue).vault := by
  unfold Hw.sinkDeliver; dsimp only; (repeat' split)
  · simpa using hk
  · simpa using hk
  · simpa using hk
  · simpa using hk
  · apply Hw.kept_deliver; simpa using hk

theorem Hw.kept_memReply (h : Hw) (r : MemReq) (holder : Nat) (bs : Option (List Byte)) (poison : Bool) (hk : Kept v h.vault) :
    Kept v (h.memReply r holder bs poison).vault := by
  unfold Hw.memReply; split
  · apply Hw.kept_memReturn; rw [Hw.vault_memDrop]; exact hk
  · rw [Hw.vault_inject, Hw.vault_memSet]; exact hk

theorem Hw.kept_memPerform (h : Hw) (id : Nat) (data : List Byte) (repeats : Nat) (ok ce ue dead : Bool) (hk : Kept v h.vault) :
    Kept v (h.memPerform id data repeats ok ce ue dead).vault := by
  unfold Hw.memPerform; split
  · exact hk
  · rename_i r _
    extract_lets ref holder refused finish h1 h2 h3 src
    have fin : ∀ (g : Hw) (bs : Option (List Byte)) (poison : Bool), Kept v g.vault → Kept v (finish g bs poison).vault := by
      intro g bs poison gk
      show Kept v (if r.write = true then (g.memDrop id).memReturn r bs poison else g.memReply r holder bs poison).vault
      split
      · apply Hw.kept_memReturn; rw [Hw.vault_memDrop]; exact gk
      · exact g.kept_memReply _ _ _ _ gk
    have k1 : Kept v h1.vault := (congrArg (Kept v) ((Hw.vault_modReg _ _ _ _ _).trans (Hw.vault_act _ _ _))).mpr hk
    have k2 : Kept v h2.vault := by
      have e : h2.vault = h1.vault := by simp only [h2, ↓apply_ite Hw.vault, Hw.vault_logF2, Hw.vault_modReg, ite_self]
      rw [e]; exact k1
    have k3 : Kept v h3.vault := by
      have e : h3.vault = h2.vault := by simp only [h3, ↓apply_ite Hw.vault, Hw.vault_raiseF1, Hw.vault_modReg, ite_self]
      rw [e]; exact k2
    clear_value finish h3 h2 h1 refused holder ref
    split
    · exact fin _ _ _ hk
    · split
      · split
        · apply fin; rw [Hw.vault_pairFail]; exact k1
        · split
          · exact fin _ _ _ (h1.kept_hbmWrite _ _ k1)
          · exact fin _ _ _ k3
      · split
        · apply fin; rw [Hw.vault_raiseF1]; exact hk
        · split
          · exact fin _ _ _ hk
          · exact fin _ _ _ hk
      · exact fin _ _ _ hk

theorem Hw.kept_resumeTile (h : Hw) (i : Nat) (hk : Kept v h.vault) : Kept v (h.resumeTile i).vault := by
  unfold Hw.resumeTile; dsimp only
  rw [Hw.foldl_vault _ _ (fun h x => Hw.vault_pumpTail h _ _)]
  apply kept_foldl
  · intro g m gk; exact Hw.kept_moveRun _ _ _ _ gk
  · rw [Hw.vault_pumpFi, Hw.vault_pump]; exact hk

theorem Hw.kept_droopEnd (h : Hw) (hk : Kept v h.vault) : Kept v h.droopEnd.vault := by
  unfold Hw.droopEnd; dsimp only
  apply kept_foldl
  · intro g i gk; split
    · exact gk
    · apply Hw.kept_resumeTile; rw [Hw.vault_modPort]; exact gk
  · exact hk

theorem Hw.kept_slabLaneWrite (h : Hw) (i unit : Nat) (en : BitVec 128) (data : BitVec 1024) (err : PadErr) (ce : Bool) (hk : Kept v h.vault) :
    Kept v (h.slabLaneWrite i unit en data err ce).vault := by
  unfold Hw.slabLaneWrite; extract_lets e w h1 h2 a new
  have k1 : Kept v h1.vault := by simpa only [h1, w, e, Hw.vault_withhold, Hw.vault_act, Hw.vault_padCheck] using hk
  clear_value h1
  have k2 : Kept v h2.vault := by
    have e : h2.vault = h1.vault := by simp only [h2, ↓apply_ite Hw.vault, Hw.vault_slabCe, ite_self]
    rw [e]; exact k1
  (repeat' split)
  · exact hk
  · rw [Hw.vault_violation]; exact hk
  · simpa only [w, e, Hw.vault_withhold, Hw.vault_padCheck] using hk
  · exact Hw.kept_slabWrite _ _ _ k2
  · rw [Hw.vault_violation]; exact k1

theorem Hw.kept_restartReady (h : Hw) (t : Nat) (hk : Kept v h.vault) : Kept v (h.restartReady t).vault := by
  have k : Kept v ((h.mem.zeroing.filter (fun p => (h.partTiles t).contains (p / 64))).foldl (fun h p => h.pageZeroDone p) h).vault :=
    kept_foldl _ _ (fun g p gk => g.kept_pageZeroDone p gk) h hk
  unfold Hw.restartReady; dsimp only; (repeat' split)
  · refine Eq.subst (motive := Kept v) ?_ k
    symm; refine (Hw.vault_set_stw _ _).trans ?_
    simp
  · simpa using k
  · exact hk

/-! Fuses. -/

theorem Hw.kept_burnDone (h : Hw) (differs : Bool) (hk : Kept v h.vault) : Kept v (h.burnDone differs).vault := by
  unfold Hw.burnDone; split
  · exact hk
  · rw [Hw.vault_modReg]; exact Kept.setFuse hk ((FuseArray.grows_burn _ _ _).idle none)

theorem Hw.kept_burnCut (h : Hw) (hk : Kept v h.vault) : Kept v h.burnCut.vault := by
  unfold Hw.burnCut; split
  · exact hk
  · exact Kept.setFuse hk ((FuseArray.grows_burn _ _ _).idle none)

/-! Resets. -/

theorem BarState.inRange_default : ({} : BarState).InRange := ⟨by decide, by decide, by decide, fun j h => by cases h⟩

theorem Hw.kept_outer (h : Hw) (hk : Kept v h.vault) : Kept v h.outer.vault := by
  have k := h.nvmCut.kept_burnCut (h.kept_nvmCut hk)
  exact Kept.setBar (Kept.setSlab k (fun _ => rfl)) (fun _ => BarState.inRange_default)

theorem Hw.kept_coldReset (h : Hw) (cause : Word) (byPin : Bool) (hk : Kept v h.vault) : Kept v (h.coldReset cause byPin).vault := by
  unfold Hw.coldReset; dsimp only
  rw [Hw.vault_setReg, Hw.vault_setReg, Hw.vault_setReg]
  exact h.kept_outer hk

theorem Hw.vault_warmReset (h : Hw) (cause : Word) (perst : Bool) : (h.warmReset cause perst).vault = h.outer.vault := by
  unfold Hw.warmReset; (try dsimp only); simp [↓apply_ite Hw.vault, ↓Hw.foldl_vault]

theorem Hw.kept_warmReset (h : Hw) (cause : Word) (perst : Bool) (hk : Kept v h.vault) : Kept v (h.warmReset cause perst).vault := by
  rw [Hw.vault_warmReset]; exact h.kept_outer hk

theorem Hw.kept_warmCause (h : Hw) (bitNo : Nat) (perst : Bool) (hk : Kept v h.vault) : Kept v (h.warmCause bitNo perst).vault := by
  unfold Hw.warmCause; dsimp only; (repeat' split)
  · exact hk
  · rw [Hw.vault_modReg]; exact hk
  · exact h.kept_warmReset _ _ hk

theorem Hw.kept_coldBegins (h : Hw) (hk : Kept v h.vault) : Kept v h.coldBegins.vault := by
  unfold Hw.coldBegins; split
  · exact h.kept_coldReset _ _ hk
  · exact hk

theorem Hw.kept_warmBegins (h : Hw) (hk : Kept v h.vault) : Kept v h.warmBegins.vault := by
  unfold Hw.warmBegins; split
  · exact h.kept_warmReset _ _ hk
  · exact hk

theorem Hw.kept_pwrGoodLow (h : Hw) (hk : Kept v h.vault) : Kept v h.pwrGoodLow.vault := Hw.kept_coldReset _ _ _ hk

theorem Hw.kept_rstNLow (h : Hw) (hk : Kept v h.vault) : Kept v h.rstNLow.vault := Hw.kept_coldReset _ _ _ hk

theorem Hw.kept_refclkLoss (h : Hw) (hk : Kept v h.vault) : Kept v h.refclkLoss.vault := Hw.kept_coldReset _ _ _ hk

theorem Hw.kept_perstLow (h : Hw) (hk : Kept v h.vault) : Kept v h.perstLow.vault := by
  unfold Hw.perstLow; split
  · exact hk
  · apply Hw.kept_warmCause
    exact (show Kept v h.pcieLinkDown.endpointReset.vault from by rw [Hw.vault_endpointReset, Hw.vault_pcieLinkDown]; exact hk)

theorem Hw.kept_pfFlr (h : Hw) (hk : Kept v h.vault) : Kept v h.pfFlr.vault := by
  unfold Hw.pfFlr; apply Hw.kept_warmCause; rw [Hw.vault_endpointReset]; exact hk

theorem Hw.kept_rootRelock (h : Hw) (hk : Kept v h.vault) : Kept v h.rootRelock.vault := by
  unfold Hw.rootRelock; dsimp only; split
  · apply Hw.kept_warmReset; rw [Hw.vault_pllLock]; exact hk
  · rw [Hw.vault_pllLock]; exact hk

theorem Hw.kept_pllLocks (h : Hw) (w : PllId) (hk : Kept v h.vault) : Kept v (h.pllLocks w).vault := by
  unfold Hw.pllLocks; split
  · exact h.kept_rootRelock hk
  · rw [Hw.vault_pllLock]; exact hk

/-! The bar counter. -/

theorem Hw.kept_bootStart (h : Hw) (hk : Kept v h.vault) : Kept v h.bootStart.vault := by
  unfold Hw.bootStart; extract_lets h1 b h2 h3 h4
  have k1 : Kept v h1.vault := (congrArg (Kept v) ((Hw.vault_setReg _ _ _ _ _).trans (Hw.vault_setDieState _ _))).mpr hk
  have k2 : Kept v h2.vault := Hw.kept_bar h1 _ k1 (fun _ => ⟨by decide, by decide, by decide, fun j h => by cases h⟩)
  have k4 : Kept v h4.vault := (congrArg (Kept v) ((Hw.vault_modReg _ _ _ _ _).trans (Hw.vault_modReg _ _ _ _ _))).mpr k2
  split
  · split
    · rw [Hw.vault_safeHold]; exact k4
    · split
      · rw [Hw.vault_safeHold, Hw.vault_modReg]; exact k4
      · exact k4
  · exact hk

theorem Hw.kept_runEntry (h : Hw) (hk : Kept v h.vault) : Kept v h.runEntry.vault := by
  unfold Hw.runEntry; extract_lets h1 h2 h3 h4
  have e : h4.vault = h.vault := by simp only [h4, h3, h2, h1, ↓apply_ite Hw.vault, Hw.vault_modReg, Hw.vault_startPorts,
    Hw.vault_releaseStewards, Hw.vault_setDieState, Hw.vault_setReg, Hw.vault_setPhase, ite_self]
  split
  · rw [Hw.vault_firstWindow]
    exact Kept.setBar (b := h4.bar) (show Kept v h4.vault from by rw [e]; exact hk) (fun b => b)
  · exact hk

theorem Hw.kept_barStart (h : Hw) (hk : Kept v h.vault) : Kept v h.barStart.vault := by
  unfold Hw.barStart; extract_lets num lost b h1 h2 h3
  have k1 : Kept v h1.vault := Hw.kept_bar h _ hk (fun b => ⟨Nat.zero_lt_succ _, b.2.1, Nat.zero_le _, b.2.2.2⟩)
  have k2 : Kept v h2.vault := by
    have e : h2.vault = h1.vault := by simp only [h2, ↓apply_ite Hw.vault, Hw.vault_modReg, ite_self]
    rw [e]; exact k1
  have k3 : Kept v h3.vault := (congrArg (Kept v) ((Hw.vault_repost _).trans (Hw.vault_tokenRefill _))).mpr k2
  split
  · rw [Hw.vault_firstWindow]; exact k3
  · exact k3

theorem Hw.restChoice_lt (h : Hw) (hb : h.bar.InRange) : h.restChoice < 4096 := by
  unfold Hw.restChoice; (repeat' split)
  · decide
  · exact hb.2.2.2 _ ‹_›
  · decide
  · omega

theorem Hw.kept_measure (h : Hw) (e : Int) (hk : Kept v h.vault) : Kept v (h.measure e).vault := by
  unfold Hw.measure; extract_lets b h1 h2 h3 s
  have k1 : Kept v h1.vault := Hw.kept_bar h _ hk (fun b => b)
  have k2 : Kept v h2.vault := (congrArg (Kept v) (Hw.vault_modReg _ _ _ _ _)).mpr k1
  have k3 : Kept v h3.vault := (congrArg (Kept v) (Hw.vault_modReg _ _ _ _ _)).mpr k2
  split
  · rw [Hw.vault_modReg]; exact k2
  · split
    · rw [Hw.vault_logF2, Hw.vault_modReg]; exact k3
    · refine Hw.kept_bar h3 _ k3 (fun b => ⟨b.1, b.2.1, b.2.2.1, ?_⟩)
      intro j hj
      cases hj
      show ((-s) % 4096).toNat < 4096
      omega

theorem Hw.kept_beatArrive (h : Hw) (q hold hops : Nat) (hk : Kept v h.vault) : Kept v (h.beatArrive q hold hops).vault := by
  unfold Hw.beatArrive; split
  · exact hk
  · split
    · rename_i hq; have e := Hw.vault_of_torusRx hq
      split
      · rw [e]; exact hk
      · dsimp only; apply Hw.kept_measure; rw [Hw.vault_modReg, Hw.vault_castOn, e]; exact hk
    · rename_i hq; rw [Hw.vault_of_torusRx hq]; exact hk
    · exact hk

theorem Hw.kept_advance (h : Hw) (k : Nat) (hk : Kept v h.vault) : Kept v (h.advance k).vault := by rw [Hw.vault_advance]; exact hk

theorem Hw.bar_of_vault {h g : Hw} (e : g.vault = h.vault) : g.bar = h.bar := congrArg (·.2.2.2.2) e

/-- The rests chosen after a bar: fewer than 4,096, and none taken yet. -/
theorem Hw.kept_restBegins (h : Hw) (hk : Kept v h.vault) (h0 : h.bar.rest = 0) : Kept v h.restBegins.vault ∧ h.restBegins.bar.rest = 0 := by
  unfold Hw.restBegins; dsimp only
  split
  · rename_i j hj
    have hj' : h.bar.jumpTo = some j := by
      by_cases hs : h.isSource = true
      · simp [hs] at hj
      · simpa [hs] using hj
    have k : ∀ w, Kept v (({ h with bar := { h.bar with c := h.restChoice, e := 0, jumped := true, jumpTo := none, target := some j.1 } } : Hw).modReg
        .clkEvt 0 0 w).vault := by
      intro w; rw [Hw.vault_modReg]
      refine Kept.setBar (b := h.bar) hk (fun b => ⟨b.1, h.restChoice_lt b, ?_, fun j hj => by cases hj⟩)
      show h.bar.rest ≤ _
      rw [h0]; exact Nat.zero_le _
    split
    · exact ⟨k _, h0⟩
    · refine ⟨by rw [Hw.vault_raiseF0]; exact k _, ?_⟩
      rw [Hw.bar_of_vault (Hw.vault_raiseF0 _ _ _ _)]; exact h0
  · refine ⟨Kept.setBar (b := h.bar) hk (fun b => ⟨b.1, h.restChoice_lt b, ?_, fun j hj => by cases hj⟩), h0⟩
    show h.bar.rest ≤ _
    rw [h0]; exact Nat.zero_le _

theorem Hw.kept_barBoundary (h : Hw) (tclk : List (Nat × Nat)) (lanes : List LaneMeas) (rest : Nat) (hk : Kept v h.vault) :
    Kept v (h.barBoundary tclk lanes rest).vault := by
  unfold Hw.barBoundary; split
  · exact hk
  · split
    · rename_i h0
      dsimp only
      have k1 : Kept v ({ h.advance (4096 - h.bar.phase) with bar := { (h.advance (4096 - h.bar.phase)).bar with phase := 4095 } } : Hw).vault :=
        Kept.setBar (b := (h.advance (4096 - h.bar.phase)).bar) (h.kept_advance _ hk) (fun b => ⟨Nat.lt_succ_self 4095, b.2⟩)
      have r1 : ({ h.advance (4096 - h.bar.phase) with bar := { (h.advance (4096 - h.bar.phase)).bar with phase := 4095 } } : Hw).bar.rest = 0 := by
        show (h.advance _).bar.rest = 0
        rw [Hw.bar_of_vault (Hw.vault_advance _ _)]; exact h0
      have k2 := Hw.kept_restBegins (v := v) (Hw.barEnd _ tclk lanes) (by rw [Hw.vault_barEnd]; exact k1)
        (by rw [Hw.bar_of_vault (Hw.vault_barEnd _ _ _)]; exact r1)
      split
      · rename_i hr
        refine Kept.setBar (b := (Hw.advance _ (rest - 1)).bar) (Hw.kept_advance _ _ k2.1) (fun b => ⟨b.1, b.2.1, ?_, b.2.2.2⟩)
        show rest ≤ (Hw.advance _ (rest - 1)).bar.c
        rw [Hw.bar_of_vault (Hw.vault_advance _ _)]; exact hr.2
      · exact Hw.kept_barStart _ (Hw.kept_advance _ _ k2.1)
    · exact Hw.kept_barStart _ (Hw.kept_advance _ _ hk)

theorem Hw.kept_tick (h : Hw) (hk : Kept v h.vault) : Kept v h.tick.vault := by
  unfold Hw.tick; dsimp only
  have ka := h.kept_advance (v := v) 1 hk
  (repeat' split)
  · exact hk
  · rename_i hp
    refine Kept.setBar (b := (h.advance 1).bar) ka (fun b => ⟨?_, b.2⟩)
    show (h.advance 1).bar.phase + 1 < 4096
    rw [Hw.bar_of_vault (Hw.vault_advance _ _)]; omega
  · exact hk
  · rename_i hr
    refine Kept.setBar (b := (h.advance 1).bar) ka (fun b => ⟨b.1, b.2.1, ?_, b.2.2.2⟩)
    show (h.advance 1).bar.rest + 1 ≤ _
    exact hr
  · exact Hw.kept_barStart _ ka

end Sys2Proof.Machine
end

