-- ==== Sys2Proof/Laws/Link.lean ====
section
/-! SUPPORT. What the training of a torus port touches: registers of the PHY, and none of the link layer's. -/

namespace Sys2Proof.Machine

theorem Hw.reg_setPhy (h : Hw) (p : Nat) (v : PhyPort) (id : RegId) (i j : Nat) : (h.setPhy p v).reg id i j = h.reg id i j := rfl

theorem Hw.reg_modLane (h : Hw) (p k : Nat) (f : Word → Word) (id : RegId) (i j : Nat) (n : id ≠ .phyLaneStatus) :
    (h.modLane p k f).reg id i j = h.reg id i j := by
  unfold Hw.modLane; rw [Hw.reg_modReg, if_neg (fun e => n e.1.symm)]

theorem Hw.reg_lanesTo (p : Nat) (ks : List Nat) (s : Nat) (tx : Bool) (id : RegId) (i j : Nat) (n : id ≠ .phyLaneStatus) (h : Hw) :
    (h.lanesTo p ks s tx).reg id i j = h.reg id i j := by
  unfold Hw.lanesTo
  refine Hw.foldl_same (fun h => h.reg id i j) ks _ (fun h k => ?_) h
  dsimp only; unfold Hw.setLane Hw.laneTx
  split <;> simp only [Hw.reg_modLane _ _ _ _ _ _ _ n]

theorem Hw.lanesTo_keeps (p : Nat) (ks : List Nat) (s : Nat) (tx : Bool) (h : Hw) :
    h.lanesTo p ks s tx = { h with regs := (h.lanesTo p ks s tx).regs } := by
  unfold Hw.lanesTo
  induction ks generalizing h with
  | nil => rfl
  | cons k ks ih =>
    rw [List.foldl_cons, ih]
    have : ∀ a b : Hw, a = { b with regs := a.regs } → ∀ r, ({ a with regs := r } : Hw) = { b with regs := r } := by
      intro a b e r; rw [e]
    apply this
    split <;> rfl

theorem Hw.reg_lane17Mode (h : Hw) (p : Nat) (nrz : Bool) (id : RegId) (i j : Nat) (n : id ≠ .phyLaneStatus) (n' : id ≠ .phyFfe) (n'' : id ≠ .phyDfe) :
    (h.lane17Mode p nrz).reg id i j = h.reg id i j := by
  unfold Hw.lane17Mode; dsimp only
  split
  · exact Hw.reg_modLane _ _ _ _ _ _ _ n
  · rw [Hw.reg_setPhy, Hw.foldl_same (fun h => h.reg id i j) _ _ (fun h k => by simp [Ne.symm n'']),
      Hw.foldl_same (fun h => h.reg id i j) _ _ (fun h k => by simp [Ne.symm n'])]
    rw [Hw.reg_modReg, if_neg (fun e => n e.1.symm), Hw.reg_modLane _ _ _ _ _ _ _ n]

theorem Hw.link_lane17Mode (h : Hw) (p : Nat) (nrz : Bool) : (h.lane17Mode p nrz).link = h.link := by
  unfold Hw.lane17Mode; dsimp only
  split
  · rfl
  · rw [show ∀ (h : Hw) (v : PhyPort), (h.setPhy p v).link = h.link from fun _ _ => rfl]
    refine (Hw.foldl_same (fun h => h.link) _ _ ?_ _).trans ((Hw.foldl_same (fun h => h.link) _ _ ?_ _).trans ?_)
    · intro h k; rfl
    · intro h k; rfl
    · rfl

/-- A training touches registers of the PHY only. -/
theorem Hw.reg_phyTrain (h : Hw) (p : Nat) (cold : Bool) (id : RegId) (i j : Nat)
    (n : id ∉ [RegId.phyLaneStatus, .phyFfe, .phyDfe, .phyPortStatus, .phyTxLanes, .phyRxLanes]) :
    (h.phyTrain p cold).reg id i j = h.reg id i j := by
  simp only [List.mem_cons, not_or, List.not_mem_nil, or_false] at n
  obtain ⟨a, b, c, d, e, f⟩ := n
  have st : ∀ h : Hw, ∀ s, (h.phyStop p s).reg id i j = h.reg id i j := by
    intro h s; unfold Hw.phyStop Hw.setLanes Hw.setPhyState; dsimp only
    simp [Ne.symm d, Ne.symm e, Ne.symm f, Hw.reg_lanesTo _ _ _ _ _ _ _ a]
  unfold Hw.phyTrain; dsimp only
  split
  · rw [Hw.reg_modPhy, st]
  · unfold Hw.phySbAcq; dsimp only
    rw [Hw.reg_lanesTo _ _ _ _ _ _ _ a, Hw.reg_modLane _ _ _ _ _ _ _ a, Hw.reg_lane17Mode _ _ _ _ _ _ a b c]
    unfold Hw.setPhyState
    rw [Hw.reg_modReg, if_neg (fun e => d e.1.symm), Hw.reg_modPhy, st]

theorem Hw.link_phyTrain (h : Hw) (p : Nat) (cold : Bool) : (h.phyTrain p cold).link = h.link := by
  have st : ∀ h : Hw, ∀ s, (h.phyStop p s).link = h.link := by
    intro h s; unfold Hw.phyStop; dsimp only
    show (h.lanesTo p allLanes laOff false).link = _
    rw [Hw.lanesTo_keeps]
  unfold Hw.phyTrain; dsimp only
  split
  · exact st _ phCal
  · unfold Hw.phySbAcq; dsimp only; rw [Hw.lanesTo_keeps]
    show (Hw.lane17Mode _ _ _).link = _
    rw [Hw.link_lane17Mode]; exact st _ phCal

/-- A cold training begins in CAL, a warm one in SB_ACQ (R580). -/
theorem Hw.phyState_phyTrain (h : Hw) (p : Nat) (cold : Bool) : (h.phyTrain p cold).phyState p = if cold then phCal else phSbAcq := by
  have hx : RegId.phyPortStatus ≠ .phyLaneStatus := by decide
  unfold Hw.phyTrain Hw.phyState; dsimp only
  split
  · rw [Hw.reg_modPhy]; unfold Hw.phyStop Hw.setLanes Hw.setPhyState; dsimp only
    simp only [Hw.reg_modPhy, Hw.reg_setReg, Hw.reg_modReg, Bool.false_eq_true, if_true, if_false, reduceCtorEq, false_and, and_self]
    rw [fld_setFld_same _ _ _ _ (by decide)]; rfl
  · unfold Hw.phySbAcq; dsimp only
    rw [Hw.reg_lanesTo _ _ _ _ _ _ _ hx, Hw.reg_modLane _ _ _ _ _ _ _ hx, Hw.reg_lane17Mode _ _ _ _ _ _ hx (by decide) (by decide)]
    unfold Hw.setPhyState
    simp only [Hw.reg_modReg, and_self, if_true]
    rw [fld_setFld_same _ _ _ _ (by decide)]; rfl
end Sys2Proof.Machine
end

