-- ==== Sys2Proof/Laws/Tile.lean ====
section
/-! SUPPORT. A tile command that is taken is performed with its tag held. -/

namespace Sys2Proof.Machine

/-- What neither a busy cycle, a corrected word nor the choice of a bin touches: the ports' state and the port registers' conditions. -/
def Hw.tileFace (h : Hw) : List (Nat × TilePort) × (Nat → Word) := (h.ports, fun n => h.reg .tpCond n)

theorem Hw.tileFace_setReg (h : Hw) (id : RegId) (i j : Nat) (v : Word) (e : id ≠ .tpCond) : (h.setReg id i j v).tileFace = h.tileFace := by
  unfold Hw.tileFace
  simp [e]

theorem Hw.tileFace_act (h : Hw) (n e : Nat) : (h.act n e).tileFace = h.tileFace := by
  unfold Hw.act
  exact Hw.foldl_same Hw.tileFace _ _ (fun h _ => Hw.tileFace_setReg h _ _ _ _ (by decide)) h

theorem Hw.tileFace_modReg (h : Hw) (id : RegId) (i j : Nat) (f : Word → Word) (e : id ≠ .tpCond) : (h.modReg id i j f).tileFace = h.tileFace :=
  Hw.tileFace_setReg h id i j _ e

theorem Hw.tileFace_padCheck (h : Hw) (i k : Nat) (e : PadErr) (n : e ≠ .uncorrectable) : (h.padCheck i k e).1.tileFace = h.tileFace := by
  cases e with
  | ok => rfl
  | corrected =>
    exact (Hw.tileFace_modReg _ _ _ _ _ (by decide)).trans ((Hw.tileFace_modReg _ _ _ _ _ (by decide)).trans
      (Hw.tileFace_modReg _ _ _ _ _ (by decide)))
  | uncorrectable => exact absurd rfl n

theorem Hw.tileFace_cmdOpen (h : Hw) (i op : Nat) (x : CmdHdr) (src dst len : Nat) : (h.cmdOpen i op x src dst len).1.tileFace = h.tileFace := by
  unfold Hw.cmdOpen Hw.chooseBin
  dsimp only
  split
  · split
    · rfl
    · exact (Hw.tileFace_modReg _ _ _ _ _ (by decide)).trans (Hw.tileFace_setReg _ _ _ _ _ (by decide))
  · rfl

theorem Hw.tileFace_commandIn (h : Hw) (i op : Nat) (x : CmdHdr) (body : List (BitVec 64)) (n : x.err ≠ .uncorrectable) :
    (h.commandIn i op x body).1.tileFace = h.tileFace :=
  (Hw.tileFace_cmdOpen _ _ _ _ _ _ _).trans ((Hw.tileFace_padCheck _ _ _ _ n).trans (Hw.tileFace_act _ _ _))

theorem Hw.padCheck_ok (h : Hw) (i k : Nat) (e : PadErr) (n : e ≠ .uncorrectable) : (h.padCheck i k e).2 = true := by
  cases e <;> first | rfl | exact absurd rfl n

/-- A command that is taken is performed by `go` once it holds its tag. -/
theorem Hw.accept_open {h : Hw} {i op : Nat} {x : CmdHdr} {body : List (BitVec 64)} {lens masks : List Nat} (o : h.commandOpen i x body lens masks)
    (go : Hw → Hw) : h.accept i op x body lens masks go = (go (h.commandHeld i op x body)).ciTake i (body.length + 1) := by
  obtain ⟨st, ci, err, tag, room, len, rsv, bits⟩ := o
  have face := Hw.tileFace_commandIn h i op x body err
  have st' : (h.commandIn i op x body).1.portState i = h.portState i := by
    unfold Hw.portState
    rw [show (h.commandIn i op x body).1.reg .tpCond (tileNode i) = h.reg .tpCond (tileNode i) from congrFun (congrArg Prod.snd face) _]
  have up : h.portUp i = true := by unfold Hw.portUp; rcases st with e | e <;> rw [e] <;> decide
  have nd : h.portState i ≠ psDrained := by rcases st with e | e <;> rw [e] <;> decide
  have ne : lens.isEmpty = false := by cases lens with
    | nil => exact absurd len (by simp)
    | cons => rfl
  unfold Hw.accept
  simp only [up, Bool.not_true, Bool.false_eq_true, if_false]
  rw [if_neg (by omega), if_neg (by omega)]
  simp only [Hw.padCheck_ok _ _ _ _ err, Bool.not_true, Bool.false_eq_true, if_false]
  have a1 : (((h.act (tileNode i) 7).padCheck i 0 x.err).1.cmdOpen i op x (cmdRange op body).1 (cmdRange op body).2.1 (cmdRange op body).2.2)
    = h.commandIn i op x body := rfl
  rw [a1, st', if_neg nd, tag]
  simp only [Option.isSome_none, Bool.false_eq_true, if_false]
  rw [if_neg (by omega), ne, len, bits, rsv]
  simp [Hw.commandHeld]

end Sys2Proof.Machine
end

