-- ==== Sys2Proof/WellFormed.lean ====
section
/-! DEFINITION. Which commands the outside world can send: the bounds that the operands' types do not hold already. -/

namespace Sys2Proof

/-- A command of a tile has at most 15 words after its header (Table 11.4). -/
def bodyOk (body : List (BitVec 64)) : Bool := decide (body.length ≤ 15)

/-- The opcodes that Table 11.6 defines. -/
def knownOpcodes : List Nat := (List.range 15).drop 1 ++ [16]

/-- An address lies in the path's own view: 1 MiB for a VF, 256 MiB else (R187). -/
def inView (p : Path) (addr : BitVec 28) : Bool :=
  match p with
  | .vf _ => decide (addr.toNat < 0x100000)
  | _ => true

/-- A place on a packet's way: a node, and one of four directions. -/
def cErrOk (e : CErr) : Bool := decide (e.node < 96) && decide (e.dir < 4)

/-- A command that can be sent. -/
def Instr.wf (i : Instr) : Bool :=
  match i with
  | .pwrGoodLow => true
  | .rstNLow => true
  | .refclkLoss => true
  | .coldReset => true
  | .coldResetEnd => true
  | .perstNAssert => true
  | .pfFlr => true
  | .warmReset => true
  | .rootPllUnlock => true
  | .rootPllRelock => true
  | .pllLock _ => true
  | .phyPllUnlock _ => true
  | .hbmPllUnlock _ => true
  | .pciePllUnlock => true
  | .portReset _ => true
  | .partitionReset _ => true
  | .cplValueWrite _ _ _ => true
  | .cplGuardExpired _ => true
  | .resetReqWarm _ => true
  | .resetReqCold _ => true
  | .resetReqPartition _ => true
  | .resetReqTorusPort _ => true
  | .resetReqTilePort _ => true
  | .lockSet _ => true
  | .budgetSet _ => true
  | .fuseBurn _ => true
  | .fuseBurnDone _ => true
  | .fuseLoadDone _ _ => true
  | .pcieTrainingStart => true
  | .bistDone _ => true
  | .bootStart => true
  | .nvmProbe _ => true
  | .nvmCommandTimeout _ => true
  | .slotTableSelect => true
  | .slotAttempt _ _ => true
  | .imageApply => true
  | .applyFault => true
  | .warmScrubDone => true
  | .runEntry => true
  | .fwReady => true
  | .progRead _ _ => true
  | .progProgram _ _ => true
  | .progEraseSector _ _ => true
  | .progEraseBlock _ _ => true
  | .progUnknownCommand _ v _ => !(1 ≤ (v &&& 7#32).toNat && (v &&& 7#32).toNat ≤ 4)
  | .progCommandDone _ => true
  | .barBoundary tclk lanes _ => decide ((tclk.map (·.1)).Nodup) && decide ((lanes.map (fun m => (m.port, m.lane))).Nodup)
  | .tclkOutOfRange _ => true
  | .registerWrite p addr data _ _ => inView p addr && decide (data.length ≤ 16)
  | .aliasSet p addr _ => (match p with | .vf _ => decide (addr.toNat < 0x40000) | _ => true)
  | .aliasClr p addr _ => (match p with | .vf _ => decide (addr.toNat < 0x40000) | _ => true)
  | .aliasTgl p addr _ => (match p with | .vf _ => decide (addr.toNat < 0x40000) | _ => true)
  | .evtRead p addr _ _ => inView p addr
  | .misuseEvtRead _ => true
  | .lowWordRead p addr => inView p addr
  | .clkBarLoRead _ => true
  | .highWordWrite p addr _ => inView p addr
  | .lowWordWrite p addr _ => inView p addr
  | .snapshot _ => true
  | .idxDataRead _ => true
  | .idxDataWrite _ _ => true
  | .idxFarWriteDone _ => true
  | .idxFarTimeout _ => true
  | .flitInject _ => true
  | .flitHop _ out _ => out != 0
  | .flitSinkDelivery _ _ => true
  | .flitLate _ port sel => port == 5 || decide (sel.toNat < 8)
  | .bnetCreditReturn _ _ _ => true
  | .phaseTargetWrite _ _ _ => true
  | .phaseSwitch _ => true
  | .flowSlotEnable _ _ _ _ => true
  | .channelSend _ _ _ _ => true
  | .channelCreditArrival _ errs _ => errs.all cErrOk
  | .channelMsgArrival _ errs _ => errs.all cErrOk
  | .channelDequeue _ _ _ _ => true
  | .channelEnable _ _ _ => true
  | .channelDisable _ _ _ => true
  | .nodeBellClear _ _ _ => true
  | .bellRing _ _ _ => true
  | .regRequest p addr _ errs _ => inView p addr && errs.all cErrOk
  | .regResponse _ errs _ => errs.all cErrOk
  | .syncContribute _ _ => true
  | .snetUpCombine _ _ _ => true
  | .snetDownDeliver _ _ _ => true
  | .ringPartialArrival _ => true
  | .syncCfgDisable _ _ _ => true
  | .gongFreezeReq _ _ => true
  | .gongThawReq _ _ => true
  | .gongFaultReq _ _ => true
  | .gongNoticeArrival _ => true
  | .freezeTakeEffect => true
  | .thawTakeEffect => true
  | .faultNotice => true
  | .remoteFaultNotice _ => true
  | .beatSend => true
  | .beatArrival _ _ _ => true
  | .downbeatLost => true
  | .foldContributionArrival _ port sel => port == 0 || decide (sel.toNat < 8)
  | .foldCombine _ _ _ => true
  | .foldContextEnable _ _ _ _ => true
  | .foldContextClear _ _ _ _ => true
  | .ccx _ _ body => bodyOk body
  | .tailStart _ _ _ => true
  | .tailComplete _ _ => true
  | .seqReport _ => true
  | .seqArm _ _ => true
  | .ringRelay _ _ port sel => port == 0 || decide (sel.toNat < 8)
  | .portRelease _ => true
  | .tclkStartTimeout _ => true
  | .slabRead _ _ _ _ => true
  | .slabReadReturn _ _ => true
  | .slabWrite _ _ _ _ _ _ => true
  | .fabricInFlit _ _ _ _ _ _ => true
  | .tileCredit _ _ _ => true
  | .laneOverrun _ lane cmd => cmd.isNone || lane == .command
  | .malformed _ _ => true
  | .nop _ _ body => bodyOk body
  | .send _ _ body _ => bodyOk body
  | .sendDone _ _ => true
  | .recv _ _ body => bodyOk body
  | .recvDone _ _ => true
  | .move _ _ body => bodyOk body
  | .moveDone _ _ => true
  | .msgSend _ _ body => bodyOk body
  | .msgDeq _ _ body _ => bodyOk body
  | .sync _ _ body => bodyOk body
  | .phase _ _ body => bodyOk body
  | .computeDone _ _ body => bodyOk body
  | .leaseAlloc _ _ body => bodyOk body
  | .leaseAllocDone _ _ => true
  | .leaseFree _ _ body => bodyOk body
  | .bellClear _ _ body => bodyOk body
  | .cntReport _ _ body => bodyOk body
  | .jobDone _ _ body => bodyOk body
  | .unknownOpcode _ op _ body => bodyOk body && !knownOpcodes.contains op.toNat
  | .completionDeliver _ => true
  | .violLeak _ => true
  | .drainRequest _ => true
  | .drainAck _ _ => true
  | .drainTimeout _ => true
  | .drainRelease _ => true
  | .tileFault _ _ _ => true
  | .handshakeViolation _ => true
  | .cntWindowClose _ => true
  | .powerRequest _ _ _ _ => true
  | .powerGrantAck _ => true
  | .grantAckLate _ => true
  | .siteRetire _ _ _ => true
  | .patrolScrub _ _ _ => true
  | .pageZeroDone _ => true
  | .granuleZero _ => true
  | .memoryPathAccess _ _ repeats _ _ _ dead => decide (repeats.toNat ≤ 4) && (!dead || repeats == 4#3)
  | .hbmPairFail _ => true
  | .leaseWrite _ _ _ _ => true
  | .trainCalDone _ => true
  | .trainingUnitRx _ _ => true
  | .sbAcqDone p ms => ms.all (fun m => m.port == p) && decide ((ms.map (·.lane)).Nodup)
  | .dataEqDone p ms => ms.all (fun m => m.port == p) && decide ((ms.map (·.lane)).Nodup)
  | .laneSelect _ => true
  | .portActive _ => true
  | .trainWaitExpiry _ => true
  | .preambleDetect _ _ _ _ => true
  | .burstEnd _ _ _ _ => true
  | .laneLos _ _ => true
  | .sidebandLost _ => true
  | .laneIsolate _ _ => true
  | .isolate _ => true
  | .rewake _ => true
  | .badLaneCommand _ => true
  | .directionSleep _ => true
  | .directionWake _ => true
  | .frameTransmit _ _ => true
  | .frameReceive _ _ _ => true
  | .controlWordRx _ _ _ => true
  | .frameDeliver _ => true
  | .frameRelease _ => true
  | .nakReceive _ _ => true
  | .replayTimeout _ => true
  | .sidebandUnitRx _ _ _ _ => true
  | .sidebandTimeout _ => true
  | .identReceive _ _ => true
  | .echo _ => true
  | .portDeclaredDown _ => true
  | .portReturnTimeout _ => true
  | .dtrReceive _ => true
  | .peerViolLeak _ => true
  | .launchDoorbell _ => true
  | .planReadDone _ _ _ => true
  | .admission _ => true
  | .genWaitExpiry _ => true
  | .jobStop _ => true
  | .relaunch _ => true
  | .bar2Read _ _ len _ => decide (1 ≤ len.toNat) && decide (len.toNat ≤ 4096)
  | .bar2Write _ _ data => decide (1 ≤ data.length) && decide (data.length ≤ 4096)
  | .msixSend _ _ => true
  | .aerError _ _ => true
  | .pcieLinkDown => true
  | .pfD3hot => true
  | .vfFlr _ => true
  | .vfDisable vfs => decide vfs.Nodup
  | .windowWithdraw _ _ _ _ _ => true
  | .relaySend _ => true
  | .relayDequeue _ _ => true
  | .faultAccept => true
  | .f0Accept => true
  | .restartDrainDone _ => true
  | .restartSweepDone _ => true
  | .restartReady _ => true
  | .f0Reapply => true
  | .jobEndComplete _ _ => true
  | .startRoundJoin _ _ => true
  | .startBell _ => true
  | .startTimeout _ => true
  | .powerWindowCompute sensors _ => sensors.length == 22
  | .powerAdapt => true
  | .startGrant _ => true
  | .droopTrip _ => true
  | .droopGateEnd => true
  | .thermNChange _ => true
  | .heartbeatWrite _ _ => true
  | .stewardHeartbeatFail _ => true
  | .stewardCoreUe _ _ => true
  | .mtimeInterrupt _ => true
  | .mboxDoorbell _ => true
  | .mboxDone _ => true
  | .info _ => true
  | .nvmRead _ _ _ => true
  | .nvmWrite _ data _ => decide (data.length ≤ 2 ^ 20)
  | .nvmErase _ _ => true
  | .retireSite _ => true
  | .counterDump _ _ => true
  | .hangReport _ _ => true
  | .badService _ => true
  | .vfIrq _ _ => true
  | .coreHalt _ => true
  | .coreResume _ => true
  | .breakScopeWrite _ _ => true
  | .tapReset => true
  | .idcode => true
  | .samplePreload _ _ _ _ => true
  | .extest _ _ _ _ => true
  | .clamp => true
  | .highz => true
  | .bypass => true
  | .dmi _ _ => true
  | .debugSysbusAccess addr _ => addr &&& 3#28 == 0#28
  | .pmcFreeze _ _ => true
  | .pmcThaw _ _ => true
  | .hangWatchdogTrip _ _ => true
  | .dieWaitLimit _ _ => true
  | .hangRelease _ => true
  | .hangReportAssemble => true
  | .binFree _ _ _ => true
  | .idxFarReadDone _ => true
  | .pcieLinkUp _ _ _ => true
  | .pfD0Return => true
  | .msixVectorUnmask _ _ => true
  | .vfBusMasterClear _ => true

end Sys2Proof
end

