-- ==== Sys2Proof/Tests/Slice0.lean ====
section
/-! SUPPORT. The author's tests: commands that cannot be sent, check values of the manual's worked examples, and for each statement with hypotheses
a theorem that applies it to concrete states and operands. -/

namespace Sys2Proof.Tests
set_option Elab.async false
open Sys2Proof Sys2Proof.Machine

/-- Whether a write passes its checks. -/
def gateOpens (h : Hw) (p : Path) (addr view : Nat) (r : Reg) : Bool :=
  (h.path p).idxRead.isNone && h.hostReaches p && (match (h.readied p).writeGate p addr with
    | .go v q => v == view && decide (q = r)
    | _ => false)

theorem gateOpens_sound {h : Hw} {p : Path} {addr view : Nat} {r : Reg} (e : gateOpens h p addr view r = true) : h.gateOpen p addr view r := by
  unfold gateOpens at e
  simp only [Bool.and_eq_true, Option.isNone_iff_eq_none] at e
  obtain ⟨⟨a, b⟩, c⟩ := e
  refine ⟨a, b, ?_⟩
  generalize (h.readied p).writeGate p addr = g at c ⊢
  cases g with
  | go v q => simp only [Bool.and_eq_true, beq_iff_eq, decide_eq_true_eq] at c; rw [c.1, c.2]
  | done _ => cases c
  | msix _ => cases c

/-- A write that passes its checks at the address where the path finds the register. -/
theorem writeOpens {h : Hw} {p : Path} {r : Reg} (e : gateOpens h p (pathAddr p r.addr) 0 r = true) : h.writeOpen p r := gateOpens_sound e

/-- Whether a read passes its checks. -/
def readOpens (h : Hw) (p : Path) (addr : Nat) (r : Reg) : Bool :=
  let x := h.resolve p addr
  (h.path p).idxRead.isNone && h.hostReaches p && addr % 4 == 0 && x.1 == 0 && x.2.2 == .reg r && h.answers p x.2.1 && h.mayRead p (regionOf x.2.1)

theorem readOpens_sound {h : Hw} {p : Path} {addr : Nat} {r : Reg} (e : readOpens h p addr r = true) : h.readOpen p addr r := by
  unfold readOpens at e
  simp only [Bool.and_eq_true, beq_iff_eq, Option.isNone_iff_eq_none] at e
  obtain ⟨⟨⟨⟨⟨⟨a, b⟩, c⟩, d⟩, k⟩, f⟩, g⟩ := e
  exact ⟨a, b, c, d, k, f, g⟩

/-- Whether a guard write is accepted. -/
def guardOpens (h : Hw) (p : Path) (c : CplReg) (v : Word) : Bool :=
  gateOpens h p (pathAddr p (Reg.addr ⟨cplGuardId c, 0, 0⟩)) 0 ⟨cplGuardId c, 0, 0⟩ && (match h.cplPend c with
    | some q => q.path == p && q.value == v && decide (h.now < q.time + guardWindow)
    | none => false) && !h.cplLocked c v

theorem guardOpens_sound {h : Hw} {p : Path} {c : CplReg} {v : Word} (e : guardOpens h p c v = true) : h.guardOpen p c v := by
  unfold guardOpens at e
  simp only [Bool.and_eq_true, Bool.not_eq_true'] at e
  obtain ⟨⟨a, b⟩, d⟩ := e
  refine ⟨writeOpens a, ?_, d⟩
  generalize h.cplPend c = q at b ⊢
  cases q with
  | none => cases b
  | some q =>
    obtain ⟨x, y, z⟩ := q
    simp only [Bool.and_eq_true, beq_iff_eq, decide_eq_true_eq] at b
    exact ⟨z, by rw [b.1.1, b.1.2], b.2⟩

/-- The registers of `base`. -/
def baseRegs : List (Reg × Word) :=
  [(⟨.ancState, 0, 0⟩, 5#32), (⟨.bootStatus, 0, 0⟩, 0x400#32), (⟨.fusDebug, 0, 0⟩, 0xF#32)] ++
  (List.range 8).map (fun k => (⟨.fusPrivMap, k, 0⟩, 0xFFFFFFFF#32)) ++ [(⟨.hstLinkStatus, 0, 0⟩, 1#32)]

/-- A block in RUN with its firmware ready, a privilege map that lets every path read and write every region, debug functions open, and the PCIe
link up. -/
def base : Hw := { ({} : Hw) with regs := baseRegs }

/-- The state of a block with no command waiting. -/
def st (h : Hw) : State := ⟨h, []⟩

/-- `base` with tenant 1's partition on all 64 tiles, running in generation 3. -/
def owned : Hw :=
  { base with regs := baseRegs ++ [(⟨.tntPartCfgLo, 1, 0⟩, 0x80003300#32), (⟨.tntState, 1, 0⟩, 4#32), (⟨.tntGen, 1, 0⟩, 3#32)] }

/-- Command c completes in state s. -/
def Runs (c : Instr) (s : State) : Prop := Completes c s (fun _ => True)

/-- A statement that says how a command completes, applied to a state and operands that meet its hypotheses. -/
theorem runs {c : Instr} {s : State} {P : Hw → Prop} (h : Completes c s P) : Runs c s := by
  obtain ⟨t, e, q, _⟩ := h
  exact ⟨t, e, q, trivial⟩

theorem test_reset_cause : State.reset.hw.reg .ancResetCause = 1#32 := by decide

/-! ### Ill-formed commands: one for each check of WellFormed -/

def hdr : CmdHdr := ⟨true, 0#3, 5#16, 0#16, 0#16, .ok⟩

def meas (p : Port) (k : Fin 18) : LaneMeas := ⟨p, k, 0, 0, 0, 0, 0, 0, 0#16, 0, [], []⟩

theorem test_refuses_long_body : Instr.wf (.nop 0 hdr (List.replicate 16 0#64)) = false := by decide
theorem test_refuses_known_opcode : Instr.wf (.unknownOpcode 0 0x0E#8 hdr []) = false := by decide
theorem test_refuses_known_program_command : Instr.wf (.progUnknownCommand .pf 0x14#32 ⟨0#24, none⟩) = false := by decide
theorem test_refuses_tile_measured_twice : Instr.wf (.barBoundary [(3, 1#13), (3, 2#13)] [] 0) = false := by decide
theorem test_refuses_lane_measured_twice : Instr.wf (.barBoundary [] [meas 2 5, meas 2 5] 0) = false := by decide
theorem test_refuses_long_register_write : Instr.wf (.registerWrite .pf 0#28 (List.replicate 17 0#32) true ⟨0#24, none⟩) = false := by decide
theorem test_refuses_vf_write_out_of_view : Instr.wf (.registerWrite (.vf 3) 0x100000#28 [0#32] true ⟨0#24, none⟩) = false := by decide
theorem test_refuses_vf_alias_set_out_of_view : Instr.wf (.aliasSet (.vf 3) 0x40000#26 1#32) = false := by decide
theorem test_refuses_vf_alias_clr_out_of_view : Instr.wf (.aliasClr (.vf 3) 0x40000#26 1#32) = false := by decide
theorem test_refuses_vf_alias_tgl_out_of_view : Instr.wf (.aliasTgl (.vf 3) 0x40000#26 1#32) = false := by decide
theorem test_refuses_vf_event_read_out_of_view : Instr.wf (.evtRead (.vf 3) 0x100000#28 4#7 true) = false := by decide
theorem test_refuses_vf_low_read_out_of_view : Instr.wf (.lowWordRead (.vf 3) 0x100000#28) = false := by decide
theorem test_refuses_vf_high_write_out_of_view : Instr.wf (.highWordWrite (.vf 3) 0x100000#28 0#32) = false := by decide
theorem test_refuses_vf_low_write_out_of_view : Instr.wf (.lowWordWrite (.vf 3) 0x100000#28 0#32) = false := by decide
theorem test_refuses_vf_request_out_of_view : Instr.wf (.regRequest (.vf 3) 0x100000#28 none [] true) = false := by decide
theorem test_refuses_error_off_the_mesh : Instr.wf (.channelMsgArrival 0#12 [⟨96, 0, .corrected⟩] true) = false ∧
    Instr.wf (.regResponse .pf [⟨5, 4, .corrected⟩] true) = false := by decide
theorem test_refuses_hop_to_local_port : Instr.wf (.flitHop 5 0 .ok) = false := by decide
theorem test_refuses_late_flit_of_no_vc : Instr.wf (.flitLate 5 1 8#13) = false ∧ Instr.wf (.flitLate 5 5 8#13) = true := by decide
theorem test_refuses_fold_input_of_no_vc : Instr.wf (.foldContributionArrival 5 1 8#13) = false ∧
    Instr.wf (.foldContributionArrival 5 0 8#13) = true := by decide
theorem test_refuses_relay_of_no_vc : Instr.wf (.ringRelay 5 0#5 4 8#13) = false := by decide
theorem test_refuses_command_on_data_lane : Instr.wf (.laneOverrun 5 .fabricIn (some (1#8, 2#16))) = false := by decide
theorem test_refuses_five_repeats : Instr.wf (.memoryPathAccess 4 [] 5#3 true false false false) = false := by decide
theorem test_refuses_early_give_up : Instr.wf (.memoryPathAccess 4 [] 3#3 true false false true) = false := by decide
theorem test_refuses_measurement_of_other_port : Instr.wf (.sbAcqDone 2 [meas 3 0]) = false ∧ Instr.wf (.dataEqDone 2 [meas 3 0]) = false := by decide
theorem test_refuses_lane_twice_in_training : Instr.wf (.sbAcqDone 2 [meas 2 0, meas 2 0]) = false ∧
    Instr.wf (.dataEqDone 2 [meas 2 0, meas 2 0]) = false := by decide
theorem test_refuses_empty_host_read : Instr.wf (.bar2Read 3 0#40 0#13 .ok) = false ∧ Instr.wf (.bar2Read 3 0#40 4097#13 .ok) = false := by decide
theorem test_refuses_empty_host_write : Instr.wf (.bar2Write 3 0#40 []) = false := by decide
theorem test_refuses_vf_disabled_twice : Instr.wf (.vfDisable [3, 3]) = false := by decide
theorem test_refuses_missing_sensor : Instr.wf (.powerWindowCompute (List.replicate 21 (0#12, 0#12, true)) 0#8) = false := by decide
theorem test_refuses_unaligned_bus_access : Instr.wf (.debugSysbusAccess 2#28 none) = false := by decide

/-! ### Check values of the manual's worked examples -/

/-- What is read from the block after a command. -/
def after {α : Type} (c : Instr) (h : Hw) (f : Hw → α) : Option α :=
  match exec c (st h) with
  | .next t => some (f t.hw)
  | _ => none

theorem test_no_word_spells_a_command : decodeTableWord 16 0 = none ∧ decodeTableWord 32 0xFFFFFFFF = none := by decide

/-- R556: the check of a training unit, with the manual's two examples. -/
theorem test_training_unit_check : crc8 1#64 = 0x8A ∧ crc8 0#64 = 0 := by decide +kernel

/-- Chapter 9, worked example: 1.5, 2^30, −2^30 and 0.25 widened to FX48. -/
theorem test_fold_widens : [0x3FC00000, 0x4E800000, 0xCE800000, 0x3E800000].map (widen 7) =
    [0x3FF800000000, 0x41D000000000, 0xC1D000000000, 0x3FD000000000] := by decide +kernel

/-- Chapter 9, worked example: the partial results and the output. -/
theorem test_fold_adds : carAdd 11 0xC1D000000000 0x3FD000000000 = 0xC1CFFFFFFFE0 ∧ carAdd 11 0x41D000000000 0x3FF800000000 = 0x41D000000060 ∧
    carAdd 11 0x41D000000060 0xC1CFFFFFFFE0 = 0x3FFC00000000 ∧ closeElem 11 7 false 0x3FFC00000000 = 0x3FE00000 := by decide +kernel

/-- Chapter 9: 300 becomes 0x2C in INT8, and 127 with saturate. -/
theorem test_fold_narrows : closeElem 9 1 false 300 = 0x2C ∧ closeElem 9 1 true 300 = 0x7F := by decide +kernel

/-- Chapter 8, worked example: the additions of nodes 79 and 91 and of the anchor. -/
theorem test_rimshot_adds : rimAdd 3 [0x4B800000#32] [0x3F800000#32] = [0x4B800000#32] ∧
    rimAdd 3 [0xCB800000#32] [0x3F800000#32] = [0xCB7FFFFF#32] ∧ rimAdd 3 [0x4B800000#32] [0xCB7FFFFF#32] = [0x3F800000#32] := by decide +kernel

/-- Tenant 12 of chapter 20's worked example, with its view on tile 3 and channel block 1. -/
def viewed : Hw := ((base.setReg .tntPartCfgLo 12 0 0x80000204#32).setReg .hstViewSel 12 0 0x103#32).setReg .chCfg 1032 0 0x000C8000#32

/-- Chapter 20, worked example: what the VF's offsets reach. -/
theorem test_tenant_view : [0x20C8, 0x30000, 0x10208].map (fun a => (viewed.resolve (.vf 12) a).2.1) = [0x190504, 0x2091000, 0x810208] := by
  decide +kernel

/-- Chapters 7, 8, 12, 15, 16 and 22: where registers lie. -/
theorem test_register_addresses :
    [(⟨.chCfg, 1032, 0⟩ : Reg), ⟨.snRimshotCfg, 82, 3⟩, ⟨.snJoin, 82, 64⟩, ⟨.slbHlease, 12290, 0⟩, ⟨.hstWinBaseLo, 7, 2⟩, ⟨.tntPartCfgLo, 3, 0⟩,
      ⟨.pmcEngineBusyLo, 84, 8⟩, ⟨.hstViewSel, 12, 0⟩, ⟨.bnFlowRate, 41, 37⟩].map Reg.addr =
    [0x810200, 0x62D818, 0x62C100, 0x101C008, 0xC0720, 0x10C00, 0x2540200, 0x4D040, 0x3944A4] := by decide +kernel

/-- Chapter 5, worked example: the clock and partition locks are set, and the PF has written the power lock's value. -/
def lockPending : Hw := { (base.setReg .ancLock 0 0 3#32).setCplPend .lock (some ⟨.pf, 8#32, 0⟩) with now := 4 }

theorem test_lock_added : after (.lockSet .pf) lockPending (·.reg .ancLock) = some 0xB#32 := by decide +kernel

/-- Chapter 5, worked example: a write to the CLR alias of ANC_LOCK is ignored and logged. -/
theorem test_lock_not_cleared : after (.aliasClr .pf 0x30#26 8#32) (base.setReg .ancLock 0 0 0xB#32)
    (fun g => (g.reg .ancLock, g.reg .ancMisuseEvt)) = some (0xB#32, 0x01400024#32) := by decide +kernel

/-- Chapter 5, worked example: the read of ANC_MISUSE_EVT returns and clears it and latches the address. -/
theorem test_misuse_read : after (.misuseEvtRead .pf)
    { (base.setReg .ancMisuseEvt 0 0 0x02400024#32) with fault := { base.fault with misuseAt := 0x08000030#32 } }
    (fun g => ((g.path .pf).resp, g.reg .ancMisuseEvt, (g.path .pf).misuseAddr)) = some (0x02400024#32, 0#32, 0x08000030#32) := by decide +kernel

/-- Chapter 6, worked example: a flit of flow A granted in bar 0x1234 at phase 3,000 under a bound of 8,192. -/
theorem test_deadline :
    (({ (base.setReg .bnFlowBound 27 0 8192#32) with bar := { base.bar with bar := 0x1234#48, phase := 3000 } } : Hw).stampFlit 27 0
      (mkFlit 5 true 9 0#1024)).deadline = 0x01236BB8 := by decide +kernel

/-- Chapter 11, worked example: tile (2,5) of tenant 11 sends NOP with the tag of its SEND. -/
def tile42 : Hw :=
  let h := ((base.setReg .tpCond 64 0 1#32).setReg .tntPartCfgLo 11 0 0x80002240#32).setReg .tntGen 11 0 4#32
  h.setPort 42 { h.port 42 with ci := 31, cmds := [⟨0x123, 2, true, 7, 0x42, 0, 0, 0, 0, 0, 0, false⟩] }

theorem test_tag_busy : after (.nop 42 ⟨true, 0#3, 0x0123#16, 7#16, 0x42#16, .ok⟩ []) tile42
    (fun g => ((g.port 42).comps.map (·.words), g.reg .tpViolEvt 64, g.reg .tpViolLog 64, g.reg .tpViolCnt 64)) =
    some ([[0x0000151501230001#64]], 0x00010015#32, 0x01230115#32, 1#32) := by decide +kernel

/-- Chapter 17, worked example: detector 10 trips in bar 0x1000 with gate_bars 2. -/
theorem test_droop_gate : after (.droopTrip 10#4)
    { base with bar := { base.bar with running := true, bar := 0x1000#48 }, power := { base.power with droop := 0x00A2FFFF#32 } }
    (fun g => (g.power.gates, fld g.gateWord 0 16)) = some ([(10, 0x1003)], 0x0400) := by decide +kernel

/-- Chapter 18, worked example: S2 fails, and S4 takes its duty. -/
theorem test_steward_takeover : after (.stewardHeartbeatFail 2)
    { (base.setReg .stwDuty 0 0 0x03020100#32).setReg .stwHeartbeat 2 0 4#32 with bar := { base.bar with running := true }, stw := { base.stw with active := 15 } }
    (fun g => (g.reg .stwDuty, g.value .pf ⟨.stwStatus, 0, 0⟩)) = some (0x03040100#32, 0x0000041B#32) := by decide +kernel

/-- A block whose bar counter runs, in the middle of a bar. -/
def running : Hw := { base with bar := { base.bar with running := true, bar := 7#48, phase := 4094 } }

/-- A state with a command waiting. -/
def waiting : State := ⟨lockPending, [.lockSet .pf, .beatSend]⟩

theorem witness_IdleStepIsOneCycle (o : Obligations.IdleStepIsOneCycle) :
    step (st base) = .next (st { base with now := 1 }) ∧
    (∃ t, step (st running) = .next t ∧ t.hw.bar = { running.bar with phase := 4095 }) ∧
    step (st { running with bar := { running.bar with phase := 4095 } }) = .next (st { running with bar := { running.bar with phase := 4095 } }) := by
  refine ⟨(o (st base) rfl).1 (Or.inl rfl), ?_, ((o _ rfl).2 rfl (by decide +kernel) rfl).2 (by decide)⟩
  obtain ⟨t, e, _, _, b, _⟩ := ((o (st running) rfl).2 rfl (by decide +kernel) rfl).1 (by decide)
  exact ⟨t, e, b⟩

theorem witness_StepKeepsInvariant (o : Obligations.StepKeepsInvariant) : ∃ t, step waiting = .next t ∧ t.hw.memoriesOk = true ∧ t.hw.bar.InRange :=
  ⟨_, rfl, o waiting _ (by decide +kernel) ⟨by decide, by decide, by decide, fun _ e => nomatch e⟩ rfl⟩

theorem witness_BurnedFusesStay (o : Obligations.BurnedFusesStay) : ∃ t, step waiting = .next t ∧ lockPending.fuse.Grows t.hw.fuse :=
  ⟨_, rfl, o waiting _ rfl⟩

theorem witness_LastingStoreFrame (o : Obligations.LastingStoreFrame) :
    ∃ t, exec (.lockSet .pf) (st lockPending) = .next t ∧ t.hw.vault = lockPending.vault :=
  ⟨_, rfl, o (.lockSet .pf) (st lockPending) _ rfl⟩

/-! ### Witnesses -/

namespace Channels

-- channel 5: tile node 2 endpoint 1 → H node 61 endpoint 3, depth 4, die channel (gen 0), blocking per arg
def chan (cfg status seq : Word) : Hw :=
  ((((base.setReg .chCfg 5 0 cfg).setReg .chEp 5 0 0x033D0102#32).setReg .chStatus 5 0 status).setReg .chSeq 5 0 seq)
def msg : BitVec 512 := 7#512
def pk (q : Nat) (poison : Bool) : CPkt := let p := mkCPkt ccMsg 2 61 0 0 5 q msg; { p with tag := setBit p.tag 56 poison }
def cr (q : Nat) : CPkt := mkCPkt ccCredit 61 2 0 0 5 q 0
def flying (h : Hw) (p : CPkt) : Hw := { h with cnet := { h.cnet with flight := [p] } }
def landed (h : Hw) : Hw := { h with cnet := { h.cnet with flight := [] } }
def c1 : Hw := chan 0x8200#32 0x40000#32 0x0#32
def c2 : Hw := chan 0xC200#32 0xA000000#32 0xFF#32
def c3 : Hw := chan 0x8200#32 0x0#32 0x0#32
def c4 : Hw := chan 0xA201#32 0x30001#32 0x0#32
def c5 : Hw := { chan 0xA201#32 0x30001#32 0x0#32 with cnet := { c4.cnet with fifos := [(5, [msg, 1#512])] } }
theorem ten (h : Hw) (e : h.agentTenant 2 = some (h.chTenant 5)) : ∀ t, h.agentTenant 2 = some t → t = h.chTenant 5 :=
  fun _ f => Option.some.inj (f.symm.trans e)
/-- States and operands that meet the hypotheses of ChannelMessages. -/
theorem witness_ChannelMessages (o : Obligations.ChannelMessages) :
    Runs (.channelSend 2 (1#4) (5#12) msg) (st c1) ∧
    Runs (.channelSend 2 (1#4) (5#12) msg) (st c2) ∧
    Runs (.channelSend 2 (1#4) (5#12) msg) (st c3) ∧
    Runs (.channelSend 2 (2#4) (5#12) msg) (st c3) ∧
    Runs (.channelSend 2 (2#4) (5#12) msg) (st base) ∧
    Runs (.channelCreditArrival 5#12 [] true) (st (flying c3 (cr 3))) ∧
    Runs (.channelCreditArrival 5#12 [] true) (st (flying c1 (cr 0))) ∧
    Runs (.channelMsgArrival 5#12 [] true) (st (flying c4 (pk 0 false))) ∧
    Runs (.channelMsgArrival 5#12 [] true) (st (flying c4 (pk 1 false))) ∧
    Runs (.channelMsgArrival 5#12 [] true) (st (flying (chan 0xA201#32 0x4#32 0x0#32) (pk 0 false))) ∧
    Runs (.channelMsgArrival 5#12 [] true) (st (flying c4 (pk 0 true))) :=
  ⟨runs ((o.1 (st c1) 2 1#4 5#12 msg (by decide +kernel) (by decide +kernel)).1 ⟨(by decide +kernel), (by decide +kernel), ten c1 (by decide +kernel)⟩
    (by decide +kernel) (by decide +kernel) (by decide +kernel)),
   runs (((o.1 (st c2) 2 1#4 5#12 msg (by decide +kernel) (by decide +kernel)).2.1 ⟨(by decide +kernel), (by decide +kernel), ten c2
     (by decide +kernel)⟩ (by decide +kernel)).1 (by decide +kernel)),
   runs (((o.1 (st c3) 2 1#4 5#12 msg (by decide +kernel) (by decide +kernel)).2.1 ⟨(by decide +kernel), (by decide +kernel), ten c3
     (by decide +kernel)⟩ (by decide +kernel)).2 (by decide +kernel) (by decide +kernel)),
   runs ((o.1 (st c3) 2 2#4 5#12 msg (by decide +kernel) (by decide +kernel)).2.2 (by decide +kernel)),
   runs ((o.1 (st base) 2 2#4 5#12 msg (by decide +kernel) (by decide +kernel)).2.2 (by decide +kernel)),
   runs (((o.2 (st (flying c3 (cr 3))) 5#12 [] true (by decide +kernel)).1 (cr 3) c3 (cr 3) c3 (by decide +kernel) (by decide +kernel)
     (by decide +kernel)).1 (by decide +kernel)),
   runs (((o.2 (st (flying c1 (cr 0))) 5#12 [] true (by decide +kernel)).1 (cr 0) c1 (cr 0) c1 (by decide +kernel) (by decide +kernel)
     (by decide +kernel)).2 (by decide +kernel) (by decide +kernel)),
   runs (((o.2 (st (flying c4 (pk 0 false))) 5#12 [] true (by decide +kernel)).2.1 (pk 0 false) c4 (pk 0 false) c4 (by decide +kernel)
     (by decide +kernel) (by decide +kernel)).1 (by decide +kernel) (by decide +kernel) (by decide +kernel)),
   runs (((o.2 (st (flying c4 (pk 1 false))) 5#12 [] true (by decide +kernel)).2.1 (pk 1 false) c4 (pk 1 false) c4 (by decide +kernel)
     (by decide +kernel) (by decide +kernel)).2.1 (by decide +kernel)),
   runs (((o.2 (st (flying (chan 0xA201#32 0x4#32 0x0#32) (pk 0 false))) 5#12 [] true (by decide +kernel)).2.1 (pk 0 false) (chan 0xA201#32 0x4#32
     0x0#32) (pk 0 false) (chan 0xA201#32 0x4#32 0x0#32) (by decide +kernel) (by decide +kernel) (by decide +kernel)).2.2.1 (by decide +kernel)
     (by decide +kernel)),
   runs (((o.2 (st (flying c4 (pk 0 true))) 5#12 [] true (by decide +kernel)).2.1 (pk 0 true) c4 (pk 0 true) c4 (by decide +kernel)
     (by decide +kernel) (by decide +kernel)).2.2.2 (by decide +kernel) (by decide +kernel) (by decide +kernel))⟩

def after : Hw := (({ flying c5 (cr 9) with cnet := { (flying c5 (cr 9)).cnet with fifos := nset c5.cnet.fifos 5 [1#512] [] } } : Hw).chUpdate 5 (c5.chOcc 5 - 1) (c5.chCredits 5)).modReg .chStore 61 0 (fun w => setFld w 16 11 (fld w 16 11 - 1))
def r1 : Hw := (base.setReg .chEp 5 0 0x033D0102#32).setReg .chEpt 61 3 1#32
/-- States and operands that meet the hypotheses of ChannelEnds. -/
theorem witness_ChannelEnds (o : Obligations.ChannelEnds) :
    Runs (.channelDequeue 61 (3#4) (5#12) false) (st c5) ∧
    Runs (.channelDequeue 61 (3#4) (5#12) true) (st c5) ∧
    Runs (.channelDequeue 61 (3#4) (5#12) true) (st (flying c5 (cr 9))) ∧
    Runs (.channelDequeue 61 (3#4) (5#12) true) (st c1) ∧
    Runs (.channelDequeue 61 (2#4) (5#12) true) (st c1) ∧
    Runs (.channelEnable (Path.steward 0) 5#12 512#32) (st base) ∧
    Runs (.channelEnable (Path.steward 0) 5#12 18432#32) (st r1) ∧
    Runs (.channelDisable (Path.steward 0) 5#12 41473#32) (st c5) :=
  ⟨runs (((o.1 (st c5) 61 3#4 5#12 false (by decide +kernel) (by decide +kernel)).1 msg [1#512] (by decide +kernel) (by decide +kernel)).1
    (by decide +kernel)),
   runs (((o.1 (st c5) 61 3#4 5#12 true (by decide +kernel) (by decide +kernel)).1 msg [1#512] (by decide +kernel) (by decide +kernel)).1
     (by decide +kernel)),
   runs (((o.1 (st (flying c5 (cr 9))) 61 3#4 5#12 true (by decide +kernel) (by decide +kernel)).1 msg [1#512] (by decide +kernel)
     (by decide +kernel)).2 (cr 9) (landed after) (by decide +kernel) (by decide +kernel) (by decide +kernel)),
   runs ((o.1 (st c1) 61 3#4 5#12 true (by decide +kernel) (by decide +kernel)).2.1 (by decide +kernel) (by decide +kernel)),
   runs ((o.1 (st c1) 61 2#4 5#12 true (by decide +kernel) (by decide +kernel)).2.2 (by decide +kernel)),
   runs ((o.2 (st base) (.steward 0) 5#12 0x0200#32 (writeOpens (by decide +kernel))).1 (by decide +kernel) (by decide +kernel) (by decide +kernel)
     (by decide +kernel) (by decide +kernel)),
   runs ((o.2 (st r1) (.steward 0) 5#12 0x4800#32 (writeOpens (by decide +kernel))).1 (by decide +kernel) (by decide +kernel) (by decide +kernel)
     (by decide +kernel) (by decide +kernel)),
   runs ((o.2 (st c5) (.steward 0) 5#12 0xA201#32 (writeOpens (by decide +kernel))).2 (by decide +kernel) (by decide +kernel) (by decide +kernel))⟩

def b1 : Hw := c5.setReg .nodeBell 61 0 0xFF00FF#32
def rq : RegReq := { path := pathCode .pf, node := 61, write := false, addr := 0, data := 0#32, tag := 0 }
def rq2 : RegReq := { path := pathCode .pf, node := 61, write := true, addr := 0, data := 0#32, tag := 0 }
def q1 : Hw := { base with cnet := { base.cnet with regRsp := [(rq, 9#32, true)] } }
def q2 : Hw := { base with cnet := { base.cnet with regRsp := [(rq2, 9#32, true)] } }
/-- States and operands that meet the hypotheses of BellsAndRegisterPackets. -/
theorem witness_BellsAndRegisterPackets (o : Obligations.BellsAndRegisterPackets) :
    Runs (.nodeBellClear (Path.steward 0) 61 4294967295#32) (st b1) ∧
    Runs (.nodeBellClear (Path.steward 0) 61 4294967295#32) (st (b1.setReg .chStatus 5 0 0x30002#32)) ∧
    Runs (.bellRing (Path.steward 0) 61 4294967295#32) (st b1) ∧
    Runs (.regResponse Path.pf [] true) (st q1) ∧
    Runs (.regResponse Path.pf [] true) (st q2) :=
  ⟨runs ((o.1 (st b1) (.steward 0) 61 0xFFFFFFFF#32).1 (writeOpens (by decide +kernel))),
   runs ((o.1 (st (b1.setReg .chStatus 5 0 0x30002#32)) (.steward 0) 61 0xFFFFFFFF#32).1 (writeOpens (by decide +kernel))),
   runs ((o.1 (st b1) (.steward 0) 61 0xFFFFFFFF#32).2 (writeOpens (by decide +kernel))),
   runs ((o.2 (st q1) .pf (by decide +kernel)).2 rq 9#32 true [] (by decide +kernel)),
   runs ((o.2 (st q2) .pf (by decide +kernel)).2 rq2 9#32 true [] (by decide +kernel))⟩

end Channels

namespace Syncs

def sp (ws : List Word) : SPkt := ⟨7, 0, 1, 3, ws⟩
-- barrier 7 of tenant 1, generation 3, valid
def sy : Hw := (owned.setReg .snBarrierCfg 82 7 0x00C18000#32).setReg .snJoin 2 1 0x01000000#32
def so : SyncOp := ⟨5, 7, [], false⟩
def sx : Hw := sy.setPort 0 { sy.port 0 with syncs := [so] }
def so5 : SyncOp := ⟨5, 7, [1#32], false⟩
def so2 : SyncOp := ⟨5, 8, [], false⟩
def w1 : List Word := (sp []).toWords
def rx (h : Hw) (q kind : Nat) (ws : List Word) : Hw := { h with snet := { h.snet with rx := [(q, kind, ws)] } }
def ring (q : Nat) (role : Nat) (h : Hw) : Hw := h.setReg .snRing (portNode q) 1 (BitVec.ofNat 32 (role * 2 ^ 24))
def tr : TorusRound := ⟨sp [], 1, none, none, true⟩
def rt (h : Hw) : Hw := { h with snet := { h.snet with torus := [tr] } }
/-- States and operands that meet the hypotheses of SyncContributions. -/
theorem witness_SyncContributions (o : Obligations.SyncContributions) :
    Runs (.syncContribute 0 7#9) (st sx) ∧
    Runs (.syncContribute 0 7#9) (st (sy.setPort 0 { sy.port 0 with syncs := [so5] })) ∧
    Runs (.syncContribute 0 8#9) (st (sy.setPort 0 { sy.port 0 with syncs := [so2] })) ∧
    Runs (.ringPartialArrival 2) (st (rx (ring 2 2 sy) 2 1 w1)) ∧
    Runs (.ringPartialArrival 2) (st (rx (rt (ring 2 2 sy)) 2 1 w1)) ∧
    Runs (.ringPartialArrival 2) (st (rx (ring 2 1 sy) 2 2 w1)) ∧
    Runs (.syncCfgDisable (Path.steward 0) 7#9 0#32) (st (rt sx)) :=
  ⟨runs (((o.1 (st sx) 0 7#9 (by decide +kernel) (by decide +kernel)).1 so (by decide +kernel) (by decide +kernel)).1 (by decide +kernel)
    (by decide +kernel) (by decide +kernel)),
   runs (((o.1 (st (sy.setPort 0 { sy.port 0 with syncs := [so5] })) 0 7#9 (by decide +kernel) (by decide +kernel)).1 so5 (by decide +kernel)
     (by decide +kernel)).2 (by decide +kernel)),
   runs (((o.1 (st (sy.setPort 0 { sy.port 0 with syncs := [so2] })) 0 8#9 (by decide +kernel) (by decide +kernel)).1 so2 (by decide +kernel)
     (by decide +kernel)).2 (by decide +kernel)),
   runs ((((o.2 (st (rx (ring 2 2 sy) 2 1 w1))).1 2 1 w1 (ring 2 2 sy) (sp []) (by decide +kernel) (by decide +kernel) (by decide +kernel)
     (by decide +kernel) (by decide +kernel) (by decide +kernel) (by decide +kernel)).1 (by decide +kernel) (by decide +kernel) (by decide +kernel)).1
     (by decide +kernel)),
   runs ((((o.2 (st (rx (rt (ring 2 2 sy)) 2 1 w1))).1 2 1 w1 (rt (ring 2 2 sy)) (sp []) (by decide +kernel) (by decide +kernel) (by decide +kernel)
     (by decide +kernel) (by decide +kernel) (by decide +kernel) (by decide +kernel)).1 (by decide +kernel) (by decide +kernel) (by decide +kernel)).2
     tr (by decide +kernel)),
   runs (((o.2 (st (rx (ring 2 1 sy) 2 2 w1))).1 2 2 w1 (ring 2 1 sy) (sp []) (by decide +kernel) (by decide +kernel) (by decide +kernel)
     (by decide +kernel) (by decide +kernel) (by decide +kernel) (by decide +kernel)).2 (by decide +kernel) (by decide +kernel)),
   runs ((o.2 (st (rt sx))).2 (.steward 0) 7#9 0#32 (writeOpens (by decide +kernel)) (by decide +kernel))⟩

def up1 : Hw := sy.setUp 2 0 7 (sp [])
def up2 : Hw := { up1 with health := { up1.health with meshDown := [⟨2, 2, 1⟩] } }
def up3 : Hw := ((sy.setReg .snJoin 82 1 0x03000000#32).setUp 82 0 7 (sp [])).setUp 82 1 7 (sp [])
def up4 : Hw := up3.setReg .snBarrierCfg 82 7 0x00C1C000#32
def dn (h : Hw) : Hw := { h with snet := { h.snet with down := [(2, sp [])] } }
def so' : SyncOp := { so with sent := true }
def sy' : Hw := sy.setPort 0 { sy.port 0 with syncs := [so'], cmds := [⟨5, 7, true, 0, 0, 0, 0, 0, 0, 0, 0, false⟩] }
/-- States and operands that meet the hypotheses of SyncRounds. -/
theorem witness_SyncRounds (o : Obligations.SyncRounds) :
    Runs (.snetUpCombine 2 (7#9) MeshErr.router) (st up1) ∧
    Runs (.snetUpCombine 2 (7#9) MeshErr.ok) (st up1) ∧
    Runs (.snetUpCombine 2 (7#9) MeshErr.corrected) (st up1) ∧
    Runs (.snetUpCombine 2 (7#9) MeshErr.credit) (st up1) ∧
    Runs (.snetUpCombine 2 (7#9) MeshErr.ok) (st up2) ∧
    Runs (.snetUpCombine 82 (7#9) MeshErr.ok) (st up3) ∧
    Runs (.snetUpCombine 82 (7#9) MeshErr.ok) (st up4) ∧
    Runs (.snetDownDeliver 2 (7#9) none) (st (dn sy')) :=
  ⟨runs ((o (st up1) 7#9 (by decide +kernel)).1 2),
   runs (((((o (st up1) 7#9 (by decide +kernel)).2.1 2 .ok (sp []) [] (by decide +kernel) (by decide +kernel)).2 3 (by decide +kernel)
     (by decide +kernel)).1 (by decide +kernel)).1 (by decide +kernel)),
   runs (((((o (st up1) 7#9 (by decide +kernel)).2.1 2 .corrected (sp []) [] (by decide +kernel) (by decide +kernel)).2 3 (by decide +kernel)
     (by decide +kernel)).1 (by decide +kernel)).2.1 (by decide +kernel)),
   runs (((((o (st up1) 7#9 (by decide +kernel)).2.1 2 .credit (sp []) [] (by decide +kernel) (by decide +kernel)).2 3 (by decide +kernel)
     (by decide +kernel)).1 (by decide +kernel)).2.2 (by decide +kernel)),
   runs ((((o (st up2) 7#9 (by decide +kernel)).2.1 2 .ok (sp []) [] (by decide +kernel) (by decide +kernel)).2 3 (by decide +kernel)
     (by decide +kernel)).2 (by decide +kernel)),
   runs (((o (st up3) 7#9 (by decide +kernel)).2.1 82 .ok (sp []) [sp []] (by decide +kernel) (by decide +kernel)).1 (by decide +kernel)),
   runs (((o (st up4) 7#9 (by decide +kernel)).2.1 82 .ok (sp []) [sp []] (by decide +kernel) (by decide +kernel)).1 (by decide +kernel)),
   runs (((o (st (dn sy')) 7#9 (by decide +kernel)).2.2 2 none (2, sp []) [] (by decide +kernel)).1 so' (by decide +kernel))⟩

def fz (b : Bool) : Hw := { owned with snet := { owned.snet with freeze := some ⟨0, b⟩, thaw := some ⟨0, false⟩ } }
def gw (op : Nat) (target : Nat) : Word := mkWord [(0, 2, op), (2, 1, 1), (20, 12, target)]
def gq (h : Hw) (op t : Nat) : Hw := { h with snet := { h.snet with gongs := [(gw op t, 5#32)] } }
def seen (h : Hw) : Hw := { h with snet := { h.snet with seen := [gongName 5#32] } }
/-- States and operands that meet the hypotheses of GongFreezeAndThaw. -/
theorem witness_GongFreezeAndThaw (o : Obligations.GongFreezeAndThaw) :
    Runs (.gongFreezeReq (Path.steward 0) 768#32) (st owned) ∧
    Runs (.gongFreezeReq (Path.steward 0) 4880#32) (st owned) ∧
    Runs (.gongThawReq (Path.steward 0) 4880#32) (st owned) ∧
    Runs (.gongFaultReq (Path.steward 0) 4880#32) (st owned) ∧
    Runs (.gongFaultReq (Path.steward 0) 66320#32) (st owned) ∧
    Runs (.freezeTakeEffect) (st (fz true)) ∧
    Runs (.freezeTakeEffect) (st (fz false)) ∧
    Runs (.thawTakeEffect) (st ((fz false).setReg .snGongStatus 82 0 5#32)) ∧
    Runs (.gongNoticeArrival none) (st (gq owned 1 3)) ∧
    Runs (.gongNoticeArrival (some 2)) (st (rx owned 2 4 [gw 1 3, 5#32])) ∧
    Runs (.gongNoticeArrival (some 2)) (st (rx (seen owned) 2 4 [gw 1 3, 5#32])) :=
  ⟨runs (((o.1 (st owned)).1 (.steward 0) 0x300#32 (writeOpens (by decide +kernel)) (by decide +kernel)).1),
   runs (((o.1 (st owned)).1 (.steward 0) 0x1310#32 (writeOpens (by decide +kernel)) (by decide +kernel)).1),
   runs (((o.1 (st owned)).1 (.steward 0) 0x1310#32 (writeOpens (by decide +kernel)) (by decide +kernel)).2.1),
   runs (((o.1 (st owned)).1 (.steward 0) 0x1310#32 (writeOpens (by decide +kernel)) (by decide +kernel)).2.2),
   runs (((o.1 (st owned)).1 (.steward 0) 0x10310#32 (writeOpens (by decide +kernel)) (by decide +kernel)).2.2),
   runs (((o.1 (st (fz true))).2 (by decide +kernel)).1 ⟨0, true⟩ (by decide +kernel) (by decide +kernel) (by decide +kernel)),
   runs (((o.1 (st (fz false))).2 (by decide +kernel)).1 ⟨0, false⟩ (by decide +kernel) (by decide +kernel) (by decide +kernel)),
   runs (((o.1 (st ((fz false).setReg .snGongStatus 82 0 5#32))).2 (by decide +kernel)).2 ⟨0, false⟩ (by decide +kernel) (by decide +kernel)
     (by decide +kernel)),
   runs ((o.2 (st (gq owned 1 3)) (by decide +kernel)).1 (gw 1 3) 5#32 [] (by decide +kernel)),
   runs (((o.2 (st (rx owned 2 4 [gw 1 3, 5#32])) (by decide +kernel)).2.1 2 (gw 1 3) 5#32 owned (by decide +kernel) (by decide +kernel)).1
     (by decide +kernel)),
   runs (((o.2 (st (rx (seen owned) 2 4 [gw 1 3, 5#32])) (by decide +kernel)).2.1 2 (gw 1 3) 5#32 (seen owned) (by decide +kernel)
     (by decide +kernel)).2 (by decide +kernel))⟩

def nt (f0 remote : Bool) : Notice := ⟨f0, 1, 3, 0x10, 5, 0, remote, 0, 0, 0, 0, 0⟩
def nh (h : Hw) (x : Notice) : Hw := { h with fault := { h.fault with notices := [x] } }
def fw (h : Hw) : Hw := { h with fault := { h.fault with forwarded := [(1, 3)], f0Forwarded := true } }
def multi : Hw := owned.setReg .tntPartCfgLo 1 0 0xC0003300#32
def fw0 (t g : Nat) (f0 : Bool) : Word := mkWord [(0, 2, 3), (2, 1, b2n f0), (4, 6, t), (10, 10, g), (20, 12, 0x10)]
/-- States and operands that meet the hypotheses of FaultNotices. -/
theorem witness_FaultNotices (o : Obligations.FaultNotices) :
    Runs (.faultNotice) (st (nh owned (nt false true))) ∧
    Runs (.faultNotice) (st (nh (fw owned) (nt false false))) ∧
    Runs (.faultNotice) (st (nh multi (nt false false))) ∧
    Runs (.faultNotice) (st (nh multi (nt true false))) ∧
    Runs (.faultNotice) (st (nh (fw multi) (nt true false))) ∧
    Runs (.remoteFaultNotice 2) (st (rx (seen multi) 2 4 [fw0 1 3 false, 5#32])) ∧
    Runs (.remoteFaultNotice 2) (st (rx multi 2 4 [fw0 1 3 false, 0#32])) ∧
    Runs (.remoteFaultNotice 2) (st (rx multi 2 4 [fw0 1 2 false, 0#32])) ∧
    Runs (.remoteFaultNotice 2) (st (rx multi 2 4 [fw0 1 3 false, 5#32])) ∧
    Runs (.remoteFaultNotice 2) (st (rx multi 2 4 [fw0 1 3 true, 0#32])) :=
  ⟨runs (((o (st (nh owned (nt false true))) (by decide +kernel)).1 (nt false true) (by decide +kernel)).1 (by decide +kernel)),
   runs (((o (st (nh (fw owned) (nt false false))) (by decide +kernel)).1 (nt false false) (by decide +kernel)).2.1 (by decide +kernel)
     (by decide +kernel) (by decide +kernel)),
   runs (((o (st (nh multi (nt false false))) (by decide +kernel)).1 (nt false false) (by decide +kernel)).2.2.1 (by decide +kernel)
     (by decide +kernel) (by decide +kernel)),
   runs (((o (st (nh multi (nt true false))) (by decide +kernel)).1 (nt true false) (by decide +kernel)).2.2.2.1 (by decide +kernel)
     (by decide +kernel) (by decide +kernel)),
   runs (((o (st (nh (fw multi) (nt true false))) (by decide +kernel)).1 (nt true false) (by decide +kernel)).2.2.2.2 (by decide +kernel)
     (by decide +kernel) (by decide +kernel)),
   runs (((o (st (rx (seen multi) 2 4 [fw0 1 3 false, 5#32])) (by decide +kernel)).2 2 (fw0 1 3 false) 5#32 (seen multi) (by decide +kernel)
     (by decide +kernel)).1 (by decide +kernel)),
   runs ((((o (st (rx multi 2 4 [fw0 1 3 false, 0#32])) (by decide +kernel)).2 2 (fw0 1 3 false) 0#32 multi (by decide +kernel)
     (by decide +kernel)).2.1 (by decide +kernel) (by decide +kernel) (by decide +kernel)).1 (by decide +kernel)),
   runs ((((o (st (rx multi 2 4 [fw0 1 2 false, 0#32])) (by decide +kernel)).2 2 (fw0 1 2 false) 0#32 multi (by decide +kernel)
     (by decide +kernel)).2.1 (by decide +kernel) (by decide +kernel) (by decide +kernel)).2 (by decide +kernel)),
   runs (((o (st (rx multi 2 4 [fw0 1 3 false, 5#32])) (by decide +kernel)).2 2 (fw0 1 3 false) 5#32 multi (by decide +kernel)
     (by decide +kernel)).2.2.1 (by decide +kernel) (by decide +kernel) (by decide +kernel)),
   runs (((o (st (rx multi 2 4 [fw0 1 3 true, 0#32])) (by decide +kernel)).2 2 (fw0 1 3 true) 0#32 multi (by decide +kernel)
     (by decide +kernel)).2.2.2 (by decide +kernel) (by decide +kernel))⟩

end Syncs

namespace TileEnds

def hdr : CmdHdr := ⟨true, 0#3, 5#16, 0#16, 0#16, .ok⟩
def quiet : CmdHdr := ⟨false, 0#3, 5#16, 0#16, 0#16, .corrected⟩
-- the port of tile 0 is ACTIVE with its initial credits
def up (h : Hw) : Hw := (h.setReg .tpCond 2 0 1#32).setPort 0 { h.port 0 with ci := 32 }
def t0 : Hw := up owned
def tbell : Hw := (t0.setReg .nodeBell 2 0 0xFFFFFF#32)
def tj (m d : Nat) : Hw := t0.setJob 1 { t0.job 1 with tileMask := m, doneSet := d }
theorem tjo (h : Hw) (e : h.tileOwner 0 = some 1) (P : Nat → Prop) (p : P 1) : ∀ t, h.tileOwner 0 = some t → P t := by intro t f; rw [e] at f; cases f; exact p
def tph : Hw := ((t0.setReg .tpPmap 2 3 0x80020004#32).setReg .bnFlowCfg 2 1 0x00C16009#32).setReg .bnFlowPhase 2 1 0x00060004#32
def ccx0 : CcxOp := ⟨9, 6, 0, 0#64, 0, 0, 0, false, 0, 0, 0, 0, 0, 0, 0, false, 0, 0, [], false, false, false⟩
def tcc : Hw := t0.setPort 0 { t0.port 0 with ccx := [ccx0], cmds := [⟨6, 0x10, false, 0, 0, 0, 0, 0, 0, 0, 0, false⟩] }
def page (h : Hw) (p t g : Nat) : Hw := h.setReg .slbLease p 0 (mkWord [(22, 10, g), (16, 6, t), (15, 1, 1)])
-- HBM slot 0 of tenant 1 is die unit 5
def hb (g : Nat) : Hw := let h := (((t0.setReg .slbHbase 1 0 0x00010000#32).setReg .slbHmap 0 0 0x80000005#32).setReg .memPcStatus 0 0 0xFF#32).setReg .slbHlease 5 0 (mkWord [(22, 10, g), (16, 6, 1), (15, 1, b2n (g != 0))])
  { h with mem := { h.mem with units := [(1, 1)] } }
/-- States and operands that meet the hypotheses of TileCommandsDone. -/
theorem witness_TileCommandsDone (o : Obligations.TileCommandsDone) :
    Runs (.nop 0 hdr []) (st t0) ∧
    Runs (.bellClear 0 hdr [16777215#64]) (st tbell) ∧
    Runs (.bellClear 0 quiet [16777215#64]) (st tbell) ∧
    Runs (.jobDone 0 hdr []) (st (tj 3 0)) ∧
    Runs (.jobDone 0 hdr []) (st (tj 3 2)) ∧
    Runs (.jobDone 0 hdr []) (st (tj 3 1)) ∧
    Runs (.phase 0 hdr [1538#64]) (st tph) ∧
    Runs (.phase 0 hdr [1794#64]) (st tph) ∧
    Runs (.phase 0 hdr [1793#64]) (st tph) ∧
    Runs (.computeDone 0 hdr [6#64]) (st tcc) ∧
    Runs (.computeDone 0 hdr [7#64]) (st tcc) ∧
    Runs (.cntReport 0 hdr [46#64, 1#64, 8589934594#64]) (st (t0.setReg .tpCond 2 0 0x1001#32)) ∧
    Runs (.cntReport 0 hdr [46#64, 1#64, 2#64]) (st t0) ∧
    Runs (.leaseFree 0 hdr [196608#64]) (st t0) ∧
    Runs (.leaseFree 0 hdr [196608#64]) (st (page t0 3 1 3)) ∧
    Runs (.leaseFree 0 hdr [196608#64]) (st (page t0 3 1 2)) ∧
    Runs (.leaseFree 0 hdr [282574488338432#64]) (st (hb 0)) ∧
    Runs (.leaseFree 0 hdr [282574488338432#64]) (st (hb 3)) ∧
    Runs (.leaseFree 0 hdr [282574488338432#64]) (st (hb 2)) :=
  ⟨runs ((o (st t0) 0 hdr [] (by decide +kernel)).1 ⟨(by decide +kernel), (by decide +kernel), (by decide +kernel), (by decide +kernel),
    (by decide +kernel), (by decide +kernel), (by decide +kernel), (by decide +kernel)⟩),
   runs ((o (st tbell) 0 hdr [0xFFFFFF#64] (by decide +kernel)).2.1 ⟨(by decide +kernel), (by decide +kernel), (by decide +kernel),
     (by decide +kernel), (by decide +kernel), (by decide +kernel), (by decide +kernel), (by decide +kernel)⟩),
   runs ((o (st tbell) 0 quiet [0xFFFFFF#64] (by decide +kernel)).2.1 ⟨(by decide +kernel), (by decide +kernel), (by decide +kernel),
     (by decide +kernel), (by decide +kernel), (by decide +kernel), (by decide +kernel), (by decide +kernel)⟩),
   runs (((o (st (tj 3 0)) 0 hdr [] (by decide +kernel)).2.2.1 ⟨(by decide +kernel), (by decide +kernel), (by decide +kernel), (by decide +kernel),
     (by decide +kernel), (by decide +kernel), (by decide +kernel), (by decide +kernel)⟩).1 1 (by decide +kernel) (by decide +kernel)
     (by decide +kernel) (by decide +kernel)),
   runs (((o (st (tj 3 2)) 0 hdr [] (by decide +kernel)).2.2.1 ⟨(by decide +kernel), (by decide +kernel), (by decide +kernel), (by decide +kernel),
     (by decide +kernel), (by decide +kernel), (by decide +kernel), (by decide +kernel)⟩).1 1 (by decide +kernel) (by decide +kernel)
     (by decide +kernel) (by decide +kernel)),
   runs (((o (st (tj 3 1)) 0 hdr [] (by decide +kernel)).2.2.1 ⟨(by decide +kernel), (by decide +kernel), (by decide +kernel), (by decide +kernel),
     (by decide +kernel), (by decide +kernel), (by decide +kernel), (by decide +kernel)⟩).2 (tjo _ (by decide +kernel) _ (by decide +kernel))),
   runs (((o (st tph) 0 hdr [0x0602#64] (by decide +kernel)).2.2.2.1 ⟨(by decide +kernel), (by decide +kernel), (by decide +kernel),
     (by decide +kernel), (by decide +kernel), (by decide +kernel), (by decide +kernel), (by decide +kernel)⟩).1 4 (by decide +kernel)
     (by decide +kernel)),
   runs (((o (st tph) 0 hdr [0x0702#64] (by decide +kernel)).2.2.2.1 ⟨(by decide +kernel), (by decide +kernel), (by decide +kernel),
     (by decide +kernel), (by decide +kernel), (by decide +kernel), (by decide +kernel), (by decide +kernel)⟩).2 (by decide +kernel)),
   runs (((o (st tph) 0 hdr [0x0701#64] (by decide +kernel)).2.2.2.1 ⟨(by decide +kernel), (by decide +kernel), (by decide +kernel),
     (by decide +kernel), (by decide +kernel), (by decide +kernel), (by decide +kernel), (by decide +kernel)⟩).2 (by decide +kernel)),
   runs (((o (st tcc) 0 hdr [6#64] (by decide +kernel)).2.2.2.2.1 ⟨(by decide +kernel), (by decide +kernel), (by decide +kernel), (by decide +kernel),
     (by decide +kernel), (by decide +kernel), (by decide +kernel), (by decide +kernel)⟩).1 ccx0 (by decide +kernel)),
   runs (((o (st tcc) 0 hdr [7#64] (by decide +kernel)).2.2.2.2.1 ⟨(by decide +kernel), (by decide +kernel), (by decide +kernel), (by decide +kernel),
     (by decide +kernel), (by decide +kernel), (by decide +kernel), (by decide +kernel)⟩).2 (by decide +kernel)),
   runs (((o (st (t0.setReg .tpCond 2 0 0x1001#32)) 0 hdr [0x2E#64, 1#64, 0x200000002#64] (by decide +kernel)).2.2.2.2.2.1 ⟨(by decide +kernel),
     (by decide +kernel), (by decide +kernel), (by decide +kernel), (by decide +kernel), (by decide +kernel), (by decide +kernel), (by decide +kernel)⟩
     (by decide +kernel) (by decide +kernel)).1 (by decide +kernel)),
   runs (((o (st t0) 0 hdr [0x2E#64, 1#64, 2#64] (by decide +kernel)).2.2.2.2.2.1 ⟨(by decide +kernel), (by decide +kernel), (by decide +kernel),
     (by decide +kernel), (by decide +kernel), (by decide +kernel), (by decide +kernel), (by decide +kernel)⟩ (by decide +kernel) (by decide +kernel)).2
     (by decide +kernel)),
   runs ((((o (st t0) 0 hdr [0x30000#64] (by decide +kernel)).2.2.2.2.2.2 ⟨(by decide +kernel), (by decide +kernel), (by decide +kernel),
     (by decide +kernel), (by decide +kernel), (by decide +kernel), (by decide +kernel), (by decide +kernel)⟩).1 (by decide +kernel) (by decide +kernel)
     (by decide +kernel)).1 (by decide +kernel)),
   runs (((((o (st (page t0 3 1 3)) 0 hdr [0x30000#64] (by decide +kernel)).2.2.2.2.2.2 ⟨(by decide +kernel), (by decide +kernel),
     (by decide +kernel), (by decide +kernel), (by decide +kernel), (by decide +kernel), (by decide +kernel), (by decide +kernel)⟩).1
     (by decide +kernel) (by decide +kernel) (by decide +kernel)).2 (by decide +kernel) (by decide +kernel)).1 (by decide +kernel)),
   runs (((((o (st (page t0 3 1 2)) 0 hdr [0x30000#64] (by decide +kernel)).2.2.2.2.2.2 ⟨(by decide +kernel), (by decide +kernel),
     (by decide +kernel), (by decide +kernel), (by decide +kernel), (by decide +kernel), (by decide +kernel), (by decide +kernel)⟩).1
     (by decide +kernel) (by decide +kernel) (by decide +kernel)).2 (by decide +kernel) (by decide +kernel)).2 (by decide +kernel)),
   runs ((((o (st (hb 0)) 0 hdr [0x1010000000000#64] (by decide +kernel)).2.2.2.2.2.2 ⟨(by decide +kernel), (by decide +kernel), (by decide +kernel),
     (by decide +kernel), (by decide +kernel), (by decide +kernel), (by decide +kernel), (by decide +kernel)⟩).2 (by decide +kernel) (by decide +kernel)
     (by decide +kernel) 5 (by decide +kernel) (by decide +kernel)).1 (by decide +kernel)),
   runs (((((o (st (hb 3)) 0 hdr [0x1010000000000#64] (by decide +kernel)).2.2.2.2.2.2 ⟨(by decide +kernel), (by decide +kernel), (by decide +kernel),
     (by decide +kernel), (by decide +kernel), (by decide +kernel), (by decide +kernel), (by decide +kernel)⟩).2 (by decide +kernel) (by decide +kernel)
     (by decide +kernel) 5 (by decide +kernel) (by decide +kernel)).2 (by decide +kernel) (by decide +kernel)).1 (by decide +kernel)),
   runs (((((o (st (hb 2)) 0 hdr [0x1010000000000#64] (by decide +kernel)).2.2.2.2.2.2 ⟨(by decide +kernel), (by decide +kernel), (by decide +kernel),
     (by decide +kernel), (by decide +kernel), (by decide +kernel), (by decide +kernel), (by decide +kernel)⟩).2 (by decide +kernel) (by decide +kernel)
     (by decide +kernel) 5 (by decide +kernel) (by decide +kernel)).2 (by decide +kernel) (by decide +kernel)).2 (by decide +kernel))⟩

def tno : Hw := owned.setReg .tpCond 2 0 1#32
def bad : CmdHdr := { hdr with err := .uncorrectable }
def tb (h : Hw) (n : Nat) : Hw := h.setPort 0 { h.port 0 with cmds := (List.range n).map (fun k => ⟨k + 5, 1, true, 0, 0, 0, 0, 0, 0, 0, 0, false⟩) }
def hdr2 : CmdHdr := { hdr with tag := 0#16 }
def snd : SendOp := ⟨9, 5, 3, 0, 256, 256, true, 2, false, false, none⟩
def cmd5 (op : Nat) : TileCmd := ⟨5, op, true, 0, 0, 0, 0, 0, 0, 0, 0, false⟩
def ts (snd : SendOp) : Hw := t0.setPort 0 { t0.port 0 with sends := [snd], cmds := [cmd5 2] }
def rcv : RecvOp := ⟨9, 5, 3, 0, 256, false, 128, 128, true, 0, false, false⟩
def mv (src dst done : Nat) : MoveOp := ⟨9, 5, src, dst, 256, done, false, false⟩
def tm (m : MoveOp) : Hw := (page t0 3 1 3).setPort 0 { t0.port 0 with moves := [m], cmds := [cmd5 4] }
def tal (z : List Nat) : Hw := let h := (page t0 3 1 3).setPort 0 { t0.port 0 with allocs := [(5, 0x30000, 1)], cmds := [cmd5 10] }
  { h with mem := { h.mem with zeroing := z } }
def tco (f : Option Nat) (co : Nat) : Hw := t0.setPort 0 { t0.port 0 with comps := [⟨f, [1#64]⟩, ⟨none, [2#64]⟩], cmds := [{ cmd5 1 with done := true }], co := co }
/-- States and operands that meet the hypotheses of TileCommandsRefusedAndEnded. -/
theorem witness_TileCommandsRefusedAndEnded (o : Obligations.TileCommandsRefusedAndEnded) :
    Runs (.nop 0 hdr []) (st tno) ∧
    Runs (.nop 0 bad []) (st t0) ∧
    Runs (.nop 0 hdr []) (st (t0.setReg .tpCond 2 0 3#32)) ∧
    Runs (.nop 0 hdr []) (st (tb t0 1)) ∧
    Runs (.nop 0 hdr2 []) (st (tb t0 64)) ∧
    Runs (.unknownOpcode 0 (15#8) hdr2 []) (st (tb t0 63)) ∧
    Runs (.nop 0 hdr2 [0#64]) (st (tb t0 63)) ∧
    Runs (.nop 0 { ack := hdr2.ack, rsv := 1#3, tag := hdr2.tag, layer := hdr2.layer, oper := hdr2.oper, err := hdr2.err } []) (st (tb t0 63)) ∧
    Runs (.sendDone 0 5#16) (st (ts snd)) ∧
    Runs (.sendDone 0 5#16) (st (ts { snd with bad := true })) ∧
    Runs (.recvDone 0 5#16) (st (t0.setPort 0 { t0.port 0 with recvs := [rcv], cmds := [cmd5 3] })) ∧
    Runs (.moveDone 0 5#16) (st (tm (mv 0x30000 0x30100 0))) ∧
    Runs (.moveDone 0 5#16) (st (tm (mv 0x30000 0x30080 0))) ∧
    Runs (.moveDone 0 5#16) (st (tm (mv 0x10000000000 0x30080 0))) ∧
    Runs (.leaseAllocDone 0 5#16) (st (tal [4])) ∧
    Runs (.completionDeliver 0) (st (tco (some 5) 1)) ∧
    Runs (.completionDeliver 0) (st (tco none 9)) ∧
    Runs (.completionDeliver 0) (st (tco none 0)) :=
  ⟨runs ((o.1 (st tno) 0 hdr [] (by decide +kernel) (by decide +kernel)).1 (by decide +kernel)),
   runs ((o.1 (st t0) 0 bad [] (by decide +kernel) (by decide +kernel)).2.1 (by decide +kernel) (by decide +kernel)),
   runs (((o.1 (st (t0.setReg .tpCond 2 0 3#32)) 0 hdr [] (by decide +kernel) (by decide +kernel)).2.2 (by decide +kernel) (by decide +kernel)).1
     (by decide +kernel)),
   runs ((((o.1 (st (tb t0 1)) 0 hdr [] (by decide +kernel) (by decide +kernel)).2.2 (by decide +kernel) (by decide +kernel)).2 (by decide +kernel)).1
     (by decide +kernel)),
   runs (((((o.1 (st (tb t0 64)) 0 hdr2 [] (by decide +kernel) (by decide +kernel)).2.2 (by decide +kernel) (by decide +kernel)).2
     (by decide +kernel)).2 (by decide +kernel)).1 (by decide +kernel)),
   runs ((((((o.1 (st (tb t0 63)) 0 hdr2 [] (by decide +kernel) (by decide +kernel)).2.2 (by decide +kernel) (by decide +kernel)).2
     (by decide +kernel)).2 (by decide +kernel)).2 (by decide +kernel)).1 0x0f#8),
   runs ((((((o.1 (st (tb t0 63)) 0 hdr2 [0#64] (by decide +kernel) (by decide +kernel)).2.2 (by decide +kernel) (by decide +kernel)).2
     (by decide +kernel)).2 (by decide +kernel)).2 (by decide +kernel)).2 (by decide +kernel)),
   runs ((((((o.1 (st (tb t0 63)) 0 { hdr2 with rsv := 1#3 } [] (by decide +kernel) (by decide +kernel)).2.2 (by decide +kernel)
     (by decide +kernel)).2 (by decide +kernel)).2 (by decide +kernel)).2 (by decide +kernel)).2 (by decide +kernel)),
   runs ((o.2 (st (ts snd)) 0 5#16 (by decide +kernel)).1 snd (by decide +kernel) (by decide +kernel)),
   runs ((o.2 (st (ts { snd with bad := true })) 0 5#16 (by decide +kernel)).1 { snd with bad := true } (by decide +kernel) (by decide +kernel)),
   runs ((o.2 (st (t0.setPort 0 { t0.port 0 with recvs := [rcv], cmds := [cmd5 3] })) 0 5#16 (by decide +kernel)).2.1 rcv (by decide +kernel)
     (by decide +kernel) (by decide +kernel)),
   runs (((o.2 (st (tm (mv 0x30000 0x30100 0))) 0 5#16 (by decide +kernel)).2.2.1 (mv 0x30000 0x30100 0) (by decide +kernel) (by decide +kernel)
     (by decide +kernel) (mv 0x30000 0x30100 256) (by decide +kernel)).1 (by decide +kernel)),
   runs (((o.2 (st (tm (mv 0x30000 0x30080 0))) 0 5#16 (by decide +kernel)).2.2.1 (mv 0x30000 0x30080 0) (by decide +kernel) (by decide +kernel)
     (by decide +kernel) (mv 0x30000 0x30080 256) (by decide +kernel)).1 (by decide +kernel)),
   runs (((o.2 (st (tm (mv 0x10000000000 0x30080 0))) 0 5#16 (by decide +kernel)).2.2.1 (mv 0x10000000000 0x30080 0) (by decide +kernel)
     (by decide +kernel) (by decide +kernel) { mv 0x10000000000 0x30080 0 with waiting := true } (by decide +kernel)).2 (by decide +kernel)),
   runs ((o.2 (st (tal [4])) 0 5#16 (by decide +kernel)).2.2.2.1 0x30000 1 (by decide +kernel) (by decide +kernel) (by decide +kernel)),
   runs ((o.2 (st (tco (some 5) 1)) 0 5#16 (by decide +kernel)).2.2.2.2.1 ⟨some 5, [1#64]⟩ [⟨none, [2#64]⟩] (by decide +kernel) (by decide +kernel)),
   runs ((o.2 (st (tco none 9)) 0 5#16 (by decide +kernel)).2.2.2.2.1 ⟨none, [1#64]⟩ [⟨none, [2#64]⟩] (by decide +kernel) (by decide +kernel)),
   runs ((o.2 (st (tco none 0)) 0 5#16 (by decide +kernel)).2.2.2.2.2 ⟨none, [1#64]⟩ [⟨none, [2#64]⟩] (by decide +kernel) (by decide +kernel))⟩

end TileEnds

namespace TileStarts

def hdr : CmdHdr := ⟨true, 0#3, 5#16, 0#16, 0#16, .ok⟩
def up (h : Hw) : Hw := (h.setReg .tpCond 2 0 1#32).setPort 0 { h.port 0 with ci := 32 }
def page (h : Hw) (p t g : Nat) : Hw := h.setReg .slbLease p 0 (mkWord [(22, 10, g), (16, 6, t), (15, 1, 1)])
def t0 : Hw := page (up owned) 3 1 3
-- plan flow 2 → die flow 9, in slot 1 as a source
def tf : Hw := (t0.setReg .tpFmap 2 0 0x80020009#32).setReg .bnFlowCfg 2 1 0x00C16009#32
def hb : Hw := let h := (((t0.setReg .slbHbase 1 0 0x00010000#32).setReg .slbHmap 0 0 0x80000005#32).setReg .memPcStatus 0 0 0xFF#32).setReg .slbHlease 5 0 (mkWord [(22, 10, 3), (16, 6, 1), (15, 1, 1)])
  { h with mem := { h.mem with units := [(1, 1)] } }
def chn (cfg status : Word) (e : Word) : Hw := (((t0.setReg .tpCmap 2 0 0x80020005#32).setReg .chCfg 5 0 cfg).setReg .chEp 5 0 e).setReg .chStatus 5 0 status
def m9 : List (BitVec 64) := [2#64, 1#64, 2#64, 3#64, 4#64, 5#64, 6#64, 7#64, 8#64]
def chd : Hw := let h := chn 0x00C18200#32 0x1#32 0x0302013D#32
  { h with cnet := { h.cnet with fifos := [(5, [9#512])] } }
-- plan sync 3 → barrier 7; plan sync 4 → Rimshot group 257 of 1 word
def sy : Hw := (((t0.setReg .snBarrierCfg 82 7 0x00C18000#32).setReg .tpSmap 2 0 0x80030007#32).setReg .tpSmap 2 1 0x80040101#32).setReg .snRimshotCfg 82 1 0x00C18100#32
def syb : Hw := sy.setPort 0 { sy.port 0 with syncs := [⟨4, 7, [], false⟩] }
def envl : Envelope := { flowEntries := 1, channels := 1, slabPages := 4, hbmUnits := 1, spillHbmUnits := 1, internalRate := 1, vcMask := 1, resvFirst := 0, resvCount := 0, memMask := 1, spillRate := 1, spillVc := 1, spillBound := 1, foldUnits := 1, groups := 1, sync := 1, rankLo := 0, rankHi := 9 }
def la : Hw := { t0 with doc := some { partitions := [⟨1, ⟨0, 0, 3, 3⟩, ⟨0, 0, 0, 1, 1, 1⟩, 0⟩], envelopes := [envl] } }
def cx : List (BitVec 64) := [0x803#64, 0x30000#64, 0x30080#64, 0x100#64]
def gr : Hw := (t0.setReg .tpGmap 2 4 0x80000003#32).setReg .cqGroupCfg 2 4 0x8000#32
def ccx0 : CcxOp := ⟨9, 6, 0, 0#64, 0, 0, 0, false, 0, 0, 0, 0, 0, 0, 0, false, 0, 0, [], false, false, false⟩
/-- States and operands that meet the hypotheses of TileCommandsBegin. -/
theorem witness_TileCommandsBegin (o : Obligations.TileCommandsBegin) :
    Runs (.send 0 hdr [549755813890#64, 196608#64] none) (st tf) ∧
    Runs (.recv 0 hdr [549755813890#64, 196608#64]) (st tf) ∧
    Runs (.recv 0 hdr [549755830274#64, 1#64]) (st tf) ∧
    Runs (.move 0 hdr [1099511627776#64, 196608#64, 196736#64]) (st tf) ∧
    Runs (.move 0 hdr [1099511627776#64, 1099511627776#64, 196736#64]) (st hb) ∧
    Runs (.msgSend 0 hdr m9) (st (chn 0x00C18200#32 0x40000#32 0x033D0102#32)) ∧
    Runs (.msgSend 0 hdr m9) (st (chn 0x00C1C200#32 0x0#32 0x033D0102#32)) ∧
    Runs (.msgSend 0 hdr m9) (st (chn 0x00C18200#32 0x0#32 0x033D0102#32)) ∧
    Runs (.msgDeq 0 hdr [2#64] false) (st chd) ∧
    Runs (.msgDeq 0 hdr [2#64] false) (st (chn 0x00C18200#32 0x0#32 0x0302013D#32)) ∧
    Runs (.sync 0 hdr [3#64]) (st syb) ∧
    Runs (.sync 0 hdr [3#64]) (st sy) ∧
    Runs (.sync 0 hdr [4#64, 9#64]) (st sy) ∧
    Runs (.leaseAlloc 0 hdr [65536#64]) (st la) ∧
    Runs (.leaseAlloc 0 hdr [196608#64]) (st la) ∧
    Runs (.leaseAlloc 0 hdr [262144#64]) (st la) ∧
    Runs (.leaseAlloc 0 hdr [131072#64]) (st { la with mem := { la.mem with zeroing := [1] } }) ∧
    Runs (.leaseAlloc 0 hdr [65537#64]) (st (hb.setReg .slbHlease 5 0 0x10000#32)) ∧
    Runs (.leaseAlloc 0 hdr [65537#64]) (st hb) ∧
    Runs (.ccx 0 hdr cx) (st (gr.setPort 0 { gr.port 0 with ccx := List.replicate 16 ccx0 })) ∧
    Runs (.ccx 0 hdr cx) (st t0) :=
  ⟨runs ((o (st tf) 0 hdr [0x8000000002#64, 0x30000#64] (by decide +kernel)).1 none 9 ⟨(by decide +kernel), (by decide +kernel), (by decide +kernel),
    (by decide +kernel), (by decide +kernel), (by decide +kernel), (by decide +kernel), (by decide +kernel)⟩ (by decide +kernel) (by decide +kernel)
    (by decide +kernel) ⟨1, (by decide +kernel), (by decide +kernel)⟩ (by decide +kernel)),
   runs ((o (st tf) 0 hdr [0x8000000002#64, 0x30000#64] (by decide +kernel)).2.1 9 ⟨(by decide +kernel), (by decide +kernel), (by decide +kernel),
     (by decide +kernel), (by decide +kernel), (by decide +kernel), (by decide +kernel), (by decide +kernel)⟩ (by decide +kernel) (by decide +kernel)
     (by decide +kernel)),
   runs ((o (st tf) 0 hdr [0x8000004002#64, 0x1#64] (by decide +kernel)).2.1 9 ⟨(by decide +kernel), (by decide +kernel), (by decide +kernel),
     (by decide +kernel), (by decide +kernel), (by decide +kernel), (by decide +kernel), (by decide +kernel)⟩ (by decide +kernel) (by decide +kernel)
     (by decide +kernel)),
   runs ((o (st tf) 0 hdr [0x10000000000#64, 0x30000#64, 0x30080#64] (by decide +kernel)).2.2.1 ⟨(by decide +kernel), (by decide +kernel),
     (by decide +kernel), (by decide +kernel), (by decide +kernel), (by decide +kernel), (by decide +kernel), (by decide +kernel)⟩ (by decide +kernel)
     (by decide +kernel) (by decide +kernel) (by decide +kernel) (by decide +kernel) (by decide +kernel)),
   runs ((o (st hb) 0 hdr [0x10000000000#64, 0x10000000000#64, 0x30080#64] (by decide +kernel)).2.2.1 ⟨(by decide +kernel), (by decide +kernel),
     (by decide +kernel), (by decide +kernel), (by decide +kernel), (by decide +kernel), (by decide +kernel), (by decide +kernel)⟩ (by decide +kernel)
     (by decide +kernel) (by decide +kernel) (by decide +kernel) (by decide +kernel) (by decide +kernel)),
   runs (((o (st (chn 0x00C18200#32 0x40000#32 0x033D0102#32)) 0 hdr m9 (by decide +kernel)).2.2.2.1 5 ⟨(by decide +kernel), (by decide +kernel),
     (by decide +kernel), (by decide +kernel), (by decide +kernel), (by decide +kernel), (by decide +kernel), (by decide +kernel)⟩ (by decide +kernel)
     (by decide +kernel) (by decide +kernel)).1 (by decide +kernel)),
   runs (((o (st (chn 0x00C1C200#32 0x0#32 0x033D0102#32)) 0 hdr m9 (by decide +kernel)).2.2.2.1 5 ⟨(by decide +kernel), (by decide +kernel),
     (by decide +kernel), (by decide +kernel), (by decide +kernel), (by decide +kernel), (by decide +kernel), (by decide +kernel)⟩ (by decide +kernel)
     (by decide +kernel) (by decide +kernel)).2.1 (by decide +kernel)),
   runs (((o (st (chn 0x00C18200#32 0x0#32 0x033D0102#32)) 0 hdr m9 (by decide +kernel)).2.2.2.1 5 ⟨(by decide +kernel), (by decide +kernel),
     (by decide +kernel), (by decide +kernel), (by decide +kernel), (by decide +kernel), (by decide +kernel), (by decide +kernel)⟩ (by decide +kernel)
     (by decide +kernel) (by decide +kernel)).2.2 (by decide +kernel)),
   runs (((o (st chd) 0 hdr [2#64] (by decide +kernel)).2.2.2.2.1 5 false ⟨(by decide +kernel), (by decide +kernel), (by decide +kernel),
     (by decide +kernel), (by decide +kernel), (by decide +kernel), (by decide +kernel), (by decide +kernel)⟩ (by decide +kernel) (by decide +kernel)
     (by decide +kernel)).1 9#512 (by decide +kernel)),
   runs (((o (st (chn 0x00C18200#32 0x0#32 0x0302013D#32)) 0 hdr [2#64] (by decide +kernel)).2.2.2.2.1 5 false ⟨(by decide +kernel),
     (by decide +kernel), (by decide +kernel), (by decide +kernel), (by decide +kernel), (by decide +kernel), (by decide +kernel), (by decide +kernel)⟩
     (by decide +kernel) (by decide +kernel) (by decide +kernel)).2 (by decide +kernel)),
   runs (((o (st syb) 0 hdr [3#64] (by decide +kernel)).2.2.2.2.2.1 7 ⟨(by decide +kernel), (by decide +kernel), (by decide +kernel),
     (by decide +kernel), (by decide +kernel), (by decide +kernel), (by decide +kernel), (by decide +kernel)⟩ (by decide +kernel)).1
     (by decide +kernel)),
   runs (((o (st sy) 0 hdr [3#64] (by decide +kernel)).2.2.2.2.2.1 7 ⟨(by decide +kernel), (by decide +kernel), (by decide +kernel),
     (by decide +kernel), (by decide +kernel), (by decide +kernel), (by decide +kernel), (by decide +kernel)⟩ (by decide +kernel)).2 []
     (by decide +kernel) (by decide +kernel) (by decide +kernel)),
   runs (((o (st sy) 0 hdr [4#64, 9#64] (by decide +kernel)).2.2.2.2.2.1 257 ⟨(by decide +kernel), (by decide +kernel), (by decide +kernel),
     (by decide +kernel), (by decide +kernel), (by decide +kernel), (by decide +kernel), (by decide +kernel)⟩ (by decide +kernel)).2 [9#32]
     (by decide +kernel) (by decide +kernel) (by decide +kernel)),
   runs (((((o (st la) 0 hdr [0x10000#64] (by decide +kernel)).2.2.2.2.2.2.1 ⟨(by decide +kernel), (by decide +kernel), (by decide +kernel),
     (by decide +kernel), (by decide +kernel), (by decide +kernel), (by decide +kernel), (by decide +kernel)⟩ (by decide +kernel) (by decide +kernel)).1
     (by decide +kernel)).2 0 (by decide +kernel) (by decide +kernel)).1 (by decide +kernel)),
   runs (((((o (st la) 0 hdr [0x30000#64] (by decide +kernel)).2.2.2.2.2.2.1 ⟨(by decide +kernel), (by decide +kernel), (by decide +kernel),
     (by decide +kernel), (by decide +kernel), (by decide +kernel), (by decide +kernel), (by decide +kernel)⟩ (by decide +kernel) (by decide +kernel)).1
     (by decide +kernel)).2 0 (by decide +kernel) (by decide +kernel)).1 (by decide +kernel)),
   runs ((((o (st la) 0 hdr [0x40000#64] (by decide +kernel)).2.2.2.2.2.2.1 ⟨(by decide +kernel), (by decide +kernel), (by decide +kernel),
     (by decide +kernel), (by decide +kernel), (by decide +kernel), (by decide +kernel), (by decide +kernel)⟩ (by decide +kernel) (by decide +kernel)).1
     (by decide +kernel)).1 (by decide +kernel)),
   runs (((((o (st { la with mem := { la.mem with zeroing := [1] } }) 0 hdr [0x20000#64] (by decide +kernel)).2.2.2.2.2.2.1 ⟨(by decide +kernel),
     (by decide +kernel), (by decide +kernel), (by decide +kernel), (by decide +kernel), (by decide +kernel), (by decide +kernel), (by decide +kernel)⟩
     (by decide +kernel) (by decide +kernel)).1 (by decide +kernel)).2 0 (by decide +kernel) (by decide +kernel)).2 (by decide +kernel)),
   runs ((((o (st (hb.setReg .slbHlease 5 0 0x10000#32)) 0 hdr [0x10001#64] (by decide +kernel)).2.2.2.2.2.2.1 ⟨(by decide +kernel),
     (by decide +kernel), (by decide +kernel), (by decide +kernel), (by decide +kernel), (by decide +kernel), (by decide +kernel), (by decide +kernel)⟩
     (by decide +kernel) (by decide +kernel)).2 (by decide +kernel)).2 0 (by decide +kernel)),
   runs ((((o (st hb) 0 hdr [0x10001#64] (by decide +kernel)).2.2.2.2.2.2.1 ⟨(by decide +kernel), (by decide +kernel), (by decide +kernel),
     (by decide +kernel), (by decide +kernel), (by decide +kernel), (by decide +kernel), (by decide +kernel)⟩ (by decide +kernel) (by decide +kernel)).2
     (by decide +kernel)).1 (by decide +kernel)),
   runs (((o (st (gr.setPort 0 { gr.port 0 with ccx := List.replicate 16 ccx0 })) 0 hdr cx (by decide +kernel)).2.2.2.2.2.2.2 ⟨(by decide +kernel),
     (by decide +kernel), (by decide +kernel), (by decide +kernel), (by decide +kernel), (by decide +kernel), (by decide +kernel),
     (by decide +kernel)⟩).1 (by decide +kernel)),
   runs ((((o (st t0) 0 hdr cx (by decide +kernel)).2.2.2.2.2.2.2 ⟨(by decide +kernel), (by decide +kernel), (by decide +kernel), (by decide +kernel),
     (by decide +kernel), (by decide +kernel), (by decide +kernel), (by decide +kernel)⟩).2 (by decide +kernel)).1 (by decide +kernel))⟩

end TileStarts

namespace Folds

-- a flit of flow 9, tenant 1, generation 3, at node 3 from the west (port 1, VC 0)
def flit (flow seq cid dst : Nat) (last poison : Bool) : Flit :=
  { tag := BitVec.ofNat 96 (flow + 1 * 2 ^ 13 + 3 * 2 ^ 19 + 100 * 2 ^ 32 + seq * 2 ^ 57 + dst * 2 ^ 64 + b2n last * 2 ^ 77 + b2n poison * 2 ^ 78 + cid * 2 ^ 80), data := 3#1024 }
def qd (h : Hw) (n port : Nat) (f : Flit) : Hw := h.setBq n port 0 [f]
-- flow 9 ends at node 3 (slot 1, a sink), and belongs to fold tree 4, whose context 2 at node 3 takes the west port
def fk (h : Hw) : Hw := { h with fold := { h.fold with kinds := [(9, { kind := 1, tree := 4, dst := 3 })] } }
def fs : Hw := (fk owned).setReg .bnFlowCfg 3 1 0x00C1A009#32
def fc : Hw := (fs.setReg .fldCfg 3 2 0x00C18004#32).setReg .fldFmt 3 2 0x02020091#32
def cd (op node : Nat) : Nat := mkCid op 0 0 node
def f0 : Flit := flit 9 0 (cd 0 2) 3 false false
-- the ring input of a context of link node 72
def rk (h : Hw) : Hw := { h with fold := { h.fold with ring := [(72 * 8192 + 9, [f0])] } }
def rg : Hw := rk (((((fk owned).setReg .fldCfg 72 2 0x00C18004#32).setReg .fldFmt 72 2 0x02010091#32).setReg .cqRingCfg 72 5 0xC000#32).setReg .cqRingFlow 72 5 2#32)
def f1 : Flit := flit 9 0 (cd 4 2) 3 false false
def f2 : Flit := flit 9 0 (cd 5 2) 3 true false
def fc2 : Hw := fc.setCtx 3 2 { ins := [⟨1, 8, cd 0 2, true⟩] }
def f3 : Flit := flit 9 0 (cd 0 1) 3 false false
/-- States and operands that meet the hypotheses of FoldContributions. -/
theorem witness_FoldContributions (o : Obligations.FoldContributions) :
    Runs (.foldContributionArrival 3 1 0#13) (st (qd fs 3 1 f0)) ∧
    Runs (.foldContributionArrival 72 0 9#13) (st rg) ∧
    Runs (.foldContributionArrival 3 1 0#13) (st (qd fc 3 1 f0)) ∧
    Runs (.foldContributionArrival 3 1 0#13) (st (qd fc 3 1 f1)) ∧
    Runs (.foldContributionArrival 3 1 0#13) (st (qd fc 3 1 f2)) ∧
    Runs (.foldContributionArrival 3 1 0#13) (st (qd fc2 3 1 f0)) ∧
    Runs (.foldContributionArrival 3 1 0#13) (st (qd fc 3 1 f3)) ∧
    Runs (.foldContextEnable (Path.steward 0) 3 2#6 12648452#32) (st (fs.setReg .fldFmt 3 2 0x02020091#32)) ∧
    Runs (.foldContextEnable (Path.steward 0) 3 2#6 12648452#32) (st (fs.setReg .fldFmt 3 2 0x02020090#32)) ∧
    Runs (.foldContextClear (Path.steward 0) 3 2#6 12681220#32) (st fc) ∧
    Runs (.foldContextClear (Path.steward 0) 3 2#6 12681221#32) (st fc) :=
  ⟨runs ((o.1 (st (qd fs 3 1 f0)) 3 1 0#13 f0 (by decide +kernel) (by decide +kernel) (by decide +kernel) (by decide +kernel)).1 (by decide +kernel)),
   runs (((o.1 (st rg) 72 0 9#13 f0 (by decide +kernel) (by decide +kernel) (by decide +kernel) (by decide +kernel)).2 2 (by decide +kernel)).1 5
     (by decide +kernel) (by decide +kernel)),
   runs (((((o.1 (st (qd fc 3 1 f0)) 3 1 0#13 f0 (by decide +kernel) (by decide +kernel) (by decide +kernel) (by decide +kernel)).2 2
     (by decide +kernel)).2 (by decide +kernel) (by decide +kernel) (by decide +kernel)).1 (by decide +kernel)).1 (by decide +kernel)
     (by decide +kernel)),
   runs (((((o.1 (st (qd fc 3 1 f1)) 3 1 0#13 f1 (by decide +kernel) (by decide +kernel) (by decide +kernel) (by decide +kernel)).2 2
     (by decide +kernel)).2 (by decide +kernel) (by decide +kernel) (by decide +kernel)).1 (by decide +kernel)).2.1 (by decide +kernel)
     (by decide +kernel)),
   runs (((((o.1 (st (qd fc 3 1 f2)) 3 1 0#13 f2 (by decide +kernel) (by decide +kernel) (by decide +kernel) (by decide +kernel)).2 2
     (by decide +kernel)).2 (by decide +kernel) (by decide +kernel) (by decide +kernel)).1 (by decide +kernel)).2.2 (by decide +kernel)),
   runs (((((o.1 (st (qd fc2 3 1 f0)) 3 1 0#13 f0 (by decide +kernel) (by decide +kernel) (by decide +kernel) (by decide +kernel)).2 2
     (by decide +kernel)).2 (by decide +kernel) (by decide +kernel) (by decide +kernel)).1 (by decide +kernel)).2.2 (by decide +kernel)),
   runs ((((o.1 (st (qd fc 3 1 f3)) 3 1 0#13 f3 (by decide +kernel) (by decide +kernel) (by decide +kernel) (by decide +kernel)).2 2
     (by decide +kernel)).2 (by decide +kernel) (by decide +kernel) (by decide +kernel)).2 (by decide +kernel)),
   runs (((o.2 (st (fs.setReg .fldFmt 3 2 0x02020091#32)) (.steward 0) 3 2#6 0x00C10004#32 (writeOpens (by decide +kernel))).1 (by decide +kernel)).1
     (by decide +kernel)),
   runs (((o.2 (st (fs.setReg .fldFmt 3 2 0x02020090#32)) (.steward 0) 3 2#6 0x00C10004#32 (writeOpens (by decide +kernel))).1 (by decide +kernel)).2
     (by decide +kernel)),
   runs ((o.2 (st fc) (.steward 0) 3 2#6 0x00C18004#32 (writeOpens (by decide +kernel))).2 (by decide +kernel)),
   runs ((o.2 (st fc) (.steward 0) 3 2#6 0x00C18005#32 (writeOpens (by decide +kernel))).2 (by decide +kernel))⟩

-- two inputs: west and south (port 3, from node 3-12 <0? use node 15: neighbours 14, 16, 3, 27)
def ga (h : Hw) : Hw := (((h.setReg .fldCfg 15 2 0x00C18004#32).setReg .fldFmt 15 2 0x02060091#32).setReg .bnFlowCfg 15 1 0x00C1A009#32).setReg .bnFlowCfg 15 2 0x00C1A00A#32
def gb (l1 l2 : Bool) : Hw := (((ga (fk owned)).setCtx 15 2 { ins := [⟨1, 9, cd 0 14, true⟩, ⟨2, 10, cd 0 16, true⟩] }).setBq 15 1 0 [flit 9 0 (cd 0 14) 15 l1 false]).setBq 15 2 0 [flit 10 0 (cd 0 16) 15 l2 false]
def b1 (l : Bool) : FoldBlock := ⟨1, 0, some (flit 9 0 (cd 0 14) 15 l false), carUnpack 9 3#1024, l⟩
def b2 (l : Bool) : FoldBlock := ⟨2, 0, some (flit 10 0 (cd 0 16) 15 l false), carUnpack 9 3#1024, l⟩
theorem noBad (h : Hw) (n : Nat) (xs : List FoldBlock) (e : xs.all (fun x => match x.flit with | some f => (h.foldSink n x.port f).1 == 0 | none => true) = true) : ∀ x ∈ xs, ∀ f, x.flit = some f → (h.foldSink n x.port f).1 = 0 := by
  intro x m f hf; have := List.all_eq_true.mp e x m; rw [hf] at this; simpa using this
/-- States and operands that meet the hypotheses of FoldsCombine. -/
theorem witness_FoldsCombine (o : Obligations.FoldsCombine) :
    Runs (.foldCombine 15 (2#6) FoldErr.state) (st (gb true true)) ∧
    Runs (.foldCombine 15 (2#6) FoldErr.ok) (st (gb true true)) ∧
    Runs (.foldCombine 15 (2#6) FoldErr.data) (st (gb false true)) :=
  ⟨runs ((o (st (gb true true)) 15 2#6 (by decide +kernel) (by decide +kernel) (by decide +kernel) (by decide +kernel) (by decide +kernel)).1),
   runs (((o (st (gb true true)) 15 2#6 (by decide +kernel) (by decide +kernel) (by decide +kernel) (by decide +kernel) (by decide +kernel)).2 .ok (b1
     true) [b2 true] (by decide +kernel) (by decide +kernel) (noBad _ _ _ (by decide +kernel))).2 (by decide +kernel)),
   runs (((o (st (gb false true)) 15 2#6 (by decide +kernel) (by decide +kernel) (by decide +kernel) (by decide +kernel) (by decide +kernel)).2 .data
     (b1 false) [b2 true] (by decide +kernel) (by decide +kernel) (noBad _ _ _ (by decide +kernel))).1 (by decide +kernel))⟩

end Folds

namespace Collectives

def up (h : Hw) : Hw := (h.setReg .tpCond 2 0 1#32).setPort 0 { h.port 0 with ci := 32 }
def page (h : Hw) (p t g : Nat) : Hw := h.setReg .slbLease p 0 (mkWord [(22, 10, g), (16, 6, t), (15, 1, 1)])
def t0 : Hw := page (up owned) 3 1 3
def cmd5 (op : Nat) : TileCmd := ⟨5, op, true, 0, 0, 0, 0, 0, 0, 0, 0, false⟩
-- a broadcast tail of group slot 3, whose flow is 9 (op 1), counted or capacity
def tail (w1 : BitVec 64) (phase null : Nat) : CcxOp := ⟨9, 5, 3, w1, 0x30000, 0x30080, 8, true, phase, null, 0, 0, 2, 1, 7, false, 0, 0, [], false, false, false⟩
def tg (gf : Word) (t : CcxOp) : Hw := (((t0.setReg .cqGroupCfg 2 3 0x00C1E000#32).setReg .cqGroupFlow 2 3 gf).setReg .cqStatus 2 3 0x07000000#32).setPort 0 { t0.port 0 with ccx := [t], cmds := [cmd5 0x10] }
def ta : CcxOp := tail 0x0000000800000100#64 0 0
def tb : CcxOp := tail 0x0000000800000500#64 0 0
def td : CcxOp := { tail 0x0000000800000500#64 3 0 with status := 3 }
def te : CcxOp := { tail 0x0000000800000500#64 3 0x11 with status := 0x11 }
def tf : CcxOp := tail 0x0000000A00000500#64 2 0
def sd : SendOp := ⟨9, 5, 9, 0x30000, 8, 8, true, 1, false, false, none⟩
def tfh : Hw := let h := tg 0x80090000#32 tf; h.setPort 0 { h.port 0 with sends := [sd] }
/-- States and operands that meet the hypotheses of CollectiveTails. -/
theorem witness_CollectiveTails (o : Obligations.CollectiveTails) :
    Runs (.tailStart 0 (5#16) none) (st (tg 0x80090000#32 ta)) ∧
    Runs (.tailStart 0 (5#16) none) (st (tg 0x0#32 tb)) ∧
    Runs (.tailStart 0 (5#16) none) (st (tg 0x80090000#32 tb)) ∧
    Runs (.tailStart 0 (5#16) (some 0)) (st ((tg 0x80090000#32 tb).setReg .bnFlowCfg 2 1 0x00C16009#32)) ∧
    Runs (.tailComplete 0 5#16) (st (tg 0x0#32 td)) ∧
    Runs (.tailComplete 0 5#16) (st (tg 0x0#32 te)) ∧
    Runs (.tailComplete 0 5#16) (st tfh) :=
  ⟨runs ((o.1 (st (tg 0x80090000#32 ta)) 0 5#16 none ta (by decide +kernel) (by decide +kernel) (by decide +kernel) (by decide +kernel)
    (by decide +kernel) (by decide +kernel) (by decide +kernel)).1 (by decide +kernel)),
   runs ((o.1 (st (tg 0x0#32 tb)) 0 5#16 none tb (by decide +kernel) (by decide +kernel) (by decide +kernel) (by decide +kernel) (by decide +kernel)
     (by decide +kernel) (by decide +kernel)).2.1 (by decide +kernel) (by decide +kernel)),
   runs ((o.1 (st (tg 0x80090000#32 tb)) 0 5#16 none tb (by decide +kernel) (by decide +kernel) (by decide +kernel) (by decide +kernel)
     (by decide +kernel) (by decide +kernel) (by decide +kernel)).2.2 (by decide +kernel) (by decide +kernel)),
   runs ((o.1 (st ((tg 0x80090000#32 tb).setReg .bnFlowCfg 2 1 0x00C16009#32)) 0 5#16 (some 0) tb (by decide +kernel) (by decide +kernel)
     (by decide +kernel) (by decide +kernel) (by decide +kernel) (by decide +kernel) (by decide +kernel)).2.2 (by decide +kernel) (by decide +kernel)),
   runs ((o.2 (st (tg 0x0#32 td)) 0 5#16 td 3 0 0 (by decide +kernel) (by decide +kernel) (by decide +kernel)).1 (by decide +kernel)),
   runs ((o.2 (st (tg 0x0#32 te)) 0 5#16 te 0x11 0 0 (by decide +kernel) (by decide +kernel) (by decide +kernel)).2 (by decide +kernel)),
   runs ((o.2 (st tfh) 0 5#16 tf 1 8 2 (by decide +kernel) (by decide +kernel) (by decide +kernel)).1 (by decide +kernel))⟩

def rp (g : Nat) (start : Bool) (moved : Nat) : SeqReport := ⟨37, 2, 6, 1, g, start, moved⟩
def sq (r : SeqReport) : Hw := { owned with coll := { owned.coll with reports := [r] } }
def sc (h : Hw) : Hw := (h.setReg .cqSeqCfg 37 4 0x00C18006#32).setReg .cqSeqScope 37 4 0x00010005#32
def sa : Hw := (sc (sq (rp 3 false 1))).setSeq 37 4 ⟨[(2, 1, 0)], 0, true, 0⟩
def sb (h : Hw) : Hw := ((((sc h).setSeq 37 4 ⟨[(2, 1, 0)], 0, false, 0⟩).setReg .cqRingCfg 72 5 0x00C18006#32).setReg .cqRingFlow 72 5 0x000A0009#32)
def fl (last : Bool) : Flit := { tag := BitVec.ofNat 96 (9 + 2 ^ 13 + 3 * 2 ^ 19 + 100 * 2 ^ 32 + 72 * 2 ^ 64 + b2n last * 2 ^ 77), data := 3#1024 }
def rr (l : Bool) (armed : Word) : Hw := ((sb owned).setReg .cqRingStatus 72 5 armed).setBq 72 2 0 [fl l]
def r2 (l : Bool) : Hw := ((rr l 0x101#32).setReg .bnFlowCfg 72 1 0x00C1A009#32).setReg .bnFlowCfg 72 2 0x00C1600A#32
theorem free (h : Hw) (q out m : Nat) (e : h.flowSlot q out = some m) (f : h.waiting q m = []) : ∀ m, h.flowSlot q out = some m → h.waiting q m = [] := by
  intro k g; rw [e] at g; cases g; exact f
def r3 : Hw := { r2 true with fold := { (r2 true).fold with ring := [(72 * 8192 + 9, [fl true])] } }
/-- States and operands that meet the hypotheses of Sequencers. -/
theorem witness_Sequencers (o : Obligations.Sequencers) :
    Runs (.seqReport 37) (st (sq (rp 3 true 0))) ∧
    Runs (.seqReport 37) (st (sc (sq (rp 3 true 0)))) ∧
    Runs (.seqReport 37) (st sa) ∧
    Runs (.seqArm 37 4#6) (st (sb owned)) ∧
    Runs (.ringRelay 72 (5#5) 2 0#13) (st (rr true 0#32)) ∧
    Runs (.ringRelay 72 (5#5) 2 0#13) (st (rr true 0x100#32)) ∧
    Runs (.ringRelay 72 (5#5) 2 0#13) (st (r2 false)) ∧
    Runs (.ringRelay 72 (5#5) 0 9#13) (st r3) :=
  ⟨runs (((o (st (sq (rp 3 true 0))) 37 (by decide +kernel)).1 (rp 3 true 0) [] (by decide +kernel)).1 (by decide +kernel)),
   runs (((o (st (sc (sq (rp 3 true 0)))) 37 (by decide +kernel)).1 (rp 3 true 0) [] (by decide +kernel)).2 4 (by decide +kernel)),
   runs (((o (st sa) 37 (by decide +kernel)).1 (rp 3 false 1) [] (by decide +kernel)).2 4 (by decide +kernel)),
   runs ((o (st (sb owned)) 37 (by decide +kernel)).2.1 4#6 (by decide +kernel) (by decide +kernel) ⟨(2, 1, 0), (by decide +kernel),
     (by decide +kernel)⟩),
   runs (((o (st (rr true 0#32)) 72 (by decide +kernel)).2.2 5#5 2 0#13 (fl true) (by decide +kernel) (by decide +kernel) (by decide +kernel)
     (by decide +kernel) (by decide +kernel)).1 (by decide +kernel)),
   runs ((((o (st (rr true 0x100#32)) 72 (by decide +kernel)).2.2 5#5 2 0#13 (fl true) (by decide +kernel) (by decide +kernel) (by decide +kernel)
     (by decide +kernel) (by decide +kernel)).2 (by decide +kernel)).1 (by decide +kernel)),
   runs ((((o (st (r2 false)) 72 (by decide +kernel)).2.2 5#5 2 0#13 (fl false) (by decide +kernel) (by decide +kernel) (by decide +kernel)
     (by decide +kernel) (by decide +kernel)).2 (by decide +kernel)).2 (by decide +kernel) (free _ _ _ 2 (by decide +kernel) (by decide +kernel))),
   runs ((((o (st r3) 72 (by decide +kernel)).2.2 5#5 0 9#13 (fl true) (by decide +kernel) (by decide +kernel) (by decide +kernel) (by decide +kernel)
     (by decide +kernel)).2 (by decide +kernel)).2 (by decide +kernel) (free _ _ _ 2 (by decide +kernel) (by decide +kernel)))⟩

def tr : Hw := t0.setPort 0 { t0.port 0 with reads := (List.replicate 15 ⟨0, [], 0⟩) ++ [⟨0x300, List.replicate 256 1#8, 0⟩], held := (0, 1, 16) }
def tq : Hw := t0.setPort 0 { t0.port 0 with fiq := List.replicate 16 (mkFlit 1 false 0 0#1024) }
def tm : Hw := t0.setReg .tpFmap 2 0 0x80020009#32
def r1 : SlabRet := ⟨0x300, List.replicate 256 1#8, 0⟩
def tr1 : Hw := t0.setPort 0 { t0.port 0 with reads := [r1] }
/-- States and operands that meet the hypotheses of TileLanes. -/
theorem witness_TileLanes (o : Obligations.TileLanes) :
    Runs (.slabRead 0 (768#14) PadErr.ok true) (st t0) ∧
    Runs (.slabRead 0 (1023#14) PadErr.ok false) (st t0) ∧
    Runs (.slabRead 0 (1024#14) PadErr.ok true) (st t0) ∧
    Runs (.slabRead 0 (768#14) PadErr.uncorrectable true) (st tr) ∧
    Runs (.slabWrite 0 (768#15) (5#128) (7#1024) PadErr.corrected true) (st tr) ∧
    Runs (.slabWrite 0 (1536#15) (5#128) (7#1024) PadErr.ok true) (st t0) ∧
    Runs (.slabWrite 0 (2048#15) (5#128) (7#1024) PadErr.ok true) (st t0) ∧
    Runs (.fabricInFlit 0 (2#13) true false (7#1024) PadErr.ok) (st tq) ∧
    Runs (.fabricInFlit 0 (2#13) true false (7#1024) PadErr.ok) (st (t0.setReg .tpCond 2 0 3#32)) ∧
    Runs (.fabricInFlit 0 (2#13) true false (7#1024) PadErr.ok) (st t0) ∧
    Runs (.fabricInFlit 0 (2#13) true false (7#1024) PadErr.ok) (st tm) ∧
    Runs (.fabricInFlit 0 (2#13) true true (7#1024) PadErr.ok) (st (tm.setReg .bnFlowCfg 2 1 0x00C16009#32)) ∧
    Runs (.slabReadReturn 0 false) (st tr1) ∧
    Runs (.slabReadReturn 0 true) (st tr1) ∧
    Runs (.tileCredit 0 true 64#7) (st t0) ∧
    Runs (.tileCredit 0 false 1#7) (st t0) ∧
    Runs (.laneOverrun 0 Lane.command (some (4#8, 9#16))) (st t0) ∧
    Runs (.malformed 0 (some (4#8, 9#16))) (st t0) ∧
    Runs (.laneOverrun 0 Lane.fabricIn none) (st t0) ∧
    Runs (.malformed 0 none) (st t0) :=
  ⟨runs ((((o (st t0) 0 true (by decide +kernel) (by decide +kernel)).1 0x300#14).2 (by decide +kernel)).1 (by decide +kernel)),
   runs ((((o (st t0) 0 false (by decide +kernel) (by decide +kernel)).1 0x3FF#14).2 (by decide +kernel)).1 (by decide +kernel)),
   runs ((((o (st t0) 0 true (by decide +kernel) (by decide +kernel)).1 0x400#14).2 (by decide +kernel)).2 (by decide +kernel)),
   runs (((o (st tr) 0 true (by decide +kernel) (by decide +kernel)).1 0x300#14).1 (by decide +kernel) .uncorrectable),
   runs (((o (st tr) 0 true (by decide +kernel) (by decide +kernel)).2.1 0x300#15 5#128 7#1024).1 (by decide +kernel) .corrected),
   runs ((((o (st t0) 0 true (by decide +kernel) (by decide +kernel)).2.1 0x600#15 5#128 7#1024).2 (by decide +kernel) (by decide +kernel)).1
     (by decide +kernel)),
   runs ((((o (st t0) 0 true (by decide +kernel) (by decide +kernel)).2.1 0x800#15 5#128 7#1024).2 (by decide +kernel) (by decide +kernel)).2
     (by decide +kernel)),
   runs (((o (st tq) 0 true (by decide +kernel) (by decide +kernel)).2.2.1 2#13 true false 7#1024).1 (by decide +kernel) .ok),
   runs ((((o (st (t0.setReg .tpCond 2 0 3#32)) 0 true (by decide +kernel) (by decide +kernel)).2.2.1 2#13 true false 7#1024).2 (by decide +kernel)
     (by decide +kernel)).1 (by decide +kernel)),
   runs (((((o (st t0) 0 true (by decide +kernel) (by decide +kernel)).2.2.1 2#13 true false 7#1024).2 (by decide +kernel) (by decide +kernel)).2
     (by decide +kernel)).1 (by decide +kernel)),
   runs ((((((o (st tm) 0 true (by decide +kernel) (by decide +kernel)).2.2.1 2#13 true false 7#1024).2 (by decide +kernel) (by decide +kernel)).2
     (by decide +kernel)).2 9 (by decide +kernel)).1 (by decide +kernel)),
   runs ((((((o (st (tm.setReg .bnFlowCfg 2 1 0x00C16009#32)) 0 true (by decide +kernel) (by decide +kernel)).2.2.1 2#13 true true 7#1024).2
     (by decide +kernel) (by decide +kernel)).2 (by decide +kernel)).2 9 (by decide +kernel)).2 (by decide +kernel)),
   runs (((o (st tr1) 0 true (by decide +kernel) (by decide +kernel)).2.2.2.1 false r1 [] (by decide +kernel) (by decide +kernel)).1
     (by decide +kernel)),
   runs (((o (st tr1) 0 true (by decide +kernel) (by decide +kernel)).2.2.2.1 true r1 [] (by decide +kernel) (by decide +kernel)).2
     (by decide +kernel) (by decide +kernel)),
   runs ((o (st t0) 0 true (by decide +kernel) (by decide +kernel)).2.2.2.2.1 true 64#7 (by decide +kernel)),
   runs ((o (st t0) 0 true (by decide +kernel) (by decide +kernel)).2.2.2.2.1 false 1#7 (by decide +kernel)),
   runs (((o (st t0) 0 true (by decide +kernel) (by decide +kernel)).2.2.2.2.2.1 4#8 9#16).1),
   runs (((o (st t0) 0 true (by decide +kernel) (by decide +kernel)).2.2.2.2.2.1 4#8 9#16).2),
   runs ((o (st t0) 0 true (by decide +kernel) (by decide +kernel)).2.2.2.2.2.2.1 .fabricIn (by decide +kernel)),
   runs ((o (st t0) 0 true (by decide +kernel) (by decide +kernel)).2.2.2.2.2.2.2)⟩

def tl : Hw := { (owned.setReg .nodeTclkMeas 2 0 0x10400#32).setPort 0 { owned.port 0 with launch := some 4 } with now := 2400 }
def tl2 : Hw := owned.setPort 0 { owned.port 0 with launch := some 4 }
def tq2 : Hw := t0.setReg .tntState 1 0 6#32
def tk : Hw := ((t0.setReg .tpViolLimit 2 0 0x20005#32).setReg .tpViolCnt 2 0 1#32).setPort 0 { t0.port 0 with leak := 2 }
def tt : Hw := (t0.setReg .tpCond 2 0 0x202#32).setReg .tpCfg 2 0 0x10100#32
/-- States and operands that meet the hypotheses of TilePorts. -/
theorem witness_TilePorts (o : Obligations.TilePorts) :
    Runs (.portRelease 0) (st tl) ∧
    Runs (.tclkStartTimeout 0) (st tl2) ∧
    Runs (.drainRequest 0) (st tq2) ∧
    Runs (.drainAck 0 true) (st (t0.setReg .tpCond 2 0 0x202#32)) ∧
    Runs (.drainAck 0 false) (st (t0.setReg .tpCond 2 0 0x403#32)) ∧
    Runs (.drainAck 0 true) (st t0) ∧
    Runs (.drainRelease 0) (st (t0.setReg .tpCond 2 0 0x203#32)) ∧
    Runs (.drainRelease 0) (st (t0.setReg .tpCond 2 0 0x603#32)) ∧
    Runs (.tileFault 0 (254#8) false) (st t0) ∧
    Runs (.tileFault 0 (254#8) true) (st t0) ∧
    Runs (.handshakeViolation 0) (st t0) ∧
    Runs (.violLeak 0) (st tk) ∧
    Runs (.drainTimeout 0) (st (tt.setPort 0 { tt.port 0 with drainBars := 1 })) ∧
    Runs (.cntWindowClose 0) (st (t0.setReg .tpCond 2 0 0x1001#32)) :=
  ⟨runs ((o (st tl) 0 (by decide +kernel)).1 (by decide +kernel) (by decide +kernel) (by decide +kernel) (by decide +kernel) (by decide +kernel)
    (by decide +kernel)),
   runs ((o (st tl2) 0 (by decide +kernel)).2.1 4 (by decide +kernel) (by decide +kernel) (by decide +kernel) (by decide +kernel)),
   runs ((o (st tq2) 0 (by decide +kernel)).2.2.1 (by decide +kernel) (by decide +kernel)),
   runs (((o (st (t0.setReg .tpCond 2 0 0x202#32)) 0 (by decide +kernel)).2.2.2.1 (by decide +kernel)).1 (by decide +kernel) (by decide +kernel)),
   runs (((o (st (t0.setReg .tpCond 2 0 0x403#32)) 0 (by decide +kernel)).2.2.2.1 (by decide +kernel)).2.1 (by decide +kernel) (by decide +kernel)),
   runs (((o (st t0) 0 (by decide +kernel)).2.2.2.1 (by decide +kernel)).2.2.1 true (by decide +kernel)),
   runs (((o (st (t0.setReg .tpCond 2 0 0x203#32)) 0 (by decide +kernel)).2.2.2.1 (by decide +kernel)).2.2.2.1 (by decide +kernel)
     (by decide +kernel)),
   runs (((o (st (t0.setReg .tpCond 2 0 0x603#32)) 0 (by decide +kernel)).2.2.2.1 (by decide +kernel)).2.2.2.1 (by decide +kernel)
     (by decide +kernel)),
   runs ((((o (st t0) 0 (by decide +kernel)).2.2.2.1 (by decide +kernel)).2.2.2.2.1 0xFE#8).1),
   runs ((((o (st t0) 0 (by decide +kernel)).2.2.2.1 (by decide +kernel)).2.2.2.2.1 0xFE#8).2),
   runs (((o (st t0) 0 (by decide +kernel)).2.2.2.1 (by decide +kernel)).2.2.2.2.2.1),
   runs (((o (st tk) 0 (by decide +kernel)).2.2.2.1 (by decide +kernel)).2.2.2.2.2.2 (by decide +kernel) (by decide +kernel)),
   runs ((o (st (tt.setPort 0 { tt.port 0 with drainBars := 1 })) 0 (by decide +kernel)).2.2.2.2.1 (by decide +kernel) (by decide +kernel)),
   runs ((o (st (t0.setReg .tpCond 2 0 0x1001#32)) 0 (by decide +kernel)).2.2.2.2.2 (by decide +kernel) (by decide +kernel))⟩

end Collectives

namespace MemoryAndPower

def up (h : Hw) : Hw := (h.setReg .tpCond 2 0 1#32).setPort 0 { h.port 0 with ci := 32 }
def page (h : Hw) (p t g : Nat) : Hw := h.setReg .slbLease p 0 (mkWord [(22, 10, g), (16, 6, t), (15, 1, 1)])
def t0 : Hw := page (up owned) 3 1 3
def filled (h : Hw) : Hw := { h with mem := { h.mem with slab := [(0, 9#8), (65535, 9#8), (65536, 9#8), (131071, 9#8), (196608, 9#8), (196610, 5#8)], hbm := [(0, 9#8), (65535, 9#8), (65536, 9#8), (131071, 9#8), (196608, 9#8)] } }
/-- States and operands that meet the hypotheses of TileLanes. -/
theorem witness_TileLanes (o : Obligations.TileLanes) :
    Runs (.slabWrite 0 (1536#15) (5#128) (262914#1024) PadErr.ok true) (st (filled t0)) :=
  runs ((((o (st (filled t0)) 0 true (by decide +kernel) (by decide +kernel)).2.1 0x600#15 5#128 0x040302#1024).2 (by decide +kernel)
    (by decide +kernel)).1 (by decide +kernel))

def zq (h : Hw) (q : Nat) : Hw := { h with mem := { h.mem with zeroing := [q, 9] } }
def gz : Hw := ((filled t0).setReg .slbHzero 0 0 2#32).setReg .slbHlease 0 0 0x8000#32
def pr : Hw := (t0.setReg .memPcStatus 0 0 0xFF#32).setReg .slbHlease 5 0 0x00C18000#32
/-- States and operands that meet the hypotheses of SlabsAndHbm. -/
theorem witness_SlabsAndHbm (o : Obligations.SlabsAndHbm) :
    Runs (.patrolScrub 0 (0#5) false) (st t0) ∧
    Runs (.patrolScrub 0 (0#5) false) (st (t0.setReg .slbScrub 2 0 16383#32)) ∧
    Runs (.patrolScrub 0 (1#5) false) (st (t0.setReg .slbScrub 2 0 16383#32)) ∧
    Runs (.patrolScrub 0 (0#5) true) (st (t0.setReg .slbScrub 2 0 768#32)) ∧
    Runs (.patrolScrub 0 (0#5) true) (st (t0.setReg .slbScrub 2 0 1024#32)) ∧
    Runs (.pageZeroDone 1) (st (zq (filled t0) 1)) ∧
    Runs (.granuleZero 0) (st gz) ∧
    Runs (.hbmPairFail 0) (st pr) ∧
    Runs (.leaseWrite (Path.steward 0) false 3#16 12648448#32) (st t0) ∧
    Runs (.leaseWrite (Path.steward 0) false 4#16 12681216#32) (st t0) ∧
    Runs (.leaseWrite (Path.steward 0) true 4#16 12681216#32) (st pr) ∧
    Runs (.leaseWrite (Path.steward 0) true 5#16 12648448#32) (st pr) ∧
    Runs (.siteRetire (Path.steward 0) 0 65792#32) (st t0) :=
  ⟨runs (((o (st t0)).1 (by decide +kernel) 0).1),
   runs (((o (st (t0.setReg .slbScrub 2 0 16383#32)) ).1 (by decide +kernel) 0).1),
   runs (((o (st (t0.setReg .slbScrub 2 0 16383#32)) ).1 (by decide +kernel) 0).2.1),
   runs (((o (st (t0.setReg .slbScrub 2 0 768#32)) ).1 (by decide +kernel) 0).2.2),
   runs (((o (st (t0.setReg .slbScrub 2 0 1024#32)) ).1 (by decide +kernel) 0).2.2),
   runs (((o (st (zq (filled t0) 1))).2.1 (by decide +kernel)).1 1 (by decide +kernel)),
   runs (((o (st gz)).2.1 (by decide +kernel)).2 0 0 1 (by decide +kernel) (by decide +kernel)),
   runs ((o (st pr)).2.2.1 (by decide +kernel) 0 (by decide +kernel)),
   runs ((((o (st t0)).2.2.2.1 (.steward 0) 3#16 0x00C10000#32).1 (writeOpens (by decide +kernel)) (by decide +kernel) (by decide +kernel)).2
     (by decide +kernel) (by decide +kernel)),
   runs ((((o (st t0)).2.2.2.1 (.steward 0) 4#16 0x00C18000#32).1 (writeOpens (by decide +kernel)) (by decide +kernel) (by decide +kernel)).1
     (by decide +kernel)),
   runs (((o (st pr)).2.2.2.1 (.steward 0) 4#16 0x00C18000#32).2 (writeOpens (by decide +kernel)) (by decide +kernel) (by decide +kernel)),
   runs (((o (st pr)).2.2.2.1 (.steward 0) 5#16 0x00C10000#32).2 (writeOpens (by decide +kernel)) (by decide +kernel) (by decide +kernel)),
   runs ((o (st t0)).2.2.2.2 (.steward 0) 0 0x10100#32 (writeOpens (by decide +kernel)) (by decide +kernel) (by decide +kernel))⟩

def rq (addr : Nat) (write : Bool) (hops : List Nat) : MemReq := ⟨4, 0, 9, addr, write, 1, 3, 0x0503#1024, 128, hops, true, false⟩
def mv : MoveOp := ⟨9, 5, 0x30000, 0x30080, 256, 0, true, false⟩
def hbm (h : Hw) : Hw := let h := (((h.setReg .slbHbase 1 0 0x00010000#32).setReg .slbHmap 0 0 0x80000005#32).setReg .memPcStatus 0 0 0xFF#32).setReg .slbHlease 5 0 (mkWord [(22, 10, 3), (16, 6, 1), (15, 1, 1)])
  { h with mem := { h.mem with units := [(1, 1)], windows := [(1, [(2, 7, 4)])] } }
def rs (h : Hw) (r : MemReq) : Hw := let h := h.setPort 0 { h.port 0 with moves := [mv] }
  { h with mem := { h.mem with reqs := [r] } }
def A : Nat := 0x10000000000
def W : Nat := 0x100000000 + 3 * 65536 + 128
def win (h : Hw) : Hw := (hbm h).setReg .memSpillCfg 1 0 0x00040000#32
/-- States and operands that meet the hypotheses of MemoryPathAccesses. -/
theorem witness_MemoryPathAccesses (o : Obligations.MemoryPathAccesses) :
    Runs (.memoryPathAccess 4 [] (2#3) true false false false) (st (rs t0 (rq A false []))) ∧
    Runs (.memoryPathAccess 4 [] (2#3) true false false false) (st (rs t0 (rq A true []))) ∧
    Runs (.memoryPathAccess 4 [] (4#3) true false false true) (st (rs (hbm t0) (rq A true []))) ∧
    Runs (.memoryPathAccess 4 [] (4#3) true false false false) (st (rs (hbm t0) (rq A true []))) ∧
    Runs (.memoryPathAccess 4 [] (4#3) true true true false) (st (rs (hbm t0) (rq A false [9]))) ∧
    Runs (.memoryPathAccess 4 [] (4#3) true false true false) (st (rs (hbm t0) (rq A false []))) ∧
    Runs (.memoryPathAccess 4 [1#8, 2#8] (0#3) false false false false) (st (rs (win t0) (rq W false []))) ∧
    Runs (.memoryPathAccess 4 [1#8, 2#8] (0#3) true false false false) (st (rs (win t0) (rq W false []))) ∧
    Runs (.memoryPathAccess 4 [1#8, 2#8] (0#3) true false false false) (st (rs (win t0) (rq W true []))) :=
  ⟨runs ((o (st (rs t0 (rq A false []))) 4 [] 2#3 true false false false (rq A false []) (by decide +kernel) (by decide +kernel)).1
    (by decide +kernel)),
   runs ((o (st (rs t0 (rq A true []))) 4 [] 2#3 true false false false (rq A true []) (by decide +kernel) (by decide +kernel)).1
     (by decide +kernel)),
   runs (((o (st (rs (hbm t0) (rq A true []))) 4 [] 4#3 true false false true (rq A true []) (by decide +kernel) (by decide +kernel)).2.1 (5 *
     0x200000) (by decide +kernel) (by decide +kernel)).1 (by decide +kernel)),
   runs (((o (st (rs (hbm t0) (rq A true []))) 4 [] 4#3 true false false false (rq A true []) (by decide +kernel) (by decide +kernel)).2.1 (5 *
     0x200000) (by decide +kernel) (by decide +kernel)).2.1 (by decide +kernel) (by decide +kernel)),
   runs (((o (st (rs (hbm t0) (rq A false [9]))) 4 [] 4#3 true true true false (rq A false [9]) (by decide +kernel) (by decide +kernel)).2.1 (5 *
     0x200000) (by decide +kernel) (by decide +kernel)).2.2 (by decide +kernel) (by decide +kernel)),
   runs (((o (st (rs (hbm t0) (rq A false []))) 4 [] 4#3 true false true false (rq A false []) (by decide +kernel) (by decide +kernel)).2.1 (5 *
     0x200000) (by decide +kernel) (by decide +kernel)).2.2 (by decide +kernel) (by decide +kernel)),
   runs (((o (st (rs (win t0) (rq W false []))) 4 [1#8, 2#8] 0#3 false false false false (rq W false []) (by decide +kernel) (by decide +kernel)).2.2
     0 (3 * 65536 + 128) (by decide +kernel) (by decide +kernel)).1 (by decide +kernel)),
   runs (((o (st (rs (win t0) (rq W false []))) 4 [1#8, 2#8] 0#3 true false false false (rq W false []) (by decide +kernel) (by decide +kernel)).2.2 0
     (3 * 65536 + 128) (by decide +kernel) (by decide +kernel)).2.1 (by decide +kernel) (by decide +kernel) (by decide +kernel)),
   runs (((o (st (rs (win t0) (rq W true []))) 4 [1#8, 2#8] 0#3 true false false false (rq W true []) (by decide +kernel) (by decide +kernel)).2.2 0
     (3 * 65536 + 128) (by decide +kernel) (by decide +kernel)).2.2 (2, 7, 4) (by decide +kernel) (by decide +kernel) (by decide +kernel)
     (by decide +kernel))⟩

def pw : Hw := ((((t0.setReg .pwaShareLo 1 0 0x01064032#32).setReg .pwaShareHi 1 0 0x80000064#32).setReg .pwaAlloc 1 0 0x00320032#32).setJob 1 { t0.job 1 with tileMask := 3 })
def pz (due : Bool) (ad : List (Nat × Adapt)) (h : Hw) : Hw := { h with power := { h.power with due := due, adapt := ad, window := 0x21401#32, budget := 0x01000200#32, last := 5, demands := [(some 50, 20), (some 60, 10)] } }
def sens : List (BitVec 12 × BitVec 12 × Bool) := List.replicate 22 (10#12, 12#12, true)
/-- States and operands that meet the hypotheses of PowerWindows. -/
theorem witness_PowerWindows (o : Obligations.PowerWindows) :
    Runs (.powerWindowCompute sens 80#8) (st (pz true [] pw)) ∧
    Runs (.powerWindowCompute [] 80#8) (st (pz true [] pw)) :=
  ⟨runs ((o (st (pz true [] pw))).1 sens 80#8 (by decide +kernel) (by decide +kernel)),
   runs ((o (st (pz true [] pw))).1 [] 80#8 (by decide +kernel) (by decide +kernel))⟩

def ad (d g w : Nat) (l : Bool) : Adapt := { drawn := d, granted := g, windows := w, limited := l }
def gp (f : TilePort → TilePort) : Hw := (pz true [] pw).setPort 0 (f (pw.port 0))
def go : TilePort → TilePort := fun p => { p with grant := 5, grantOut := some 7, grantNext := some 9 }
def sg : Hw := let h := (pz true [] pw).setReg .pwaStatus 0 0 0x06400000#32
  { h with power := { h.power with starts := [1] } }
def dr : Hw := { sg with power := { sg.power with droop := 0x00A30003#32, gates := [(1, 2)] } }
def dg : Hw := let h := sg.setPort 0 { sg.port 0 with held := (1, 2, 3) }
  { h with power := { h.power with gates := [(9, 0), (12, 8)] } }
/-- States and operands that meet the hypotheses of GrantsAndDroops. -/
theorem witness_GrantsAndDroops (o : Obligations.GrantsAndDroops) :
    Runs (.powerRequest 0 (9#9) (5#9) false) (st (gp (fun p => { p with grant := 5 }))) ∧
    Runs (.powerRequest 0 (9#9) (6#9) true) (st (gp (fun p => { p with grant := 5 }))) ∧
    Runs (.powerGrantAck 0) (st (gp id)) ∧
    Runs (.powerGrantAck 0) (st (gp go)) ∧
    Runs (.powerGrantAck 0) (st { gp go with now := 4097, power := { (gp go).power with want := [(1, 3), (0, 20)] } }) ∧
    Runs (.grantAckLate 0) (st { gp go with now := 4097 }) ∧
    Runs (.startGrant 1) (st sg) ∧
    Runs (.droopTrip 1#4) (st dr) ∧
    Runs (.thermNChange false) (st dg) :=
  ⟨runs (((o.1 (st (gp (fun p => { p with grant := 5 }))) 0 (by decide +kernel)).1 (by decide +kernel) 9#9 5#9 false).1 (by decide +kernel)),
   runs (((o.1 (st (gp (fun p => { p with grant := 5 }))) 0 (by decide +kernel)).1 (by decide +kernel) 9#9 6#9 true).2 (by decide +kernel)),
   runs ((o.1 (st (gp id)) 0 (by decide +kernel)).2.1 (by decide +kernel) (by decide +kernel)),
   runs (((o.1 (st (gp go)) 0 (by decide +kernel)).2.2.1 7 (by decide +kernel) (by decide +kernel)).1 (by decide +kernel)),
   runs (((o.1 (st { gp go with now := 4097, power := { (gp go).power with want := [(1, 3), (0, 20)] } }) 0 (by decide +kernel)).2.2.1 7
     (by decide +kernel) (by decide +kernel)).2 (by decide +kernel) (by decide +kernel)),
   runs ((o.1 (st { gp go with now := 4097 }) 0 (by decide +kernel)).2.2.2.1 (by decide +kernel) (by decide +kernel) (by decide +kernel)),
   runs ((o.1 (st sg) 0 (by decide +kernel)).2.2.2.2 1 (by decide +kernel) (by decide +kernel) (by decide +kernel)),
   runs ((o.2 (st dr)).1 1#4 (by decide +kernel) (by decide +kernel)),
   runs ((o.2 (st dg)).2.2 false)⟩

end MemoryAndPower

namespace Ports

def ph (p s : Nat) (h : Hw) : Hw := h.setPhyState p s
def lk (p s : Nat) (h : Hw) : Hw := h.setLinkState p s
def uu (state rxOk fuse : Nat) (seen spare : Bool) : BitVec 64 :=
  let w : BitVec 64 := setFld (setBit (setFld (setBit (setFld 0#64 0 4 state) 4 seen) 6 18 rxOk) 42 spare) 24 18 fuse
  setFld w 56 8 (crc8 w)
def ms16 (k : Fin 18) : LaneMeas := ⟨2, k, 5000, 100, 3000, 10, 6000, 100, 100#16, 7, (List.range 12).map (fun i => BitVec.ofNat 8 (i+1)), (List.range 4).map (fun i => BitVec.ofNat 7 (i+1))⟩
def gains : List (Reg × Word) := allLanes.map (fun k => (⟨.phyGainCfg, laneIx 2 k, 0⟩, 0x4001#32))
def cfgd : Hw := { base with regs := baseRegs.take 11 ++ gains ++ [(⟨.phyPortCfg, commonIx 2, 0⟩, 0x102#32)] ++ baseRegs.drop 11 }
def pa (s rx : Nat) (spare : Bool) : Hw := (ph 2 s cfgd).modPhy 2 (fun q => { q with peer := some (uu s rx 2 true spare), rxOk := 0x3FFFC, spareNrz := false })
def pr (sb : Nat) : Hw := let h := (pa phSelect 0x3FFFF true).setLanes 2 true 0x1FFFD
  h.modPhy 2 (fun q => { q with txSb := sb, rxSb := 16, rxSpare := 1, txSpare := 1, began := 3 })
/-- States and operands that meet the hypotheses of PortsTrain. -/
theorem witness_PortsTrain (o : Obligations.PortsTrain) :
    Runs (.trainCalDone 2) (st (ph 2 phCal base)) ∧
    Runs (.trainingUnitRx 2 (uu 2 5 3 true false)) (st (ph 2 phSbAcq base)) ∧
    Runs (.trainingUnitRx 2 (uu 2 5 3 true false)) (st (ph 2 phSelect base)) ∧
    Runs (.sbAcqDone 2 [ms16 16, ms16 17, ms16 3]) (st (pa phSbAcq 0x3FFFF false)) ∧
    Runs (.sbAcqDone 2 []) (st (pa phSbAcq 0x1FFFF false)) ∧
    Runs (.dataEqDone 2 [ms16 16, ms16 0, ms16 17]) (st (pa phDataEq 0x3FFFF false)) ∧
    Runs (.laneSelect 2) (st (pa phSelect 0x3FFFF true)) ∧
    Runs (.laneSelect 2) (st (pa phSelect 0x2000F false)) ∧
    Runs (.portActive 2) (st (pr 16)) ∧
    Runs (.portActive 2) (st (pr 31)) ∧
    Runs (.trainWaitExpiry 2) (st (ph 2 phWait base)) :=
  ⟨runs ((o (st (ph 2 phCal base)) 2 (by decide +kernel)).1 (by decide +kernel)),
   runs ((o (st (ph 2 phSbAcq base)) 2 (by decide +kernel)).2.1 (uu 2 5 3 true false) (by decide +kernel) (by decide +kernel)),
   runs ((o (st (ph 2 phSelect base)) 2 (by decide +kernel)).2.1 (uu 2 5 3 true false) (by decide +kernel) (by decide +kernel)),
   runs ((o (st (pa phSbAcq 0x3FFFF false)) 2 (by decide +kernel)).2.2.1 (uu phSbAcq 0x3FFFF 2 true false) [ms16 16, ms16 17, ms16 3]
     (by decide +kernel) (by decide +kernel) (by decide +kernel)),
   runs ((o (st (pa phSbAcq 0x1FFFF false)) 2 (by decide +kernel)).2.2.1 (uu phSbAcq 0x1FFFF 2 true false) [] (by decide +kernel) (by decide +kernel)
     (by decide +kernel)),
   runs ((o (st (pa phDataEq 0x3FFFF false)) 2 (by decide +kernel)).2.2.2.1 [ms16 16, ms16 0, ms16 17] (by decide +kernel)),
   runs (((o (st (pa phSelect 0x3FFFF true)) 2 (by decide +kernel)).2.2.2.2.1 (uu phSelect 0x3FFFF 2 true true) (by decide +kernel)
     (by decide +kernel) (by decide +kernel)).1 (0x1FFFD + 0x20000, 16, 2) (0x1FFFC + 0x20000, 16, 2) (by decide +kernel) (by decide +kernel)),
   runs (((o (st (pa phSelect 0x2000F false)) 2 (by decide +kernel)).2.2.2.2.1 (uu phSelect 0x2000F 2 true false) (by decide +kernel)
     (by decide +kernel) (by decide +kernel)).2 (by decide +kernel)),
   runs ((o (st (pr 16)) 2 (by decide +kernel)).2.2.2.2.2.1 (uu phSelect 0x3FFFF 2 true true) (by decide +kernel) (by decide +kernel)
     (by decide +kernel) (by decide +kernel) (by decide +kernel)),
   runs ((o (st (pr 31)) 2 (by decide +kernel)).2.2.2.2.2.1 (uu phSelect 0x3FFFF 2 true true) (by decide +kernel) (by decide +kernel)
     (by decide +kernel) (by decide +kernel) (by decide +kernel)),
   runs ((o (st (ph 2 phWait base)) 2 (by decide +kernel)).2.2.2.2.2.2 (by decide +kernel))⟩

def la (p k s : Nat) (h : Hw) : Hw := h.setLane p k s
def b1Regs : List (Reg × Word) :=
  baseRegs.take 11 ++ [(⟨.phyPortStatus, commonIx 2, 0⟩, 5#32), (⟨.phyPortCfg, commonIx 2, 0⟩, 0x102#32), (⟨.phyTxLanes, commonIx 2, 0⟩, 0x1000F#32),
    (⟨.phyRxLanes, commonIx 2, 0⟩, 0x1000F#32), (⟨.phySyncCfg, commonIx 2, 0⟩, 0x101#32), (⟨.phyPreambleCfg, commonIx 2, 0⟩, 100#32),
    (⟨.lnkPortStatus, 2, 0⟩, 3#32)] ++ baseRegs.drop 11
def b1 : Hw :=
  { base with regs := b1Regs, phy := [(2, { rxSb := 16, txSb := 16, rxSpare := 1, txSpare := 1 })], link := [(2, { desync := 6 })] }
def ec (k n : Nat) (h : Hw) : Hw := h.setReg .lnkLaneEc 2 k (BitVec.ofNat 32 n)
def cm (w : Nat) (h : Hw) : Hw := h.modLink 2 (fun l => { l with cmds := [BitVec.ofNat 32 w, 7#32], replay := [⟨⟨false, 0, 4, 1, 2, 3, 4, 5, [], 1, 9, 0, 0, [3#1024]⟩, 2, 0, 0, false, true⟩] })
def sl (v : Nat) : Hw := (b1.setReg .phyRampCfg (commonIx 2) 0 (BitVec.ofNat 32 v))
/-- States and operands that meet the hypotheses of LanesOfAPort. -/
theorem witness_LanesOfAPort (o : Obligations.LanesOfAPort) :
    Runs (.preambleDetect 2 2 preamble ([true, false] ++ sentBits syncWord)) (st (la 2 2 laSleep b1)) ∧
    Runs (.preambleDetect 2 5 preamble ([true, false] ++ sentBits syncWord)) (st (la 2 5 laWake b1)) ∧
    Runs (.preambleDetect 2 2 preamble (sentBits markerWord)) (st (la 2 2 laSleep b1)) ∧
    Runs (.burstEnd 2 2 markerWord (markerWord ^^^ 1#64)) (st (la 2 2 laActive b1)) ∧
    Runs (.laneLos 2 2) (st (la 2 2 laStandby b1)) ∧
    Runs (.sidebandLost 2) (st ((la 2 16 laSleep b1).laneEvt 2 16 1)) ∧
    Runs (.laneIsolate 2 2) (st (ec 2 255 (la 2 2 laActive b1))) ∧
    Runs (.laneIsolate 2 16) (st (ec 16 255 (la 2 16 laActive b1))) ∧
    Runs (.isolate 2) (st (cm 0x201 b1)) ∧
    Runs (.isolate 2) (st (cm 0x1001 b1)) ∧
    Runs (.rewake 2) (st (cm 0x202 (b1.setReg .phyTxIsol (commonIx 2) 0 4#32))) ∧
    Runs (.rewake 2) (st (cm 0x202 (b1.modPhy 2 (fun q => { q with asleep := true })))) ∧
    Runs (.rewake 2) (st (cm 0x202 b1)) ∧
    Runs (.badLaneCommand 2) (st (cm 0x203 b1)) ∧
    Runs (.badLaneCommand 2) (st (cm 0x1201 b1)) ∧
    Runs (.directionSleep 2) (st (sl 0x104)) ∧
    Runs (.directionWake 2) (st ((sl 0x104).modPhy 2 (fun q => { q with asleep := true, wakeReq := true }))) :=
  ⟨runs (((o (st (la 2 2 laSleep b1)) 2 2 (by decide +kernel)).1 preamble ([true, false] ++ sentBits syncWord) (by decide +kernel)
    (by decide +kernel)).1 (by decide +kernel)),
   runs (((o (st (la 2 5 laWake b1)) 2 5 (by decide +kernel)).1 preamble ([true, false] ++ sentBits syncWord) (by decide +kernel)
     (by decide +kernel)).1 (by decide +kernel)),
   runs (((o (st (la 2 2 laSleep b1)) 2 2 (by decide +kernel)).1 preamble (sentBits markerWord) (by decide +kernel) (by decide +kernel)).2
     (by decide +kernel)),
   runs (((o (st (la 2 2 laActive b1)) 2 2 (by decide +kernel)).2.1 (by decide +kernel)).1 markerWord (markerWord ^^^ 1#64) (by decide +kernel)),
   runs (((o (st (la 2 2 laStandby b1)) 2 2 (by decide +kernel)).2.1 (by decide +kernel)).2),
   runs ((o (st ((la 2 16 laSleep b1).laneEvt 2 16 1)) 2 16 (by decide +kernel)).2.2.1 (by decide +kernel) (by decide +kernel) (by decide +kernel)
     (by decide +kernel)),
   runs ((o (st (ec 2 255 (la 2 2 laActive b1))) 2 2 (by decide +kernel)).2.2.2.1 (by decide +kernel) (by decide +kernel) (by decide +kernel)
     (by decide +kernel)),
   runs ((o (st (ec 16 255 (la 2 16 laActive b1))) 2 16 (by decide +kernel)).2.2.2.1 (by decide +kernel) (by decide +kernel) (by decide +kernel)
     (by decide +kernel)),
   runs ((o (st (cm 0x201 b1)) 2 2 (by decide +kernel)).2.2.2.2.1 0x201#32 [7#32] (by decide +kernel) (by decide +kernel) (by decide +kernel)
     (by decide +kernel)),
   runs ((o (st (cm 0x1001 b1)) 2 16 (by decide +kernel)).2.2.2.2.1 0x1001#32 [7#32] (by decide +kernel) (by decide +kernel) (by decide +kernel)
     (by decide +kernel)),
   runs (((o (st (cm 0x202 (b1.setReg .phyTxIsol (commonIx 2) 0 4#32))) 2 2 (by decide +kernel)).2.2.2.2.2.1 0x202#32 [7#32] (by decide +kernel)
     (by decide +kernel) (by decide +kernel) (by decide +kernel)).1 (by decide +kernel)),
   runs ((((o (st (cm 0x202 (b1.modPhy 2 (fun q => { q with asleep := true })))) 2 2 (by decide +kernel)).2.2.2.2.2.1 0x202#32 [7#32]
     (by decide +kernel) (by decide +kernel) (by decide +kernel) (by decide +kernel)).2 (by decide +kernel) (by decide +kernel)).1 (by decide +kernel)
     (by decide +kernel)),
   runs ((((o (st (cm 0x202 b1)) 2 2 (by decide +kernel)).2.2.2.2.2.1 0x202#32 [7#32] (by decide +kernel) (by decide +kernel) (by decide +kernel)
     (by decide +kernel)).2 (by decide +kernel) (by decide +kernel)).2 (by decide +kernel)),
   runs ((o (st (cm 0x203 b1)) 2 2 (by decide +kernel)).2.2.2.2.2.2.1 0x203#32 [7#32] (by decide +kernel) (by decide +kernel)),
   runs ((o (st (cm 0x1201 b1)) 2 2 (by decide +kernel)).2.2.2.2.2.2.1 0x1201#32 [7#32] (by decide +kernel) (by decide +kernel)),
   runs ((o (st (sl 0x104)) 2 2 (by decide +kernel)).2.2.2.2.2.2.2.1 (by decide +kernel) (by decide +kernel) (by decide +kernel) (by decide +kernel)
     (by decide +kernel) (by decide +kernel) (by decide +kernel) (by decide +kernel) (by decide +kernel)),
   runs ((o (st ((sl 0x104).modPhy 2 (fun q => { q with asleep := true, wakeReq := true }))) 2 2 (by decide +kernel)).2.2.2.2.2.2.2.2
     (by decide +kernel) (by decide +kernel))⟩

def fr (n seq : Nat) : Frame := ⟨false, 0, seq, 5, 1, 3, 100, 5, List.replicate (n-1) 1, 1, 9, 0, 0, (List.range n).map (fun i => BitVec.ofNat 1024 (i + 7))⟩
def fl : Flit := mkFlit 5 true 9 77#1024 true
def b2 (f : LinkPort → LinkPort) : Hw := (b1.setReg .lnkPortCfg 2 0 0x00020003#32).modLink 2 f
def b3 : Hw := b2 (fun l => { l with queue := [fl], nak := some 7 })
def nf : Frame × Bool × Hw := (b3.newFrame 2).getD (fr 1 1, false, {})
def tl : FrameTail := ⟨0, 65535, (3, 4), none⟩
def lv (h : Hw) : Hw := (la 2 2 laActive h)
def b4 : Hw := lv (b2 (fun l => { l with desync := 0, goodCtl := [(2, 15)], next := 3, replay := [⟨fr 1 0, 3, 2, 0, true, true⟩] }))
def by1 : List Byte := (fr 2 0).bytes tl
def hd (ty cnt : Nat) : List Byte := headerBytes ty 0 cnt 0 tl (List.replicate 12 0#8) 0 0
def own5 (h : Hw) : Hw := h.setReg .bnFlowCfg (portNode 2) 3 (mkWord [(0,13,5),(13,1,1),(14,1,1),(16,6,1),(22,10,3)])
def b5 : Hw := own5 (b2 (fun l => { l with stored := [fr 2 1, fr 2 0] }))
/-- States and operands that meet the hypotheses of LinkFrames. -/
theorem witness_LinkFrames (o : Obligations.LinkFrames) :
    Runs (.frameTransmit 2 16) (st b1) ∧
    Runs (.frameTransmit 2 2) (st (b2 (fun l => { l with replay := [⟨fr 1 4, 3, 2, 0, true, true⟩, ⟨fr 1 5, 3, 2, 0, true, true⟩] }))) ∧
    Runs (.frameTransmit 2 2) (st b3) ∧
    Runs (.frameTransmit 2 2) (st (b2 (fun l => { l with nak := some 7 }))) ∧
    Runs (.frameReceive 2 2 (by1.set 3 1#8)) (st b4) ∧
    Runs (.frameReceive 2 2 (List.take 30 by1)) (st b4) ∧
    Runs (.frameReceive 2 2 (hd 5 1)) (st b4) ∧
    Runs (.frameReceive 2 2 (hd 1 5)) (st b4) ∧
    Runs (.controlWordRx 2 2 ((controlBytes tl).set 3 1#8)) (st b4) ∧
    Runs (.controlWordRx 2 2 (controlBytes tl)) (st b4) ∧
    Runs (.controlWordRx 2 2 (controlBytes tl)) (st (ec 2 100 b4)) ∧
    Runs (.frameDeliver 2) (st b5) ∧
    Runs (.frameDeliver 2) (st (b2 (fun l => { l with stored := [fr 2 1, {fr 2 0 with dtr := true}] }))) ∧
    Runs (.frameRelease 2) (st (b2 (fun l => { l with held := [(5, 0), (6, 1)], released := (255, 255) }))) ∧
    Runs (.dtrReceive 2) (st (b2 (fun l => { l with bridge := [{fr 2 0 with relay := 2}] }))) ∧
    Runs (.dtrReceive 2) (st ((b2 (fun l => { l with bridge := [fr 2 0] })).modLink 3 (fun l => { l with stored := [fr 1 1] }))) ∧
    Runs (.nakReceive 2 5#16) (st b4) ∧
    Runs (.nakReceive 2 0#16) (st b4) ∧
    Runs (.nakReceive 2 0#16) (st (b2 (fun l => { l with next := 3, replay := [⟨fr 1 0, 3, 8, 0, false, true⟩] }))) ∧
    Runs (.replayTimeout 2) (st (b2 (fun l => { l with next := 3, replay := [⟨fr 1 0, 3, 1, 9, false, true⟩] }))) :=
  ⟨runs (((o (st b1) 2 (by decide +kernel)).1 16 (by decide +kernel) (by decide +kernel) (by decide +kernel)).1 (by decide +kernel)),
   runs ((((o (st (b2 (fun l => { l with replay := [⟨fr 1 4, 3, 2, 0, true, true⟩, ⟨fr 1 5, 3, 2, 0, true, true⟩] }))) 2 (by decide +kernel)).1 2
     (by decide +kernel) (by decide +kernel) (by decide +kernel)).2 (by decide +kernel) (by decide +kernel) (by decide +kernel) (by decide +kernel)).1
     ⟨fr 1 4, 3, 2, 0, true, true⟩ (by decide +kernel)),
   runs ((((o (st b3) 2 (by decide +kernel)).1 2 (by decide +kernel) (by decide +kernel) (by decide +kernel)).2 (by decide +kernel)
     (by decide +kernel) (by decide +kernel) (by decide +kernel)).2.1 nf.1 nf.2.1 nf.2.2 (by decide +kernel) (by decide +kernel)),
   runs ((((o (st (b2 (fun l => { l with nak := some 7 }))) 2 (by decide +kernel)).1 2 (by decide +kernel) (by decide +kernel) (by decide +kernel)).2
     (by decide +kernel) (by decide +kernel) (by decide +kernel) (by decide +kernel)).2.2 (by decide +kernel) (by decide +kernel)),
   runs (((o (st b4) 2 (by decide +kernel)).2.1 2 (by1.set 3 1#8) (by decide +kernel) (by decide +kernel)).1 (by decide +kernel)),
   runs (((o (st b4) 2 (by decide +kernel)).2.1 2 (by1.take 30) (by decide +kernel) (by decide +kernel)).1 (by decide +kernel)),
   runs ((((o (st b4) 2 (by decide +kernel)).2.1 2 (hd 5 1) (by decide +kernel) (by decide +kernel)).2 (by decide +kernel) (by decide +kernel)).1
     (by decide +kernel)),
   runs ((((o (st b4) 2 (by decide +kernel)).2.1 2 (hd 1 5) (by decide +kernel) (by decide +kernel)).2 (by decide +kernel) (by decide +kernel)).2.1
     (by decide +kernel) (by decide +kernel)),
   runs (((o (st b4) 2 (by decide +kernel)).2.2.1 2 ((controlBytes tl).set 3 1#8) (by decide +kernel) (by decide +kernel)).1 (by decide +kernel)),
   runs (((o (st b4) 2 (by decide +kernel)).2.2.1 2 (controlBytes tl) (by decide +kernel) (by decide +kernel)).2 (by decide +kernel)
     (by decide +kernel) (by decide +kernel) (by decide +kernel) (by decide +kernel)),
   runs (((o (st (ec 2 100 b4)) 2 (by decide +kernel)).2.2.1 2 (controlBytes tl) (by decide +kernel) (by decide +kernel)).2 (by decide +kernel)
     (by decide +kernel) (by decide +kernel) (by decide +kernel) (by decide +kernel)),
   runs (((o (st b5) 2 (by decide +kernel)).2.2.2.1 (fr 2 0) [fr 2 1] (by decide +kernel)).2 (by decide +kernel)),
   runs (((o (st (b2 (fun l => { l with stored := [fr 2 1, {fr 2 0 with dtr := true}] }))) 2 (by decide +kernel)).2.2.2.1 {fr 2 0 with dtr := true}
     [fr 2 1] (by decide +kernel)).1 (by decide +kernel)),
   runs ((o (st (b2 (fun l => { l with held := [(5, 0), (6, 1)], released := (255, 255) }))) 2 (by decide +kernel)).2.2.2.2.1 (5, 0) [(6, 1)]
     (by decide +kernel)),
   runs (((o (st (b2 (fun l => { l with bridge := [{fr 2 0 with relay := 2}] }))) 2 (by decide +kernel)).2.2.2.2.2.1 {fr 2 0 with relay := 2} []
     (by decide +kernel)).1 (by decide +kernel)),
   runs (((o (st ((b2 (fun l => { l with bridge := [fr 2 0] })).modLink 3 (fun l => { l with stored := [fr 1 1] }))) 2
     (by decide +kernel)).2.2.2.2.2.1 (fr 2 0) [] (by decide +kernel)).2 (by decide +kernel) (by decide +kernel) (by decide +kernel)),
   runs (((o (st b4) 2 (by decide +kernel)).2.2.2.2.2.2.1 5#16).1 (by decide +kernel)),
   runs (((o (st b4) 2 (by decide +kernel)).2.2.2.2.2.2.1 0#16).2 (by decide +kernel)),
   runs (((o (st (b2 (fun l => { l with next := 3, replay := [⟨fr 1 0, 3, 8, 0, false, true⟩] }))) 2 (by decide +kernel)).2.2.2.2.2.2.1 0#16).2
     (by decide +kernel)),
   runs ((o (st (b2 (fun l => { l with next := 3, replay := [⟨fr 1 0, 3, 1, 9, false, true⟩] }))) 2 (by decide +kernel)).2.2.2.2.2.2.2 ⟨fr 1 0, 3, 1,
     9, false, true⟩ (by decide +kernel) (by decide +kernel) (by decide +kernel))⟩

set_option maxRecDepth 100000 in
/-- States and operands that meet the hypotheses of LinkFrames, those of the clauses over a CRC of many bytes. -/
theorem witness_LinkFrames_long (o : Obligations.LinkFrames) :
    Runs (.frameReceive 2 2 by1) (st b4) :=
  runs (((((o (st b4) 2 (by decide +kernel)).2.1 2 by1 (by decide +kernel) (by decide +kernel)).2 (by decide +kernel) (by decide +kernel)).2.2
    (by decide +kernel) (by decide +kernel)).2 (by decide +kernel) (by decide +kernel) (by decide +kernel) (by decide +kernel) (by decide +kernel))

def b6 : Hw := la 2 16 laActive b4
def b7 : Hw := b2 (fun l => { l with unacked := [⟨5, 1, 3#36⟩, ⟨6, 1, 3#36⟩], sbAdv := 4 })
def pw (y : Nat) : Word := mkWord [(0,4,0),(4,4,y),(8,4,0),(12,3,3)]
def b8 (y : Nat) : Hw := lk 2 lsIdent (b2 (fun l => { l with peer0 := some 0#32, peer1 := some (pw y) }))
/-- States and operands that meet the hypotheses of LinksUpAndDown. -/
theorem witness_LinksUpAndDown (o : Obligations.LinksUpAndDown) :
    Runs (.sidebandUnitRx 2 16 0 74565#64) (st b6) ∧
    Runs (.sidebandUnitRx 2 16 0 (sbWordOf 1 0 0 5#36)) (st b6) ∧
    Runs (.sidebandUnitRx 2 16 3 (sbWordOf 3 0 0 9#36)) (st (b6.modLink 2 (fun l => { l with goodSb := 15 }))) ∧
    Runs (.sidebandTimeout 2) (st b7) ∧
    Runs (.echo 2) (st (b2 (fun l => { l with echo := some (77, 5) }))) ∧
    Runs (.echo 2) (st (b2 (fun l => { l with reply := some (77, 5000) }))) ∧
    Runs (.identReceive 2 300#16) (st (b8 0)) ∧
    Runs (.identReceive 2 300#16) (st (b8 1)) ∧
    Runs (.portDeclaredDown 2) (st (ph 2 phDown b1)) ∧
    Runs (.portDeclaredDown 2) (st (b2 (fun l => { l with downDue := 5 }))) ∧
    Runs (.portReturnTimeout 2) (st (b2 (fun l => { l with back := some (5, true) }))) ∧
    Runs (.peerViolLeak 2) (st (((b2 (fun l => { l with leak := 5 })).setReg .lnkPortCfg 2 0 0x20403#32).setReg .lnkViolCnt 2 0 7#32)) :=
  ⟨runs (((o (st b6) 2 (by decide +kernel)).1 16 0 0x12345#64 (by decide +kernel) (by decide +kernel)).1 (by decide +kernel)),
   runs (((o (st b6) 2 (by decide +kernel)).1 16 0 (sbWordOf 1 0 0 0x5#36) (by decide +kernel) (by decide +kernel)).2 (by decide +kernel)),
   runs (((o (st (b6.modLink 2 (fun l => { l with goodSb := 15 }))) 2 (by decide +kernel)).1 16 3 (sbWordOf 3 0 0 0x9#36) (by decide +kernel)
     (by decide +kernel)).2 (by decide +kernel)),
   runs ((o (st b7) 2 (by decide +kernel)).2.1 ⟨5, 1, 3#36⟩ [⟨6, 1, 3#36⟩] (by decide +kernel)),
   runs ((o (st (b2 (fun l => { l with echo := some (77, 5) }))) 2 (by decide +kernel)).2.2.1 77 5 (by decide +kernel)),
   runs ((o (st (b2 (fun l => { l with reply := some (77, 5000) }))) 2 (by decide +kernel)).2.2.2.1 77 5000 (by decide +kernel) (by decide +kernel)),
   runs (((o (st (b8 0)) 2 (by decide +kernel)).2.2.2.2.1 0#32 (pw 0) 300#16 (by decide +kernel) (by decide +kernel) (by decide +kernel)).2
     (by decide +kernel)),
   runs (((o (st (b8 1)) 2 (by decide +kernel)).2.2.2.2.1 0#32 (pw 1) 300#16 (by decide +kernel) (by decide +kernel) (by decide +kernel)).1
     (by decide +kernel)),
   runs (((o (st (ph 2 phDown b1)) 2 (by decide +kernel)).2.2.2.2.2.1 (by decide +kernel) (by decide +kernel)).1 (by decide +kernel)),
   runs (((o (st (b2 (fun l => { l with downDue := 5 }))) 2 (by decide +kernel)).2.2.2.2.2.1 (by decide +kernel) (by decide +kernel)).2
     (by decide +kernel) (by decide +kernel)),
   runs ((o (st (b2 (fun l => { l with back := some (5, true) }))) 2 (by decide +kernel)).2.2.2.2.2.2.1 5 true (by decide +kernel)),
   runs ((o (st (((b2 (fun l => { l with leak := 5 })).setReg .lnkPortCfg 2 0 0x20403#32).setReg .lnkViolCnt 2 0 7#32)) 2
     (by decide +kernel)).2.2.2.2.2.2.2 (by decide +kernel) (by decide +kernel))⟩

end Ports

namespace HostSide

def up (h : Hw) : Hw := (h.setReg .tpCond 2 0 1#32).setPort 0 { h.port 0 with ci := 32 }
def page (h : Hw) (p t g : Nat) : Hw := h.setReg .slbLease p 0 (mkWord [(22, 10, g), (16, 6, t), (15, 1, 1)])
def t0 : Hw := page (up owned) 3 1 3
def filled (h : Hw) : Hw := { h with mem := { h.mem with slab := [(0, 9#8), (65535, 9#8), (65536, 9#8), (131071, 9#8), (196608, 9#8), (196610, 5#8)], hbm := [(0, 9#8), (65535, 9#8), (65536, 9#8), (131071, 9#8), (196608, 9#8)] } }
def dn : Hw := { base.setReg .hstLinkStatus 0 0 0#32 with host := { base.host with training := true, requested := [5], busMasterOff := [1] } }
def rqd : Hw := (({ owned with host := { owned.host with requested := [3, 37] } }.msixPut 1 80 0x1234#32).msixPut 1 84 5#32).msixPut 1 88 77#32
def busy : Hw := { rqd with stw := { rqd.stw with launches := [1, 2, 65] }, host := { rqd.host with busMasterOff := [3] } }.modJob 1 (fun j => { j with stage := .read })
/-- States and operands that meet the hypotheses of PcieEvents. -/
theorem witness_PcieEvents (o : Obligations.PcieEvents) :
    Runs (.pcieLinkUp (5#4) (16#6) true) (st dn) ∧
    Runs (.pcieLinkUp (2#4) (4#6) false) (st dn) ∧
    Runs (.pcieLinkDown) (st { base with host := { base.host with requested := [5] } }) ∧
    Runs (.pfD3hot) (st base) ∧
    Runs (.pfD0Return) (st { base with host := { base.host with d3 := true } }) ∧
    Runs (.msixSend 1 5) (st rqd) ∧
    Runs (.msixSend 1 5) (st (rqd.msixPut 1 92 0#32)) ∧
    Runs (.msixVectorUnmask 1 5) (st rqd) ∧
    Runs (.msixVectorUnmask 1 5) (st (rqd.msixPut 1 0x1000 0x20#32)) ∧
    Runs (.aerError AerError.ecrc 5) (st rqd) ∧
    Runs (.aerError AerError.receiver 5) (st rqd) ∧
    Runs (.vfFlr 1) (st busy) ∧
    Runs (.vfFlr 1) (st (busy.setReg .tntState 1 0 (BitVec.ofNat 32 tsAdmitting))) ∧
    Runs (.vfDisable [1]) (st busy) ∧
    Runs (.vfDisable [1, 2, 5]) (st busy) :=
  ⟨runs ((o (st dn)).1 5#4 16#6 true (by decide +kernel) (by decide +kernel)),
   runs ((o (st dn)).1 2#4 4#6 false (by decide +kernel) (by decide +kernel)),
   runs ((o (st { base with host := { base.host with requested := [5] } })).2.1),
   runs ((o (st base)).2.2.1),
   runs ((o (st { base with host := { base.host with d3 := true } })).2.2.2.1),
   runs (((o (st rqd)).2.2.2.2.1 1 5 (by decide +kernel) ⟨(by decide +kernel), (by decide +kernel)⟩).1 (by decide +kernel)),
   runs (((o (st (rqd.msixPut 1 92 0#32))).2.2.2.2.1 1 5 (by decide +kernel) ⟨(by decide +kernel), (by decide +kernel)⟩).2 (by decide +kernel)),
   runs (((o (st rqd)).2.2.2.2.2.1 1 5).1 (by decide +kernel)),
   runs (((o (st (rqd.msixPut 1 0x1000 0x20#32))).2.2.2.2.2.1 1 5).2 (by decide +kernel)),
   runs ((o (st rqd)).2.2.2.2.2.2.1 .ecrc 5),
   runs ((o (st rqd)).2.2.2.2.2.2.1 .receiver 5),
   runs (((o (st busy)).2.2.2.2.2.2.2 (by decide +kernel) 1).1),
   runs (((o (st (busy.setReg .tntState 1 0 (BitVec.ofNat 32 tsAdmitting)))).2.2.2.2.2.2.2 (by decide +kernel) 1).1),
   runs (((o (st busy)).2.2.2.2.2.2.2 (by decide +kernel) 1).2 []),
   runs (((o (st busy)).2.2.2.2.2.2.2 (by decide +kernel) 1).2 [2, 5])⟩

def be : Hw := ((filled t0).setReg .hstVfCfg 1 0 0xF03#32)
def hb : Hw := let h := (((be.setReg .slbHbase 1 0 0x00010000#32).setReg .slbHmap 0 0 0x80000005#32).setReg .memPcStatus 0 0 0xFF#32).setReg .slbHlease 5 0 (mkWord [(22, 10, 3), (16, 6, 1), (15, 1, 1)])
  { h with mem := { h.mem with units := [(1, 1)] } }
def hr : Hw := { hb with mem := { hb.mem with flows := [⟨100, hostNode, (holderNode (hb.memRef 1 hbmBase)).getD 0, 64, false⟩, ⟨101, (holderNode (hb.memRef 1 hbmBase)).getD 0, hostNode, 64, false⟩] } }
def iu (h : Hw) : Hw := (h.setReg .hstWinStatus 1 3 1#32).setReg .hstWinSize 1 3 5#32
def chd (cfg ep status : BitVec 32) : Hw := { ((((base.setReg .chCfg 5 0 cfg).setReg .chEp 5 0 ep).setReg .chStatus 5 0 status).setReg .hstRelayTx 3 0 0x77#32) with host := { base.host with relayTx := some 5, relayRx := some 5 } }
def rxd : Hw := { chd 0x8200#32 0x033D0102#32 0x30001#32 with cnet := { base.cnet with fifos := [(5, [7#512 + (3#512 <<< 200), 1#512])] } }
/-- States and operands that meet the hypotheses of HostAccesses. -/
theorem witness_HostAccesses (o : Obligations.HostAccesses) :
    Runs (.bar2Read 1 (4#40) (8#13) PadErr.ok) (st (be.setReg .bootStatus 0 0 0#32)) ∧
    Runs (.bar2Read 1 (285212672#40) (8#13) PadErr.ok) (st be) ∧
    Runs (.bar2Read 1 (268435460#40) (8#13) PadErr.ok) (st be) ∧
    Runs (.bar2Read 1 (268439552#40) (8#13) PadErr.ok) (st be) ∧
    Runs (.bar2Read 1 (4#40) (8#13) PadErr.ok) (st be) ∧
    Runs (.bar2Read 1 (196608#40) (8#13) PadErr.ok) (st be) ∧
    Runs (.bar2Read 1 (196608#40) (8#13) PadErr.corrected) (st be) ∧
    Runs (.bar2Read 1 (196608#40) (8#13) PadErr.uncorrectable) (st be) ∧
    Runs (.bar2Read 1 (137438953472#40) (8#13) PadErr.ok) (st hr) ∧
    Runs (.bar2Write 1 285212672#40 [some 1#8]) (st be) ∧
    Runs (.bar2Write 1 4#40 [some 1#8, none]) (st be) ∧
    Runs (.bar2Write 1 196609#40 [some 1#8, none, some 3#8]) (st be) ∧
    Runs (.bar2Write 1 196608#40 [some 9#8, none, some 0#8]) (st be) ∧
    Runs (.bar2Write 1 137438953472#40 [some 9#8, none, some 0#8]) (st hr) ∧
    Runs (.bar2Write 1 268439552#40 [some 9#8, none, some 0#8]) (st be) ∧
    Runs (.bar2Write 1 268435468#40 [some 9#8, none, some 0#8, some 5#8, some 6#8]) (st be) ∧
    Runs (.windowWithdraw Path.pf 1 3 0 131073#32) (st be) ∧
    Runs (.windowWithdraw Path.pf 1 3 0 131073#32) (st (iu be)) ∧
    Runs (.windowWithdraw Path.pf 1 3 1 7#32) (st (iu be)) ∧
    Runs (.windowWithdraw Path.pf 1 3 2 0#32) (st ((iu be).setReg .hstWinBaseLo 1 3 1#32)) ∧
    Runs (.windowWithdraw Path.pf 1 3 2 9#32) (st ((iu be).setReg .hstWinBaseLo 1 3 1#32)) ∧
    Runs (.windowWithdraw Path.pf 1 3 2 5#32) (st ((iu be).setReg .hstWinBaseLo 1 3 0#32)) ∧
    Runs (.relaySend none) (st (chd 0x200#32 0x02010333#32 0x40000#32)) ∧
    Runs (.relaySend none) (st (chd 0x8200#32 0x0201033D#32 0x40000#32)) ∧
    Runs (.relaySend none) (st (chd 0x8200#32 0x0201033D#32 0x0#32)) ∧
    Runs (.relaySend none) (st (chd 0xC200#32 0x0201033D#32 0x0#32)) ∧
    Runs (.relayDequeue none true) (st (chd 0xC200#32 0x033D0102#32 0x0#32)) ∧
    Runs (.relayDequeue none true) (st rxd) :=
  ⟨runs (((o (st (be.setReg .bootStatus 0 0 0#32)) (by decide +kernel)).1 1 4#40 8#13).1 (by decide +kernel) .ok),
   runs (((o (st be) (by decide +kernel)).1 1 0x11000000#40 8#13).2.1 (by decide +kernel) .ok),
   runs (((o (st be) (by decide +kernel)).1 1 0x10000004#40 8#13).2.2.1 4 .ok (by decide +kernel) (by decide +kernel)),
   runs (((o (st be) (by decide +kernel)).1 1 0x10001000#40 8#13).2.2.1 0x1000 .ok (by decide +kernel) (by decide +kernel)),
   runs (((((o (st be) (by decide +kernel)).1 1 0x4#40 8#13).2.2.2 (by decide +kernel) 4 (by decide +kernel)).1 (by decide +kernel)) .ok),
   runs ((((((o (st be) (by decide +kernel)).1 1 0x30000#40 8#13).2.2.2 (by decide +kernel) 0x30000 (by decide +kernel)).2 (by decide +kernel)).1
     196608 (by decide +kernel)).1),
   runs ((((((o (st be) (by decide +kernel)).1 1 0x30000#40 8#13).2.2.2 (by decide +kernel) 0x30000 (by decide +kernel)).2 (by decide +kernel)).1
     196608 (by decide +kernel)).2.1),
   runs ((((((o (st be) (by decide +kernel)).1 1 0x30000#40 8#13).2.2.2 (by decide +kernel) 0x30000 (by decide +kernel)).2 (by decide +kernel)).1
     196608 (by decide +kernel)).2.2),
   runs ((((((o (st hr) (by decide +kernel)).1 1 0x2000000000#40 8#13).2.2.2 (by decide +kernel) hbmBase (by decide +kernel)).2 (by decide +kernel)).2
     (5 * 0x200000) (by decide +kernel))),
   runs (((o (st be) (by decide +kernel)).2.1 1 0x11000000#40 [some 1#8]) (by decide +kernel)),
   runs ((((o (st be) (by decide +kernel)).2.2.1 1 4#40 [some 1#8, none] (by decide +kernel)).1 4 (by decide +kernel)).1 (by decide +kernel)),
   runs ((((o (st be) (by decide +kernel)).2.2.1 1 0x30001#40 [some 1#8, none, some 3#8] (by decide +kernel)).1 0x30001 (by decide +kernel)).2.1
     0x30001 (by decide +kernel) (by decide +kernel)),
   runs ((((o (st be) (by decide +kernel)).2.2.1 1 0x30000#40 [some 9#8, none, some 0#8] (by decide +kernel)).1 0x30000 (by decide +kernel)).2.1
     0x30000 (by decide +kernel) (by decide +kernel)),
   runs ((((o (st hr) (by decide +kernel)).2.2.1 1 0x2000000000#40 [some 9#8, none, some 0#8] (by decide +kernel)).1 hbmBase (by decide +kernel)).2.2
     (5 * 0x200000) (by decide +kernel) (by decide +kernel)),
   runs ((((o (st be) (by decide +kernel)).2.2.1 1 0x10001000#40 [some 9#8, none, some 0#8] (by decide +kernel)).2.1 0x1000 (by decide +kernel))),
   runs ((((o (st be) (by decide +kernel)).2.2.1 1 0x1000000C#40 [some 9#8, none, some 0#8, some 5#8, some 6#8] (by decide +kernel)).2.2 12
     (by decide +kernel))),
   runs (((o (st be) (by decide +kernel)).2.2.2.1 .pf 1 3 0x20001#32).1 (writeOpens (by decide +kernel))),
   runs (((o (st (iu be)) (by decide +kernel)).2.2.2.1 .pf 1 3 0x20001#32).1 (writeOpens (by decide +kernel))),
   runs (((o (st (iu be)) (by decide +kernel)).2.2.2.1 .pf 1 3 0x7#32).2.1 (writeOpens (by decide +kernel))),
   runs ((((o (st ((iu be).setReg .hstWinBaseLo 1 3 1#32)) (by decide +kernel)).2.2.2.1 .pf 1 3 0#32).2.2 (writeOpens (by decide +kernel))).1
     (by decide +kernel) (by decide +kernel)),
   runs ((((o (st ((iu be).setReg .hstWinBaseLo 1 3 1#32)) (by decide +kernel)).2.2.2.1 .pf 1 3 9#32).2.2 (writeOpens (by decide +kernel))).2
     (by decide +kernel)),
   runs ((((o (st ((iu be).setReg .hstWinBaseLo 1 3 0#32)) (by decide +kernel)).2.2.2.1 .pf 1 3 5#32).2.2 (writeOpens (by decide +kernel))).2
     (by decide +kernel)),
   runs (((o (st (chd 0x200#32 0x02010333#32 0x40000#32)) (by decide +kernel)).2.2.2.2.1 5 (by decide +kernel)).1 (by decide +kernel)),
   runs ((((o (st (chd 0x8200#32 0x0201033D#32 0x40000#32)) (by decide +kernel)).2.2.2.2.1 5 (by decide +kernel)).2 (by decide +kernel)
     (by decide +kernel)).1 (by decide +kernel)),
   runs ((((o (st (chd 0x8200#32 0x0201033D#32 0x0#32)) (by decide +kernel)).2.2.2.2.1 5 (by decide +kernel)).2 (by decide +kernel)
     (by decide +kernel)).2.1 (by decide +kernel)),
   runs ((((o (st (chd 0xC200#32 0x0201033D#32 0x0#32)) (by decide +kernel)).2.2.2.2.1 5 (by decide +kernel)).2 (by decide +kernel)
     (by decide +kernel)).2.2 (by decide +kernel)),
   runs ((((o (st (chd 0xC200#32 0x033D0102#32 0x0#32)) (by decide +kernel)).2.2.2.2.2 5 true (by decide +kernel)) (by decide +kernel)
     (by decide +kernel)).1 (by decide +kernel)),
   runs ((((o (st rxd) (by decide +kernel)).2.2.2.2.2 5 true (by decide +kernel)) (by decide +kernel) (by decide +kernel)).2 (7#512 + (3#512 <<< 200))
     (by decide +kernel))⟩

def lb : Hw := owned.setReg .hstLaunchDesc 1 3 0x55#32
def rd (d : List Word) (vf : Word) (st : LaunchStage) : Hw := { (lb.setReg .hstVfCfg 1 0 vf).setReg .stwDuty 0 0 0x00000000#32 with stw := { lb.stw with active := 15, launches := [33, 1, 65] } }.modJob 1 (fun j => { j with desc := d, stage := st })
def dsc : List Word := [0#32, 0#32, 0x100#32, 9#32, 3#32, 0#32, 0#32, 0#32]
def hdr (n : Nat) : List Byte := let b := natLe 4 0x4c505642 ++ natLe 2 1 ++ natLe 1 1 ++ natLe 1 0 ++ natLe 4 n ++ List.replicate 240 0#8
  b ++ natLe 4 (crc32c b)
def ck (n : Nat) (ts : Nat) : Hw := ((rd dsc 0xF03#32 .checks).modJob 1 (fun j => { j with copy := hdr n, plan := hdr n })).setReg .tntState 1 0 (BitVec.ofNat 32 ts)
/-- States and operands that meet the hypotheses of Launches. -/
theorem witness_Launches (o : Obligations.Launches) :
    Runs (.launchDoorbell 1) (st (lb.setReg .hstLaunchStatus 1 0 0x100#32)) ∧
    Runs (.launchDoorbell 1) (st lb) ∧
    Runs (.launchDoorbell 1) (st (lb.setReg .tntState 1 0 0#32)) ∧
    Runs (.planReadDone 1 [1#8] true) (st (rd (dsc.set 4 0x18#32) 0x303#32 .read)) ∧
    Runs (.admission 1) (st (rd dsc 0x302#32 .read)) ∧
    Runs (.planReadDone 1 [1#8] true) (st (rd dsc 0xF03#32 .read)) ∧
    Runs (.planReadDone 1 (hdr 256) true) (st (rd dsc 0xF03#32 .read)) ∧
    Runs (.planReadDone 1 (hdr 512) true) (st (rd dsc 0xF03#32 .read)) ∧
    Runs (.admission 1) (st (ck 0x100 tsRunning)) ∧
    Runs (.jobStop 1) (st lb) ∧
    Runs (.jobStop 1) (st (ck 0x100 tsAdmitting)) ∧
    Runs (.vfBusMasterClear 1) (st lb) ∧
    Runs (.vfBusMasterClear 1) (st (rd dsc 0xF03#32 .read)) :=
  ⟨runs (((o (st (lb.setReg .hstLaunchStatus 1 0 0x100#32)) 1).1 (writeOpens (by decide +kernel))).1 (by decide +kernel)),
   runs (((o (st lb) 1).1 (writeOpens (by decide +kernel))).2 (by decide +kernel)),
   runs (((o (st (lb.setReg .tntState 1 0 0#32)) 1).1 (writeOpens (by decide +kernel))).2 (by decide +kernel)),
   runs (((o (st (rd (dsc.set 4 0x18#32) 0x303#32 .read)) 1).2.1 (by decide +kernel) (by decide +kernel) (by decide +kernel)).1 [1#8] true 0x72
     (by decide +kernel)),
   runs (((o (st (rd dsc 0x302#32 .read)) 1).2.1 (by decide +kernel) (by decide +kernel) (by decide +kernel)).2.1 0x74 (by decide +kernel)),
   runs (((o (st (rd dsc 0xF03#32 .read)) 1).2.1 (by decide +kernel) (by decide +kernel) (by decide +kernel)).2.2.1 (by decide +kernel) [1#8]
     (by decide +kernel)),
   runs ((((o (st (rd dsc 0xF03#32 .read)) 1).2.1 (by decide +kernel) (by decide +kernel) (by decide +kernel)).2.2.2 (by decide +kernel)
     (by decide +kernel) (by decide +kernel) (by decide +kernel) (hdr 0x100) (by decide +kernel)).2 (by decide +kernel)),
   runs ((((o (st (rd dsc 0xF03#32 .read)) 1).2.1 (by decide +kernel) (by decide +kernel) (by decide +kernel)).2.2.2 (by decide +kernel)
     (by decide +kernel) (by decide +kernel) (by decide +kernel) (hdr 0x200) (by decide +kernel)).1 (by decide +kernel)),
   runs (((o (st (ck 0x100 tsRunning)) 1).2.2.1 (by decide +kernel) (by decide +kernel) (by decide +kernel)).1 (by decide +kernel)),
   runs (((o (st lb) 1).2.2.2.2.1 (writeOpens (by decide +kernel))).1 (by decide +kernel)),
   runs (((o (st (ck 0x100 tsAdmitting)) 1).2.2.2.2.1 (writeOpens (by decide +kernel))).2 (by decide +kernel)),
   runs (((o (st lb) 1).2.2.2.2.2 (by decide +kernel)).1 (by decide +kernel)),
   runs (((o (st (rd dsc 0xF03#32 .read)) 1).2.2.2.2.2 (by decide +kernel)).2 (by decide +kernel) (by decide +kernel) (by decide +kernel))⟩

set_option maxRecDepth 100000 in
/-- States and operands that meet the hypotheses of Launches, those of the clauses over a CRC of many bytes. -/
theorem witness_Launches_long (o : Obligations.Launches) :
    Runs (.admission 1) (st (ck 0x100 tsAdmitting)) :=
  runs ((((((o (st (ck 0x100 tsAdmitting)) 1).2.2.1 (by decide +kernel) (by decide +kernel) (by decide +kernel)).2 (by decide +kernel)).2
    (by decide +kernel)).2 (by decide +kernel)).1)

end HostSide

namespace TenantsAndSteward

def up (h : Hw) : Hw := (h.setReg .tpCond 2 0 1#32).setPort 0 { h.port 0 with ci := 32 }
def page (h : Hw) (p t g : Nat) : Hw := h.setReg .slbLease p 0 (mkWord [(22, 10, g), (16, 6, t), (15, 1, 1)])
def t0 : Hw := page (up owned) 3 1 3
def filled (h : Hw) : Hw := { h with mem := { h.mem with slab := [(0, 9#8), (65535, 9#8), (65536, 9#8), (131071, 9#8), (196608, 9#8), (196610, 5#8)], hbm := [(0, 9#8), (65535, 9#8), (65536, 9#8), (131071, 9#8), (196608, 9#8)] } }
def nt (f0 : Bool) (gen cause : Nat) : Notice := ⟨f0, 1, gen, cause, 5, 0, false, 7, 1, 9, 8, 3⟩
def fa (h : Hw) (x : Notice) : Hw := { filled h with fault := { h.fault with atAnchor := [x, nt false 3 1] } }
def ts (n : Nat) (h : Hw) : Hw := h.setReg .tntState 1 0 (BitVec.ofNat 32 n)
/-- States and operands that meet the hypotheses of FaultsAccepted. -/
theorem witness_FaultsAccepted (o : Obligations.FaultsAccepted) :
    Runs (.faultAccept) (st (fa t0 (nt false 2 1))) ∧
    Runs (.faultAccept) (st (fa t0 (nt false 3 1))) ∧
    Runs (.faultAccept) (st (fa t0 (nt false 3 0x10))) ∧
    Runs (.faultAccept) (st (fa (ts tsQuiesce t0) (nt false 3 1))) ∧
    Runs (.faultAccept) (st (fa (ts 0 t0) (nt false 3 1))) ∧
    Runs (.partitionReset 1) (st (fa t0 (nt false 3 0x11))) ∧
    Runs (.f0Accept) (st (fa t0 (nt true 3 0x4b))) :=
  ⟨runs (((o (st (fa t0 (nt false 2 1))) (nt false 2 1) [nt false 3 1] (by decide +kernel) (by decide +kernel)).1 (by decide +kernel)).1
    (by decide +kernel)),
   runs (((o (st (fa t0 (nt false 3 1))) (nt false 3 1) [nt false 3 1] (by decide +kernel) (by decide +kernel)).1 (by decide +kernel)).2.1
     (by decide +kernel) (by decide +kernel)),
   runs (((o (st (fa t0 (nt false 3 0x10))) (nt false 3 0x10) [nt false 3 1] (by decide +kernel) (by decide +kernel)).1 (by decide +kernel)).2.1
     (by decide +kernel) (by decide +kernel)),
   runs (((o (st (fa (ts tsQuiesce t0) (nt false 3 1))) (nt false 3 1) [nt false 3 1] (by decide +kernel) (by decide +kernel)).1
     (by decide +kernel)).2.2.1 (by decide +kernel) (by decide +kernel)),
   runs (((o (st (fa (ts 0 t0) (nt false 3 1))) (nt false 3 1) [nt false 3 1] (by decide +kernel) (by decide +kernel)).1 (by decide +kernel)).2.2.1
     (by decide +kernel) (by decide +kernel)),
   runs (((o (st (fa t0 (nt false 3 0x11))) (nt false 3 0x11) [nt false 3 1] (by decide +kernel) (by decide +kernel)).1 (by decide +kernel)).2.2.2
     (by decide +kernel) (by decide +kernel) 1 (by decide +kernel)),
   runs ((o (st (fa t0 (nt true 3 0x4b))) (nt true 3 0x4b) [nt false 3 1] (by decide +kernel) (by decide +kernel)).2 (by decide +kernel))⟩

def jb (st : RestartStep) (h : Hw) : Hw := (ts tsQuiesce h).modJob 1 (fun j => { j with step := st, t0 := 5, endCause := 3, relaunchMax := 2, routes := [4], phases := [6], tileMask := 3 })
def own (h : Hw) : Hw := (((h.setReg .bnFlowCfg 3 7 (mkWord [(0,13,5),(13,1,1),(16,6,1),(22,10,3)])).setReg .chCfg 5 0 (mkWord [(15,1,1),(16,6,1),(22,10,3),(8,4,2)])).setReg .fldCfg 3 1 (mkWord [(15,1,1),(16,6,1),(22,10,3)])).setReg .snBarrierCfg 12 2 (mkWord [(15,1,1),(16,6,1),(22,10,3)])
def sc (m : Nat) : Hw := { (jb .scrub (filled t0)).modJob 1 (fun j => { j with relaunches := m }) with now := 9000, mem := { (filled t0).mem with zeroing := [1, 3] } }
/-- States and operands that meet the hypotheses of Restarts. -/
theorem witness_Restarts (o : Obligations.Restarts) :
    Runs (.restartDrainDone 1) (st (own (ts tsQuiesce (owned.modJob 1 (fun j => { j with step := .drain, routes := [3], phases := [2] }))))) ∧
    Runs (.restartSweepDone 1) (st (own { jb .sweep (filled t0) with now := 9000 })) ∧
    Runs (.restartReady 1) (st (sc 0)) ∧
    Runs (.restartReady 1) (st (sc 2)) ∧
    Runs (.restartReady 1) (st (((sc 2).modJob 1 (fun j => {j with f0 := true})).setReg .ancFaultCond 0 0 0x80#32)) ∧
    Runs (.jobEndComplete (Path.steward 0) 1) (st t0) :=
  ⟨runs (((o (st (own (ts tsQuiesce (owned.modJob 1 (fun j => { j with step := .drain, routes := [3], phases := [2] }))))) 1).1 (by decide +kernel)
    (by decide +kernel) (by decide +kernel))),
   runs (((o (st (own { jb .sweep (filled t0) with now := 9000 })) 1).2.1 (by decide +kernel) (by decide +kernel))),
   runs (((o (st (sc 0)) 1).2.2.1 (by decide +kernel) (by decide +kernel)).1 (by decide +kernel) (by decide +kernel)),
   runs (((o (st (sc 2)) 1).2.2.1 (by decide +kernel) (by decide +kernel)).2 (by decide +kernel)),
   runs (((o (st (((sc 2).modJob 1 (fun j => {j with f0 := true})).setReg .ancFaultCond 0 0 0x80#32)) 1).2.2.1 (by decide +kernel)
     (by decide +kernel)).2 (by decide +kernel)),
   runs ((o (st t0) 1).2.2.2.1 (.steward 0) (writeOpens (by decide +kernel)) (by decide +kernel) (by decide +kernel))⟩

def mu (s : Nat) (h : Hw) : Hw := (ts s h).setReg .tntPartCfgLo 1 0 0xC0003300#32
def rdy (h : Hw) : Hw := (ts tsStarting h).modJob 1 (fun j => { j with tileMask := 1, startBar := some 5 })
def rdm (h : Hw) : Hw := let g := mu tsStarting (rdy h)
  { g with snet := { g.snet with startDown := [1, 2] } }
def hal (k scope : Nat) (h : Hw) : Hw := { (h.setReg .stwDuty 0 0 0x03020100#32).setReg .stwBreakCtl 0 0 (BitVec.ofNat 32 scope) with stw := { h.stw with active := 31, halted := 2 ^ k } }
/-- States and operands that meet the hypotheses of JobsStart. -/
theorem witness_JobsStart (o : Obligations.JobsStart) :
    Runs (.startRoundJoin (Path.steward 0) 1) (st (mu tsStarting t0)) ∧
    Runs (.startRoundJoin (Path.steward 0) 1) (st (mu tsRunning t0)) ∧
    Runs (.startBell 1) (st (rdy t0)) ∧
    Runs (.startBell 1) (st (rdm t0)) ∧
    Runs (.startBell 1) (st (hal 1 1 (rdm t0))) ∧
    Runs (.startTimeout 1) (st ((mu tsStarting (rdy t0)).setReg .tntCfg 1 0 5#32)) :=
  ⟨runs (((o (st (mu tsStarting t0)) 1).1 (.steward 0) (writeOpens (by decide +kernel))).1 (by decide +kernel) (by decide +kernel)
    (by decide +kernel)),
   runs (((o (st (mu tsRunning t0)) 1).1 (.steward 0) (writeOpens (by decide +kernel))).2 (by decide +kernel)),
   runs (((o (st (rdy t0)) 1).2.1 (by decide +kernel) (by decide +kernel) (by decide +kernel) (by decide +kernel)).1 (by decide +kernel)),
   runs (((o (st (rdm t0)) 1).2.1 (by decide +kernel) (by decide +kernel) (by decide +kernel) (by decide +kernel)).1 (by decide +kernel)),
   runs (((o (st (hal 1 1 (rdm t0))) 1).2.1 (by decide +kernel) (by decide +kernel) (by decide +kernel) (by decide +kernel)).2 (by decide +kernel)),
   runs ((o (st ((mu tsStarting (rdy t0)).setReg .tntCfg 1 0 5#32)) 1).2.2 5 (by decide +kernel) (by decide +kernel) (by decide +kernel)
     (by decide +kernel) (by decide +kernel))⟩

def sw (h : Hw) : Hw := { h.setReg .stwDuty 0 0 0x03020100#32 with stw := { h.stw with active := 15 } }
def hb (k n : Nat) (h : Hw) : Hw := h.setReg .stwHeartbeat k 0 (BitVec.ofNat 32 n)
def noS4 (h : Hw) : Hw := { h with stw := { h.stw with failed := 16 } }
/-- States and operands that meet the hypotheses of StewardCores. -/
theorem witness_StewardCores (o : Obligations.StewardCores) :
    Runs (.heartbeatWrite 2 305419896#32) (st (sw t0)) ∧
    Runs (.stewardHeartbeatFail 2) (st (hb 2 4 (sw t0))) ∧
    Runs (.stewardHeartbeatFail 2) (st (hb 2 4 (sw t0))) ∧
    Runs (.stewardHeartbeatFail 2) (st (hb 2 4 (noS4 (sw t0)))) ∧
    Runs (.stewardCoreUe (some 2) 5) (st (sw t0)) ∧
    Runs (.stewardCoreUe none 5) (st (sw t0)) ∧
    Runs (.mtimeInterrupt 2) (st { ((sw t0).setReg .stwMtimecmpLo 2 0 40#32).setReg .stwMtimecmpHi 2 0 0#32 with now := 500 }) ∧
    Runs (.coreHalt 1) (st ((sw t0).setReg .stwBreakCtl 0 0 1#32)) ∧
    Runs (.coreResume 1) (st (ts tsHalted (hal 1 1 t0))) ∧
    Runs (.breakScopeWrite (Path.steward 0) 3#32) (st (hal 1 1 t0)) ∧
    Runs (.breakScopeWrite (Path.steward 0) 2#32) (st (hal 1 1 t0)) ∧
    Runs (.breakScopeWrite (Path.steward 0) 2#32) (st (hal 1 1 (t0.setReg .ancLock 0 0 0x20#32))) ∧
    Runs (.breakScopeWrite (Path.steward 0) 1#32) (st (hal 1 1 (t0.setReg .ancLock 0 0 0x20#32))) ∧
    Runs (.mboxDoorbell Path.pf) (st (t0.setReg .stwMboxStatus 0 0 1#32)) ∧
    Runs (.mboxDoorbell Path.debug) (st t0) ∧
    Runs (.mboxDone (Path.steward 0)) (st (t0.setReg .stwMboxStatus 0 0 1#32)) ∧
    Runs (.vfIrq (Path.steward 0) 1029#32) (st t0) ∧
    Runs (.vfIrq (Path.steward 0) 773#32) (st t0) :=
  ⟨runs ((o (st (sw t0)) 2).1 0x12345678#32 (writeOpens (by decide +kernel))),
   runs ((o (st (hb 2 4 (sw t0))) 2).2.1 (by decide +kernel) (by decide +kernel) (by decide +kernel) (by decide +kernel) (by decide +kernel)),
   runs ((o (st (hb 2 4 (sw t0))) 2).2.2.1 (by decide +kernel) (by decide +kernel) (by decide +kernel) (by decide +kernel) (by decide +kernel)
     (by decide +kernel) (by decide +kernel) (by decide +kernel) (by decide +kernel)),
   runs ((o (st (hb 2 4 (noS4 (sw t0)))) 2).2.1 (by decide +kernel) (by decide +kernel) (by decide +kernel) (by decide +kernel) (by decide +kernel)),
   runs (((o (st (sw t0)) 2).2.2.2.1 (by decide +kernel) 5).1),
   runs (((o (st (sw t0)) 2).2.2.2.1 (by decide +kernel) 5).2),
   runs ((o (st { ((sw t0).setReg .stwMtimecmpLo 2 0 40#32).setReg .stwMtimecmpHi 2 0 0#32 with now := 500 }) 2).2.2.2.2.1 (by decide +kernel)
     (by decide +kernel)),
   runs ((o (st ((sw t0).setReg .stwBreakCtl 0 0 1#32)) 1).2.2.2.2.2.1 (by decide +kernel) (by decide +kernel) (by decide +kernel)),
   runs ((o (st (ts tsHalted (hal 1 1 t0))) 1).2.2.2.2.2.2.1 (by decide +kernel) (by decide +kernel)),
   runs (((o (st (hal 1 1 t0)) 1).2.2.2.2.2.2.2.1 (.steward 0) 3#32 (writeOpens (by decide +kernel))).1 (by decide +kernel)),
   runs (((o (st (hal 1 1 t0)) 1).2.2.2.2.2.2.2.1 (.steward 0) 2#32 (writeOpens (by decide +kernel))).2.1 (by decide +kernel) (by decide +kernel)),
   runs (((o (st (hal 1 1 (t0.setReg .ancLock 0 0 0x20#32))) 1).2.2.2.2.2.2.2.1 (.steward 0) 2#32 (writeOpens (by decide +kernel))).2.2
     (by decide +kernel) (by decide +kernel)),
   runs (((o (st (hal 1 1 (t0.setReg .ancLock 0 0 0x20#32))) 1).2.2.2.2.2.2.2.1 (.steward 0) 1#32 (writeOpens (by decide +kernel))).2.2
     (by decide +kernel) (by decide +kernel)),
   runs (((o (st (t0.setReg .stwMboxStatus 0 0 1#32)) 1).2.2.2.2.2.2.2.2.1 .pf (writeOpens (by decide +kernel))).1 (by decide +kernel)),
   runs (((o (st t0) 1).2.2.2.2.2.2.2.2.1 .debug (writeOpens (by decide +kernel))).2 (by decide +kernel)),
   runs ((o (st (t0.setReg .stwMboxStatus 0 0 1#32)) 1).2.2.2.2.2.2.2.2.2.1 (.steward 0) (writeOpens (by decide +kernel))),
   runs ((o (st t0) 1).2.2.2.2.2.2.2.2.2.2 (.steward 0) 0x0405#32 (writeOpens (by decide +kernel))),
   runs ((o (st t0) 1).2.2.2.2.2.2.2.2.2.2 (.steward 0) 0x0305#32 (writeOpens (by decide +kernel)))⟩

def req (code : Nat) (a n : Nat) (rest : List Byte) : List Byte := (natLe 2 code ++ natLe 2 9 ++ natLe 4 0 ++ natLe 4 a ++ natLe 4 n ++ rest ++ List.replicate 64 0#8).take 64
def mb (b : List Byte) (h : Hw) : Hw := (List.range 16).foldl (fun h k => h.setReg .stwMbox k 0 (BitVec.ofNat 32 (u32 b (4 * k)))) ((({ sw (filled h) with nvm := { h.nvm with size := 0x1000000, cells := [(0x2000, 7#8), (0x2005, 8#8), (0x300000, 1#8)] } } : Hw).setReg .stwMboxStatus 0 0 1#32).setReg .bootSlot 0 0 0x30#32)
def bad : List Byte := (req 1 0 0 []).set 5 1#8
def hr (h : Hw) : Hw := { h with obs := { h.obs with reports := [(1, List.replicate 40 3#8), (2, List.replicate 60 1#8)] } }
/-- States and operands that meet the hypotheses of FirmwareServices. -/
theorem witness_FirmwareServices (o : Obligations.FirmwareServices) :
    Runs (.badService none) (st ( (mb (req 85 0 0 []) t0))) ∧
    Runs (.info none) (st (mb bad t0)) ∧
    Runs (.info none) (st ( (mb (req 1 0 0 []) t0))) ∧
    Runs (.nvmRead none true false) (st ( (mb (req 16 0 0 []) t0))) ∧
    Runs (.nvmRead none true true) (st ( (mb (req 16 8192 8 []) t0))) ∧
    Runs (.nvmRead none false false) (st ( (mb (req 16 8192 8 []) t0))) ∧
    Runs (.nvmRead none true false) (st ( (mb (req 16 8192 8 (natLe 8 0x1234567812)) t0))) ∧
    Runs (.nvmWrite none [1#8] none) (st ( (mb (req 17 8193 256 []) t0))) ∧
    Runs (.nvmWrite none [1#8] none) (st ( (mb (req 17 131072 256 []) t0))) ∧
    Runs (.nvmWrite none [1#8, 2#8] none) (st ( (mb (req 17 8192 256 []) t0))) ∧
    Runs (.nvmErase none none) (st ( (mb (req 18 131072 4096 []) t0))) ∧
    Runs (.nvmErase none none) (st ( (mb (req 18 8192 12288 []) t0))) ∧
    Runs (.retireSite none) (st ( (mb (req 32 64 0 []) t0))) ∧
    Runs (.hangReport none true) (st (hr (mb (req 65 7 0 []) t0))) ∧
    Runs (.hangReport none true) (st (hr (mb (req 65 1 0 (natLe 8 0 ++ natLe 4 0x1000)) t0))) :=
  ⟨runs ((o (st ( (mb (req 85 0 0 []) t0))) none (req 85 0 0 []) (by decide +kernel) (by decide +kernel)).1 (by decide +kernel)),
   runs ((o (st (mb bad t0)) none bad (by decide +kernel) (by decide +kernel)).2.1 (by decide +kernel) (by decide +kernel)),
   runs (((o (st ( (mb (req 1 0 0 []) t0))) none (req 1 0 0 []) (by decide +kernel) (by decide +kernel)).2.2 (by decide +kernel)).1
     (by decide +kernel)),
   runs ((((o (st ( (mb (req 16 0 0 []) t0))) none (req 16 0 0 []) (by decide +kernel) (by decide +kernel)).2.2 (by decide +kernel)).2.1
     (by decide +kernel) true false).1 (by decide +kernel)),
   runs (((((o (st ( (mb (req 16 8192 8 []) t0))) none (req 16 8192 8 []) (by decide +kernel) (by decide +kernel)).2.2 (by decide +kernel)).2.1
     (by decide +kernel) true true).2 (by decide +kernel) (by decide +kernel) (by decide +kernel)).1 (by decide +kernel)),
   runs ((((((o (st ( (mb (req 16 8192 8 []) t0))) none (req 16 8192 8 []) (by decide +kernel) (by decide +kernel)).2.2 (by decide +kernel)).2.1
     (by decide +kernel) false false).2 (by decide +kernel) (by decide +kernel) (by decide +kernel)).2 (by decide +kernel) (by decide +kernel)).1
     (by decide +kernel)),
   runs ((((((o (st ( (mb (req 16 8192 8 (natLe 8 0x1234567812)) t0))) none (req 16 8192 8 (natLe 8 0x1234567812)) (by decide +kernel)
     (by decide +kernel)).2.2 (by decide +kernel)).2.1 (by decide +kernel) true false).2 (by decide +kernel) (by decide +kernel) (by decide +kernel)).2
     (by decide +kernel) (by decide +kernel)).2 (by decide +kernel) (by decide +kernel)),
   runs ((((o (st ( (mb (req 17 8193 256 []) t0))) none (req 17 8193 256 []) (by decide +kernel) (by decide +kernel)).2.2 (by decide +kernel)).2.2.1
     (by decide +kernel) [1#8]).1 (by decide +kernel) none),
   runs (((((o (st ( (mb (req 17 131072 256 []) t0))) none (req 17 131072 256 []) (by decide +kernel) (by decide +kernel)).2.2
     (by decide +kernel)).2.2.1 (by decide +kernel) [1#8]).2 (by decide +kernel) (by decide +kernel) (by decide +kernel) (by decide +kernel)
     (by decide +kernel)).1 (by decide +kernel) (by decide +kernel) none),
   runs (((((o (st ( (mb (req 17 8192 256 []) t0))) none (req 17 8192 256 []) (by decide +kernel) (by decide +kernel)).2.2 (by decide +kernel)).2.2.1
     (by decide +kernel) [1#8,2#8]).2 (by decide +kernel) (by decide +kernel) (by decide +kernel) (by decide +kernel) (by decide +kernel)).2
     (by decide +kernel) (by decide +kernel) (by decide +kernel)),
   runs ((((o (st ( (mb (req 18 131072 4096 []) t0))) none (req 18 131072 4096 []) (by decide +kernel) (by decide +kernel)).2.2
     (by decide +kernel)).2.2.2.1 (by decide +kernel) (by decide +kernel) (by decide +kernel) (by decide +kernel)).1 (by decide +kernel)
     (by decide +kernel) none),
   runs ((((o (st ( (mb (req 18 8192 12288 []) t0))) none (req 18 8192 12288 []) (by decide +kernel) (by decide +kernel)).2.2
     (by decide +kernel)).2.2.2.1 (by decide +kernel) (by decide +kernel) (by decide +kernel) (by decide +kernel)).2 (by decide +kernel)
     (by decide +kernel)),
   runs (((o (st ( (mb (req 32 64 0 []) t0))) none (req 32 64 0 []) (by decide +kernel) (by decide +kernel)).2.2 (by decide +kernel)).2.2.2.2.1
     (by decide +kernel)),
   runs ((((o (st (hr (mb (req 65 7 0 []) t0))) none (req 65 7 0 []) (by decide +kernel) (by decide +kernel)).2.2 (by decide +kernel)).2.2.2.2.2.2
     (by decide +kernel) true).1 (by decide +kernel)),
   runs ((((o (st (hr (mb (req 65 1 0 (natLe 8 0 ++ natLe 4 0x1000)) t0))) none (req 65 1 0 (natLe 8 0 ++ natLe 4 0x1000)) (by decide +kernel)
     (by decide +kernel)).2.2 (by decide +kernel)).2.2.2.2.2.2 (by decide +kernel) true).2 (1, List.replicate 40 3#8) (by decide +kernel)
     (by decide +kernel) (by decide +kernel))⟩

def cl (n : Nat) (h : Hw) : Hw := h.setReg .fusDebug 0 0 (BitVec.ofNat 32 n)
def np : Hw := (List.range 8).foldl (fun h k => h.setReg .fusPrivMap k 0 0#32) t0
/-- States and operands that meet the hypotheses of DebugPort. -/
theorem witness_DebugPort (o : Obligations.DebugPort) :
    Runs (.tapReset) (st t0) ∧
    Runs (.idcode) (st t0) ∧
    Runs (.bypass) (st t0) ∧
    Runs (.clamp) (st t0) ∧
    Runs (.highz) (st t0) ∧
    Runs (.samplePreload (5#12) true 3#9 7#28) (st t0) ∧
    Runs (.extest (5#12) true (3#9) (some 7#28)) (st t0) ∧
    Runs (.extest (5#12) true (3#9) none) (st t0) ∧
    Runs (.clamp) (st (cl 0xD t0)) ∧
    Runs (.highz) (st (cl 0xD t0)) ∧
    Runs (.samplePreload (5#12) true 3#9 7#28) (st (cl 0xD t0)) ∧
    Runs (.extest (5#12) true (3#9) none) (st (cl 0xD t0)) ∧
    Runs (.dmi (5#7) none) (st (cl 0xE t0)) ∧
    Runs (.dmi (16#7) (some 2147614721#32)) (st (sw t0)) ∧
    Runs (.dmi (17#7) none) (st (sw t0)) ∧
    Runs (.dmi (16#7) (some 2147614721#32)) (st (sw t0)) ∧
    Runs (.debugSysbusAccess (4100#28) (some 5#32)) (st (cl 7 t0)) ∧
    Runs (.debugSysbusAccess (4100#28) (some 5#32)) (st ((t0.setDm 0x38 0x3000#32))) ∧
    Runs (.debugSysbusAccess (4101#28) (some 5#32)) (st t0) ∧
    Runs (.debugSysbusAccess (0#28) none) (st t0) ∧
    Runs (.debugSysbusAccess (0#28) none) (st (t0.setDm 0x38 0x10000#32)) ∧
    Runs (.debugSysbusAccess (16777224#28) (some 3#32)) (st np) :=
  ⟨runs ((o (st t0)).1),
   runs ((o (st t0)).2.1),
   runs ((o (st t0)).2.2.1),
   runs (((o (st t0)).2.2.2.1 (by decide +kernel)).1),
   runs (((o (st t0)).2.2.2.1 (by decide +kernel)).2.1),
   runs ((((o (st t0)).2.2.2.1 (by decide +kernel)).2.2 5#12 true 3#9).1 7#28),
   runs ((((o (st t0)).2.2.2.1 (by decide +kernel)).2.2 5#12 true 3#9).2 (some 7#28)),
   runs ((((o (st t0)).2.2.2.1 (by decide +kernel)).2.2 5#12 true 3#9).2 none),
   runs (((o (st (cl 0xD t0))).2.2.2.2.1 (by decide +kernel)).1),
   runs (((o (st (cl 0xD t0))).2.2.2.2.1 (by decide +kernel)).2.1),
   runs ((((o (st (cl 0xD t0))).2.2.2.2.1 (by decide +kernel)).2.2 5#12 true 3#9).1 7#28),
   runs ((((o (st (cl 0xD t0))).2.2.2.2.1 (by decide +kernel)).2.2 5#12 true 3#9).2 none),
   runs ((o (st (cl 0xE t0))).2.2.2.2.2.1 (by decide +kernel) 5#7 none),
   runs (((o (st (sw t0))).2.2.2.2.2.2.1 (by decide +kernel)).1 0x10#7 0x80020001#32),
   runs (((o (st (sw t0))).2.2.2.2.2.2.1 (by decide +kernel)).2.1 0x11#7),
   runs (((o (st (sw t0))).2.2.2.2.2.2.1 (by decide +kernel)).2.2 0x80020001#32 2 (by decide +kernel) (by decide +kernel) (by decide +kernel)
     (by decide +kernel) (by decide +kernel) (by decide +kernel)),
   runs (((o (st (cl 7 t0))).2.2.2.2.2.2.2 0x1004#28 (some 5#32)).1 (by decide +kernel)),
   runs (((o (st ((t0.setDm 0x38 0x3000#32)))).2.2.2.2.2.2.2 0x1004#28 (some 5#32)).1 (by decide +kernel)),
   runs ((((o (st t0)).2.2.2.2.2.2.2 0x1005#28 (some 5#32)).2 (by decide +kernel) (by decide +kernel)).1 (by decide +kernel)),
   runs (((((o (st t0)).2.2.2.2.2.2.2 0x0#28 none).2 (by decide +kernel) (by decide +kernel)).2.2 (by decide +kernel) (by decide +kernel)).2
     (by decide +kernel)),
   runs (((((o (st (t0.setDm 0x38 0x10000#32))).2.2.2.2.2.2.2 0x0#28 none).2 (by decide +kernel) (by decide +kernel)).2.2 (by decide +kernel)
     (by decide +kernel)).2 (by decide +kernel)),
   runs (((((o (st np)).2.2.2.2.2.2.2 0x1000008#28 (some 3#32)).2 (by decide +kernel) (by decide +kernel)).2.2 (by decide +kernel)
     (by decide +kernel)).1 (by decide +kernel))⟩

def wt (h : Hw) (r t g age : Nat) : Hw := ((((h.setReg .pmcWait 3 20 (mkWord [(0,4,r),(15,1,1)])).setReg .pmcWait 3 21 (mkWord [(16,6,t),(22,10,g)])).setReg .pmcWait 3 22 (BitVec.ofNat 32 age)).setReg .pmcHangCfg 0 0 0x80000040#32)
def du : Hw := { t0.setReg .pmcHangStatus 0 0 0x101#32 with obs := { t0.obs with due := true, reports := List.replicate 4 (2, [1#8]) } }
/-- States and operands that meet the hypotheses of Observation. -/
theorem witness_Observation (o : Obligations.Observation) :
    Runs (.pmcFreeze (Path.steward 0) 4881#32) (st t0) ∧
    Runs (.pmcThaw (Path.steward 0) 4881#32) (st t0) ∧
    Runs (.pmcThaw (Path.steward 0) 4625#32) (st t0) ∧
    Runs (.hangWatchdogTrip 3 5) (st (wt t0 1 1 3 64)) ∧
    Runs (.dieWaitLimit 3 5) (st (wt t0 1 1 0 64)) ∧
    Runs (.hangRelease (Path.steward 0)) (st (t0.setReg .pmcHangStatus 0 0 0x101#32)) ∧
    Runs (.hangReportAssemble) (st du) ∧
    Runs (.binFree (Path.steward 0) 3 5#5) (st ((t0.setReg .pmcBinCmds 3 5 0x77#32).setReg .pmcBinKey 3 5 0x77#32)) :=
  ⟨runs (((o (st t0)).1 (.steward 0) 0x1311#32 (writeOpens (by decide +kernel))).1),
   runs (((o (st t0)).1 (.steward 0) 0x1311#32 (writeOpens (by decide +kernel))).2),
   runs (((o (st t0)).1 (.steward 0) 0x1211#32 (writeOpens (by decide +kernel))).2),
   runs (((o (st (wt t0 1 1 3 64))).2.1 (by decide +kernel) 3 5 (by decide +kernel)).1 (by decide +kernel) (by decide +kernel) (by decide +kernel)
     (by decide +kernel) (by decide +kernel) (by decide +kernel) (by decide +kernel) (by decide +kernel)),
   runs (((o (st (wt t0 1 1 0 64))).2.1 (by decide +kernel) 3 5 (by decide +kernel)).2 (by decide +kernel) (by decide +kernel)),
   runs ((o (st (t0.setReg .pmcHangStatus 0 0 0x101#32))).2.2.1 (.steward 0) (writeOpens (by decide +kernel))),
   runs ((o (st du)).2.2.2.1 (by decide +kernel) (by decide +kernel) (by decide +kernel)),
   runs ((o (st ((t0.setReg .pmcBinCmds 3 5 0x77#32).setReg .pmcBinKey 3 5 0x77#32))).2.2.2.2 (.steward 0) 3 5#5 (writeOpens (by decide +kernel)))⟩

end TenantsAndSteward

namespace ResetsAndBars

def die (n : Nat) (h : Hw) : Hw := h.setReg .ancState 0 0 (BitVec.ofNat 32 n)
/-- States and operands that meet the hypotheses of ResetsBegin. -/
theorem witness_ResetsBegin (o : Obligations.ResetsBegin) :
    Runs (.pwrGoodLow) (st owned) ∧
    Runs (.rstNLow) (st (die 0 (owned.setReg .ancResetCause 0 0 2#32))) ∧
    Runs (.refclkLoss) (st { owned with rst := { owned.rst with coldReq := true } }) ∧
    Runs (.coldReset) (st { owned.setReg .bootSlot 0 0 0x3F7#32 with rst := { owned.rst with coldReq := true } }) ∧
    Runs (.coldResetEnd) (st ((die 0 owned).setReg .clkStatus 0 0 3#32)) ∧
    Runs (.warmReset) (st { owned with rst := { owned.rst with warmReq := true } }) ∧
    Runs (.perstNAssert) (st { owned with msix := [(5, 3#32)] }) ∧
    Runs (.pfFlr) (st { (die 6 owned).setReg .ancResetCause 0 0 0x20#32 with msix := [(5, 3#32)] }) ∧
    Runs (.rootPllRelock) (st { (die 7 owned) with rst := { owned.rst with warmReq := true, lostCauses := 0x20#32 } }) :=
  ⟨runs ((o.1 (st owned)).1),
   runs ((o.1 (st (die 0 (owned.setReg .ancResetCause 0 0 2#32)))).2.1),
   runs ((o.1 (st { owned with rst := { owned.rst with coldReq := true } })).2.2),
   runs ((o.2.1 (st { owned.setReg .bootSlot 0 0 0x3F7#32 with rst := { owned.rst with coldReq := true } })).1 (by decide +kernel)),
   runs ((o.2.1 (st ((die 0 owned).setReg .clkStatus 0 0 3#32))).2 (by decide +kernel) (by decide +kernel)),
   runs ((o.2.2 (st { owned with rst := { owned.rst with warmReq := true } })).1 (by decide +kernel) (by decide +kernel)),
   runs ((o.2.2 (st { owned with msix := [(5, 3#32)] })).2.1 (by decide +kernel) (by decide +kernel)),
   runs ((o.2.2 (st { (die 6 owned).setReg .ancResetCause 0 0 0x20#32 with msix := [(5, 3#32)] })).2.2.1 (by decide +kernel)),
   runs ((o.2.2 (st { (die 7 owned) with rst := { owned.rst with warmReq := true, lostCauses := 0x20#32 } })).2.2.2 (by decide +kernel)
     (by decide +kernel))⟩

def act (h : Hw) : Hw := (h.setPhyState 2 phActive).setLinkState 2 lsUp
def prr (h : Hw) : Hw := { h with rst := { h.rst with portResets := [2, 16, 2] } }
/-- States and operands that meet the hypotheses of LocksAndPortResets. -/
theorem witness_LocksAndPortResets (o : Obligations.LocksAndPortResets) :
    Runs (.pllLock (PllId.hbm 3)) (st owned) ∧
    Runs (.pllLock PllId.root) (st (die 7 (owned.setReg .clkRootCfg 0 0 0x10000#32))) ∧
    Runs (.rootPllUnlock) (st owned) ∧
    Runs (.phyPllUnlock 2) (st (act owned)) ∧
    Runs (.hbmPllUnlock 1) (st (owned.setReg .memPcStatus 2 0 0xFF#32)) ∧
    Runs (.pciePllUnlock) (st owned) ∧
    Runs (.portReset (PortId.torus 2)) (st (prr ((act owned).setReg .lnkLaneEc 2 3 5#32))) ∧
    Runs (.portReset (PortId.tile 0)) (st (prr (owned.setPort 0 { owned.port 0 with ci := 5, tclkBad := 2 }))) ∧
    Runs (.portReset (PortId.tile 0)) (st (prr (owned.setReg .fusNodeMask 0 0 0xFFFFFFFF#32))) :=
  ⟨runs ((o.1 (st owned)).1 (.hbm 3) (by decide +kernel)),
   runs ((o.1 (st (die 7 (owned.setReg .clkRootCfg 0 0 0x10000#32)))).1 .root (by decide +kernel)),
   runs ((o.1 (st owned)).2.1 (by decide +kernel)),
   runs ((o.1 (st (act owned))).2.2.1 2 (by decide +kernel) (by decide +kernel)),
   runs ((o.1 (st (owned.setReg .memPcStatus 2 0 0xFF#32))).2.2.2.1 1 (by decide +kernel)),
   runs ((o.1 (st owned)).2.2.2.2),
   runs ((o.2 (st (prr ((act owned).setReg .lnkLaneEc 2 3 5#32))) (by decide +kernel)).1 2 (by decide +kernel) (by decide +kernel)
     (by decide +kernel)),
   runs ((o.2 (st (prr (owned.setPort 0 { owned.port 0 with ci := 5, tclkBad := 2 }))) (by decide +kernel)).2 0 (by decide +kernel)),
   runs ((o.2 (st (prr (owned.setReg .fusNodeMask 0 0 0xFFFFFFFF#32))) (by decide +kernel)).2 0 (by decide +kernel))⟩

def pnd (c : CplReg) (p : Path) (v : Word) (h : Hw) : Hw := { h.setCplPend c (some ⟨p, v, 3⟩) with now := 9 }
/-- States and operands that meet the hypotheses of GuardsAccepted. -/
theorem witness_GuardsAccepted (o : Obligations.GuardsAccepted) :
    Runs (.cplValueWrite (Path.steward 0) CplReg.lock 5#32) (st owned) ∧
    Runs (.cplGuardExpired CplReg.budget) (st { pnd .budget .pf 7#32 owned with now := 771 }) ∧
    Runs (.lockSet (Path.steward 0)) (st (pnd .lock (.steward 0) 0xFF#32 owned)) ∧
    Runs (.budgetSet (Path.steward 0)) (st (pnd .budget (.steward 0) 0xFF00FF#32 owned)) ∧
    Runs (.resetReqWarm (Path.steward 0)) (st (pnd .reset (.steward 0) 1#32 owned)) ∧
    Runs (.resetReqWarm Path.debug) (st (die 7 (pnd .reset .debug 1#32 owned))) ∧
    Runs (.resetReqCold (Path.steward 0)) (st (pnd .reset (.steward 0) 2#32 owned)) ∧
    Runs (.resetReqPartition (Path.steward 0)) (st (pnd .reset (.steward 0) 0x103#32 owned)) ∧
    Runs (.resetReqTorusPort (Path.steward 0)) (st (pnd .reset (.steward 0) 0x504#32 owned)) ∧
    Runs (.resetReqTilePort (Path.steward 0)) (st (pnd .reset (.steward 0) 0x3f05#32 owned)) :=
  ⟨runs (((o.1 (st owned)).1 (.steward 0) .lock 5#32 (writeOpens (by decide +kernel)) (by decide +kernel))),
   runs (((o.1 (st { pnd .budget .pf 7#32 owned with now := 771 })).2.1 .budget ⟨.pf, 7#32, 3⟩ (by decide +kernel) (by decide +kernel))),
   runs (((o.1 (st (pnd .lock (.steward 0) 0xFF#32 owned))).2.2.1 (.steward 0) 0xFF#32 (guardOpens_sound (by decide +kernel)))),
   runs (((o.1 (st (pnd .budget (.steward 0) 0xFF00FF#32 owned))).2.2.2 (.steward 0) 0xFF00FF#32 (guardOpens_sound (by decide +kernel)))),
   runs ((o.2 (st (pnd .reset (.steward 0) 1#32 owned)) (.steward 0) 1#32 (guardOpens_sound (by decide +kernel)) (by decide +kernel)).1
     (by decide +kernel) (by decide +kernel) (by decide +kernel) (by decide +kernel) (by decide +kernel)),
   runs ((o.2 (st (die 7 (pnd .reset .debug 1#32 owned))) .debug 1#32 (guardOpens_sound (by decide +kernel)) (by decide +kernel)).1
     (by decide +kernel) (by decide +kernel) (by decide +kernel) (by decide +kernel) (by decide +kernel)),
   runs ((o.2 (st (pnd .reset (.steward 0) 2#32 owned)) (.steward 0) 2#32 (guardOpens_sound (by decide +kernel)) (by decide +kernel)).2.1
     (by decide +kernel)),
   runs (((o.2 (st (pnd .reset (.steward 0) 0x103#32 owned)) (.steward 0) 0x103#32 (guardOpens_sound (by decide +kernel)) (by decide +kernel)).2.2
     (by decide +kernel) (by decide +kernel)).1 (by decide +kernel)),
   runs (((o.2 (st (pnd .reset (.steward 0) 0x504#32 owned)) (.steward 0) 0x504#32 (guardOpens_sound (by decide +kernel)) (by decide +kernel)).2.2
     (by decide +kernel) (by decide +kernel)).2.1 (by decide +kernel)),
   runs (((o.2 (st (pnd .reset (.steward 0) 0x3f05#32 owned)) (.steward 0) 0x3f05#32 (guardOpens_sound (by decide +kernel)) (by decide +kernel)).2.2
     (by decide +kernel) (by decide +kernel)).2.2 (by decide +kernel))⟩

def fb (row : Nat) (data : Word) : Hw := pnd .fuse .pf (BitVec.ofNat 32 (0x100 + row)) (((die 4 owned).setReg .fusSecPolicy 0 0 8#32).setReg .fusProgData 0 0 data)
def bn : Hw := { owned with fuse := { owned.fuse with burning := some (0x10, 7#32) } }
def fl : Hw := { die 1 owned with fuse := { owned.fuse with nodeMask := [1#32, 2#32, 3#32], laneRepair := [5#32, 0#32, 0#32, 0#32, 0#32, 7#32], keyhash := List.replicate 12 9#32, svnFloor := 63 } }
/-- States and operands that meet the hypotheses of FusesBurnAndLoad. -/
theorem witness_FusesBurnAndLoad (o : Obligations.FusesBurnAndLoad) :
    Runs (.fuseBurn Path.pf) (st (fb 0x30 0x100#32)) ∧
    Runs (.fuseBurn Path.pf) (st (fb 0x20 63#32)) ∧
    Runs (.fuseBurnDone true) (st bn) ∧
    Runs (.fuseLoadDone true 3#8) (st fl) ∧
    Runs (.pcieTrainingStart) (st owned) :=
  ⟨runs ((o.1 (st (fb 0x30 0x100#32))).1 0x130#32 (guardOpens_sound (by decide +kernel)) (by decide +kernel) (by decide +kernel) (by decide +kernel)
    (by decide +kernel) (by decide +kernel) (by decide +kernel)),
   runs ((o.1 (st (fb 0x20 63#32))).1 0x120#32 (guardOpens_sound (by decide +kernel)) (by decide +kernel) (by decide +kernel) (by decide +kernel)
     (by decide +kernel) (by decide +kernel) (by decide +kernel)),
   runs ((o.1 (st bn)).2 0x10 7#32 true (by decide +kernel)),
   runs ((o.2 (st fl)).1 3#8 (by decide +kernel)),
   runs (((o.2 (st owned)).2.2 (by decide +kernel) (by decide +kernel)))⟩

def bf (r : List Node) (stw : BitVec 5) (sram : Bool) : BistFindings := ⟨r, [⟨0, 5, 1⟩], [⟨1, 3, 1⟩], [5, 4095], stw, sram, 7#96, 0x8000000000000001#64⟩
def b2 : Hw := (die 2 owned).setReg .fusNodeMask 0 0 0x20#32
/-- States and operands that meet the hypotheses of BistAndBoot. -/
theorem witness_BistAndBoot (o : Obligations.BistAndBoot) :
    Runs (.bistDone (bf [5, 61] (3#5) true)) (st b2) ∧
    Runs (.bistDone (bf [5, 6] (3#5) true)) (st b2) ∧
    Runs (.bistDone (bf [5, 6] (3#5) false)) (st b2) ∧
    Runs (.bistDone (bf [] (16#5) false)) (st b2) ∧
    Runs (.bootStart) (st { die 6 owned with boot := { owned.boot with sticky := 0x84 } }) ∧
    Runs (.bootStart) (st ((die 3 owned).setReg .bootSlot 0 0 5#32)) ∧
    Runs (.bootStart) (st (die 3 owned)) :=
  ⟨runs ((o.1 (st b2) (bf [5, 61] 3#5 true) (by decide +kernel)).1 ⟨(61 : Node), (by decide +kernel), (by decide +kernel), (by decide +kernel)⟩),
   runs ((o.1 (st b2) (bf [5, 6] 3#5 true) (by decide +kernel)).2.1 (by decide +kernel) (by decide +kernel)),
   runs ((o.1 (st b2) (bf [5, 6] 3#5 false) (by decide +kernel)).2.2.1 (by decide +kernel) (by decide +kernel) (by decide +kernel)),
   runs ((o.1 (st b2) (bf [] 16#5 false) (by decide +kernel)).2.2.2 (by decide +kernel) (by decide +kernel) (by decide +kernel)),
   runs ((o.2 (st { die 6 owned with boot := { owned.boot with sticky := 0x84 } }) (by decide +kernel)).1 (by decide +kernel) (by decide +kernel)),
   runs ((o.2 (st ((die 3 owned).setReg .bootSlot 0 0 5#32)) (by decide +kernel)).2.1 (by decide +kernel) (by decide +kernel)),
   runs ((o.2 (st (die 3 owned)) (by decide +kernel)).2.2 (by decide +kernel) (by decide +kernel))⟩

def br (b : BarState) (h : Hw) : Hw := { h with bar := b }
def fol (h : Hw) : Hw := { h with doc := some { ({} : Doc) with topology := [⟨2,1,1,0,0,0,1,0,0,0,3,0,[0,0,0,0,0,0]⟩] } }
def rb : BarState := { running := true, bar := 77#48, phase := 1000, e := -5 }
/-- States and operands that meet the hypotheses of BarsEnd. -/
theorem witness_BarsEnd (o : Obligations.BarsEnd) :
    Runs (.barBoundary [(5, 1000#13)] [] 0) (st (br rb owned)) ∧
    Runs (.barBoundary [(5, 1000#13)] [] 0) (st (br { rb with e := 40 } (fol owned))) ∧
    Runs (.barBoundary [(5, 1000#13)] [] 3) (st (br { rb with e := 40 } (fol owned))) ∧
    Runs (.barBoundary [(5, 1000#13)] [] 0) (st (br { rb with jumpTo := some (9, 4095), jumped := true } (fol owned))) ∧
    Runs (.barBoundary [] [] 1) (st (br { rb with phase := 4095, rest := 1, c := 3, target := some 12, lostBars := 7 } (fol owned))) ∧
    Runs (.barBoundary [(5, 844#13), (6, 3447#13)] [] 2) (st (br rb owned)) ∧
    Runs (.barBoundary [(5, 844#13), (6, 0#13)] [] 0) (st (br rb owned)) ∧
    Runs (.tclkOutOfRange 5) (st (owned.setPort 5 { owned.port 5 with tclkBad := 2 })) :=
  ⟨runs ((((o.1 (st (br rb owned)) [(5, 1000#13)] [] (by decide +kernel) (by decide +kernel)).1 (by decide +kernel) (by decide +kernel)).1
    (by decide +kernel)).1),
   runs ((((o.1 (st (br { rb with e := 40 } (fol owned))) [(5, 1000#13)] [] (by decide +kernel) (by decide +kernel)).1 (by decide +kernel)
     (by decide +kernel)).1 (by decide +kernel)).1),
   runs ((((o.1 (st (br { rb with e := 40 } (fol owned))) [(5, 1000#13)] [] (by decide +kernel) (by decide +kernel)).1 (by decide +kernel)
     (by decide +kernel)).1 (by decide +kernel)).2 3 (by decide +kernel) (by decide +kernel)),
   runs ((((o.1 (st (br { rb with jumpTo := some (9, 4095), jumped := true } (fol owned))) [(5, 1000#13)] [] (by decide +kernel)
     (by decide +kernel)).1 (by decide +kernel) (by decide +kernel)).2 9 4095 (by decide +kernel) (by decide +kernel))),
   runs (((o.1 (st (br { rb with phase := 4095, rest := 1, c := 3, target := some 12, lostBars := 7 } (fol owned))) [] [] (by decide +kernel)
     (by decide +kernel)).2 (by decide +kernel) 1)),
   runs (((o.2 (st (br rb owned)) (by decide +kernel)).1 [(5, 844#13), (6, 3447#13)] [] 2 6 3447#13 (by decide +kernel) (by decide +kernel)
     (by decide +kernel) (by decide +kernel) (by decide +kernel))),
   runs (((o.2 (st (br rb owned)) (by decide +kernel)).1 [(5, 844#13), (6, 0#13)] [] 0 5 844#13 (by decide +kernel) (by decide +kernel)
     (by decide +kernel) (by decide +kernel) (by decide +kernel))),
   runs ((o.2 (st (owned.setPort 5 { owned.port 5 with tclkBad := 2 })) (by decide +kernel)).2 5 (by decide +kernel))⟩

/-- States and operands that meet the hypotheses of DownbeatMeasured. -/
theorem witness_DownbeatMeasured (o : Obligations.DownbeatMeasured) :
    Runs (.beatSend) (st (br { rb with bar := 76#48, phase := 0 } owned)) ∧
    Runs (.downbeatLost) (st ((br { rb with lostBars := 64 } (fol owned)))) :=
  ⟨runs ((o (st (br { rb with bar := 76#48, phase := 0 } owned)) (by decide +kernel)).1 (by decide +kernel) (by decide +kernel) (by decide +kernel)
    (by decide +kernel) (by decide +kernel)),
   runs ((o (st ((br { rb with lostBars := 64 } (fol owned)))) (by decide +kernel)).2.2 (by decide +kernel) (by decide +kernel) (by decide +kernel)
     (by decide +kernel))⟩

end ResetsAndBars

namespace BootAndNvm

def die (n : Nat) (h : Hw) : Hw := h.setReg .ancState 0 0 (BitVec.ofNat 32 n)
def pat (b : List Byte) (o n v : Nat) : List Byte := b.take o ++ natLe n v ++ b.drop (o + n)
def tab (serial act : Nat) : List Byte :=
  let b := pat (pat (pat (pat (pat (pat (pat (pat (List.replicate 60 0#8) 0 4 0x54535642) 4 2 1) 6 1 act) 8 4 serial) 0x10 4 0x710000) 0x14 4 0x10000) 0x18 4 0x720000) 0x1c 4 0x10000
  b ++ natLe 4 (crc32c b)
def nv (cs : List Host.Cell) (h : Hw) : Hw := { (die 3 h) with nvm := { h.nvm with cells := cs, size := 0x1000000, mode := 2 }, boot := { h.boot with probed := true } }
def cells (a : Nat) (b : List Byte) : List Host.Cell := memWrite nvmByte [] a b
def both (s0 s1 : Nat) : Hw := nv (memWrite nvmByte (cells 0 (tab s0 0)) 0x1000 (tab s1 1)) owned
def sa (order : List Nat) (h : Hw) : Hw := { h with boot := { h.boot with tableRead := true, order := order } }
/-- States and operands that meet the hypotheses of SlotsTried. -/
theorem witness_SlotsTried (o : Obligations.SlotsTried) :
    Runs (.slotTableSelect) (st (both 5 6)) ∧
    Runs (.slotTableSelect) (st (nv [] owned)) ∧
    Runs (.slotAttempt [] []) (st { sa [1, 3] (nv [] owned) with dbg := { owned.dbg with tap := 3 } }) ∧
    Runs (.slotAttempt [] []) (st (sa [1, 3] (nv [] owned))) ∧
    Runs (.slotAttempt [] []) (st (sa [3] (nv [] owned))) :=
  ⟨runs (((o (st (both 5 6)) (by decide +kernel)).1 (by decide +kernel) (by decide +kernel)).2.1 (by decide +kernel) (by decide +kernel)),
   runs (((o (st (nv [] owned)) (by decide +kernel)).1 (by decide +kernel) (by decide +kernel)).2.2 (by decide +kernel) (by decide +kernel)),
   runs (((o (st { sa [1, 3] (nv [] owned) with dbg := { owned.dbg with tap := 3 } }) (by decide +kernel)).2 [] [] 1 [3] (by decide +kernel)
     (by decide +kernel) (by decide +kernel)).1 (by decide +kernel)),
   runs (((o (st (sa [1, 3] (nv [] owned))) (by decide +kernel)).2 [] [] 1 [3] (by decide +kernel) (by decide +kernel) (by decide +kernel)).2.1
     (by decide +kernel) (by decide +kernel)),
   runs ((((o (st (sa [3] (nv [] owned))) (by decide +kernel)).2 [] [] 3 [] (by decide +kernel) (by decide +kernel) (by decide +kernel)).2.2 0x10000
     0x700000 (by decide +kernel) (by decide +kernel)).2.1 (0x12, 0xff, 0) (by decide +kernel) (by decide +kernel))⟩

def pb (h : Hw) : Hw := { die 3 h with bar := { h.bar with running := true } }
def dv (j : BitVec 24) (s : Option (BitVec 5 × BitVec 32 × BitVec 32)) : NvmDevice := ⟨j, s⟩
def bz (c a : Nat) (h : Hw) : Hw := { h with nvm := { h.nvm with busyCmd := some (c, a), cells := [(0x1005, 7#8), (0x2005, 7#8)], size := 0x1000000 } }
def pg (a : Nat) : Hw := ((die 4 owned).setReg .fusSecPolicy 0 0 4#32).setReg .bootProgAddr 0 0 (BitVec.ofNat 32 a)
def d1 : NvmDevice := dv 0x123456#24 (some (0x0F#5, 50000#32, 0x20000000#32))
/-- States and operands that meet the hypotheses of NvmCommands. -/
theorem witness_NvmCommands (o : Obligations.NvmCommands) :
    Runs (.nvmProbe (dv (0#24) none)) (st (pb owned)) ∧
    Runs (.nvmProbe (dv (1193046#24) none)) (st (pb owned)) ∧
    Runs (.nvmProbe (dv (1193046#24) (some (15#5, 50000#32, 536870912#32)))) (st (pb owned)) ∧
    Runs (.nvmCommandTimeout 1) (st (die 4 (bz 2 0x1000 owned))) ∧
    Runs (.nvmCommandTimeout 1) (st (nv [] owned)) ∧
    Runs (.nvmCommandTimeout 1) (st (sa [1, 3] (nv [] owned))) ∧
    Runs (.progRead Path.pf d1) (st (pg 0x100)) ∧
    Runs (.progProgram Path.pf d1) (st (pg 0x1100)) ∧
    Runs (.progEraseSector Path.pf d1) (st (pg 0x11000)) ∧
    Runs (.progEraseBlock Path.pf d1) (st (pg 0x10000000)) ∧
    Runs (.progUnknownCommand Path.pf (5#32) d1) (st (pg 0x100)) ∧
    Runs (.progCommandDone false) (st (bz 0 0x1000 owned)) ∧
    Runs (.progCommandDone false) (st (bz 1 0x1000 owned)) ∧
    Runs (.progCommandDone false) (st (bz 2 0x1000 owned)) ∧
    Runs (.progCommandDone false) (st (bz 3 0x1000 owned)) ∧
    Runs (.progCommandDone false) (st (bz 4 0x0 owned)) ∧
    Runs (.progCommandDone true) (st (bz 2 0x1000 owned)) :=
  ⟨runs (((o.1 (st (pb owned))).1 (by decide +kernel) (by decide +kernel) (by decide +kernel) (dv 0#24 none)).1 (by decide +kernel)),
   runs ((((o.1 (st (pb owned))).1 (by decide +kernel) (by decide +kernel) (by decide +kernel) (dv 0x123456#24 none)).2 (by decide +kernel)
     (by decide +kernel) (by decide +kernel)).1 (by decide +kernel)),
   runs ((((o.1 (st (pb owned))).1 (by decide +kernel) (by decide +kernel) (by decide +kernel) (dv 0x123456#24 (some (0x0F#5, 50000#32,
     0x20000000#32)))).2 (by decide +kernel) (by decide +kernel) (by decide +kernel)).2 0x0F#5 50000#32 0x20000000#32 4 2 (by decide +kernel)
     (by decide +kernel) (by decide +kernel) (by decide +kernel) (fun m a b => by obtain rfl : m = 5 := (by omega); decide) (by decide +kernel)
     (by decide +kernel) (by decide +kernel)),
   runs ((o.1 (st (die 4 (bz 2 0x1000 owned)))).2.1 1 (2, 0x1000) (by decide +kernel) (by decide +kernel)),
   runs (((o.1 (st (nv [] owned))).2.2 (by decide +kernel) (by decide +kernel) (by decide +kernel)).1 1 (by decide +kernel)),
   runs (((o.1 (st (sa [1, 3] (nv [] owned)))).2.2 (by decide +kernel) (by decide +kernel) (by decide +kernel)).2 1 1 [3] (by decide +kernel)
     (by decide +kernel)),
   runs (((o.2 (st (pg 0x100))).1 d1 (writeOpens (by decide +kernel)) (by decide +kernel) (by decide +kernel) (by decide +kernel)).1 (Or.inr
     ⟨(by decide +kernel), (by decide +kernel), (by decide +kernel)⟩) (by decide +kernel) (by decide +kernel)),
   runs (((o.2 (st (pg 0x1100))).1 d1 (writeOpens (by decide +kernel)) (by decide +kernel) (by decide +kernel) (by decide +kernel)).2.1 (Or.inr
     ⟨(by decide +kernel), (by decide +kernel), (by decide +kernel)⟩) (by decide +kernel) (by decide +kernel)),
   runs (((o.2 (st (pg 0x11000))).1 d1 (writeOpens (by decide +kernel)) (by decide +kernel) (by decide +kernel) (by decide +kernel)).2.2.1 (Or.inr
     ⟨(by decide +kernel), (by decide +kernel), (by decide +kernel)⟩) (by decide +kernel) (by decide +kernel)),
   runs (((o.2 (st (pg 0x10000000))).1 d1 (writeOpens (by decide +kernel)) (by decide +kernel) (by decide +kernel) (by decide +kernel)).2.2.2.1
     (Or.inr ⟨(by decide +kernel), (by decide +kernel), (by decide +kernel)⟩) (by decide +kernel) (by decide +kernel)),
   runs (((o.2 (st (pg 0x100))).1 d1 (writeOpens (by decide +kernel)) (by decide +kernel) (by decide +kernel) (by decide +kernel)).2.2.2.2 5#32
     (by decide +kernel)),
   runs (((o.2 (st (bz 0 0x1000 owned))).2 0 0x1000 (by decide +kernel)).1 (by decide +kernel)),
   runs ((((o.2 (st (bz 1 0x1000 owned))).2 1 0x1000 (by decide +kernel)).2.1 (by decide +kernel)).1 (by decide +kernel)),
   runs ((((o.2 (st (bz 2 0x1000 owned))).2 2 0x1000 (by decide +kernel)).2.1 (by decide +kernel)).2.1 (by decide +kernel)),
   runs ((((o.2 (st (bz 3 0x1000 owned))).2 3 0x1000 (by decide +kernel)).2.1 (by decide +kernel)).2.2.1 (by decide +kernel)),
   runs ((((o.2 (st (bz 4 0x0 owned))).2 4 0 (by decide +kernel)).2.1 (by decide +kernel)).2.2.2 (by decide +kernel)),
   runs (((o.2 (st (bz 2 0x1000 owned))).2 2 0x1000 (by decide +kernel)).2.2)⟩

def ia : Hw := { die 3 base with boot := { base.boot with checked := true, staged := List.replicate 600 0#8, cur := 1 } }
/-- States and operands that meet the hypotheses of ImageAppliedAndRun. -/
theorem witness_ImageAppliedAndRun (o : Obligations.ImageAppliedAndRun) :
    Runs (.imageApply) (st ia) ∧
    Runs (.applyFault) (st { ia with boot := { ia.boot with applied := true } }) ∧
    Runs (.applyFault) (st { ia with boot := { ia.boot with applied := true, order := [3] } }) ∧
    Runs (.warmScrubDone) (st { ia with boot := { ia.boot with scrubbed := false } }) ∧
    Runs (.runEntry) (st { ia with boot := { ia.boot with applied := true }, now := 123456789 }) ∧
    Runs (.fwReady) (st ((die 5 { ia with stw := { ia.stw with active := 1 } }).setReg .bootStatus 0 0 0#32)) :=
  ⟨runs ((o.1 (st ia) (by decide +kernel)).1 (by decide +kernel) (by decide +kernel) (by decide +kernel)),
   runs ((o.1 (st { ia with boot := { ia.boot with applied := true } }) (by decide +kernel)).2 (by decide +kernel) (by decide +kernel)
     (by decide +kernel)),
   runs ((o.1 (st { ia with boot := { ia.boot with applied := true, order := [3] } }) (by decide +kernel)).2 (by decide +kernel) (by decide +kernel)
     (by decide +kernel)),
   runs ((o.2 (st { ia with boot := { ia.boot with scrubbed := false } })).1 (by decide +kernel)),
   runs ((o.2 (st { ia with boot := { ia.boot with applied := true }, now := 123456789 })).2.1 (by decide +kernel) (by decide +kernel)
     (by decide +kernel)),
   runs ((o.2 (st ((die 5 { ia with stw := { ia.stw with active := 1 } }).setReg .bootStatus 0 0 0#32))).2.2 (by decide +kernel) (by decide +kernel)
     (by decide +kernel))⟩

end BootAndNvm

namespace RegistersAndFlits

def P0 : Path := .steward 0
def vf : Reg := ⟨.hstVfCfg, 1, 0⟩
def va : Nat := pathAddr P0 vf.addr
def nd : NvmDevice := ⟨0#24, none⟩
def shi : Reg := ⟨.tntPartCfgHi, 1, 0⟩
def slo : Reg := ⟨.tntPartCfgLo, 1, 0⟩
/-- States and operands that meet the hypotheses of RegisterWrites. -/
theorem witness_RegisterWrites (o : Obligations.RegisterWrites) :
    Runs (.registerWrite P0 (BitVec.ofNat 28 va) [2563#32] true nd) (st owned) ∧
    Runs (.aliasSet P0 (BitVec.ofNat 26 va) 3#32) (st (owned.setReg .hstVfCfg 1 0 0xF00#32)) ∧
    Runs (.aliasClr P0 (BitVec.ofNat 26 va) 771#32) (st (owned.setReg .hstVfCfg 1 0 0xF01#32)) ∧
    Runs (.aliasTgl P0 (BitVec.ofNat 26 va) 771#32) (st (owned.setReg .hstVfCfg 1 0 0xF01#32)) ∧
    Runs (.highWordWrite P0 (BitVec.ofNat 28 (pathAddr P0 shi.addr)) 4294967295#32) (st owned) ∧
    Runs (.lowWordWrite P0 (BitVec.ofNat 28 (pathAddr P0 slo.addr)) 4294967295#32) (st (owned.setPath P0 { owned.path P0 with hold := [(shi, 0x80000001#32)] })) :=
  ⟨runs ((o (st owned) P0 vf 0x00000A03#32 (by decide +kernel)).1 (BitVec.ofNat 28 va) nd (gateOpens_sound (by decide +kernel)) (by decide +kernel)
    (by decide +kernel)),
   runs ((o (st (owned.setReg .hstVfCfg 1 0 0xF00#32)) P0 vf 0x00000003#32 (by decide +kernel)).2.1 (BitVec.ofNat 26 va) (gateOpens_sound
     (by decide +kernel)) (by decide +kernel)),
   runs ((o (st (owned.setReg .hstVfCfg 1 0 0xF01#32)) P0 vf 0x00000303#32 (by decide +kernel)).2.2.1 (BitVec.ofNat 26 va) (gateOpens_sound
     (by decide +kernel)) (by decide +kernel)),
   runs ((o (st (owned.setReg .hstVfCfg 1 0 0xF01#32)) P0 vf 0x00000303#32 (by decide +kernel)).2.2.2.1 (BitVec.ofNat 26 va) (gateOpens_sound
     (by decide +kernel)) (by decide +kernel)),
   runs ((o (st owned) P0 shi 0xFFFFFFFF#32 (by decide +kernel)).2.2.2.2.1 (BitVec.ofNat 28 (pathAddr P0 shi.addr)) (gateOpens_sound
     (by decide +kernel)) (by decide +kernel)),
   runs ((o (st (owned.setPath P0 { owned.path P0 with hold := [(shi, 0x80000001#32)] })) P0 slo 0xFFFFFFFF#32 (by decide +kernel)).2.2.2.2.2
     (BitVec.ofNat 28 (pathAddr P0 slo.addr)) (gateOpens_sound (by decide +kernel)) (by decide +kernel) (by decide +kernel))⟩

def np : Hw := (List.range 8).foldl (fun h k => h.setReg .fusPrivMap k 0 0#32) owned
def ro : Reg := ⟨.ancId, 0, 0⟩
def wo : Reg := ⟨.hstWinSize, 1, 3⟩
/-- States and operands that meet the hypotheses of WriteRequestsAndRefusals. -/
theorem witness_WriteRequestsAndRefusals (o : Obligations.WriteRequestsAndRefusals) :
    Runs (.registerWrite P0 (BitVec.ofNat 28 va) [3#32, 4#32, 5#32] true nd) (st owned) ∧
    Runs (.registerWrite P0 (BitVec.ofNat 28 (va + 1)) [3#32] true nd) (st owned) ∧
    Runs (.registerWrite P0 (BitVec.ofNat 28 va) [] true nd) (st (owned.setReg .ancMisuseEvt 0 0 0xFF000001#32)) ∧
    Runs (.lowWordWrite P0 (BitVec.ofNat 28 (va + 2)) 5#32) (st owned) ∧
    Runs (.lowWordWrite P0 12284#28 5#32) (st owned) ∧
    Runs (.lowWordWrite P0 (BitVec.ofNat 28 va) 5#32) (st np) ∧
    Runs (.lowWordWrite P0 (BitVec.ofNat 28 (pathAddr P0 ro.addr)) 5#32) (st owned) ∧
    Runs (.lowWordWrite P0 (BitVec.ofNat 28 (pathAddr P0 wo.addr)) 5#32) (st owned) :=
  ⟨runs ((o.1 (st owned) P0 (BitVec.ofNat 28 va) nd).1 3#32 [4#32, 5#32] (by decide +kernel) (by decide +kernel)),
   runs ((o.1 (st owned) P0 (BitVec.ofNat 28 (va+1)) nd).2 [3#32] true (by decide +kernel) (by decide +kernel) (by decide +kernel)),
   runs ((o.1 (st (owned.setReg .ancMisuseEvt 0 0 0xFF000001#32)) P0 (BitVec.ofNat 28 va) nd).2 [] true (by decide +kernel) (by decide +kernel)
     (by decide +kernel)),
   runs ((o.2 (st owned) P0 (BitVec.ofNat 28 (va+2)) 5#32 (by decide +kernel) (by decide +kernel) (by decide +kernel)).1 (by decide +kernel)),
   runs (((o.2 (st owned) P0 0x2FFC#28 5#32 (by decide +kernel) (by decide +kernel) (by decide +kernel)).2 (by decide +kernel)).1
     (by decide +kernel)),
   runs (((o.2 (st np) P0 (BitVec.ofNat 28 va) 5#32 (by decide +kernel) (by decide +kernel) (by decide +kernel)).2 (by decide +kernel)).2.1 vf
     (by decide +kernel) (by decide +kernel)),
   runs (((o.2 (st owned) P0 (BitVec.ofNat 28 (pathAddr P0 ro.addr)) 5#32 (by decide +kernel) (by decide +kernel) (by decide +kernel)).2
     (by decide +kernel)).2.2.1 ro (by decide +kernel) (by decide +kernel) (by decide +kernel)),
   runs (((o.2 (st owned) P0 (BitVec.ofNat 28 (pathAddr P0 wo.addr)) 5#32 (by decide +kernel) (by decide +kernel) (by decide +kernel)).2
     (by decide +kernel)).2.2.2 wo (by decide +kernel) (by decide +kernel) (by decide +kernel) (by decide +kernel))⟩

def ev : Reg := ⟨.clkEvt, 0, 0⟩
def rA (r : Reg) : BitVec 28 := BitVec.ofNat 28 (pathAddr P0 r.addr)
/-- States and operands that meet the hypotheses of ReadsAndSnapshots. -/
theorem witness_ReadsAndSnapshots (o : Obligations.ReadsAndSnapshots) :
    Runs (.evtRead P0 (rA ev) (4#7) true) (st (owned.setReg .clkEvt 0 0 5#32)) ∧
    Runs (.evtRead P0 (rA vf) (4#7) true) (st owned) ∧
    Runs (.evtRead P0 (rA ev) (16#7) true) (st owned) ∧
    Runs (.misuseEvtRead P0) (st { owned.setReg .ancMisuseEvt 0 0 0x01000001#32 with fault := { owned.fault with misuseAt := 0x777#32 } }) ∧
    Runs (.lowWordRead P0 (rA slo)) (st owned) ∧
    Runs (.clkBarLoRead P0) (st { owned with bar := { owned.bar with bar := 0x123456789ABC#48 } }) ∧
    Runs (.snapshot P0) (st (owned.setReg .ancSnapStatus 0 0 0xFFFF0000#32)) :=
  ⟨runs ((o.1 (st (owned.setReg .clkEvt 0 0 5#32)) P0).1 (rA ev) ev (readOpens_sound (by decide +kernel)) (by decide +kernel) (by decide +kernel)
    (by decide +kernel)),
   runs ((o.1 (st owned) P0).2.1 (rA vf) vf (readOpens_sound (by decide +kernel)) (by decide +kernel) (by decide +kernel) (by decide +kernel)),
   runs ((o.1 (st owned) P0).2.2.1 (rA ev) 16#7 (by decide +kernel) (by decide +kernel) (by decide +kernel) (by decide +kernel)),
   runs ((o.1 (st { owned.setReg .ancMisuseEvt 0 0 0x01000001#32 with fault := { owned.fault with misuseAt := 0x777#32 } }) P0).2.2.2.1 _ rfl
     (readOpens_sound (by decide +kernel))),
   runs ((o.1 (st owned) P0).2.2.2.2.1 (rA slo) slo (readOpens_sound (by decide +kernel)) (by decide +kernel) (by decide +kernel)
     (by decide +kernel)),
   runs ((o.1 (st { owned with bar := { owned.bar with bar := 0x123456789ABC#48 } }) P0).2.2.2.2.2 (readOpens_sound (by decide +kernel))),
   runs (o.2 (st (owned.setReg .ancSnapStatus 0 0 0xFFFF0000#32)) P0 (writeOpens (by decide +kernel)))⟩

def far (id : RegId) (j : Nat) : Nat := 2 * 2 ^ 20 + 3 * 2 ^ 12 + (RegId.desc id).base + j * 4
def ix (a : Nat) (h : Hw) : Hw := h.setPath P0 { h.path P0 with idxAddr := BitVec.ofNat 32 a, idxCtl := 3#32 }
def fr : Reg := ⟨.phyEqCfg, 2 * 256 + 3, 0⟩
def wr (a : Nat) (v : Word) (h : Hw) : Hw := h.setPath P0 { h.path P0 with idxWrite := some (a, v) }
def rd (a : Nat) (h : Hw) : Hw := h.setPath P0 { h.path P0 with idxRead := some a }
def le : Reg := ⟨.phyLaneEvt, 2 * 256 + 3, 0⟩
/-- States and operands that meet the hypotheses of IndirectAccesses. -/
theorem witness_IndirectAccesses (o : Obligations.IndirectAccesses) :
    Runs (.idxDataRead P0) (st (ix (far .phyEqCfg 0) owned)) ∧
    Runs (.idxDataWrite P0 49#32) (st (ix (far .phyEqCfg 0) owned)) ∧
    Runs (.idxFarWriteDone P0) (st (wr (far .phyEqCfg 0) 0x31#32 owned)) ∧
    Runs (.idxFarWriteDone P0) (st (wr (far .phyEqCfg 0) 0x33#32 owned)) ∧
    Runs (.idxFarReadDone P0) (st (rd (far .phyLaneEvt 0) (owned.setReg .phyLaneEvt 515 0 7#32))) ∧
    Runs (.idxFarTimeout P0) (st (rd (far .phyLaneEvt 0) owned)) ∧
    Runs (.idxFarTimeout P0) (st (wr (far .phyLaneEvt 0) 3#32 owned)) :=
  ⟨runs ((o (st (ix (far .phyEqCfg 0) owned)) P0).1 fr (readOpens_sound (by decide +kernel)) rfl),
   runs ((o (st (ix (far .phyEqCfg 0) owned)) P0).2.1 0x31#32 fr (writeOpens (by decide +kernel)) rfl),
   runs (((o (st (wr (far .phyEqCfg 0) 0x31#32 owned)) P0).2.2.1 (by decide +kernel)).1 (far .phyEqCfg 0) 0x31#32 fr (by decide +kernel)
     (by decide +kernel) (by decide +kernel) (by decide +kernel)),
   runs (((o (st (wr (far .phyEqCfg 0) 0x33#32 owned)) P0).2.2.1 (by decide +kernel)).1 (far .phyEqCfg 0) 0x33#32 fr (by decide +kernel)
     (by decide +kernel) (by decide +kernel) (by decide +kernel)),
   runs (((o (st (rd (far .phyLaneEvt 0) (owned.setReg .phyLaneEvt 515 0 7#32))) P0).2.2.1 (by decide +kernel)).2 (far .phyLaneEvt 0) le
     (by decide +kernel) (by decide +kernel)),
   runs ((o (st (rd (far .phyLaneEvt 0) owned)) P0).2.2.2.1 (far .phyLaneEvt 0) (by decide +kernel)),
   runs ((o (st (wr (far .phyLaneEvt 0) 3#32 owned)) P0).2.2.2.2 (far .phyLaneEvt 0, 3#32) (by decide +kernel) (by decide +kernel))⟩

def slot (n k fl t g tok : Nat) (src snk : Bool) (h : Hw) : Hw := ((((h.setReg .bnFlowCfg n k (mkWord [(0,13,fl),(13,1,1),(14,1,b2n src),(15,1,b2n snk),(16,6,t),(22,10,g)])).setReg .bnFlowRate n k (mkWord [(0,13,100),(13,3,2),(16,12,5)])).setReg .bnFlowState n k (mkWord [(0,13,tok),(13,7,127)])).setReg .bnFlowBound n k 100#32)
def fl : Flit := mkFlit 5 true 9 77#1024 false
def inj (n k : Nat) (h : Hw) : Hw := { h with bnet := { h.bnet with inj := [(n * 512 + k, [fl, fl])] } }
def f1 : Hw := inj 3 7 (slot 3 7 5 1 3 2 true false owned)
/-- States and operands that meet the hypotheses of FlitsInjected. -/
theorem witness_FlitsInjected (o : Obligations.FlitsInjected) :
    Runs (.flitInject 3) (st f1) :=
  runs (((o (st f1) 3 (by decide +kernel)) 7 fl [fl] (by decide +kernel) (by decide +kernel)).1)

def hop (n port vc : Nat) (f : Flit) (h : Hw) : Hw := { h with bnet := { h.bnet with inq := [(qKey n port vc, [f])] } }
def f2 (f : Flit) (h : Hw) : Hw := hop 3 0 2 f (slot 2 7 5 1 3 2 false true h)
def fx : Flit := { fl with tag := setFld (setFld (setFld (setFld (setFld fl.tag 13 6 1) 19 10 3) 29 3 2) 32 25 1000) 41 0 0 }
/-- States and operands that meet the hypotheses of FlitHops. -/
theorem witness_FlitHops (o : Obligations.FlitHops) :
    Runs (.flitHop 3 1 MeshErr.router) (st (f2 fx owned)) ∧
    Runs (.flitHop 3 1 MeshErr.ok) (st (f2 fx owned)) ∧
    Runs (.flitHop 3 1 MeshErr.corrected) (st (f2 fx owned)) ∧
    Runs (.bnetCreditReturn 3 2 5) (st { owned with bnet := { owned.bnet with owed := [(qKey 3 2 5, 4)], used := [(qKey 3 2 5, 5)] } }) :=
  ⟨runs ((o (st (f2 fx owned)) 3 1 (by decide +kernel)).1),
   runs ((o (st (f2 fx owned)) 3 1 (by decide +kernel)).2.1 2 0 2 fx [] .ok (by decide +kernel) (by decide +kernel) (by decide +kernel)
     (by decide +kernel)),
   runs ((o (st (f2 fx owned)) 3 1 (by decide +kernel)).2.1 2 0 2 fx [] .corrected (by decide +kernel) (by decide +kernel) (by decide +kernel)
     (by decide +kernel)),
   runs ((o (st { owned with bnet := { owned.bnet with owed := [(qKey 3 2 5, 4)], used := [(qKey 3 2 5, 5)] } }) 3 1 (by decide +kernel)).2.2 3 2 5
     (by decide +kernel))⟩

def fz (n : Nat) (seq : Nat) (p : Bool) : Flit := { fl with tag := setBit (setFld (setFld (setFld (setFld (setFld (setFld fl.tag 13 6 1) 19 10 3) 29 3 2) 32 25 1000) 64 7 n) 57 7 seq) 78 p }
def f3 (f : Flit) (h : Hw) : Hw := hop 8 2 2 f (slot 8 7 5 1 3 2 false true h)
def late (h : Hw) : Hw := { h with bar := { h.bar with bar := 50#48 } }
def t8 : Nat := nodeInst 8
def rc (lane : Bool) (h : Hw) : Hw := (pgx h).setPort t8 { h.port t8 with ci := 32, recvs := [⟨4, 9, 5, t8 * 4194304 + 128, 256, lane, 0, 0, false, 0, false, false⟩], fo := 8 } where pgx (h : Hw) : Hw := (h.setReg .tpCond 8 0 1#32).setReg .slbLease (t8 * 64) 0 (mkWord [(22, 10, 3), (16, 6, 1), (15, 1, 1)])
def f5 (lane : Bool) : Hw := rc lane (f3 (fz 8 127 false) owned)
/-- States and operands that meet the hypotheses of FlitsSunkOrLate. -/
theorem witness_FlitsSunkOrLate (o : Obligations.FlitsSunkOrLate) :
    Runs (.flitSinkDelivery 8 false) (st (f3 (fz 8 5 false) owned)) ∧
    Runs (.flitSinkDelivery 8 true) (st (f3 (fz 8 0 true) owned)) ∧
    Runs (.flitLate 8 2 2#13) (st (late (f3 (fz 8 5 true) owned))) ∧
    Runs (.flitSinkDelivery 8 false) (st (f5 false)) ∧
    Runs (.flitSinkDelivery 8 true) (st (f5 false)) :=
  ⟨runs (((o.1 (st (f3 (fz 8 5 false) owned)) 8 (by decide +kernel)).1 2 2 (fz 8 5 false) [] (by decide +kernel) (by decide +kernel)).2.1 false
    (by decide +kernel)),
   runs (((o.1 (st (f3 (fz 8 0 true) owned)) 8 (by decide +kernel)).1 2 2 (fz 8 0 true) [] (by decide +kernel) (by decide +kernel)).2.1 true
     (by decide +kernel)),
   runs (((o.2 (st (late (f3 (fz 8 5 true) owned))) 8 (fz 8 5 true) (by decide +kernel) (by decide +kernel)).1 2 2#13 (by decide +kernel)
     (by decide +kernel))),
   runs (((o.1 (st (f5 false)) 8 (by decide +kernel)).1 2 2 (fz 8 127 false) [] (by decide +kernel) (by decide +kernel)).1 7 (by decide +kernel)),
   runs (((o.1 (st (f5 false)) 8 (by decide +kernel)).1 2 2 (fz 8 127 false) [] (by decide +kernel) (by decide +kernel)).2.2 7 (t8 * 64)
     (by decide +kernel) (by decide +kernel))⟩

def phs (v : Nat) (h : Hw) : Hw := h.setReg .bnPhase anchorNode 5 (BitVec.ofNat 32 v)
/-- States and operands that meet the hypotheses of FlowsAndPhases. -/
theorem witness_FlowsAndPhases (o : Obligations.FlowsAndPhases) :
    Runs (.phaseTargetWrite P0 5#12 2147483652#32) (st (phs 0x80000300 owned)) ∧
    Runs (.phaseTargetWrite P0 5#12 2147483652#32) (st { phs 0x80000300 owned with bar := { owned.bar with rest := 1 } }) ∧
    Runs (.phaseSwitch 5#12) (st ((phs 0x80010304 owned).setPhaseStage 5 1)) ∧
    Runs (.flowSlotEnable P0 3 7#9 8197#32) (st (slot 3 7 5 1 3 2 true false owned)) ∧
    Runs (.flowSlotEnable P0 3 7#9 6#32) (st (slot 3 7 5 1 3 2 true false owned)) ∧
    Runs (.flowSlotEnable P0 3 7#9 6#32) (st ((slot 3 7 5 1 3 2 true false owned).setReg .bnFlowCfg 3 7 0#32)) ∧
    Runs (.flowSlotEnable P0 3 7#9 8198#32) (st { (slot 3 7 5 1 3 2 true false owned).setReg .bnFlowCfg 3 7 0#32 with bnet := { owned.bnet with lateSeen := [(6, 4), (5, 3)] } }) :=
  ⟨runs ((o (st (phs 0x80000300 owned))).1 P0 5#12 0x80000004#32 (by decide +kernel) (writeOpens (by decide +kernel)) (by decide +kernel)
    (by decide +kernel)),
   runs ((o (st { phs 0x80000300 owned with bar := { owned.bar with rest := 1 } })).1 P0 5#12 0x80000004#32 (by decide +kernel) (writeOpens
     (by decide +kernel)) (by decide +kernel) (by decide +kernel)),
   runs ((o (st ((phs 0x80010304 owned).setPhaseStage 5 1))).2.1 5#12 (by decide +kernel) (by decide +kernel)),
   runs (((o (st (slot 3 7 5 1 3 2 true false owned))).2.2 P0 3 7#9 0x2005#32 (writeOpens (by decide +kernel))).2.1 (by decide +kernel)),
   runs (((o (st (slot 3 7 5 1 3 2 true false owned))).2.2 P0 3 7#9 0x6#32 (writeOpens (by decide +kernel))).2.1 (by decide +kernel)),
   runs (((o (st ((slot 3 7 5 1 3 2 true false owned).setReg .bnFlowCfg 3 7 0#32))).2.2 P0 3 7#9 0x6#32 (writeOpens (by decide +kernel))).2.2
     (by decide +kernel) (by decide +kernel)),
   runs (((o (st { (slot 3 7 5 1 3 2 true false owned).setReg .bnFlowCfg 3 7 0#32 with bnet := { owned.bnet with lateSeen := [(6, 4), (5, 3)] }
     })).2.2 P0 3 7#9 0x2006#32 (writeOpens (by decide +kernel))).1 (by decide +kernel) (by decide +kernel))⟩

end RegistersAndFlits

end Sys2Proof.Tests
end

section
/-! The choice of a slot-table copy (R112 to R114), an attempt on a slot (R108, R114, R118), and the obligation on both. -/

namespace Sys2Proof.Machine

theorem Hw.reg_setPhase {id : RegId} (n : RegId.bootStatus ≠ id) (h : Hw) (p i j : Nat) : (h.setPhase p).reg id i j = h.reg id i j := by
  unfold Hw.setPhase
  rw [Hw.reg_modReg, if_neg (fun e => n e.1)]

/-! The slot table. -/

/-- The bytes of slot-table copy k (R110, R111). -/
def Hw.tableCopy (h : Hw) (k : Nat) : List Byte := h.nvmRead (k * 0x1000) 64

/-- Copy k is there to be used: it is read without a timeout (R107, R810) and valid (R112). -/
def Hw.copyOk (h : Hw) (k : Nat) : Prop :=
  h.nvmBlocked = false ∧ slotTableOk (h.tableCopy k) h.nvm.size = true ∧ k ∉ h.boot.tableTimeout

/-- How far the serial number of copy 1 lies ahead of copy 0's, modulo 2^32 (R113). -/
def Hw.serialGap (h : Hw) : Nat := (u32 (h.tableCopy 1) 8 + 2 ^ 32 - u32 (h.tableCopy 0) 8) % 2 ^ 32

/-- Copy 1 is the newer one, by serial arithmetic (R113). -/
abbrev Hw.copy1Newer (h : Hw) : Prop := 1 ≤ h.serialGap ∧ h.serialGap < 2 ^ 31

/-- The test of a copy as the loader computes it. -/
def Hw.copyTest (h : Hw) (k : Nat) : Bool := !h.nvmBlocked && slotTableOk (h.tableCopy k) h.nvm.size && !h.boot.tableTimeout.contains k

theorem Hw.copyTest_iff (h : Hw) (k : Nat) : h.copyTest k = true ↔ h.copyOk k := by
  simp [Hw.copyTest, Hw.copyOk, and_assoc]

/-- The copy that the loader goes by, as it computes it (R112, R113). -/
def Hw.chosenCopy (h : Hw) : Option Nat :=
  if h.copyTest 0 && h.copyTest 1 then some (if h.copy1Newer then 1 else 0)
  else if h.copyTest 0 then some 0 else if h.copyTest 1 then some 1 else none

theorem Hw.chosenCopy_eq_zero {h : Hw} (h0 : h.copyOk 0) (h1 : ¬ h.copyOk 1 ∨ ¬ h.copy1Newer) : h.chosenCopy = some 0 := by
  rw [← Hw.copyTest_iff] at h0 h1
  unfold Hw.chosenCopy
  by_cases t1 : h.copyTest 1 = true
  · rw [if_neg (h1.resolve_left (not_not_intro t1))]
    simp [h0, t1]
  · simp [h0, t1]

theorem Hw.chosenCopy_eq_one {h : Hw} (h1 : h.copyOk 1) (h0 : ¬ h.copyOk 0 ∨ h.copy1Newer) : h.chosenCopy = some 1 := by
  rw [← Hw.copyTest_iff] at h0 h1
  unfold Hw.chosenCopy
  by_cases t0 : h.copyTest 0 = true
  · rw [if_pos (h0.resolve_left (not_not_intro t0))]
    simp [h1, t0]
  · simp [h1, t0]

theorem Hw.chosenCopy_eq_none {h : Hw} (h0 : ¬ h.copyOk 0) (h1 : ¬ h.copyOk 1) : h.chosenCopy = none := by
  rw [← Hw.copyTest_iff] at h0 h1
  simp [Hw.chosenCopy, h0, h1]

/-- The slots in the order they are tried: the forced one first, then the table's, where there is one, and the recovery slot (R114). -/
def Hw.tryOrder (h : Hw) (active : Option Nat) : List Nat := slotOrder (fld (h.reg .bootSlot) 0 2) active

theorem Hw.tryOrder_setPhase (h : Hw) (p : Nat) (active : Option Nat) : (h.setPhase p).tryOrder active = h.tryOrder active := by
  unfold Hw.tryOrder
  rw [Hw.reg_setPhase (by decide)]

/-- The loader goes by copy k: the slots' order and places are its, and BOOT_SLOT shows which copy it is (R114). -/
def Hw.takeCopy (h : Hw) (k : Nat) : Hw :=
  { h.setPhase 2 with boot := { h.boot with
      tableRead := true, order := h.tryOrder (some (u8 (h.tableCopy k) 6)), aBase := u32 (h.tableCopy k) 0x10
      aSize := u32 (h.tableCopy k) 0x14, bBase := u32 (h.tableCopy k) 0x18, bSize := u32 (h.tableCopy k) 0x1c }
  }.modReg .bootSlot 0 0 (fun w => setBit (setBit w 9 true) 8 (k == 1))

/-- The loader goes by no copy: only a forced slot and the recovery slot are left to try (R114). -/
def Hw.takeNoCopy (h : Hw) : Hw := { h.setPhase 2 with boot := { h.boot with tableRead := true, order := h.tryOrder none } }

section
variable {h : Hw} (hs : h.dieState = stBoot) (hp : h.boot.probed = true) (ht : h.boot.tableRead = false)
include hs hp ht

theorem Hw.slotTable_of_chosenCopy {k : Nat} (hk : h.chosenCopy = some k) (two : k = 0 ∨ k = 1) : h.slotTable = h.takeCopy k := by
  unfold Hw.slotTable Hw.takeCopy
  rw [if_pos ⟨hs, hp, by rw [ht]; rfl⟩, ← h.tryOrder_setPhase 2]
  extract_lets g c0 c1 v0 v1 d copy forced
  have hc : copy = some k := hk
  rw [hc]
  rcases two with rfl | rfl <;> rfl

theorem Hw.slotTable_of_noCopy (hk : h.chosenCopy = none) : h.slotTable = h.takeNoCopy := by
  unfold Hw.slotTable Hw.takeNoCopy
  rw [if_pos ⟨hs, hp, by rw [ht]; rfl⟩, ← h.tryOrder_setPhase 2]
  extract_lets g c0 c1 v0 v1 d copy forced
  have hc : copy = none := hk
  rw [hc]
  rfl

end

/-! An attempt on a slot. -/

/-- The attempt on a slot has begun, and BOOT is in the phase of image verification (R140, Table 3.9). -/
def Hw.attempting (h : Hw) (slot : Nat) : Hw := (h.beginAttempt slot).setPhase 3

/-- The slot is read again in mode 1, which BOOT_STATUS.fallback_read records (R108). -/
def Hw.reread (h : Hw) : Hw := h.modReg .bootStatus 0 0 (setBit · 9 true)

/-- The findings that a disturbed read can cause: a wrong header or section CRC (R108). -/
def disturbance : Finding ⊕ List Byte → Bool
  | .inl x => x.1 == 0x21 || x.1 == ckCrc
  | .inr _ => false

/-- Whether an attempt whose checks end so is repeated in mode 1 (R108). -/
def Hw.repeats (h : Hw) (r : Finding ⊕ List Byte) : Bool := h.nvm.mode != 1 && disturbance r

theorem Hw.repeats_inl (h : Hw) (x : Finding) : h.repeats (.inl x) = true ↔ h.nvm.mode ≠ 1 ∧ (x.1 = 0x21 ∨ x.1 = ckCrc) := by
  simp [Hw.repeats, disturbance]

theorem Hw.repeats_inr (h : Hw) (b : List Byte) : h.repeats (.inr b) = false := Bool.and_false _

/-- The end of an attempt: the slot fails with the finding of its checks, or the image is staged (R117, R118). -/
def Hw.attemptEnds (h : Hw) (again : Bool) : Finding ⊕ List Byte → Hw
  | .inl x => h.failSlot x.1 x.2.1 x.2.2
  | .inr b => { h with boot := { h.boot with checked := true, staged := b, rereading := again } }.setPhase 7

/-- The checks of the slot at its place, repeated in mode 1 where they call for it, and the attempt's end (R108, R118). -/
def Hw.attemptAt (h : Hw) (base cap : Nat) (errs again : List (Nat × Byte)) : Hw :=
  let r := h.repeats (h.checkSlot base cap errs)
  let g := if r then h.reread else h
  g.attemptEnds r (if r then g.checkSlot base cap again else h.checkSlot base cap errs)

section
variable {h : Hw} {base cap : Nat} {errs : List (Nat × Byte)} (again : List (Nat × Byte))

theorem Hw.attemptAt_of_inr {b : List Byte} (hf : h.checkSlot base cap errs = .inr b) :
    h.attemptAt base cap errs again = h.attemptEnds false (.inr b) := by
  unfold Hw.attemptAt
  rw [hf, Hw.repeats_inr]
  rfl

theorem Hw.attemptAt_of_kept {x : Finding} (hf : h.checkSlot base cap errs = .inl x) (hr : ¬ h.repeats (.inl x) = true) :
    h.attemptAt base cap errs again = h.failSlot x.1 x.2.1 x.2.2 := by
  unfold Hw.attemptAt
  rw [hf, eq_false_of_ne_true hr]
  rfl

theorem Hw.attemptAt_of_repeated {x : Finding} (hf : h.checkSlot base cap errs = .inl x) (hr : h.repeats (.inl x) = true) :
    h.attemptAt base cap errs again = h.reread.attemptEnds true (h.reread.checkSlot base cap again) := by
  unfold Hw.attemptAt
  rw [hf, hr]
  rfl

end

section
variable {h : Hw} {slot : Nat} {rest : List Nat} (errs again : List (Nat × Byte))
variable (hs : h.dieState = stBoot) (ht : h.boot.tableRead = true) (hc : h.boot.checked = false) (ho : h.boot.order = slot :: rest)
include hs ht hc ho

/-- The first slot left is attempted; it fails at once where the NVM is not reached (R107, R810) or the slot has no place (R114). -/
theorem Hw.slotAttempt_eq :
    h.slotAttempt errs again = if h.nvmBlocked then (h.attempting slot).failSlot 0x11 0xff 0
      else ((h.attempting slot).slotPlace slot).elim ((h.attempting slot).failSlot 0x10 0xff 0)
        (fun p => (h.attempting slot).attemptAt p.1 p.2 errs again) := by
  unfold Hw.slotAttempt
  rw [if_pos ⟨hs, ht, by rw [hc]; rfl⟩, ho]
  refine ite_congr rfl (fun _ => rfl) (fun _ => ?_)
  change (match (h.attempting slot).slotPlace slot with | none => _ | some (base, cap) => _) = _
  cases (h.attempting slot).slotPlace slot <;> rfl

theorem Hw.slotAttempt_of_blocked (hb : h.nvmBlocked = true) : h.slotAttempt errs again = (h.attempting slot).failSlot 0x11 0xff 0 :=
  (Hw.slotAttempt_eq errs again hs ht hc ho).trans (if_pos hb)

theorem Hw.slotAttempt_of_noPlace (hb : h.nvmBlocked = false) (hp : (h.attempting slot).slotPlace slot = none) :
    h.slotAttempt errs again = (h.attempting slot).failSlot 0x10 0xff 0 := by
  rw [Hw.slotAttempt_eq errs again hs ht hc ho, hb, hp]
  rfl

theorem Hw.slotAttempt_of_place (hb : h.nvmBlocked = false) {base cap : Nat} (hp : (h.attempting slot).slotPlace slot = some (base, cap)) :
    h.slotAttempt errs again = (h.attempting slot).attemptAt base cap errs again := by
  rw [Hw.slotAttempt_eq errs again hs ht hc ho, hb, hp]
  rfl

end

end Sys2Proof.Machine

open Sys2Proof Sys2Proof.Machine

/-- Settles O14: what the loader does with the copy that it chooses, and how an attempt on the first slot left ends. -/
theorem slotsTried : Obligations.SlotsTried := by
  unfold Obligations.SlotsTried
  intro s hs
  refine ⟨fun hp ht => ⟨fun h0 h1 => ?_, fun h1 h0 => ?_, fun h0 h1 => ?_⟩, fun errs again slot rest ht hc ho => ?_⟩
  · exact (completes_slotTableSelect s _).2 (Hw.slotTable_of_chosenCopy hs hp ht (Hw.chosenCopy_eq_zero h0 h1) (.inl rfl))
  · exact (completes_slotTableSelect s _).2 (Hw.slotTable_of_chosenCopy hs hp ht (Hw.chosenCopy_eq_one h1 h0) (.inr rfl))
  · exact (completes_slotTableSelect s _).2 (Hw.slotTable_of_noCopy hs hp ht (Hw.chosenCopy_eq_none h0 h1))
  · intro h retry reread
    refine ⟨fun hb => ?_, fun hb hpl => ?_, fun base cap hb hpl => ?_⟩
    · exact (completes_slotAttempt errs again s _).2 (Hw.slotAttempt_of_blocked errs again hs ht hc ho hb)
    · exact (completes_slotAttempt errs again s _).2 (Hw.slotAttempt_of_noPlace errs again hs ht hc ho hb hpl)
    · have placed := Hw.slotAttempt_of_place errs again hs ht hc ho hb hpl
      have retries (x : Finding) : h.repeats (.inl x) = true ↔ retry x := Hw.repeats_inl h x
      refine ⟨fun b hf => ?_, fun x hf hr => ?_, fun x hf hr => ?_⟩
      · exact (completes_slotAttempt errs again s _).2 (placed.trans (Hw.attemptAt_of_inr again hf))
      · exact (completes_slotAttempt errs again s _).2 (placed.trans (Hw.attemptAt_of_kept again hf (mt (retries x).1 hr)))
      · have repeated := placed.trans (Hw.attemptAt_of_repeated again hf ((retries x).2 hr))
        have ends {r : Finding ⊕ List Byte} (hf' : h.reread.checkSlot base cap again = r) :
            s.hw.slotAttempt errs again = h.reread.attemptEnds true r := hf' ▸ repeated
        exact ⟨fun b hf' => (completes_slotAttempt errs again s _).2 (ends hf'), fun y hf' => (completes_slotAttempt errs again s _).2 (ends hf')⟩

end

section
/-! Writes of registers without a rule of their own (R189, R196 to R198, R203, R208), and the obligation on them. -/

namespace Sys2Proof.Machine

/-- A write passes its checks at a word address only (R189). -/
theorem Hw.writeGate_go_aligned {h : Hw} {p : Path} {addr view : Nat} {r : Reg} (e : h.writeGate p addr = .go view r) : addr % 4 = 0 := by
  refine Decidable.byContradiction fun odd => ?_
  unfold Hw.writeGate at e
  obtain ⟨_, _, _⟩ := h.resolve p addr
  dsimp only at e
  rw [if_pos odd] at e
  split at e <;> cases e

/-- A request of one word with all its byte enables, at a word address, is that word's write (R189). -/
theorem Hw.writeRequest_single (h : Hw) (p : Path) {addr : Nat} (aligned : addr % 4 = 0) (v : Word) (dev : NvmDevice) :
    h.writeRequest p addr [v] true dev = h.busWrite p addr v dev := by
  unfold Hw.writeRequest
  have ok : requestOk addr (4 * [v].length) true = true := by
    unfold requestOk
    rw [aligned, List.length_singleton]
    decide
  rw [if_pos ok]
  rfl

/-- Where the write changes no locked field, the lock rule lets it through (R208). -/
theorem Hw.lockFilter_of_free {h : Hw} {id : RegId} {w v : Word} (free : (w ^^^ v) &&& lockedMask id (h.reg .ancLock) = 0#32)
    (p : Path) (addr : Nat) : h.lockFilter p addr id w v = (h, v) := if_pos free

section
variable {h : Hw} {r : Reg} (p : Path) (addr : Nat) (v : Word)

/-- A write through an alias view, or of a 32-bit register, leaves the value of its view where no lock forbids it (R197, R208). -/
theorem Hw.plainWrite_of_free {view : Nat} (hv : view ≠ 0 ∨ r.id.desc.half = .whole)
    (free : (h.reg r.id r.i r.j ^^^ viewValue r.id view (h.reg r.id r.i r.j) v) &&& lockedMask r.id (h.reg .ancLock) = 0#32) :
    h.plainWrite p addr view r v = h.setReg r.id r.i r.j (viewValue r.id view (h.reg r.id r.i r.j) v) := by
  have nohalf (k : Half) (hk : k ≠ .whole) : ¬ (view = 0 ∧ r.id.desc.half = k) := fun e => hv.elim (· e.1) (fun w => hk (e.2.symm.trans w))
  unfold Hw.plainWrite
  dsimp only
  rw [if_neg (nohalf .hi nofun), if_neg (nohalf .lo nofun), Hw.lockFilter_of_free free]

/-- The high word of a 64-bit register goes to the holding register of the path (R203). -/
theorem Hw.plainWrite_hi (hi : r.id.desc.half = .hi) :
    h.plainWrite p addr 0 r v = h.setPath p { h.path p with hold := sset Reg.lt (h.path p).hold r (v &&& r.id.desc.wmask) 0#32 } :=
  if_pos ⟨rfl, hi⟩

/-- The low word of a 64-bit register that no lock governs takes the held high word along (R203, R208). -/
theorem Hw.plainWrite_lo (lo : r.id.desc.half = .lo) (unlocked : lockedMask r.id (h.reg .ancLock) = 0#32) :
    h.plainWrite p addr 0 r v = (h.setReg r.id r.i r.j (merge r.id.desc.wmask (h.reg r.id r.i r.j) v)).setReg r.id.other r.i r.j
      (sget (h.path p).hold ⟨r.id.other, r.i, r.j⟩ 0#32) := by
  have free (w : Word) : (h.reg r.id r.i r.j ^^^ w) &&& lockedMask r.id (h.reg .ancLock) = 0#32 := by rw [unlocked, BitVec.and_zero]
  unfold Hw.plainWrite
  dsimp only
  rw [if_neg (by rw [lo]; nofun), if_pos ⟨rfl, lo⟩, if_neg (not_not_intro unlocked), Hw.lockFilter_of_free (free _)]
  rfl

end

/-- As an access begins, what the path holds stays. -/
theorem Hw.hold_readied (h : Hw) (p : Path) : ((h.readied p).path p).hold = (h.path p).hold := by
  unfold Hw.readied
  rw [Hw.path_setPath, if_pos rfl]

section
variable {h : Hw} {p : Path} {addr view : Nat} {r : Reg} (plain : r.id.plain = true) (opened : h.gateOpen p addr view r) (v : Word) (dev : NvmDevice)
include plain opened

/-- A write that passes its checks, to a register without a rule of its own, is the write of chapter 5. -/
theorem Hw.busWrite_of_plain : h.busWrite p addr v dev = (h.readied p).plainWrite p addr view r v :=
  (Hw.busWrite_open opened v dev).trans (Hw.regWrite_plain _ p addr view plain v dev)

/-- Such a write through an alias view, or of a 32-bit register, leaves the value of its view. -/
theorem Hw.busWrite_of_free (hv : view ≠ 0 ∨ r.id.desc.half = .whole)
    (free : (h.reg r.id r.i r.j ^^^ viewValue r.id view (h.reg r.id r.i r.j) v) &&& lockedMask r.id (h.reg .ancLock) = 0#32) :
    h.busWrite p addr v dev = (h.readied p).setReg r.id r.i r.j (viewValue r.id view (h.reg r.id r.i r.j) v) :=
  (Hw.busWrite_of_plain plain opened v dev).trans (Hw.plainWrite_of_free p addr v hv free)

end

end Sys2Proof.Machine

open Sys2Proof Sys2Proof.Machine

/-- Settles O19: a write that passes its checks is the write of chapter 5, by view and by half of a 64-bit register. -/
theorem registerWrites : Obligations.RegisterWrites := by
  unfold Obligations.RegisterWrites
  intro s p r v plain old h free put
  refine ⟨fun addr d opened whole hf => ?_, fun addr opened hf => ?_, fun addr opened hf => ?_, fun addr opened hf => ?_,
    fun addr opened hi => ?_, fun addr opened lo unlocked => ?_⟩
  · have ⟨_, _, gate⟩ := opened
    rw [completes_registerWrite, Hw.writeRequest_single s.hw p (Hw.writeGate_go_aligned gate) v d]
    exact Hw.busWrite_of_free plain opened v d (.inr whole) hf
  · exact (completes_aliasSet p addr v s _).2 (Hw.busWrite_of_free plain opened v noDevice (.inl (by decide)) hf)
  · exact (completes_aliasClr p addr v s _).2 (Hw.busWrite_of_free plain opened v noDevice (.inl (by decide)) hf)
  · exact (completes_aliasTgl p addr v s _).2 (Hw.busWrite_of_free plain opened v noDevice (.inl (by decide)) hf)
  · have held := (Hw.busWrite_of_plain plain opened v noDevice).trans (Hw.plainWrite_hi p addr.toNat v hi)
    rw [Hw.hold_readied] at held
    exact (completes_highWordWrite p addr v s _).2 held
  · have both := (Hw.busWrite_of_plain plain opened v noDevice).trans (Hw.plainWrite_lo p addr.toNat v lo unlocked)
    rw [Hw.hold_readied] at both
    exact (completes_lowWordWrite p addr v s _).2 both

end

section
/-! The injection of a flit by the slot that its node grants (R256 to R258, R267, R277), and the obligation on it. -/

namespace Sys2Proof.Machine

/-- A field that takes the value of a field as long as itself reads that value. -/
theorem fld_setFld_fld {m n : Nat} (w : BitVec n) (u : BitVec m) (lo lo' len : Nat) (fits : lo + len ≤ n) :
    fld (setFld w lo len (fld u lo' len)) lo len = fld u lo' len :=
  (fld_setFld_same w lo len _ fits).trans (Nat.mod_eq_of_lt (fld_lt u lo' len))

section
variable (h : Hw) (n k : Nat) (f : Flit)

/-- What the slot stamps on a flit: its owner, its VC, its route and its next seq (R267, R277). -/
theorem Hw.stampFlit_stamped :
    (h.stampFlit n k f).tenant = h.slotTenant n k ∧ (h.stampFlit n k f).gen = h.slotGen n k ∧
    (h.stampFlit n k f).vc = fld (h.reg .bnFlowRate n k) 13 3 ∧ (h.stampFlit n k f).seq = fld (h.reg .bnFlowState n k) 13 7 ∧
    (h.stampFlit n k f).route = fld (h.reg .bnFlowRate n k) 16 12 := by
  simp (disch := omega) only [Hw.stampFlit, Flit.tenant, Flit.gen, Flit.vc, Flit.seq, Flit.route, Hw.slotTenant, Hw.slotGen,
    fld_setBit_other, fld_setFld_other, fld_setFld_fld, and_self]

/-- The deadline that the slot stamps on a flit: the bar time, or the flit's own base, and the slot's bound (R267, R271). -/
theorem Hw.stampFlit_deadline : (h.stampFlit n k f).deadline =
    ((if f.remote then f.deadline else h.barTime) + fld (h.reg .bnFlowBound n k) 0 24) % 2 ^ 25 := by
  simp (disch := omega) only [Hw.stampFlit, Flit.deadline, fld_setBit_other, fld_setFld_other, fld_setFld_same]

/-- What the injector has given a flit stays (Table 6.2). -/
theorem Hw.stampFlit_given :
    (h.stampFlit n k f).flow = f.flow ∧ (h.stampFlit n k f).last = f.last ∧ (h.stampFlit n k f).poison = f.poison ∧
    (h.stampFlit n k f).data = f.data := by
  simp (disch := omega) only [Hw.stampFlit, Flit.flow, Flit.last, Flit.poison, fld_setBit_other, fld_setFld_other, bit_setBit_other,
    bit_setFld_other, and_self]

end

/-- The oldest flit x of slot k, stamped, goes to the local input; the slot's token is spent, and its next seq and the round-robin pointer of the
flit's VC go on (R256 to R258, R277). -/
def Hw.injected (h : Hw) (n k : Nat) (x : Flit) (rest : List Flit) : Hw :=
  let st := h.reg .bnFlowState n k
  let a := (h.setWaiting n k rest).setReg .bnFlowState n k (setFld (setFld st 0 13 (fld st 0 13 - 1)) 13 7 (fld st 13 7 + 1))
  let b : Hw := { a with bnet := { a.bnet with slotRr := nset a.bnet.slotRr (n * 8 + x.vc) (k + 1) 0 } }
  b.setBq n 0 x.vc (b.bq n 0 x.vc ++ [x])

/-- The slot that is granted injects its oldest flit. -/
theorem Hw.flitInject_of_grant {h : Hw} {gated : Bool} {n k : Nat} {f : Flit} {rest : List Flit} (granted : h.grantSlot gated n = some k)
    (oldest : h.waiting n k = f :: rest) : h.flitInject gated n = h.injected n k (h.stampFlit n k f) rest := by
  unfold Hw.flitInject
  rw [granted]
  dsimp only
  rw [oldest]
  rfl

end Sys2Proof.Machine

open Sys2Proof Sys2Proof.Machine

/-- Settles O23: the slot that is granted injects its oldest flit, stamped by R267 and R277. -/
theorem flitsInjected : Obligations.FlitsInjected := by
  unfold Obligations.FlitsInjected
  intro s n running k f rest granted oldest x st a b c
  obtain ⟨tenant, gen, vc, seq, route⟩ := Hw.stampFlit_stamped s.hw n.val k f
  obtain ⟨flow, last, poison, data⟩ := Hw.stampFlit_given s.hw n.val k f
  have inject : s.hw.flitInject (s.hw.gated n.val) n.val = s.hw.injected n.val k x rest := Hw.flitInject_of_grant granted oldest
  have goesOn : s.hw.grant n.val = if nodeClass n.val = 0 then c.pumpFi (nodeInst n.val) else c := by
    unfold Hw.grant
    rw [inject]
    rfl
  refine ⟨?_, flow, tenant, gen, vc, seq, route, last, poison, data, Hw.stampFlit_deadline s.hw n.val k f⟩
  exact (completes_flitInject n s _).2 ((Hw.clocked_on running).trans goesOn)

end

section
/-! The local output of a node (R245, R264, R265, R277, R520), late flits (R26, R268 to R270), and the obligation on both. -/

namespace Sys2Proof.Machine

/-! The sink checks and what a sink does with the flit that it serves. -/

/-- The check that decides is the first that fails, in the order of R265. -/
theorem Hw.sinkCheck_of_slot {h : Hw} {n k : Nat} {f : Flit} (slot : h.flowSlot n f.flow = some k) :
    let cfg := h.reg .bnFlowCfg n k
    (h.sinkCheck n f).1 = (if bit cfg 15 = false then 1 else if f.tenant ≠ fld cfg 16 6 then 2 else if f.gen ≠ fld cfg 22 10 then 3
      else if f.seq ≠ h.sinkSeq n k then 5 else if h.isLate f.deadline then 6 else if f.poison = true ∧ h.memRelays f = false then 7 else 0) := by
  unfold Hw.sinkCheck
  rw [slot]
  simp only [apply_ite Prod.fst, Bool.not_eq_true', Bool.and_eq_true]

/-- A flit whose flow has no slot at the node fails the first check. -/
theorem Hw.sinkCheck_of_noSlot {h : Hw} {n : Nat} {f : Flit} (absent : h.flowSlot n f.flow = none) : h.sinkCheck n f = (1, none) := by
  unfold Hw.sinkCheck
  rw [absent]

/-- The local output has served the head of a queue: the flit has left its buffer, and the output's engine has acted (R245, Table 19.1). -/
def Hw.sinkServed (h : Hw) (n port vc : Nat) : Hw := ((h.arbitrated n 0 port vc).bTook n port vc 0).act n 0

/-- The flit that a sink serves is dropped with the cause that its checks have found; else as poisoned, where its write reads an uncorrectable
word of the slab (R520); else it is delivered. -/
theorem Hw.sinkDeliver_of_head {h : Hw} {n port vc : Nat} {f : Flit} {rest : List Flit} (ue : Bool)
    (chosen : (h.bCleanAll n).arbitrate n 0 (fun _ _ f => (h.bCleanAll n).sinkReady n f) = some (port, vc))
    (head : (h.bCleanAll n).bq n port vc = f :: rest) :
    let c := (h.bCleanAll n).sinkCheck n f
    let g := (h.bCleanAll n).sinkServed n port vc
    h.sinkDeliver n ue = if c.1 ≠ 0 then g.sinkChecked n f c.1 c.2
      else (if ue then g.sinkPage n f else none).elim ((g.sinkChecked n f 0 c.2).deliver n f) (fun pg => (g.slabUe pg).sinkChecked n f 7 c.2) := by
  intro c g
  unfold Hw.sinkDeliver
  dsimp only
  rw [chosen]
  dsimp only
  rw [head]
  dsimp only
  change (if c.1 ≠ 0 then g.sinkChecked n f c.1 c.2 else match (if ue then g.sinkPage n f else none) with
    | some pg => (g.slabUe pg).sinkChecked n f 7 c.2
    | none => (g.sinkChecked n f 0 c.2).deliver n f) = _
  cases (if ue then g.sinkPage n f else none) <;> rfl

/-! Late flits. -/

/-- The loss of a flit of a fold stream shows in registers only (R407). -/
theorem Hw.foldStop_keeps (h : Hw) (flow : Nat) : (h.foldStop flow).fault = h.fault ∧ (h.foldStop flow).bnet = h.bnet := by
  unfold Hw.foldStop
  dsimp only
  repeat' split
  all_goals exact ⟨rfl, rfl⟩

/-- A late flit's drop has been logged in BN_LATE_EVT, and its source slot is marked (R270). -/
def Hw.lateMarked (h : Hw) (n : Nat) (f : Flit) : Hw :=
  let g := (h.foldStop f.flow).modReg .bnLateEvt n 0 (fun w =>
    if fld w 24 8 = 0 then mkWord [(24, 8, 1), (23, 1, b2n f.remote), (20, 3, f.vc), (0, 13, f.flow)] else bumpFld w 24 8 1)
  match g.flowSource f.flow with
  | some (m, s) => g.modReg .bnFlowState m s (setBit · 20 true)
  | none => g

/-- The log and the mark are in registers only. -/
theorem Hw.lateMarked_keeps (h : Hw) (n : Nat) (f : Flit) : (h.lateMarked n f).fault = h.fault ∧ (h.lateMarked n f).bnet = h.bnet := by
  unfold Hw.lateMarked
  extract_lets g
  have logged : g.fault = h.fault ∧ g.bnet = h.bnet := Hw.foldStop_keeps h f.flow
  cases g.flowSource f.flow <;> exact logged

/-- A resource's fault is noted for its owner: an F1 for a tenant, an F0 for the die (R26, R713). -/
theorem Hw.raiseOwner_notes (h : Hw) (t gen cause node detail : Nat) : ∃ x ∈ (h.raiseOwner t gen cause node detail).fault.notices,
    x.node = node ∧ (gen ≠ 0 → x.f0 = false ∧ x.tenant = t ∧ x.gen = gen ∧ x.cause = cause) ∧ (gen = 0 → x.f0 = true ∧ x.cause = 0x43) := by
  unfold Hw.raiseOwner
  by_cases die : gen = 0
  · rw [if_pos die]
    exact ⟨_, List.mem_append_right _ (List.mem_singleton_self _), rfl, fun owned => absurd die owned, fun _ => ⟨rfl, rfl⟩⟩
  · rw [if_neg die]
    exact ⟨_, List.mem_append_right _ (List.mem_singleton_self _), rfl, fun _ => ⟨rfl, rfl, rfl, rfl⟩, fun e => absurd e die⟩

/-- After the log and the mark, a late flit has its fault if it is the first of its flow and generation (R26, R270). -/
theorem Hw.bLate_eq (h : Hw) (n : Nat) (f : Flit) : h.bLate n f =
    (let g := h.lateMarked n f
     if g.bnet.lateSeen.contains (f.flow, f.gen) then g
     else { g with bnet := { g.bnet with lateSeen := g.bnet.lateSeen ++ [(f.flow, f.gen)] } }.raiseOwner f.tenant f.gen 1 n f.flow) := rfl

/-- The first late flit of its flow and generation is noted for the flow's owner. -/
theorem Hw.bLate_notes {h : Hw} {f : Flit} (n : Nat) (first : (f.flow, f.gen) ∉ h.bnet.lateSeen) : ∃ x ∈ (h.bLate n f).fault.notices,
    x.node = n ∧ (f.gen ≠ 0 → x.f0 = false ∧ x.tenant = f.tenant ∧ x.gen = f.gen ∧ x.cause = 1) ∧ (f.gen = 0 → x.f0 = true ∧ x.cause = 0x43) := by
  rw [← (Hw.lateMarked_keeps h n f).2, ← List.contains_iff_mem] at first
  rw [Hw.bLate_eq]
  dsimp only
  rw [if_neg first]
  exact Hw.raiseOwner_notes _ _ _ _ _ _

/-- A later one raises no fault. -/
theorem Hw.bLate_seen {h : Hw} {f : Flit} (n : Nat) (seen : (f.flow, f.gen) ∈ h.bnet.lateSeen) :
    (h.bLate n f).fault.notices = h.fault.notices := by
  obtain ⟨fault, bnet⟩ := Hw.lateMarked_keeps h n f
  rw [← bnet, ← List.contains_iff_mem] at seen
  rw [Hw.bLate_eq]
  dsimp only
  rw [if_pos seen, fault]

section
variable {h : Hw} {n : Nat} {f : Flit} (late : h.isLate f.deadline = true)
include late

/-- A late flit at the head of an input queue is dropped. -/
theorem Hw.flitLate_of_queue {port vc : Nat} (queue : port ≠ 5) (head : (h.bq n port vc).head? = some f) :
    h.flitLate n port vc = (h.bLate n f).bPop n port vc := by
  obtain ⟨rest, hq⟩ := List.head?_eq_some_iff.1 head
  unfold Hw.flitLate
  rw [if_neg queue, head]
  dsimp only
  rw [if_neg (by simp [late]), if_neg queue]
  unfold Hw.bClean
  rw [hq]
  dsimp only
  rw [if_pos late]

/-- A late flit at the head of a ring stream is dropped. -/
theorem Hw.flitLate_of_ring {flow : Nat} (head : h.foldHead n 0 flow = some f) : h.flitLate n 5 flow = (h.bLate n f).foldPop n 0 flow := by
  unfold Hw.flitLate
  rw [if_pos rfl, head]
  dsimp only
  rw [if_neg (by simp [late]), if_pos rfl]

end

end Sys2Proof.Machine

open Sys2Proof Sys2Proof.Machine

/-- Settles O25: the sink's checks and deliveries, and the drop of a late flit with its fault. -/
theorem flitsSunkOrLate : Obligations.FlitsSunkOrLate := by
  unfold Obligations.FlitsSunkOrLate
  refine ⟨fun s n running => ?_, fun s n f running late => ?_⟩
  · refine ⟨fun port vc f rest chosen head => ?_, fun f k slot => Hw.sinkCheck_of_slot slot, fun f absent => Hw.sinkCheck_of_noSlot absent⟩
    have served (ue : Bool) := (Hw.clocked_on (f := (·.sinkDeliver n.val ue)) running).trans (Hw.sinkDeliver_of_head ue chosen head)
    refine ⟨fun k passed => ?_, fun ue failed => ?_, fun k pg passed page => ?_⟩
    · have delivered := served false
      rw [passed] at delivered
      exact (completes_flitSinkDelivery n false s _).2 delivered
    · exact (completes_flitSinkDelivery n ue s _).2 ((served ue).trans (if_pos failed))
    · have poisoned := served true
      rw [passed, if_neg (not_not_intro rfl), if_pos rfl, Hw.sinkServed, page] at poisoned
      exact (completes_flitSinkDelivery n true s _).2 poisoned
  · refine ⟨fun port vc queue head => ?_, fun flow head => ?_, Hw.bLate_notes n.val, Hw.bLate_seen n.val⟩
    · exact (completes_flitLate n port vc s _).2 ((Hw.clocked_on running).trans (Hw.flitLate_of_queue late (Fin.val_ne_of_ne queue) head))
    · exact (completes_flitLate n 5 flow s _).2 ((Hw.clocked_on running).trans (Hw.flitLate_of_ring late head))

end

section
/-! The phase table (R261, R262), flow slots made valid or freed (R248, R250, R278, R285), and the obligation on both. -/

namespace Sys2Proof.Machine

/-! A field of a word that a mask merges into another. -/

/-- Inside the mask a field is the new word's. -/
theorem fld_merge_new (mask old new : Word) (lo len : Nat) (inside : fld mask lo len = 2 ^ len - 1) :
    fld (merge mask old new) lo len = fld new lo len := by
  apply Nat.eq_of_testBit_eq
  intro i
  have m : (decide (i < len) && mask.getLsbD (lo + i)) = decide (i < len) := by rw [← testBit_fld, inside, Nat.testBit_two_pow_sub_one]
  rw [testBit_fld, testBit_fld]
  by_cases hi : i < len
  · have one : mask.getLsbD (lo + i) = true := by simpa [hi] using m
    simp [merge, one]
  · simp [hi]

/-- Outside the mask a field is the old word's. -/
theorem fld_merge_old (mask old new : Word) (lo len : Nat) (outside : fld mask lo len = 0) :
    fld (merge mask old new) lo len = fld old lo len := by
  apply Nat.eq_of_testBit_eq
  intro i
  have m : (decide (i < len) && mask.getLsbD (lo + i)) = false := by rw [← testBit_fld, outside, Nat.zero_testBit]
  rw [testBit_fld, testBit_fld]
  by_cases hi : i < len
  · have zero : mask.getLsbD (lo + i) = false := by simpa [hi] using m
    have inWord : (old.getLsbD (lo + i) && decide (lo + i < 32)) = old.getLsbD (lo + i) := by
      by_cases hw : lo + i < 32
      · simp [hw]
      · simp [BitVec.getLsbD_of_ge old (lo + i) (Nat.le_of_not_lt hw)]
    simp [merge, zero, inWord, Bool.and_comm]
  · simp [hi]

/-! The phase table. -/

@[simp] theorem Hw.reg_setPhaseStage (h : Hw) (e v : Nat) (id : RegId) (i j : Nat) : (h.setPhaseStage e v).reg id i j = h.reg id i j := rfl

/-- The word of a phase-table entry that has taken its used and owner fields from a write of v (Table 6.9). -/
def phaseOwned (old v : Word) : Word := merge 0xBF000000#32 old (merge (RegId.desc .bnPhase).wmask old v)

theorem phaseOwned_active (old v : Word) : fld (phaseOwned old v) 8 8 = fld old 8 8 := fld_merge_old _ _ _ _ _ (by decide)

/-- The word of an entry whose switch a write of v begins: it has the new target, too, and the mark of a switch (R261). -/
def phaseWord (old v : Word) : Word := setBit (setFld (phaseOwned old v) 0 8 (fld v 0 8)) 16 true

theorem phaseWord_target (old v : Word) : fld (phaseWord old v) 0 8 = fld v 0 8 := by
  unfold phaseWord
  rw [fld_setBit_other _ _ _ _ _ (by decide), fld_setFld_fld _ _ _ _ _ (by decide)]

theorem phaseWord_active (old v : Word) : fld (phaseWord old v) 8 8 = fld old 8 8 := by
  unfold phaseWord
  rw [fld_setBit_other _ _ _ _ _ (by decide), fld_setFld_other _ _ _ _ _ _ (by decide), phaseOwned_active]

theorem phaseWord_switching (old v : Word) : bit (phaseWord old v) 16 = true := bit_setBit_same _ _ _ (by decide)

/-- A target that differs from the active phase starts the switch of an entry that has none under way (R261). -/
theorem Hw.phaseTarget_of_change {h : Hw} {e v : Nat} (idle : h.phaseStage e = 0)
    (differs : fld (h.reg .bnPhase anchorNode e) 8 8 ≠ v % 256) :
    h.phaseTarget e v = (h.setPhaseStage e (if h.bar.rest = 0 then 2 else 3)).setReg .bnPhase anchorNode e
      (setBit (setFld (h.reg .bnPhase anchorNode e) 0 8 v) 16 true) := by
  refine if_neg (not_or_intro (not_not_intro idle) ?_)
  rw [fld_setFld_other _ _ _ _ _ _ (by decide)]
  exact differs

/-- Entry e has taken its used and owner fields from path p's write of v. -/
def Hw.phaseAssigned (h : Hw) (p : Path) (e : Nat) (v : Word) : Hw :=
  (h.readied p).setReg .bnPhase anchorNode e (phaseOwned (h.reg .bnPhase anchorNode e) v)

/-- The switch of entry e begins with path p's write of v: the bar after the bar of the write is its gap bar (R261). -/
def Hw.phaseBegun (h : Hw) (p : Path) (e : Nat) (v : Word) : Hw :=
  ((h.phaseAssigned p e v).setPhaseStage e (if h.bar.rest = 0 then 2 else 3)).setReg .bnPhase anchorNode e
    (phaseWord (h.reg .bnPhase anchorNode e) v)

section
variable (h : Hw) (p : Path) (e : Nat) (v : Word)

theorem Hw.reg_phaseAssigned : (h.phaseAssigned p e v).reg .bnPhase anchorNode e = phaseOwned (h.reg .bnPhase anchorNode e) v :=
  (Hw.reg_setReg _ _ _ _ _ _ _ _).trans (if_pos ⟨rfl, rfl, rfl⟩)

theorem Hw.reg_phaseBegun_same : (h.phaseBegun p e v).reg .bnPhase anchorNode e = phaseWord (h.reg .bnPhase anchorNode e) v :=
  (Hw.reg_setReg _ _ _ _ _ _ _ _).trans (if_pos ⟨rfl, rfl, rfl⟩)

theorem Hw.reg_phaseBegun_other {id : RegId} {i j : Nat} (other : (id, i, j) ≠ (.bnPhase, anchorNode, e)) :
    (h.phaseBegun p e v).reg id i j = h.reg id i j := by
  have ne : ¬ (RegId.bnPhase = id ∧ anchorNode = i ∧ e = j) := by
    rintro ⟨rfl, rfl, rfl⟩
    exact other rfl
  unfold Hw.phaseBegun Hw.phaseAssigned
  rw [Hw.reg_setReg, if_neg ne, Hw.reg_setPhaseStage, Hw.reg_setReg, if_neg ne]
  rfl

theorem Hw.phaseStage_phaseBegun : (h.phaseBegun p e v).phaseStage e = if h.bar.rest = 0 then 2 else 3 :=
  (nget_nset _ _ _ _ _).trans (if_pos rfl)

theorem Hw.vault_phaseBegun : (h.phaseBegun p e v).vault = h.vault := rfl

end

/-- A write of such a target to an entry of the phase table begins the entry's switch. -/
theorem Hw.writeAt_phase {h : Hw} {p : Path} {e : Nat} {v : Word} (entry : e ≠ 0) (opened : h.writeOpen p ⟨.bnPhase, anchorNode, e⟩)
    (idle : h.phaseStage e = 0) (differs : fld (h.reg .bnPhase anchorNode e) 8 8 ≠ fld v 0 8) :
    h.writeAt p ⟨.bnPhase, anchorNode, e⟩ v = h.phaseBegun p e v := by
  have target : fld (merge (RegId.desc .bnPhase).wmask (h.reg .bnPhase anchorNode e) v) 0 8 = fld v 0 8 :=
    fld_merge_new _ _ _ _ _ (by decide)
  have small : fld v 0 8 % 256 = fld v 0 8 := Nat.mod_eq_of_lt (fld_lt v 0 8)
  have changes : fld ((h.phaseAssigned p e v).reg .bnPhase anchorNode e) 8 8 ≠ fld v 0 8 % 256 := by
    rwa [Hw.reg_phaseAssigned, phaseOwned_active, small]
  calc h.writeAt p ⟨.bnPhase, anchorNode, e⟩ v
    _ = (h.readied p).phaseRegWrite p _ ⟨.bnPhase, anchorNode, e⟩ _ := Hw.writeAt_open opened v
    _ = (h.phaseAssigned p e v).phaseTarget e (fld (merge (RegId.desc .bnPhase).wmask (h.reg .bnPhase anchorNode e) v) 0 8) := if_neg entry
    _ = (h.phaseAssigned p e v).phaseTarget e (fld v 0 8) := by rw [target]
    _ = h.phaseBegun p e v := by
      rw [Hw.phaseTarget_of_change (h := h.phaseAssigned p e v) idle changes, Hw.reg_phaseAssigned]
      rfl

/-- The end of an entry's gap bar completes its switch. -/
theorem Hw.phaseSwitch_of_gap {h : Hw} {e : Nat} (gap : h.phaseStage e = 1) :
    h.phaseSwitch e = (h.setPhaseStage e 0).modReg .bnPhase anchorNode e (fun w => setBit (setFld w 8 8 (fld w 0 8)) 16 false) :=
  if_neg (not_not_intro gap)

/-! Flow slots. -/

section
variable {h : Hw} {n k : Nat} {w : Word}

/-- Slot k, free before, is live with configuration w: its seq, tokens and flags are 0, and no flit of its flow has been late (R278). -/
def Hw.slotLive (h : Hw) (n k : Nat) (w : Word) : Hw :=
  let g := (h.setReg .bnFlowCfg n k w).setReg .bnFlowState n k 0#32
  { g with bnet := { g.bnet with linkSeq := serase g.bnet.linkSeq (n * 512 + k), sinkSeq := serase g.bnet.sinkSeq (n * 512 + k)
                                 lateSeen := g.bnet.lateSeen.filter (fun x => x.1 != fld w 0 13) } }

theorem Hw.flowCfgSet_of_new (free : bit (h.reg .bnFlowCfg n k) 13 = false) (valid : bit w 13 = true) :
    h.flowCfgSet n k w = h.slotLive n k w := by
  unfold Hw.flowCfgSet
  dsimp only
  rw [free, valid]
  rfl

theorem Hw.flowCfgSet_of_old (old : bit (h.reg .bnFlowCfg n k) 13 = true ∨ bit w 13 = false) :
    h.flowCfgSet n k w = h.setReg .bnFlowCfg n k w := by
  refine if_neg ?_
  rcases old with live | invalid
  · simp [live]
  · simp [invalid]

/-- A write of a slot's configuration sets a free slot's as written, of a live slot only its valid bit (R250). DEDUCED (log entry 31). -/
theorem Hw.writeAt_flowCfg {p : Path} {v : Word} (opened : h.writeOpen p ⟨.bnFlowCfg, n, k⟩) :
    let old := h.reg .bnFlowCfg n k
    let w := merge (RegId.desc .bnFlowCfg).wmask old v
    h.writeAt p ⟨.bnFlowCfg, n, k⟩ v = (h.readied p).flowCfgSet n k (if bit old 13 then setBit old 13 (bit w 13) else w) :=
  (Hw.writeAt_open opened v).trans (apply_ite ((h.readied p).flowCfgSet n k) _ _ _).symm

end

end Sys2Proof.Machine

open Sys2Proof Sys2Proof.Machine

/-- Settles O26: the start and the end of a phase switch, and what a write of BN_FLOW_CFG does to a free and to a live slot (of a live one by
log entry 31, DEDUCED). -/
theorem flowsAndPhases : Obligations.FlowsAndPhases := by
  unfold Obligations.FlowsAndPhases
  intro s
  refine ⟨?phaseTargetWrite, ?phaseSwitch, ?flowSlotEnable⟩
  case phaseTargetWrite =>
    intro p e v entry opened idle differs
    have nonzero : e.toNat ≠ 0 := fun z => entry (BitVec.eq_of_toNat_eq z)
    rw [completes_phaseTargetWrite, Hw.writeAt_phase nonzero opened idle differs, Hw.reg_phaseBegun_same]
    exact ⟨phaseWord_target _ v, phaseWord_active _ v, phaseWord_switching _ v, Hw.phaseStage_phaseBegun s.hw p _ v,
      fun _ _ _ other => Hw.reg_phaseBegun_other s.hw p _ v other, Hw.vault_phaseBegun s.hw p _ v⟩
  case phaseSwitch =>
    intro e running gap
    exact (completes_phaseSwitch e s _).2 ((Hw.clocked_on running).trans (Hw.phaseSwitch_of_gap gap))
  case flowSlotEnable =>
    intro p n k v opened old w key
    have written : s.hw.writeAt p ⟨.bnFlowCfg, n.val, k.toNat⟩ v =
        (s.hw.readied p).flowCfgSet n.val k.toNat (if bit old 13 then setBit old 13 (bit w 13) else w) := Hw.writeAt_flowCfg opened
    refine ⟨fun free valid => ?_, fun live => ?_, fun free invalid => ?_⟩
    · rw [if_neg (by simp [free])] at written
      exact (completes_flowSlotEnable p n k v s _).2 (written.trans (Hw.flowCfgSet_of_new free valid))
    · rw [if_pos live] at written
      exact (completes_flowSlotEnable p n k v s _).2 (written.trans (Hw.flowCfgSet_of_old (.inl live)))
    · rw [if_neg (by simp [free])] at written
      exact (completes_flowSlotEnable p n k v s _).2 (written.trans (Hw.flowCfgSet_of_old (.inr invalid)))

end

section
/-! Dequeues of a channel (R302, R303, R307, R309), channels made valid or cleared (R297, R301, R308, R323, R324), and the obligation on both. -/

namespace Sys2Proof.Machine

/-- Channel c is valid, and endpoint k of node n is its destination. -/
def Hw.chEndsAt (h : Hw) (c n k : Nat) : Prop := h.chValid c = true ∧ h.chDst c = (n, k)

/-- A packet that returns one credit of channel c to its source (R303). -/
def Hw.chCreditPkt (h : Hw) (c : Nat) : CPkt := mkCPkt ccCredit (h.chDst c).1 (h.chSrc c).1 (h.chTenant c) (h.chGen c) c 0 0

/-- The oldest message of channel c has left, and `rest` stay: the slot of node n is free (R307). -/
def Hw.chTaken (h : Hw) (n c : Nat) (rest : List (BitVec 512)) : Hw :=
  (({ h with cnet := { h.cnet with fifos := nset h.cnet.fifos c rest [] } } : Hw).chUpdate c (h.chOcc c - 1) (h.chCredits c)).modReg
    .chStore n 0 (fun w => setFld w 16 11 (fld w 16 11 - 1))

/-- The messages and the stalled sends of channel c are discarded (R324). -/
def Hw.chEmptied (h : Hw) (c : Nat) : Hw :=
  { h with cnet := { h.cnet with fifos := nset h.cnet.fifos c [] [], stalled := nset h.cnet.stalled c [] [] } }

section
variable {h : Hw} {n k c : Nat} {merge : Bool} {m : BitVec 512} {rest : List (BitVec 512)}

@[simp] theorem Hw.reg_chEmptied (id : RegId) (i j : Nat) : (h.chEmptied c).reg id i j = h.reg id i j := rfl

/-! Dequeues. -/

/-- A message that leaves changes no register but CH_STATUS and CH_STORE. -/
theorem Hw.reg_chTaken {id : RegId} (status : RegId.chStatus ≠ id) (store : RegId.chStore ≠ id) (i j : Nat) :
    (h.chTaken n c rest).reg id i j = h.reg id i j := by
  unfold Hw.chTaken Hw.chUpdate Hw.setChStatus
  rw [Hw.reg_modReg, if_neg (fun e => store e.1), Hw.reg_setReg, if_neg (fun e => status e.1)]
  rfl

theorem Hw.chCreditPkt_chTaken : (h.chTaken n c rest).chCreditPkt c = h.chCreditPkt c := by
  unfold Hw.chCreditPkt Hw.chDst Hw.chSrc Hw.chTenant Hw.chGen
  rw [Hw.reg_chTaken (id := .chEp) (by decide) (by decide), Hw.reg_chTaken (id := .chCfg) (by decide) (by decide)]

/-- At its destination, a channel's credit packet comes from the node of the dequeue. -/
theorem Hw.chCreditPkt_of_endsAt (here : h.chEndsAt c n k) :
    h.chCreditPkt c = mkCPkt ccCredit n (h.chSrc c).1 (h.chTenant c) (h.chGen c) c 0 0 := by
  unfold Hw.chCreditPkt
  rw [here.2]

/-- The credit travels in a packet of its own where it joins none, or where none of the channel is in the network (R303). -/
theorem Hw.chReturnCredit_of_alone (alone : merge = false ∨ h.cTake ccCredit c = none) :
    h.chReturnCredit c merge = h.cSend (h.chCreditPkt c) := by
  have noneTaken : (if merge then h.cTake ccCredit c else none) = none := by
    rcases alone with own | absent
    · rw [own]; rfl
    · rw [absent, ite_self]
  unfold Hw.chReturnCredit
  rw [noneTaken]
  rfl

/-- The credit joins the oldest credit packet of the channel, whose count has room for it (R303). -/
theorem Hw.chReturnCredit_of_joined {p : CPkt} {g : Hw} (taken : h.cTake ccCredit c = some (p, g)) (room : p.seq < 255) :
    h.chReturnCredit c true = g.cSend { p with tag := setFld p.tag 48 8 (p.seq + 1) } := by
  unfold Hw.chReturnCredit
  rw [if_pos rfl, taken]
  exact if_pos room

/-- At the channel's destination a dequeue takes the oldest message, and returns a credit (R302, R303, R307). -/
theorem Hw.chDequeue_of_message (here : h.chEndsAt c n k) (oldest : h.chFifo c = m :: rest) :
    h.chDequeue n k c merge = ((h.chTaken n c rest).chReturnCredit c merge, .message m) := by
  obtain ⟨valid, dst⟩ := here
  unfold Hw.chDequeue
  rw [if_neg (by simp [valid, dst]), oldest]
  rfl

/-- The dequeue's credit is in a packet of its own. -/
theorem Hw.chDequeue_of_alone (here : h.chEndsAt c n k) (oldest : h.chFifo c = m :: rest)
    (alone : merge = false ∨ (h.chTaken n c rest).cTake ccCredit c = none) : h.chDequeue n k c merge =
      ((h.chTaken n c rest).cSend (mkCPkt ccCredit n (h.chSrc c).1 (h.chTenant c) (h.chGen c) c 0 0), .message m) := by
  rw [Hw.chDequeue_of_message here oldest, Hw.chReturnCredit_of_alone alone, Hw.chCreditPkt_chTaken, Hw.chCreditPkt_of_endsAt here]

/-- The dequeue's credit is in a packet p that was in the network. -/
theorem Hw.chDequeue_of_joined {p : CPkt} {g : Hw} (here : h.chEndsAt c n k) (oldest : h.chFifo c = m :: rest)
    (taken : (h.chTaken n c rest).cTake ccCredit c = some (p, g)) (room : p.seq < 255) :
    h.chDequeue n k c true = (g.cSend { p with tag := setFld p.tag 48 8 (p.seq + 1) }, .message m) := by
  rw [Hw.chDequeue_of_message here oldest, Hw.chReturnCredit_of_joined taken room]

/-- An empty channel answers empty, and nothing changes (R309). -/
theorem Hw.chDequeue_of_empty (here : h.chEndsAt c n k) (empty : h.chFifo c = []) : h.chDequeue n k c merge = (h, .empty) := by
  obtain ⟨valid, dst⟩ := here
  unfold Hw.chDequeue
  rw [if_neg (by simp [valid, dst]), empty]

/-- At another endpoint, or of a channel that is not valid, a dequeue takes nothing. -/
theorem Hw.chDequeue_of_elsewhere (elsewhere : ¬ h.chEndsAt c n k) : h.chDequeue n k c merge = (h, .dropped) := by
  have other : h.chValid c = false ∨ h.chDst c ≠ (n, k) :=
    (Decidable.not_and_iff_not_or_not.1 elsewhere).imp_left eq_false_of_ne_true
  exact if_pos (by simpa using other)

/-- Where FCLK runs, the answer to the agent of a node with endpoints is that of its dequeue. -/
theorem Hw.agentDequeue_on {g : Hw} {r : AgentResp} (running : h.dieState ≠ 7) (ends : hasEndpoints n = true)
    (dequeued : h.chDequeue n k c merge = (g, r)) : h.clocked (·.agentDequeue n k c merge) = g.setResp n k r := by
  rw [Hw.clocked_on running]
  unfold Hw.agentDequeue
  rw [if_neg (by simp [ends]), dequeued]

/-! Channels made valid and cleared. -/

/-- Channel c has configuration w, sequence numbers of 0, and no message or stalled send; its credits equal its depth, and as many slots are
reserved at its destination (R301, R302, R308, R323). -/
def Hw.chOpened (h : Hw) (c : Nat) (w : Word) : Hw :=
  ((((h.setReg .chCfg c 0 w).setReg .chSeq c 0 0#32).chEmptied c).setChStatus c 0 (2 ^ fld w 8 4) false).modReg .chStore (h.chDst c).1 0
    (fun x => setFld x 0 11 (fld x 0 11 + 2 ^ fld w 8 4))

/-- The depth is that of the new configuration, and the destination that of CH_EP. -/
theorem Hw.chEnable_eq (h : Hw) (c : Nat) (w : Word) : h.chEnable c w = h.chOpened c w := by
  have depth : (((h.setReg .chCfg c 0 w).setReg .chSeq c 0 0#32).chEmptied c).chDepth c = 2 ^ fld w 8 4 := by simp [Hw.chDepth]
  have dst : (((h.setReg .chCfg c 0 w).setReg .chSeq c 0 0#32).chEmptied c).chDst c = h.chDst c := by simp [Hw.chDst]
  unfold Hw.chOpened
  rw [← depth, ← dst]
  rfl

/-- Channel c is not valid, it has no message or stalled send, and its slots are no longer reserved at its destination (R324). -/
def Hw.chClosed (h : Hw) (c : Nat) : Hw :=
  (((h.modReg .chCfg c 0 (setBit · 15 false)).chEmptied c).setReg .chStatus c 0 0x8000000#32).modReg .chStore (h.chDst c).1 0
    (fun x => setFld (setFld x 0 11 (fld x 0 11 - h.chDepth c)) 16 11 (fld x 16 11 - (h.chFifo c).length))

theorem Hw.chDisable_of_valid (valid : h.chValid c = true) : h.chDisable c = h.chClosed c := if_neg (by simp [valid])

/-- A configuration that a free channel can become valid with: its depth is 4 to 256, and if it blocks, its destination ranks above its source
(R297, R301). -/
structure Hw.ChLegal (h : Hw) (c : Nat) (w : Word) : Prop where
  depthLow : 2 ≤ fld w 8 4
  depthHigh : fld w 8 4 ≤ 8
  ranked : bit w 14 = true → h.rank (h.chSrc c) < h.rank (h.chDst c)

section
variable {w : Word} (p : Path) (addr : Nat)

/-- Valid set in a free channel's legal configuration makes the channel valid (R323). -/
theorem Hw.chRegWrite_of_legal (free : h.chValid c = false) (valid : bit w 15 = true) (legal : h.ChLegal c w) :
    h.chRegWrite p addr ⟨.chCfg, c, 0⟩ w = h.chOpened c w := by
  obtain ⟨low, high, ranked⟩ := legal
  have depthOk : ¬ (fld w 8 4 < 2 ∨ 8 < fld w 8 4) := by omega
  have rankOk : ¬ (bit w 14 && decide (h.rank (h.chDst c) ≤ h.rank (h.chSrc c))) = true := by simpa using ranked
  have invalid : ¬ bit (h.reg .chCfg c) 15 = true := ne_true_of_eq_false free
  unfold Hw.chRegWrite
  dsimp only
  rw [if_neg invalid, if_neg (by simp [valid]), if_neg depthOk, if_neg rankOk, Hw.chEnable_eq]

/-- Valid cleared, and no other field changed, clears a valid channel (R324). -/
theorem Hw.chRegWrite_of_cleared (valid : h.chValid c = true) (cleared : bit w 15 = false)
    (same : (h.reg .chCfg c ^^^ w) &&& 0xFFFF7FFF#32 = 0#32) : h.chRegWrite p addr ⟨.chCfg, c, 0⟩ w = h.chClosed c := by
  have live : bit (h.reg .chCfg c) 15 = true := valid
  unfold Hw.chRegWrite
  dsimp only
  rw [if_pos live, if_pos same, if_neg (by simp [cleared]), Hw.chDisable_of_valid valid]

end

end

end Sys2Proof.Machine

open Sys2Proof Sys2Proof.Machine

/-- Settles O28: what a dequeue answers and returns at the channel's destination and elsewhere, and a channel made valid or cleared. -/
theorem channelEnds : Obligations.ChannelEnds := by
  unfold Obligations.ChannelEnds
  refine ⟨fun s n k c merge running ends => ?dequeue, fun s p c v opened => ?cfgWrite⟩
  case dequeue =>
    intro ch here
    have completes {g : Hw} {r : AgentResp} (dequeued : s.hw.chDequeue n.val k.toNat ch merge = (g, r)) :
        Completes (.channelDequeue n k c merge) s (fun x => x = g.setResp n.val k.toNat r) :=
      (completes_channelDequeue n k c merge s _).2 (Hw.agentDequeue_on running ends dequeued)
    refine ⟨fun m rest atDst oldest => ⟨fun alone => ?_, fun p h joins found room => ?_⟩, fun atDst empty => ?_, fun elsewhere => ?_⟩
    · exact completes (Hw.chDequeue_of_alone atDst oldest alone)
    · subst joins
      exact completes (Hw.chDequeue_of_joined atDst oldest found room)
    · exact completes (Hw.chDequeue_of_empty atDst empty)
    · exact completes (Hw.chDequeue_of_elsewhere elsewhere)
  case cfgWrite =>
    intro ch h old mask on depth
    refine ⟨fun free valid low high ranked => ?_, fun valid => ?_⟩
    · exact (completes_channelEnable p c v s _).2
        ((Hw.writeAt_open opened _).trans (Hw.chRegWrite_of_legal (h := h) p _ free valid ⟨low, high, ranked⟩))
    · intro off cleared same
      exact (completes_channelDisable p c v s _).2
        ((Hw.writeAt_open opened _).trans (Hw.chRegWrite_of_cleared (h := h) p _ valid cleared same))

end

section
/-! Tile commands that are done as they are taken (R482, R483, R489 to R491, R506, R535), and the obligation on them. -/

namespace Sys2Proof.Machine

/-! What a port holds as a command is taken and answered. -/

/-- A port is what the port map holds. -/
theorem Hw.port_congr {g h : Hw} (e : g.ports = h.ports) (k : Nat) : g.port k = h.port k := by unfold Hw.port; rw [e]

/-- What observation keeps of a command is in registers alone (R823 to R826). -/
theorem Hw.ports_observeDone (h : Hw) (i : Nat) (c : TileCmd) (status len : Nat) : (h.observeDone i c status len).ports = h.ports := by
  unfold Hw.observeDone Hw.binDone Hw.record
  split
  · split
    · rfl
    · split <;> rfl
  · rfl

section
variable {h : Hw} {i op : Nat} {x : CmdHdr} {body : List (BitVec 64)} {lens masks : List Nat}

/-- A command that is taken joins the outstanding ones of its port, and changes nothing else there (R492). -/
theorem Hw.port_commandHeld (intact : x.err ≠ .uncorrectable) :
    (h.commandHeld i op x body).port i = { h.port i with cmds := (h.port i).cmds ++ [(h.commandIn i op x body).2] } := by
  have same : (h.commandIn i op x body).1.port i = h.port i :=
    Hw.port_congr (congrArg Prod.fst (Hw.tileFace_commandIn h i op x body intact)) i
  unfold Hw.commandHeld
  dsimp only
  rw [Hw.port_modPort, if_pos rfl, same]

/-- A command that is taken holds its tag (R492). -/
theorem Hw.cmd_commandHeld (o : h.commandOpen i x body lens masks) :
    ((h.commandHeld i op x body).port i).cmd x.tag.toNat = some (h.commandIn i op x body).2 := by
  obtain ⟨_, _, intact, free, _⟩ := o
  have own : (h.commandIn i op x body).2.tag = x.tag.toNat := rfl
  unfold TilePort.cmd at free ⊢
  rw [Hw.port_commandHeld intact]
  simp [free, own]

end

/-- The completion of a command that always completes, with a status that is no violation, is put last into the port's buffer (R482, R492). -/
theorem Hw.comps_finish_of_always {h : Hw} {i tag status : Nat} {c : TileCmd} (held : (h.port i).cmd tag = some c) (always : opAlways c.op = true)
    (fine : scViolates status = false) (body : List (BitVec 64)) (len : Nat) :
    ((h.finish i tag status body len).port i).comps = (h.port i).comps ++ [⟨some tag, compHeader c.op body.length tag status 0 :: body⟩] := by
  unfold Hw.finish Hw.respond
  rw [held]
  simp [always, fine, Hw.port_congr (Hw.ports_observeDone h i c status len)]

theorem Hw.comps_ciTake (h : Hw) (i n : Nat) : ((h.ciTake i n).port i).comps = (h.port i).comps := by
  unfold Hw.ciTake
  rw [Hw.port_modPort, if_pos rfl]
  split <;> rfl

/-! The commands. -/

section
variable {h : Hw} {i : Nat} {x : CmdHdr} {body : List (BitVec 64)}

/-- A command that has one length only takes as many credits as it has words (R463). -/
theorem Hw.accept_of_length {op k : Nat} {masks : List Nat} {go : Hw → Hw} {g : Hw} (o : h.commandOpen i x body [k] masks)
    (done : go (h.commandHeld i op x body) = g) : h.accept i op x body [k] masks go = g.ciTake i (k + 1) := by
  rw [Hw.accept_open o, done]
  obtain ⟨_, _, _, _, _, len, _⟩ := o
  rw [show body.length = k by simpa using len]

theorem Hw.cmdNop_open (o : h.commandOpen i x body [0] []) :
    h.cmdNop i x body = ((h.commandHeld i opNop x body).finish i x.tag.toNat 0 [] 0).ciTake i 1 := Hw.accept_of_length o rfl

/-- A NOP is answered with its tag and status 0 (R482). -/
theorem Hw.comps_cmdNop (o : h.commandOpen i x body [0] []) : ((h.cmdNop i x body).port i).comps =
    (h.port i).comps ++ [⟨some x.tag.toNat, [compHeader opNop 0 x.tag.toNat 0 0]⟩] := by
  have ⟨_, _, intact, _⟩ := o
  rw [Hw.cmdNop_open o, Hw.comps_ciTake, Hw.comps_finish_of_always (Hw.cmd_commandHeld o) rfl rfl, Hw.port_commandHeld intact]
  rfl

theorem Hw.cmdBellClear_open (o : h.commandOpen i x body [1] [0xFFFFFF]) :
    h.cmdBellClear i x body = (((h.commandHeld i opBellClear x body).clearBells (tileNode i) (fld (bodyWord body 1) 0 24)).finish i
      x.tag.toNat 0 [] 0).ciTake i 2 := Hw.accept_of_length o rfl

/-! JOB_DONE (R483, R704). -/

/-- Tile i of the active tenant t counts for its job, and has not said before that it is done. -/
structure Hw.NotYetDone (h : Hw) (i t : Nat) : Prop where
  owner : h.tileOwner i = some t
  active : h.active t = true
  counted : (h.job t).tileMask.testBit i = true
  waiting : (h.job t).doneSet.testBit i = false

/-- Tile i is done in the job of tenant t, which is done with its last tile. -/
def Hw.tileDone (h : Hw) (i t : Nat) : Hw :=
  let g := h.modJob t (fun j => { j with doneSet := j.doneSet + 2 ^ i })
  if (h.job t).doneSet + 2 ^ i = (h.job t).tileMask then g.modReg .tntState t 0 (setBit · 10 true) else g

theorem Hw.cmdJobDone_of_notYetDone {t : Nat} (o : h.commandOpen i x body [0] []) (waits : (h.commandHeld i opJobDone x body).NotYetDone i t) :
    h.cmdJobDone i x body = (((h.commandHeld i opJobDone x body).tileDone i t).finish i x.tag.toNat 0 [] 0).ciTake i 1 := by
  obtain ⟨owner, active, counted, waiting⟩ := waits
  refine Hw.accept_of_length o ?_
  dsimp only
  rw [owner]
  dsimp only
  rw [if_pos ⟨active, counted, by simp [waiting]⟩, Hw.job_modJob, if_pos rfl]
  rfl

theorem Hw.cmdJobDone_of_done (o : h.commandOpen i x body [0] []) (noneWaits : ∀ t, ¬ (h.commandHeld i opJobDone x body).NotYetDone i t) :
    h.cmdJobDone i x body = ((h.commandHeld i opJobDone x body).finish i x.tag.toNat 0 [] 0).ciTake i 1 := by
  refine Hw.accept_of_length o ?_
  dsimp only
  split
  · next t owner => rw [if_neg (fun e => noneWaits t ⟨owner, e.1, e.2.1, by simpa using e.2.2⟩)]
  · rfl

/-! PHASE (R490). -/

/-- Some live source slot's flow runs in phase v of entry e: a flow declares that phase (R490). -/
def Hw.phaseDeclared (h : Hw) (e v : Nat) : Bool :=
  h.regs.any (fun r => decide (r.1.id = RegId.bnFlowCfg) && bit r.2 13 && bit r.2 14 &&
    (fld (h.reg .bnFlowPhase r.1.i r.1.j) 0 12 == e && fld (h.reg .bnFlowPhase r.1.i r.1.j) 16 8 == v))

theorem Hw.cmdPhase_of_declared {e : Nat} (o : h.commandOpen i x body [1] [0xFFFF])
    (mapped : (h.commandHeld i opPhase x body).phaseOf i (fld (bodyWord body 1) 0 8) = some e)
    (declared : (h.commandHeld i opPhase x body).phaseDeclared e (fld (bodyWord body 1) 8 8) = true) :
    h.cmdPhase i x body = (((h.commandHeld i opPhase x body).phaseTarget e (fld (bodyWord body 1) 8 8)).finish i
      x.tag.toNat 0 [] 0).ciTake i 2 := by
  refine Hw.accept_of_length o ?_
  dsimp only
  rw [mapped]
  exact if_pos declared

theorem Hw.cmdPhase_of_undeclared (o : h.commandOpen i x body [1] [0xFFFF])
    (undeclared : ∀ e, (h.commandHeld i opPhase x body).phaseOf i (fld (bodyWord body 1) 0 8) = some e →
      (h.commandHeld i opPhase x body).phaseDeclared e (fld (bodyWord body 1) 8 8) = false) :
    h.cmdPhase i x body = ((h.commandHeld i opPhase x body).failCmd i x.tag.toNat scBadPhase).ciTake i 2 := by
  refine Hw.accept_of_length o ?_
  dsimp only
  split
  · rfl
  · next e mapped => exact if_neg (ne_true_of_eq_false (undeclared e mapped))

/-! COMPUTE_DONE (R489). -/

/-- The CCX of tag t that tile i's port holds and whose tail has not started (R489). -/
def Hw.heldTail (h : Hw) (i t : Nat) : Option CcxOp := (h.port i).ccx.find? (fun c => c.tag == t && c.phase == 0)

theorem Hw.cmdComputeDone_of_heldTail {c : CcxOp} (o : h.commandOpen i x body [1] [0xFFFF])
    (tail : (h.commandHeld i opComputeDone x body).heldTail i (fld (bodyWord body 1) 0 16) = some c) :
    h.cmdComputeDone i x body = (((h.commandHeld i opComputeDone x body).modCcx i c.id (fun c => { c with released := true })).finish i
      x.tag.toNat 0 [] 0).ciTake i 2 := by
  refine Hw.accept_of_length o ?_
  unfold Hw.heldTail at tail
  dsimp only
  rw [tail]

theorem Hw.cmdComputeDone_of_noTail (o : h.commandOpen i x body [1] [0xFFFF])
    (noTail : (h.commandHeld i opComputeDone x body).heldTail i (fld (bodyWord body 1) 0 16) = none) :
    h.cmdComputeDone i x body = ((h.commandHeld i opComputeDone x body).failCmd i x.tag.toNat scBadArg).ciTake i 2 := by
  refine Hw.accept_of_length o ?_
  unfold Hw.heldTail at noTail
  dsimp only
  rw [noTail]

/-! CNT_REPORT (R506). -/

/-- The tile's counters from `first` on have the reported values, and are marked as reported (R828, R829). -/
def Hw.countersTaken (h : Hw) (n first : Nat) (values : List (BitVec 64 × Nat)) : Hw :=
  values.foldl (fun (h : Hw) (v : BitVec 64 × Nat) =>
    ((h.setReg .pmcTcLo n (first + v.2) (v.1.setWidth 32)).setReg .pmcTcHi n (first + v.2) ((v.1 >>> 32).setWidth 32)).modReg .pmcTcStatus n 0
      (setBit · (first + v.2) true)) h

section
variable (o : h.commandOpen i x body [2, 3, 4, 5, 6, 7, 8, 9] [0xFF]) (count : fld (bodyWord body 1) 4 4 + 1 = body.length)
  (fits : fld (bodyWord body 1) 0 4 + fld (bodyWord body 1) 4 4 ≤ 16)
include o count fits

/-- A report of as many values as it says, of counters that there are, is taken in an open window only. -/
theorem Hw.cmdCntReport_open : h.cmdCntReport i x body =
    (let g := h.commandHeld i opCntReport x body
     if !bit (g.reg .tpCond (tileNode i)) 12 then g.finish i x.tag.toNat scNoWindow [] 0
     else (g.countersTaken (tileNode i) (fld (bodyWord body 1) 0 4) ((body.drop 1).zip (List.range (fld (bodyWord body 1) 4 4)))).finish i
       x.tag.toNat 0 [] 0).ciTake i (body.length + 1) := by
  refine (Hw.accept_open o _).trans (congrArg (Hw.ciTake · i (body.length + 1)) (if_neg ?_))
  obtain ⟨_, _, _, _, _, len, _⟩ := o
  have bounds : 2 ≤ body.length ∧ body.length ≤ 9 := by
    simp only [List.contains_iff_mem, List.mem_cons, List.not_mem_nil, or_false] at len
    omega
  omega

theorem Hw.cmdCntReport_of_window (window : bit ((h.commandHeld i opCntReport x body).reg .tpCond (tileNode i)) 12 = true) :
    h.cmdCntReport i x body = (((h.commandHeld i opCntReport x body).countersTaken (tileNode i) (fld (bodyWord body 1) 0 4)
      ((body.drop 1).zip (List.range (fld (bodyWord body 1) 4 4)))).finish i x.tag.toNat 0 [] 0).ciTake i (body.length + 1) := by
  rw [Hw.cmdCntReport_open o count fits]
  dsimp only
  rw [window]
  rfl

theorem Hw.cmdCntReport_of_noWindow (closed : bit ((h.commandHeld i opCntReport x body).reg .tpCond (tileNode i)) 12 = false) :
    h.cmdCntReport i x body = ((h.commandHeld i opCntReport x body).finish i x.tag.toNat scNoWindow [] 0).ciTake i (body.length + 1) := by
  rw [Hw.cmdCntReport_open o count fits]
  dsimp only
  rw [closed]
  rfl

end

/-! LEASE_FREE (R535, Table 12.4). -/

/-- What a free of a unit by tile i comes to, with its status, where `word` is the unit's lease: it must be held, not retired, and held by the
tile's tenant in its generation. -/
def Hw.freeOutcome (h : Hw) (i kind unit : Nat) (word : Word) (retired : Bool) (free : Hw) : Hw × Nat :=
  if !bit word 15 || retired then (h.freeError (h.tileTenant i) kind false unit, scNotHeld)
  else if heldBy word (h.tileTenant i) (h.tileGen i) then (free, 0) else (h.freeError (h.tileTenant i) kind true unit, scNotOwner)

section
variable {kind unit : Nat} {word : Word} {retired : Bool} {free : Hw}

theorem Hw.freeOutcome_of_notHeld (notHeld : bit word 15 = false ∨ retired = true) :
    h.freeOutcome i kind unit word retired free = (h.freeError (h.tileTenant i) kind false unit, scNotHeld) :=
  if_pos (by simpa using notHeld)

theorem Hw.freeOutcome_of_owner (held : bit word 15 = true) (sound : retired = false)
    (own : heldBy word (h.tileTenant i) (h.tileGen i) = true) : h.freeOutcome i kind unit word retired free = (free, 0) :=
  (if_neg (by simp [held, sound])).trans (if_pos own)

theorem Hw.freeOutcome_of_notOwner (held : bit word 15 = true) (sound : retired = false)
    (other : heldBy word (h.tileTenant i) (h.tileGen i) = false) :
    h.freeOutcome i kind unit word retired free = (h.freeError (h.tileTenant i) kind true unit, scNotOwner) :=
  (if_neg (by simp [held, sound])).trans (if_neg (ne_true_of_eq_false other))

end

theorem Hw.leaseFree_page {a : Nat} (low : a < slabEnd) (aligned : a % pageSize = 0) :
    let p := a / pageSize
    h.leaseFree i 0 a = h.freeOutcome i 0 p (h.reg .slbLease p) (h.pageRetired p) (h.freePage p) := if_pos ⟨rfl, low, aligned⟩

theorem Hw.leaseFree_unit {a u : Nat} (high : hbmBase ≤ a) (aligned : (a - hbmBase) % unitSize = 0)
    (known : (a - hbmBase) / unitSize < nget h.mem.units (h.tileTenant i) 0)
    (backed : h.slotUnit (h.tileTenant i) ((a - hbmBase) / unitSize) = some u) :
    h.leaseFree i 1 a = h.freeOutcome i 1 ((a - hbmBase) / unitSize) (h.reg .slbHlease u) (h.unitRetired u) (h.freeUnit u) := by
  unfold Hw.leaseFree Hw.freeOutcome
  simp [high, aligned, known, backed]

/-- A LEASE_FREE of an address that names a unit is answered with its status. -/
theorem Hw.cmdLeaseFree_of_outcome {g : Hw} {status : Nat} (o : h.commandOpen i x body [1] [2 ^ 49 - 1])
    (outcome : (h.commandHeld i opLeaseFree x body).leaseFree i (fld (bodyWord body 1) 48 1) (fld (bodyWord body 1) 0 48) = (g, status))
    (named : status ≠ scBadArg) : h.cmdLeaseFree i x body = (g.finish i x.tag.toNat status [] 0).ciTake i 2 := by
  refine Hw.accept_of_length o ?_
  dsimp only
  rw [outcome]
  exact if_neg named

end

end Sys2Proof.Machine

open Sys2Proof Sys2Proof.Machine

/-- Settles O34: how a command that is done as it is taken is answered. -/
theorem tileCommandsDone : Obligations.TileCommandsDone := by
  unfold Obligations.TileCommandsDone
  intro s i x body running n tag w held
  refine ⟨?nop, ?bellClear, ?jobDone, ?phase, ?computeDone, ?cntReport, ?leaseFree⟩
  case nop =>
    intro o
    rw [completes_nop, Hw.clocked_on running]
    exact ⟨Hw.cmdNop_open o, Hw.comps_cmdNop o⟩
  case bellClear =>
    intro o
    exact (completes_bellClear i x body s _).2 ((Hw.clocked_on running).trans (Hw.cmdBellClear_open o))
  case jobDone =>
    intro o h
    refine ⟨?_, fun done => ?_⟩
    · intro t owner active counted waiting h1
      exact (completes_jobDone i x body s _).2 ((Hw.clocked_on running).trans
        (Hw.cmdJobDone_of_notYetDone o ⟨owner, active, counted, waiting⟩))
    · have noneWaits (t : Nat) (e : h.NotYetDone i t) : False := by simpa [e.waiting] using done t e.owner e.active e.counted
      exact (completes_jobDone i x body s _).2 ((Hw.clocked_on running).trans (Hw.cmdJobDone_of_done o noneWaits))
  case phase =>
    intro o h declared
    refine ⟨fun e mapped isDeclared => ?_, fun undeclared => ?_⟩
    · exact (completes_phase i x body s _).2 ((Hw.clocked_on running).trans (Hw.cmdPhase_of_declared o mapped isDeclared))
    · exact (completes_phase i x body s _).2 ((Hw.clocked_on running).trans (Hw.cmdPhase_of_undeclared o undeclared))
  case computeDone =>
    intro o h
    refine ⟨fun c tail => ?_, fun noTail => ?_⟩
    · exact (completes_computeDone i x body s _).2 ((Hw.clocked_on running).trans (Hw.cmdComputeDone_of_heldTail o tail))
    · exact (completes_computeDone i x body s _).2 ((Hw.clocked_on running).trans (Hw.cmdComputeDone_of_noTail o noTail))
  case cntReport =>
    intro o count fits h
    refine ⟨fun window => ?_, fun closed => ?_⟩
    · exact (completes_cntReport i x body s _).2 ((Hw.clocked_on running).trans (Hw.cmdCntReport_of_window o count fits window))
    · exact (completes_cntReport i x body s _).2 ((Hw.clocked_on running).trans (Hw.cmdCntReport_of_noWindow o count fits closed))
  case leaseFree =>
    intro o h a t answer freed
    have frees {kind unit : Nat} {word : Word} {retired : Bool} {free : Hw}
        (outcome : h.leaseFree i (fld w 48 1) (fld w 0 48) = h.freeOutcome i kind unit word retired free) :
        freed kind unit word retired free := by
      have answers {g : Hw} {status : Nat} (ends : h.freeOutcome i kind unit word retired free = (g, status)) (named : status ≠ scBadArg) :
          Completes (.leaseFree i x body) s (fun y => y = answer g status) :=
        (completes_leaseFree i x body s _).2 ((Hw.clocked_on running).trans (Hw.cmdLeaseFree_of_outcome o (outcome.trans ends) named))
      refine ⟨fun notHeld => ?_, fun isHeld sound => ⟨fun own => ?_, fun other => ?_⟩⟩
      · exact answers (Hw.freeOutcome_of_notHeld notHeld) (by decide)
      · exact answers (Hw.freeOutcome_of_owner isHeld sound own) (by decide)
      · exact answers (Hw.freeOutcome_of_notOwner isHeld sound other) (by decide)
    refine ⟨?_, ?_⟩
    · intro page low aligned p
      exact frees (by rw [page]; exact Hw.leaseFree_page low aligned)
    · intro unit high aligned k u known backed
      exact frees (by rw [unit]; exact Hw.leaseFree_unit high aligned known backed)

end

section
/-! The states, handshakes and events of a tile port (R458, R459, R498, R500 to R505, R510, R512), and the obligation on them. -/

namespace Sys2Proof.Machine

section
variable {h : Hw} {i : Nat}

/-! Release and drain (R458, R459, R500 to R503). -/

/-- A launched port in RESET is released at a bar's start, once TCLK is in range and its reset has held (R458). -/
theorem Hw.portRelease_of_ready (launched : (h.port i).launch ≠ none) (reset : h.portState i = psReset)
    (inRange : bit (h.reg .nodeTclkMeas (tileNode i)) 16 = true) (noRest : h.bar.rest = 0) (barStart : h.bar.phase = 0)
    (heldLow : (h.port i).resetAt + 2400 ≤ h.now) :
    h.portRelease i = (h.setPortState i psActive).modPort i (fun p => { p with launch := none, ci := 32, leak := 0 }) :=
  if_pos (by simp [Option.isSome_iff_ne_none.2 launched, reset, inRange, noRest, barStart, heldLow])

/-- A launched port in RESET whose TCLK has not been in range for 4 bars gives up the launch and raises F1 (R459; the count by log entry 35,
DEDUCED). -/
theorem Hw.tclkStartTimeout_of_late {k : Nat} (launched : (h.port i).launch = some k) (late : 4 ≤ k) (reset : h.portState i = psReset)
    (outOfRange : bit (h.reg .nodeTclkMeas (tileNode i)) 16 = false) :
    h.tclkStartTimeout i = (h.modPort i (fun p => { p with launch := none })).tileF1 i 0x0a 0 :=
  if_pos (by simp [launched, late, reset, outOfRange])

/-- The partition that holds tile i's site is halted or in QUIESCE, so that its ports drain (R500). -/
def Hw.siteDrains (h : Hw) (i : Nat) : Bool := (h.tileOwner i).any (fun t => h.tntState t == tsQuiesce || h.tntState t == tsHalted)

/-- SB_DRAIN_REQ rises at an ACTIVE port of a draining partition (R500). -/
theorem Hw.drainDue_of_active (drains : h.siteDrains i = true) (active : h.portState i = psActive) : h.drainDue i =
    ((h.setPortState i psDraining).modReg .tpCond (tileNode i) 0 (setBit · 9 true)).modPort i (fun p => { p with drainBars := 0 }) :=
  (if_pos drains).trans (if_pos active)

/-- An acknowledge changes no port's state of itself. -/
theorem Hw.portState_ack (h : Hw) (i : Nat) (level : Bool) :
    (h.modReg .tpCond (tileNode i) 0 (setBit · 10 level)).portState i = h.portState i := by
  unfold Hw.portState
  rw [Hw.reg_modReg, if_pos ⟨rfl, rfl, rfl⟩, fld_setBit_other _ _ _ _ _ (by omega)]

/-- A fall of SB_DRAIN_REQ leaves the tile's acknowledge as it is. -/
theorem Hw.drainAck_kept (h : Hw) (i : Nat) :
    bit ((h.modReg .tpCond (tileNode i) 0 (setBit · 9 false)).reg .tpCond (tileNode i)) 10 = bit (h.reg .tpCond (tileNode i)) 10 := by
  rw [Hw.reg_modReg, if_pos ⟨rfl, rfl, rfl⟩, bit_setBit_other _ _ _ _ (by omega)]

/-- drain_bars bars after its request, a DRAINING port is DRAINED, and a violation counts (R501; the count by log entry 35,
DEDUCED). -/
theorem Hw.drainTimeout_of_late (draining : h.portState i = psDraining) (late : fld (h.reg .tpCfg (tileNode i)) 8 5 ≤ (h.port i).drainBars) :
    h.drainTimeout i = (h.setPortState i psDrained).violation i 0x25 0 0 := if_pos ⟨draining, late⟩

/-- The counter window closes with its last bar (R505). -/
theorem Hw.windowClose_of_last (window : bit (h.reg .tpCond (tileNode i)) 12 = true) (last : (h.port i).winBars = 0) :
    h.windowClose i = h.modReg .tpCond (tileNode i) 0 (setBit · 12 false) := if_pos ⟨window, last⟩

/-! Ports whose TP_RST_N is high. -/

section
variable (up : h.portUp i = true)
include up

/-- An acknowledge at the level of the request is taken: DRAINING becomes DRAINED, and with the acknowledge's fall the port is ACTIVE (R501,
R503). -/
theorem Hw.drainAck_of_match {level : Bool} (request : bit (h.reg .tpCond (tileNode i)) 9 = level) :
    h.drainAck i level =
      (let g := h.modReg .tpCond (tileNode i) 0 (setBit · 10 level)
       if level then (if h.portState i = psDraining then g.setPortState i psDrained else g)
       else if h.portState i = psActive then g else g.setPortState i psActive) := by
  unfold Hw.drainAck
  dsimp only
  rw [if_neg (by simp [up]), if_neg (not_not_intro request.symm), Hw.portState_ack]

theorem Hw.drainAck_of_draining (requested : bit (h.reg .tpCond (tileNode i)) 9 = true) (draining : h.portState i = psDraining) :
    h.drainAck i true = (h.modReg .tpCond (tileNode i) 0 (setBit · 10 true)).setPortState i psDrained :=
  (Hw.drainAck_of_match up requested).trans (if_pos draining)

theorem Hw.drainAck_of_released (released : bit (h.reg .tpCond (tileNode i)) 9 = false) (inactive : h.portState i ≠ psActive) :
    h.drainAck i false = (h.modReg .tpCond (tileNode i) 0 (setBit · 10 false)).setPortState i psActive :=
  (Hw.drainAck_of_match up released).trans (if_neg inactive)

/-- An acknowledge against the request is a violation, and is not taken (R498). -/
theorem Hw.drainAck_of_mismatch {level : Bool} (against : bit (h.reg .tpCond (tileNode i)) 9 ≠ level) :
    h.drainAck i level = h.violation i 0x24 0 0 := (if_neg (by simp [up])).trans (if_pos against.symm)

/-- SB_DRAIN_REQ falls where the partition drains no longer, and the port is ACTIVE at once if the tile does not acknowledge (R503). -/
theorem Hw.drainOver_of_request (runs : h.siteDrains i = false) (requested : bit (h.reg .tpCond (tileNode i)) 9 = true) : h.drainOver i =
    (let g := h.modReg .tpCond (tileNode i) 0 (setBit · 9 false)
     if bit (h.reg .tpCond (tileNode i)) 10 then g else g.setPortState i psActive) := by
  refine (if_neg (ne_true_of_eq_false runs)).trans ((if_pos (by rw [up, requested]; rfl)).trans ?_)
  rw [Hw.drainAck_kept]

/-- SB_FAULT shows its code and raises F1 with cause TILE; a request that falls early is a violation besides (R498, R504). -/
theorem Hw.tileFault_of_up (code : Nat) (early : Bool) : h.tileFault i code early =
    (let g := (h.modReg .tpCond (tileNode i) 0 (fun w => setBit (setFld w 24 8 code) 11 (!early))).tileF1 i 0x0b code
     if early then g.violation i 0x24 0 0 else g) := if_neg (by simp [up])

theorem Hw.handshake_of_up : h.handshake i = h.violation i 0x24 0 0 := if_pos up

/-- After leak_bars bars the violation count falls by 1 (R512). -/
theorem Hw.violLeak_of_due (leaks : fld (h.reg .tpViolLimit (tileNode i)) 16 8 ≠ 0)
    (due : fld (h.reg .tpViolLimit (tileNode i)) 16 8 ≤ (h.port i).leak) : h.violLeak i =
      (h.modReg .tpViolCnt (tileNode i) 0 (fun w => mkWord [(0, 16, fld w 0 16 - 1)])).modPort i
        (fun p => { p with leak := p.leak - fld (h.reg .tpViolLimit (tileNode i)) 16 8 }) :=
  if_pos (by simp [up, leaks, due])

end

end

end Sys2Proof.Machine

open Sys2Proof Sys2Proof.Machine

/-- Settles O42: a tile port's release, drain, handshakes, faults and violations (the counts of R459 and R501 by log entry 35, DEDUCED). -/
theorem tilePorts : Obligations.TilePorts := by
  unfold Obligations.TilePorts
  intro s i running h n p quiet
  refine ⟨?release, ?startTimeout, ?drainRequest, fun up => ⟨?drainAck, ?drainRelinquished, ?drainMismatch, ?drainRelease, ?tileFault, ?handshake,
    ?violLeak⟩, ?drainTimeout, ?windowClose⟩
  case release =>
    intro launched reset inRange noRest barStart heldLow
    exact (completes_portRelease i s _).2
      ((Hw.clocked_on running).trans (Hw.portRelease_of_ready launched reset inRange noRest barStart heldLow))
  case startTimeout =>
    intro k launched late reset outOfRange
    exact (completes_tclkStartTimeout i s _).2 ((Hw.clocked_on running).trans (Hw.tclkStartTimeout_of_late launched late reset outOfRange))
  case drainRequest =>
    intro drains active
    exact (completes_drainRequest i s _).2 ((Hw.clocked_on running).trans (Hw.drainDue_of_active drains active))
  case drainAck =>
    intro requested draining
    exact (completes_drainAck i true s _).2 ((Hw.clocked_on running).trans (Hw.drainAck_of_draining up requested draining))
  case drainRelinquished =>
    intro released inactive
    exact (completes_drainAck i false s _).2 ((Hw.clocked_on running).trans (Hw.drainAck_of_released up released inactive))
  case drainMismatch =>
    intro level against
    exact (completes_drainAck i level s _).2 ((Hw.clocked_on running).trans (Hw.drainAck_of_mismatch up against))
  case drainRelease =>
    intro runs requested
    exact (completes_drainRelease i s _).2 ((Hw.clocked_on running).trans (Hw.drainOver_of_request up runs requested))
  case tileFault =>
    intro code
    exact ⟨(completes_tileFault i code false s _).2 ((Hw.clocked_on running).trans (Hw.tileFault_of_up up code.toNat false)),
      (completes_tileFault i code true s _).2 ((Hw.clocked_on running).trans (Hw.tileFault_of_up up code.toNat true))⟩
  case handshake =>
    exact (completes_handshakeViolation i s _).2 ((Hw.clocked_on running).trans (Hw.handshake_of_up up))
  case violLeak =>
    intro k leaks due
    exact (completes_violLeak i s _).2 ((Hw.clocked_on running).trans (Hw.violLeak_of_due up leaks due))
  case drainTimeout =>
    intro draining late
    exact (completes_drainTimeout i s _).2 ((Hw.clocked_on running).trans (Hw.drainTimeout_of_late draining late))
  case windowClose =>
    intro window last
    exact (completes_cntWindowClose i s _).2 ((Hw.clocked_on running).trans (Hw.windowClose_of_last window last))

end

section
/-! An access of a memory path at the node that performs it (R524, R528, R533, R540, R542, R546), and the obligation on it. -/

namespace Sys2Proof.Machine

/-- Node n answers the access r (its number is id): the end of a write goes to its mover, a read's data over the first flow back (R540). -/
def Hw.memAnswer (h : Hw) (id : Nat) (r : MemReq) (n : Nat) (bs : Option (List Byte)) (poison : Bool) : Hw :=
  if r.write then (h.memDrop id).memReturn r bs poison else h.memReply r n bs poison

/-- Memory node n has sent an HBM command, repeated so many times for parity (Table 12.1). -/
def Hw.hbmCommanded (h : Hw) (n repeats : Nat) : Hw := (h.act n 6).modReg .memEccEvt n 0 (bumpFld · 16 8 repeats)

/-- A corrected error of a read at memory node n is counted and logged (R524). -/
def Hw.hbmCorrected (h : Hw) (n : Nat) (ce : Bool) : Hw := if ce then (h.modReg .memEccEvt n 0 (bumpFld · 0 16 1)).logF2 else h

/-- An uncorrectable error of a read at memory node n is counted, and raises F1 for the reader (R524). -/
def Hw.hbmUncorrectable (h : Hw) (r : MemReq) (n : Nat) (ue : Bool) : Hw :=
  if ue then (h.modReg .memEccEvt n 0 (bumpFld · 24 8 1)).raiseF1 r.tenant r.gen 9 n 0 else h

section
variable {h : Hw} {id : Nat} (data : List Byte) (repeats : Nat) (ok ce ue dead : Bool) {r : MemReq}
variable (found : h.mem.reqs.find? (fun r => r.id == id && r.ready && !r.done) = some r)
include found

/-- An access to a unit that its generation does not hold does nothing but return the refusal (R528). -/
theorem Hw.memPerform_of_refused (refused : h.holds r.tenant r.gen (h.memRef r.tenant r.addr) = false) :
    h.memPerform id data repeats ok ce ue dead =
      h.memAnswer id r ((holderNode (h.memRef r.tenant r.addr)).getD anchorNode) none false := by
  unfold Hw.memPerform
  rw [found]
  exact if_pos (by rw [refused]; rfl)

variable (held : h.holds r.tenant r.gen (h.memRef r.tenant r.addr) = true)
include held

/-- An access to HBM sends its command: a pair that stays in error fails, a write is done, and a read returns its bytes, poisoned where they are
uncorrectable (R524, R533, R546). -/
theorem Hw.memPerform_of_hbm {a : Nat} (hbm : h.memRef r.tenant r.addr = .hbm a) :
    let n := (holderNode (h.memRef r.tenant r.addr)).getD anchorNode
    let g := h.hbmCommanded n repeats
    h.memPerform id data repeats ok ce ue dead =
      if dead then (g.pairFail (a / unitSize / 512) 0x46).memAnswer id r n (some []) (!r.write)
      else if r.write then (g.hbmWrite a ((payloadBytes r.data).take r.len)).memAnswer id r n (some []) false
      else
        let k := (g.hbmCorrected n ce).hbmUncorrectable r n ue
        k.memAnswer id r n (some (k.hbmRead a r.len)) ue := by
  unfold Hw.memPerform
  rw [found]
  dsimp only
  rw [if_neg (by simp [held])]
  generalize (holderNode (h.memRef r.tenant r.addr)).getD anchorNode = n
  rw [hbm]
  rfl

/-- An access to a window raises F1 with cause SPILL_WINDOW where the window cannot be used or the request fails; else a write goes out to
host memory, and a read returns what host memory holds (R542). -/
theorem Hw.memPerform_of_window {k off : Nat} (window : h.memRef r.tenant r.addr = .window k off) :
    let n := (holderNode (h.memRef r.tenant r.addr)).getD anchorNode
    h.memPerform id data repeats ok ce ue dead =
      if !h.windowOk r.tenant k || !ok then (h.raiseF1 r.tenant r.gen 0x0d hostNode 0).memAnswer id r n (some []) (!r.write)
      else if r.write then
        let w := ((h.jobWindows r.tenant)[k]?).getD (0, 0, 0)
        let x : HostWrite := ⟨r.tenant + 1, w.2.1 * pageSize + off, (payloadBytes r.data).take r.len⟩
        Hw.memAnswer { h with host := { h.host with out := h.host.out ++ [x] } } id r n (some []) false
      else h.memAnswer id r n (some ((data ++ List.replicate r.len 0#8).take r.len)) false := by
  unfold Hw.memPerform
  rw [found]
  dsimp only
  rw [if_neg (by simp [held])]
  generalize (holderNode (h.memRef r.tenant r.addr)).getD anchorNode = n
  rw [window]
  rfl

end

end Sys2Proof.Machine

open Sys2Proof Sys2Proof.Machine

/-- Settles O44: how an access to HBM or to a host window is done and answered at its performing node. -/
theorem memoryPathAccesses : Obligations.MemoryPathAccesses := by
  unfold Obligations.MemoryPathAccesses
  intro s id data repeats ok ce ue dead r running found h ref holder answer does
  have performs {x : Hw} (e : h.memPerform id data repeats.toNat ok ce ue dead = x) : does x :=
    (completes_memoryPathAccess id data repeats ok ce ue dead s _).2 ((Hw.clocked_on running).trans e)
  refine ⟨fun refused => performs (Hw.memPerform_of_refused data repeats.toNat ok ce ue dead found refused), ?hbm, ?window⟩
  case hbm =>
    intro a held hbm h1
    have access := Hw.memPerform_of_hbm data repeats.toNat ok ce ue dead found held hbm
    refine ⟨fun fails => ?_, fun lives write => ?_, fun lives read => ?_⟩
    · exact performs (access.trans (if_pos fails))
    · exact performs (access.trans ((if_neg (ne_true_of_eq_false lives)).trans (if_pos write)))
    · exact performs (access.trans ((if_neg (ne_true_of_eq_false lives)).trans (if_neg (ne_true_of_eq_false read))))
  case window =>
    intro k off held window
    have access := Hw.memPerform_of_window data repeats.toNat ok ce ue dead found held window
    have goes (usable : h.windowOk r.tenant k = true) (done : ok = true) : ¬ (!h.windowOk r.tenant k || !ok) = true := by
      simp [usable, done]
    refine ⟨fun fails => ?_, fun usable done read => ?_, fun w usable done write captured => ?_⟩
    · exact performs (access.trans (if_pos (by simpa using fails)))
    · exact performs (access.trans ((if_neg (goes usable done)).trans (if_neg (ne_true_of_eq_false read))))
    · have written := access.trans ((if_neg (goes usable done)).trans (if_pos write))
      rw [captured] at written
      exact performs written

end

section
/-! Host accesses through BAR2 (R519, R666 to R669), writes of window registers (R685 to R687), the host relay (R688), and the obligation on
them. -/

namespace Sys2Proof.Machine

/-! Bytes that are written under byte enables (R669). -/

theorem length_enabled (old : List Byte) (data : List (Option Byte)) : (enabled old data).length = min old.length data.length := by
  simp [enabled]

/-- A byte of the result is the written one where it is enabled, else the old one. -/
theorem byteAt_enabled {old : List Byte} {data : List (Option Byte)} {k : Nat} (same : old.length = data.length) (inside : k < data.length) :
    byteAt (enabled old data) k = ((data[k]?).bind id).getD (byteAt old k) := by
  have insideOld : k < old.length := same ▸ inside
  have zipped : (old.zip data)[k]? = some (old[k], data[k]) :=
    List.getElem?_zip_eq_some.2 ⟨List.getElem?_eq_getElem insideOld, List.getElem?_eq_getElem inside⟩
  simp only [byteAt, enabled, List.getD_eq_getElem?_getD, List.getElem?_map, zipped, List.getElem?_eq_getElem insideOld,
    List.getElem?_eq_getElem inside]
  rfl

theorem byteAt_memRead {d : Byte} {m : List Host.Cell} {a len k : Nat} (inside : k < len) : byteAt (memRead d m a len) k = memByte d m (a + k) := by
  simp [byteAt, memRead, inside]

/-- After such a write of a byte memory each byte is the written one where it is enabled, else the old one. -/
theorem memByte_memWrite_enabled (d : Byte) (m : List Host.Cell) (a : Nat) (data : List (Option Byte)) (b : Nat) :
    memByte d (memWrite d m a (enabled (memRead d m a data.length) data)) b =
      if a ≤ b ∧ b < a + data.length then ((data[b - a]?).bind id).getD (memByte d m b) else memByte d m b := by
  have length : (memRead d m a data.length).length = data.length := by simp [memRead]
  rw [memByte_memWrite, length_enabled, length, Nat.min_self]
  refine ite_congr rfl (fun inside => ?_) (fun _ => rfl)
  obtain ⟨low, high⟩ := inside
  have offset : b - a < data.length := by omega
  rw [byteAt_enabled length offset, byteAt_memRead offset, Nat.add_sub_cancel' low]

/-! BAR2 (R666 to R669). -/

/-- h with the finding of the check bits on a read of slab page p counted (R519, R520). -/
def Hw.slabFound (h : Hw) (p : Nat) : PadErr → Hw
  | .ok => h
  | .corrected => h.slabCe p
  | .uncorrectable => h.slabUe p

section
variable {h : Hw} {t off len : Nat} {err : PadErr}

/-- While the VFs do not answer, a read returns all ones (R95, R658). -/
theorem Hw.bar2Read_of_silent (silent : h.vfAnswers = false) : h.bar2Read t off len err = h.bar2Give (List.replicate len 0xFF#8) false :=
  if_pos (by simp [silent])

/-- A read of what Table 15.3 does not name returns all ones. -/
theorem Hw.bar2Read_of_none (target : bar2Target off len = .none) :
    h.bar2Read t off len err = h.bar2Give (List.replicate len 0xFF#8) false := by
  unfold Hw.bar2Read
  rw [target]
  exact ite_self _

variable (answers : h.vfAnswers = true)
include answers

/-- A read of the VF's MSI-X table or PBA returns its bytes. -/
theorem Hw.bar2Read_of_msix {o : Nat} (target : bar2Target off len = .table o ∨ bar2Target off len = .pba o) :
    h.bar2Read t off len err = h.bar2Give (h.msixBytes (t + 1) o len) false := by
  unfold Hw.bar2Read
  rw [if_neg (by simp [answers])]
  rcases target with table | pba
  · rw [table]
  · rw [pba]

variable {a : Nat} (target : bar2Target off len = .tenant a)
include target

/-- A refused read returns zeros, and is counted (R667). -/
theorem Hw.bar2Read_of_refused (refused : h.bar2Ok t (h.memRef t a) = false) :
    h.bar2Read t off len err = (h.bar2Refuse t).bar2Give (List.replicate len 0#8) false := by
  unfold Hw.bar2Read
  rw [if_neg (by simp [answers]), target]
  exact if_pos (by simp [refused])

variable (ok : h.bar2Ok t (h.memRef t a) = true) {x : Nat}
include ok

/-- A read of the slab returns its bytes, poisoned where they are uncorrectable (R519, R520). -/
theorem Hw.bar2Read_of_slab (slab : h.memRef t a = .slab x) :
    h.bar2Read t off len err = (h.slabFound (x / pageSize) err).bar2Give (h.slabRead x len) (err == .uncorrectable) := by
  unfold Hw.bar2Read
  rw [if_neg (by simp [answers]), target]
  dsimp only
  rw [if_neg (by simp [ok]), slab]
  cases err <;> rfl

/-- A read of HBM without an error returns its bytes. -/
theorem Hw.bar2Read_of_hbm (hbm : h.memRef t a = .hbm x) : h.bar2Read t off len .ok = h.bar2Give (h.hbmRead x len) false := by
  unfold Hw.bar2Read
  rw [if_neg (by simp [answers]), target]
  dsimp only
  rw [if_neg (by simp [ok]), hbm]

end

section
variable {h : Hw} {t off : Nat} {data : List (Option Byte)}

/-- A write that no VF answers, or of what Table 15.3 does not name, does nothing. -/
theorem Hw.bar2Write_of_dropped (dropped : h.vfAnswers = false ∨ bar2Target off data.length = .none) : h.bar2Write t off data = h := by
  unfold Hw.bar2Write
  rcases dropped with silent | absent
  · exact if_pos (by simp [silent])
  · rw [absent]
    exact ite_self _

variable (answers : h.vfAnswers = true)
include answers

/-- The PBA is read only. -/
theorem Hw.bar2Write_of_pba {o : Nat} (target : bar2Target off data.length = .pba o) : h.bar2Write t off data = h := by
  unfold Hw.bar2Write
  rw [if_neg (by simp [answers]), target]

theorem Hw.bar2Write_of_table {o : Nat} (target : bar2Target off data.length = .table o) :
    h.bar2Write t off data = h.msixPutBytes (t + 1) o data := by
  unfold Hw.bar2Write
  rw [if_neg (by simp [answers]), target]

variable {a : Nat} (target : bar2Target off data.length = .tenant a)
include target

/-- A refused write is counted, and does nothing else (R667). -/
theorem Hw.bar2Write_of_refused (refused : h.bar2Ok t (h.memRef t a) = false) : h.bar2Write t off data = h.bar2Refuse t := by
  unfold Hw.bar2Write
  rw [if_neg (by simp [answers]), target]
  exact if_pos (by simp [refused])

variable (ok : h.bar2Ok t (h.memRef t a) = true) {x : Nat}
include ok

theorem Hw.bar2Write_of_slab (slab : h.memRef t a = .slab x) :
    h.bar2Write t off data = h.slabWrite x (enabled (h.slabRead x data.length) data) := by
  unfold Hw.bar2Write
  rw [if_neg (by simp [answers]), target]
  dsimp only
  rw [if_neg (by simp [ok]), slab]

theorem Hw.bar2Write_of_hbm (hbm : h.memRef t a = .hbm x) :
    h.bar2Write t off data = h.hbmWrite x (enabled (h.hbmRead x data.length) data) := by
  unfold Hw.bar2Write
  rw [if_neg (by simp [answers]), target]
  dsimp only
  rw [if_neg (by simp [ok]), hbm]

end

/-! Window registers (R685 to R687). -/

/-- The registers of tenant t's window slot w: the two words of its base, and its size. -/
def Hw.winState (h : Hw) (t w : Nat) : Word × Word × Word := (h.reg .hstWinBaseLo t w, h.reg .hstWinBaseHi t w, h.reg .hstWinSize t w)

/-- Window slot w of tenant t is withdrawn, which its VF hears of (R686). -/
def Hw.winWithdrawn (h : Hw) (t w : Nat) : Hw := (h.modReg .hstWinStatus t w (setBit · 1 true)).modReg .hstVfEvt t 0 (setBit · 4 true)

/-- h after a write has left g, where it withdraws the window that it changes while the window is in use (R686). -/
def Hw.winChanged (h g : Hw) (t w : Nat) : Hw :=
  if g.winState t w ≠ h.winState t w ∧ bit (h.reg .hstWinStatus t w) 0 = true then g.winWithdrawn t w else g

section
variable {h : Hw} (p : Path) (addr : Nat) {t w : Nat} (v : Word)

/-- A registered window's size does not become 0 (R685). -/
theorem Hw.winWrite_of_emptied (registered : bit (h.reg .hstWinBaseLo t w) 0 = true)
    (empty : merge (RegId.desc .hstWinSize).wmask (h.reg .hstWinSize t w) v = 0#32) :
    h.winWrite p addr 0 ⟨.hstWinSize, t, w⟩ v = h.misuse p true 9 addr := if_pos ⟨rfl, registered, empty⟩

/-- Any other write of a window register is that of chapter 5, and withdraws the window that it changes while it is in use. -/
theorem Hw.winWrite_of_taken {id : RegId} (taken : id = .hstWinSize → bit (h.reg .hstWinBaseLo t w) 0 = false ∨
      merge (RegId.desc .hstWinSize).wmask (h.reg .hstWinSize t w) v ≠ 0#32) :
    h.winWrite p addr 0 ⟨id, t, w⟩ v = h.winChanged (h.plainWrite p addr 0 ⟨id, t, w⟩ v) t w := by
  have notEmptied : ¬ (id = .hstWinSize ∧ bit (h.reg .hstWinBaseLo t w) 0 = true ∧
      merge (RegId.desc .hstWinSize).wmask (h.reg .hstWinSize t w) v = 0#32) := by
    rintro ⟨size, registered, empty⟩
    rcases taken size with unregistered | kept
    · simp [registered] at unregistered
    · exact kept empty
  refine (if_neg notEmptied).trans (ite_congr (propext ?_) (fun _ => rfl) (fun _ => rfl))
  simp [Hw.winState]

/-- The low word of a window's base takes the held high word along (R203). -/
theorem Hw.winWrite_baseLo :
    let lo := merge (RegId.desc .hstWinBaseLo).wmask (h.reg .hstWinBaseLo t w) v
    let hi := sget (h.path p).hold ⟨.hstWinBaseHi, t, w⟩ 0#32
    let b := (h.setReg .hstWinBaseLo t w lo).setReg .hstWinBaseHi t w hi
    h.winWrite p addr 0 ⟨.hstWinBaseLo, t, w⟩ v =
      if (lo ≠ h.reg .hstWinBaseLo t w ∨ hi ≠ h.reg .hstWinBaseHi t w) ∧ bit (h.reg .hstWinStatus t w) 0 = true then b.winWithdrawn t w
      else b := by
  intro lo hi b
  have base : b.winState t w = (lo, hi, h.reg .hstWinSize t w) := by simp [Hw.winState, b]
  have written : h.plainWrite p addr 0 ⟨.hstWinBaseLo, t, w⟩ v = b := Hw.plainWrite_lo p addr v rfl rfl
  rw [Hw.winWrite_of_taken p addr v (fun size => absurd size (by decide : RegId.hstWinBaseLo ≠ .hstWinSize)), written, Hw.winChanged, base]
  refine ite_congr (propext (and_congr_left fun _ => ?_)) (fun _ => rfl) (fun _ => rfl)
  simp only [Hw.winState, ne_eq, Prod.mk.injEq, and_true, Decidable.not_and_iff_not_or_not]

/-- The high word of a window's base is held for its path (R203). -/
theorem Hw.winWrite_baseHi : h.winWrite p addr 0 ⟨.hstWinBaseHi, t, w⟩ v =
    h.setPath p { h.path p with hold := sset Reg.lt (h.path p).hold ⟨.hstWinBaseHi, t, w⟩ v 0#32 } := by
  have written := Hw.plainWrite_hi (h := h) (r := ⟨.hstWinBaseHi, t, w⟩) p addr v rfl
  have whole : v &&& (RegId.desc .hstWinBaseHi).wmask = v := BitVec.and_allOnes
  rw [whole] at written
  rw [Hw.winWrite_of_taken p addr v (fun size => absurd size (by decide : RegId.hstWinBaseHi ≠ .hstWinSize)), written]
  exact if_neg (fun changed => changed.1 rfl)

/-- A window takes another size where that is not 0 or the window is not registered. -/
theorem Hw.winWrite_size
    (taken : bit (h.reg .hstWinBaseLo t w) 0 = false ∨ merge (RegId.desc .hstWinSize).wmask (h.reg .hstWinSize t w) v ≠ 0#32) :
    let size := merge (RegId.desc .hstWinSize).wmask (h.reg .hstWinSize t w) v
    let b := h.setReg .hstWinSize t w size
    h.winWrite p addr 0 ⟨.hstWinSize, t, w⟩ v =
      if size ≠ h.reg .hstWinSize t w ∧ bit (h.reg .hstWinStatus t w) 0 = true then b.winWithdrawn t w else b := by
  intro size b
  have sized : b.winState t w = (h.reg .hstWinBaseLo t w, h.reg .hstWinBaseHi t w, size) := by simp [Hw.winState, b]
  have written : h.plainWrite p addr 0 ⟨.hstWinSize, t, w⟩ v = b := Hw.plainWrite_of_free p addr v (.inr rfl) (BitVec.and_zero)
  rw [Hw.winWrite_of_taken p addr v (fun _ => taken), written, Hw.winChanged, sized]
  refine ite_congr (propext (and_congr_left fun _ => ?_)) (fun _ => rfl) (fun _ => rfl)
  simp only [Hw.winState, ne_eq, Prod.mk.injEq, true_and]

end

/-! The host relay (R688). -/

/-- The relay has taken up its requested send. -/
def Hw.relayTxTaken (h : Hw) : Hw := { h with host := { h.host with relayTx := none } }

/-- The relay has taken up its requested dequeue. -/
def Hw.relayRxTaken (h : Hw) : Hw := { h with host := { h.host with relayRx := none } }

/-- The relay's send on channel c, from the channel's endpoint at the H node. -/
def Hw.relaySent (h : Hw) (c : Nat) : Hw × SendResult := h.chSend hostNode (h.chSrc c).2 none c h.relayMessage (some (relayMark, 0))

/-- HST_RELAY_STATUS shows what a send has come to; a stalled one keeps the relay busy (R305). -/
def Hw.relaySendShown (h : Hw) : SendResult → Hw
  | .accepted => h.relayStatus false 0 false
  | .full => h.relayStatus false 0x05 false
  | .dropped _ => h.relayStatus false 0x19 false
  | .stalled => h

/-- HST_RELAY_RX holds message m (R688). -/
def Hw.relayRxFilled (h : Hw) (m : BitVec 512) : Hw :=
  (List.range 16).foldl (fun h k => h.setReg .hstRelayRx k 0 (BitVec.ofNat 32 (m.toNat / 2 ^ (32 * k)))) h

/-- The relay's dequeue from channel c, at the channel's endpoint at the H node. -/
def Hw.relayDequeued (h : Hw) (c : Nat) (merge : Bool) : Hw × AgentResp := h.chDequeue hostNode (h.chDst c).2 c merge

/-- HST_RELAY_STATUS shows what a dequeue has come to, and HST_RELAY_RX its message. -/
def Hw.relayDequeueShown (h : Hw) : AgentResp → Hw
  | .message m => (h.relayRxFilled m).relayStatus true 0 false
  | .empty => h.relayStatus true 0x04 false
  | _ => h.relayStatus true 0x19 false

section
variable {h : Hw} {c : Nat}

/-- A requested send is refused on a channel that is not valid or does not begin at the H node; else its status shows its result. -/
theorem Hw.relaySend_of_request (request : h.host.relayTx = some c) :
    h.relaySend =
      if !h.relayTxTaken.chValid c || (h.relayTxTaken.chSrc c).1 != hostNode then h.relayTxTaken.relayStatus false 0x19 false
      else (h.relayTxTaken.relaySent c).1.relaySendShown (h.relayTxTaken.relaySent c).2 := by
  unfold Hw.relaySend
  rw [request]
  refine ite_congr rfl (fun _ => rfl) (fun _ => ?_)
  change (match h.relayTxTaken.relaySent c with | (g, .accepted) => _ | (g, .full) => _ | (g, .dropped _) => _ | (g, .stalled) => _) = _
  obtain ⟨g, result⟩ := h.relayTxTaken.relaySent c
  cases result <;> rfl

/-- A send on another channel shows cause 0x19. -/
theorem Hw.relaySend_of_refused (request : h.host.relayTx = some c)
    (refused : h.relayTxTaken.chValid c = false ∨ (h.relayTxTaken.chSrc c).1 ≠ hostNode) :
    h.relaySend = h.relayTxTaken.relayStatus false 0x19 false :=
  (Hw.relaySend_of_request request).trans (if_pos (by simpa using refused))

/-- A send on an H-sourced channel shows its result. -/
theorem Hw.relaySend_of_sent {result : SendResult} (request : h.host.relayTx = some c) (valid : h.relayTxTaken.chValid c = true)
    (source : (h.relayTxTaken.chSrc c).1 = hostNode) (sent : (h.relayTxTaken.relaySent c).2 = result) :
    h.relaySend = (h.relayTxTaken.relaySent c).1.relaySendShown result := by
  rw [Hw.relaySend_of_request request, if_neg (by simp [valid, source]), sent]

/-- Words that are set one after the other read as they were set. -/
theorem Hw.reg_foldl_setReg (id : RegId) (f : Nat → Word) (n k : Nat) :
    ((List.range n).foldl (fun h i => h.setReg id i 0 (f i)) h).reg id k 0 = if k < n then f k else h.reg id k 0 := by
  induction n with
  | zero => simp
  | succ n ih =>
    rw [List.range_succ, List.foldl_append, List.foldl_cons, List.foldl_nil, Hw.reg_setReg, ih]
    by_cases last : n = k
    · simp [last]
    · have upTo : k < n + 1 ↔ k < n := by omega
      simp [last, upTo]

/-- The status of a dequeue is another register than the message. -/
theorem Hw.reg_relayStatus_of_rx (code : Nat) (busy : Bool) (k : Nat) : (h.relayStatus true code busy).reg .hstRelayRx k = h.reg .hstRelayRx k := by
  simp [Hw.relayStatus]

/-- The status of a dequeue shows its code, and whether the relay is busy with it. -/
theorem Hw.relayStatus_rx (code : Nat) (busy : Bool) :
    fld ((h.relayStatus true code busy).reg .hstRelayStatus) 16 8 = code % 256 ∧
    bit ((h.relayStatus true code busy).reg .hstRelayStatus) 24 = busy := by
  unfold Hw.relayStatus
  rw [Hw.reg_modReg, if_pos ⟨rfl, rfl, rfl⟩]
  exact ⟨(fld_setBit_other _ _ _ _ _ (by decide)).trans (fld_setFld_same _ _ _ _ (by decide)), bit_setBit_same _ _ _ (by decide)⟩

/-- The message of a dequeue reads in HST_RELAY_RX, word by word, and its status is 0. -/
theorem Hw.relayDequeueShown_message (m : BitVec 512) :
    (∀ k, k < 16 → (h.relayDequeueShown (.message m)).reg .hstRelayRx k = BitVec.ofNat 32 (m.toNat / 2 ^ (32 * k))) ∧
    fld ((h.relayDequeueShown (.message m)).reg .hstRelayStatus) 16 8 = 0 ∧
    bit ((h.relayDequeueShown (.message m)).reg .hstRelayStatus) 24 = false := by
  refine ⟨fun k inside => ?_, Hw.relayStatus_rx 0 false⟩
  unfold Hw.relayDequeueShown Hw.relayRxFilled
  rw [Hw.reg_relayStatus_of_rx, Hw.reg_foldl_setReg, if_pos inside]

/-- A dequeue from an H-destined channel shows its result. -/
theorem Hw.relayDequeue_of_dequeued {merge : Bool} {result : AgentResp} (request : h.host.relayRx = some c)
    (valid : h.relayRxTaken.chValid c = true) (destination : (h.relayRxTaken.chDst c).1 = hostNode)
    (dequeued : (h.relayRxTaken.relayDequeued c merge).2 = result) :
    h.relayDequeue merge = (h.relayRxTaken.relayDequeued c merge).1.relayDequeueShown result := by
  have taken : ¬ (!h.relayRxTaken.chValid c || (h.relayRxTaken.chDst c).1 != hostNode) = true := by simp [valid, destination]
  unfold Hw.relayDequeue
  rw [request]
  refine (if_neg taken).trans ?_
  change (match h.relayRxTaken.relayDequeued c merge with | (g, .message m) => _ | (g, .empty) => _ | (g, _) => _) = _
  rw [← dequeued]
  obtain ⟨g, answer⟩ := h.relayRxTaken.relayDequeued c merge
  cases answer <;> rfl

end

end Sys2Proof.Machine

open Sys2Proof Sys2Proof.Machine

/-- Settles O52: where BAR2 accesses go, what a write of a window register does, and what the host relay sends and dequeues. -/
theorem hostAccesses : Obligations.HostAccesses := by
  unfold Obligations.HostAccesses
  intro s running h
  refine ⟨?read, ?writeDropped, ?write, ?window, ?relaySend, ?relayDequeue⟩
  case read =>
    intro t off len n zero give
    have reads {err : PadErr} {g : Hw} (e : h.bar2Read t off.toNat n err = g) : Completes (.bar2Read t off len err) s (fun x => x = g) :=
      (completes_bar2Read t off len err s _).2 ((Hw.clocked_on running).trans e)
    refine ⟨fun silent err => reads (Hw.bar2Read_of_silent silent), fun target err => reads (Hw.bar2Read_of_none target),
      fun o err answers target => reads (Hw.bar2Read_of_msix answers target), ?_⟩
    intro answers a target ref
    refine ⟨fun refused err => reads (Hw.bar2Read_of_refused answers target refused), fun ok => ⟨fun x slab => ?_, fun x hbm => ?_⟩⟩
    · have found (err : PadErr) := reads (Hw.bar2Read_of_slab (err := err) answers target ok slab)
      exact ⟨found .ok, found .corrected, found .uncorrectable⟩
    · exact reads (Hw.bar2Read_of_hbm answers target ok hbm)
  case writeDropped =>
    intro t off data dropped
    exact (completes_bar2Write t off data s _).2 ((Hw.clocked_on running).trans (Hw.bar2Write_of_dropped dropped))
  case write =>
    intro t off data answers
    have writes {g : Hw} {P : Hw → Prop} (e : h.bar2Write t off.toNat data = g) (p : P g) : Completes (.bar2Write t off data) s P := by
      rw [completes_bar2Write, Hw.clocked_on running]
      exact (congrArg P e).mpr p
    refine ⟨?tenant, fun o target => writes (Hw.bar2Write_of_pba answers target) rfl,
      fun o target => writes (Hw.bar2Write_of_table answers target) rfl⟩
    intro a target ref
    refine ⟨fun refused => ?_, fun x ok slab => ?_, fun x ok hbm => ?_⟩
    · exact writes (Hw.bar2Write_of_refused answers target refused) rfl
    · exact writes (Hw.bar2Write_of_slab answers target ok slab) ⟨rfl, memByte_memWrite_enabled 0#8 h.mem.slab x data⟩
    · exact writes (Hw.bar2Write_of_hbm answers target ok hbm) rfl
  case window =>
    intro p t w v a lo inUse withdrawn
    have writes {part : Fin 3} {id : RegId} {g : Hw}
        (named : (if part = 0 then .hstWinBaseLo else if part = 1 then .hstWinBaseHi else .hstWinSize) = id)
        (opened : h.writeOpen p ⟨id, t, w⟩) (rule : a.regWrite p (pathAddr p (Reg.addr ⟨id, t, w⟩)) 0 ⟨id, t, w⟩ v noDevice = g) :
        Completes (.windowWithdraw p t w part v) s (fun x => x = g) := by
      rw [completes_windowWithdraw, named]
      exact (Hw.writeAt_open opened v).trans rule
    refine ⟨fun opened => ?_, fun opened => ?_, fun opened => ⟨fun registered empty => ?_, fun taken => ?_⟩⟩
    · have written := Hw.winWrite_baseLo (h := a) p (pathAddr p (Reg.addr ⟨.hstWinBaseLo, t, w⟩)) (t := t) (w := w) v
      rw [Hw.hold_readied] at written
      exact writes rfl opened written
    · have written := Hw.winWrite_baseHi (h := a) p (pathAddr p (Reg.addr ⟨.hstWinBaseHi, t, w⟩)) (t := t) (w := w) v
      rw [Hw.hold_readied] at written
      exact writes rfl opened written
    · exact writes rfl opened (Hw.winWrite_of_emptied (h := a) p _ v registered empty)
    · exact writes rfl opened (Hw.winWrite_size (h := a) p _ v taken)
  case relaySend =>
    intro c request a r
    have sends {g : Hw} (e : h.relaySend = g) : Completes (.relaySend none) s (fun x => x = g) :=
      (completes_relaySend none s _).2 ((Hw.clocked_on running).trans e)
    refine ⟨fun refused => ?_, fun valid source => ?_⟩
    · exact sends (Hw.relaySend_of_refused request refused)
    · have shown {result : SendResult} (sent : r.2 = result) : Completes (.relaySend none) s (fun x => x = r.1.relaySendShown result) :=
        sends (Hw.relaySend_of_sent request valid source sent)
      exact ⟨shown, shown, shown⟩
  case relayDequeue =>
    intro c merge request a r valid destination
    have shown {result : AgentResp} {P : Hw → Prop} (dequeued : r.2 = result) (p : P (r.1.relayDequeueShown result)) :
        Completes (.relayDequeue none merge) s P := by
      have noWrite : s.hw.relayWrites true none = s.hw := rfl
      rw [completes_relayDequeue, noWrite, Hw.clocked_on running]
      exact (congrArg P (Hw.relayDequeue_of_dequeued request valid destination dequeued)).mpr p
    exact ⟨fun empty => shown empty rfl, fun m message => shown message (Hw.relayDequeueShown_message m)⟩

end

section
/-! Launches: the doorbell (R676, R677), the plan's read (R679, R691), admission and relaunch (R180, R682, R698, R785), stops (R683), and the
obligation on them. -/

namespace Sys2Proof.Machine

/-! The doorbell (R676, R677, R690). -/

/-- The job of a tenant whose launch has begun: it reads the plan of its descriptor, and a stop held for the job before it is forgotten where
the launch owns its partition. -/
def JobState.reading (j : JobState) (desc : List Word) (own : Bool) : JobState :=
  { j with desc := desc, copy := [], stage := .read, stopHeld := if own then false else j.stopHeld }

/-- The launch of tenant t is busy with the descriptor that stands in HST_LAUNCH_DESC. -/
def Hw.launchBusy (h : Hw) (t : Nat) : Hw :=
  let a := h.modReg .hstLaunchStatus t 0 (setBit · 8 true)
  a.modJob t (·.reading ((List.range 8).map (fun k => a.reg .hstLaunchDesc t k)) (h.tntState t == tsIdle))

/-- It is the last in its duty's order, and the VF is a bus master. -/
def Hw.launchTaken (h : Hw) (t : Nat) : Hw :=
  let b := h.launchBusy t
  { b with stw := { b.stw with launches := b.stw.launches ++ [t] }, host := { b.host with busMasterOff := b.host.busMasterOff.erase t } }

/-- What g, which a doorbell of tenant t leaves of h, shows of the launch that it has started. -/
structure Hw.LaunchStarted (h g : Hw) (t : Nat) : Prop where
  busy : bit (g.reg .hstLaunchStatus t) 8 = true
  queued : g.stw.launches = h.stw.launches ++ [t]
  reads : (g.job t).stage = .read
  desc : (g.job t).desc = (List.range 8).map (fun k => h.reg .hstLaunchDesc t k)
  busMaster : g.host.busMasterOff = h.host.busMasterOff.erase t

section
variable {h g : Hw} {t : Nat}

/-- A job is what the job map holds. -/
theorem Hw.job_congr (e : g.jobs = h.jobs) (k : Nat) : g.job k = h.job k := by unfold Hw.job; rw [e]

/-- Of the registers, only HST_LAUNCH_STATUS shows that a launch has begun. -/
theorem Hw.reg_launchTaken (id : RegId) (i k : Nat) : (h.launchTaken t).reg id i k =
    if RegId.hstLaunchStatus = id ∧ t = i ∧ 0 = k then setBit (h.reg .hstLaunchStatus t) 8 true else h.reg id i k :=
  Hw.reg_modReg h .hstLaunchStatus id t 0 i k (setBit · 8 true)

theorem Hw.job_launchTaken : (h.launchTaken t).job t =
    (h.job t).reading ((List.range 8).map (fun k => h.reg .hstLaunchDesc t k)) (h.tntState t == tsIdle) := by
  have desc (k : Nat) : (h.modReg .hstLaunchStatus t 0 (setBit · 8 true)).reg .hstLaunchDesc t k = h.reg .hstLaunchDesc t k := by simp
  calc (h.launchTaken t).job t
    _ = (h.launchBusy t).job t := Hw.job_congr rfl t
    _ = _ := by
      unfold Hw.launchBusy
      rw [Hw.job_modJob, if_pos rfl]
      simp only [desc]
      rfl

theorem Hw.launchStarted_launchTaken : h.LaunchStarted (h.launchTaken t) t := by
  refine ⟨?_, rfl, congrArg JobState.stage Hw.job_launchTaken, congrArg JobState.desc Hw.job_launchTaken, rfl⟩
  rw [Hw.reg_launchTaken, if_pos ⟨rfl, rfl, rfl⟩]
  exact bit_setBit_same _ _ _ (by decide)

/-- TNT_STATE shows nothing of a launch's start. -/
theorem Hw.LaunchStarted.modTntState (started : h.LaunchStarted g t) (f : Word → Word) : h.LaunchStarted (g.modReg .tntState t 0 f) t := by
  obtain ⟨busy, queued, reads, desc, busMaster⟩ := started
  refine ⟨?_, queued, reads, desc, busMaster⟩
  rw [Hw.reg_modReg, if_neg fun e => absurd e.1 (by decide)]
  exact busy

theorem Hw.tntState_launchTaken : (h.launchTaken t).tntState t = h.tntState t := by
  unfold Hw.tntState
  rw [Hw.reg_launchTaken, if_neg fun e => absurd e.1 (by decide)]

theorem Hw.tntState_setTntState (s : Nat) : (h.modReg .tntState t 0 (setFld · 0 4 s)).tntState t = s % 16 := by
  unfold Hw.tntState
  rw [Hw.reg_modReg, if_pos ⟨rfl, rfl, rfl⟩]
  exact fld_setFld_same _ _ _ _ (by decide)

/-- A doorbell while the launch is busy is ignored, which HST_VF_EVT shows (R677). -/
theorem Hw.launchDoorbell_of_busy (busy : bit (h.reg .hstLaunchStatus t) 8 = true) :
    h.launchDoorbell t = h.modReg .hstVfEvt t 0 (setBit · 5 true) := if_pos busy

/-- Any other doorbell starts a launch, which owns its partition where it finds it IDLE (R181, R676). -/
theorem Hw.launchDoorbell_of_free (free : bit (h.reg .hstLaunchStatus t) 8 = false) :
    h.launchDoorbell t =
      if h.tntState t == tsIdle then (h.launchTaken t).modReg .tntState t 0 (setFld · 0 4 tsAdmitting) else h.launchTaken t :=
  if_neg (ne_true_of_eq_false free)

theorem Hw.launchStarted_launchDoorbell (free : bit (h.reg .hstLaunchStatus t) 8 = false) :
    h.LaunchStarted (h.launchDoorbell t) t ∧
    (h.launchDoorbell t).tntState t = if h.tntState t = tsIdle then tsAdmitting else h.tntState t := by
  rw [Hw.launchDoorbell_of_free free]
  by_cases idle : h.tntState t = tsIdle
  · rw [if_pos (by simp [idle]), if_pos idle]
    exact ⟨Hw.launchStarted_launchTaken.modTntState _, Hw.tntState_setTntState _⟩
  · rw [if_neg (by simp [idle]), if_neg idle]
    exact ⟨Hw.launchStarted_launchTaken, Hw.tntState_launchTaken⟩

/-! The plan's read (R679, R691). -/

/-- The length of the plan in bytes, by the launch's descriptor. -/
def Hw.planLength (h : Hw) (t : Nat) : Nat := ((h.job t).desc.getD 2 0#32).toNat

/-- Where the duty does not work on the launch, or it does not read its plan, the end of a read does nothing. -/
theorem Hw.planRead_of_other (bytes : List Byte) (ok : Bool) (other : (h.job t).stage ≠ .read ∨ h.launchTurn t = false) :
    h.planRead t bytes ok = h := if_pos (by simpa [or_comm] using other)

section
variable (turn : h.launchTurn t = true) (reads : (h.job t).stage = .read)
include turn reads

/-- A launch that fails a check before its read ends with its code. -/
theorem Hw.planRead_of_fails (bytes : List Byte) (ok : Bool) {c : Nat} (fails : h.launchCheck t = some c) :
    h.planRead t bytes ok = h.launchOver t c := by
  unfold Hw.planRead
  rw [if_neg (by simp [turn, reads]), fails]

variable {bytes : List Byte} (passes : h.launchCheck t = none)
include passes

/-- The read of a launch that passes them ends it with a code too, or leaves the plan's copy for the checks of admission. -/
theorem Hw.planRead_of_passes (ok : Bool) : h.planRead t bytes ok =
    if !ok || !h.hostReady || h.host.busMasterOff.contains t || bytes.length != h.planLength t then h.launchOver t 0x71
    else if leAt bytes 8 4 ≠ h.planLength t then h.launchOver t 0x24
    else h.modJob t (fun j => { j with copy := bytes, stage := .checks }) := by
  unfold Hw.planRead
  rw [if_neg (by simp [turn, reads]), passes]
  rfl

/-- A read that host memory does not answer in full ends the launch (R691). -/
theorem Hw.planRead_of_unanswered (unanswered : fld (h.reg .hstLinkStatus) 0 4 = 0 ∨ h.host.d3 = true ∨ t ∈ h.host.busMasterOff ∨
    bytes.length ≠ h.planLength t) : h.planRead t bytes true = h.launchOver t 0x71 := by
  rw [Hw.planRead_of_passes turn reads passes]
  refine if_pos ?_
  simpa [Hw.hostReady, Hw.pcieUp, or_assoc] using unanswered

/-- A read that fails ends the launch (R691). -/
theorem Hw.planRead_of_failed : h.planRead t bytes false = h.launchOver t 0x71 := by
  rw [Hw.planRead_of_passes turn reads passes]
  rfl

variable (up : fld (h.reg .hstLinkStatus) 0 4 ≠ 0) (d0 : h.host.d3 = false) (busMaster : t ∉ h.host.busMasterOff)
variable (whole : bytes.length = h.planLength t)
include up d0 busMaster whole

/-- The size in the plan's header is that of the descriptor, or the launch ends. -/
theorem Hw.planRead_of_whole : h.planRead t bytes true =
    if leAt bytes 8 4 ≠ h.planLength t then h.launchOver t 0x24 else h.modJob t (fun j => { j with copy := bytes, stage := .checks }) := by
  rw [Hw.planRead_of_passes turn reads passes]
  refine if_neg ?_
  simp [Hw.hostReady, Hw.pcieUp, up, d0, busMaster, whole]

end

/-! Admission (R180, R698, R785) and relaunch (R682). -/

/-- The plan is programmed with the launch's cookie and its relaunches, the result is posted, and a held stop applies (R678, R683, R785). -/
def Hw.admitted (h : Hw) (t : Nat) : Hw :=
  (((h.program t (h.job t).copy).modJob t (fun x => { x with
    cookie := (h.job t).desc.getD 3 0#32, relaunchMax := fld ((h.job t).desc.getD 4 0#32) 0 4, relaunches := 0 })).launchOver t 0).heldStop t

/-- A launch that fails a check before its plan's read ends with its code. -/
theorem Hw.admission_of_read (turn : h.launchTurn t = true) (reads : (h.job t).stage = .read) {c : Nat} (fails : h.launchCheck t = some c) :
    h.admission t = h.launchOver t c := by
  unfold Hw.admission
  rw [if_neg (by simp [turn])]
  dsimp only
  rw [reads]
  dsimp only
  rw [fails]

section
variable (turn : h.launchTurn t = true) (checks : (h.job t).stage = .checks)
include turn checks

/-- Admission of a launch whose plan has been read: the first check that fails ends it, the generation guard holds it, or it is admitted. -/
theorem Hw.admission_of_checks : h.admission t =
    if h.partBusy t then h.launchOver t 0x01
    else (h.planFails t (h.job t).copy).elim
      (if !h.genFree t (h.nextGen t) then h.modJob t (fun j => { j with held := true }) else h.admitted t) (h.launchOver t) := by
  unfold Hw.admission
  rw [if_neg (by simp [turn])]
  dsimp only
  rw [checks]
  dsimp only
  refine ite_congr rfl (fun _ => rfl) (fun _ => ?_)
  cases h.planFails t (h.job t).copy <;> rfl

theorem Hw.admission_of_busy (busy : h.partBusy t = true) : h.admission t = h.launchOver t 0x01 :=
  (Hw.admission_of_checks turn checks).trans (if_pos busy)

variable (free : h.partBusy t = false)
include free

theorem Hw.admission_of_fails {c : Nat} (fails : h.planFails t (h.job t).copy = some c) : h.admission t = h.launchOver t c := by
  rw [Hw.admission_of_checks turn checks, free, fails]
  rfl

variable (passes : h.planFails t (h.job t).copy = none)
include passes

theorem Hw.admission_of_guarded (guarded : h.genFree t (h.nextGen t) = false) : h.admission t = h.modJob t (fun j => { j with held := true }) := by
  rw [Hw.admission_of_checks turn checks, free, passes, guarded]
  rfl

theorem Hw.admission_of_unguarded (unguarded : h.genFree t (h.nextGen t) = true) : h.admission t = h.admitted t := by
  rw [Hw.admission_of_checks turn checks, free, passes, unguarded]
  rfl

end

/-- The end of the generation guard lets the launch that it holds go on (R698). -/
theorem Hw.genWaitExpiry_of_held (held : (h.job t).held = true) (launch : (h.job t).relaunching = false)
    (unguarded : h.genFree t (h.nextGen t) = true) : h.genWaitExpiry t = h.admission t := by
  unfold Hw.genWaitExpiry
  rw [held, unguarded, launch]
  rfl

section
variable (turn : h.launchTurn (64 + t) = true) (again : (h.job t).relaunching = true) (admitting : h.tntState t = tsAdmitting)
include turn again admitting

/-- A relaunch is an admission with the copy kept: the first check that fails ends it, the generation guard holds it, or it is programmed
(R682). -/
theorem Hw.relaunch_of_turn : h.relaunch t =
    (h.planFails t (h.job t).plan).elim
      (if !h.genFree t (h.nextGen t) then h.modJob t (fun j => { j with held := true })
        else ((h.program t (h.job t).plan).relaunchOver t 0).heldStop t) (h.relaunchOver t) := by
  unfold Hw.relaunch
  refine (if_neg (by simp [turn, again, admitting])).trans ?_
  cases h.planFails t (h.job t).plan <;> rfl

theorem Hw.relaunch_of_fails {c : Nat} (fails : h.planFails t (h.job t).plan = some c) : h.relaunch t = h.relaunchOver t c := by
  rw [Hw.relaunch_of_turn turn again admitting, fails]
  rfl

theorem Hw.relaunch_of_unguarded (passes : h.planFails t (h.job t).plan = none) (unguarded : h.genFree t (h.nextGen t) = true) :
    h.relaunch t = ((h.program t (h.job t).plan).relaunchOver t 0).heldStop t := by
  rw [Hw.relaunch_of_turn turn again admitting, passes, unguarded]
  rfl

end

/-! Stops and the loss of Bus Master (R683, R691). -/

/-- A stop of a running job is a requested F1. -/
theorem Hw.jobStop_of_active (active : h.active t = true) : h.jobStop t = h.raiseF1 t (h.gen t) 0x10 anchorNode 0 1 := if_pos active

/-- A stop waits for a launch that is being admitted. -/
theorem Hw.jobStop_of_admitting (admitting : h.tntState t = tsAdmitting) : h.jobStop t = h.modJob t (fun j => { j with stopHeld := true }) := by
  have inactive : h.active t = false := by
    unfold Hw.active
    rw [admitting]
    decide
  exact (if_neg (ne_true_of_eq_false inactive)).trans (if_pos admitting)

/-- VF t + 1 is no bus master. -/
def Hw.busMasterCleared (h : Hw) (t : Nat) : Hw :=
  { h with host := { h.host with busMasterOff := if h.host.busMasterOff.contains t then h.host.busMasterOff else h.host.busMasterOff ++ [t] } }

theorem Hw.busMasterClear_of_other (other : (h.job t).stage ≠ .read ∨ h.launchTurn t = false) : h.busMasterClear t = h.busMasterCleared t :=
  Hw.planRead_of_other (h := h.busMasterCleared t) [] false other

/-- The plan's read fails with the VF's mastery (R691). -/
theorem Hw.busMasterClear_of_read (turn : h.launchTurn t = true) (reads : (h.job t).stage = .read) (passes : h.launchCheck t = none) :
    h.busMasterClear t = (h.busMasterCleared t).launchOver t 0x71 :=
  Hw.planRead_of_failed (h := h.busMasterCleared t) turn reads passes

end

end Sys2Proof.Machine

open Sys2Proof Sys2Proof.Machine

/-- Settles O53: what a doorbell, the end of a plan's read, admission, a relaunch, a stop and the loss of Bus Master do to a launch. -/
theorem launches : Obligations.Launches := by
  unfold Obligations.Launches
  intro s t h j a
  refine ⟨?doorbell, ?read, ?admission, ?relaunch, ?stop, ?busMaster⟩
  case doorbell =>
    intro opened
    rw [completes_launchDoorbell, completes_launchDoorbell, Hw.writeAt_open opened]
    refine ⟨fun busy => Hw.launchDoorbell_of_busy (h := a) busy, fun free => ?_⟩
    obtain ⟨⟨busy, queued, reads, desc, busMaster⟩, state⟩ := Hw.launchStarted_launchDoorbell (h := a) free
    exact ⟨busy, queued, reads, desc, busMaster, state⟩
  case read =>
    intro running turn reads n
    have ends {bytes : List Byte} {ok : Bool} {g : Hw} (e : h.planRead t bytes ok = g) : Completes (.planReadDone t bytes ok) s (fun x => x = g) :=
      (completes_planReadDone t bytes ok s _).2 ((Hw.clocked_on running).trans e)
    refine ⟨fun bytes ok c fails => ends (Hw.planRead_of_fails turn reads bytes ok fails), fun c fails => ?_,
      fun passes bytes unanswered => ends (Hw.planRead_of_unanswered turn reads passes unanswered), fun passes up d0 busMaster bytes whole => ?_⟩
    · exact (completes_admission t s _).2 ((Hw.clocked_on running).trans (Hw.admission_of_read turn reads fails))
    · have answered := Hw.planRead_of_whole turn reads passes up d0 busMaster whole
      exact ⟨fun differs => ends (answered.trans (if_pos differs)), fun agrees => ends (answered.trans (if_neg (not_not_intro agrees)))⟩
  case admission =>
    intro running turn checks
    have ends {g : Hw} (e : h.admission t = g) : Completes (.admission t) s (fun x => x = g) :=
      (completes_admission t s _).2 ((Hw.clocked_on running).trans e)
    refine ⟨fun busy => ends (Hw.admission_of_busy turn checks busy), fun free =>
      ⟨fun c fails => ends (Hw.admission_of_fails turn checks free fails), fun passes =>
        ⟨fun guarded => ends (Hw.admission_of_guarded turn checks free passes guarded), fun unguarded => ?_⟩⟩⟩
    have admits := Hw.admission_of_unguarded turn checks free passes unguarded
    exact ⟨ends admits, fun held launch => (completes_genWaitExpiry t s _).2
      ((Hw.clocked_on running).trans ((Hw.genWaitExpiry_of_held held launch unguarded).trans admits))⟩
  case relaunch =>
    intro running turn again admitting
    have ends {g : Hw} (e : h.relaunch t = g) : Completes (.relaunch t) s (fun x => x = g) :=
      (completes_relaunch t s _).2 ((Hw.clocked_on running).trans e)
    exact ⟨fun c fails => ends (Hw.relaunch_of_fails turn again admitting fails),
      fun passes unguarded => ends (Hw.relaunch_of_unguarded turn again admitting passes unguarded)⟩
  case stop =>
    intro opened
    rw [completes_jobStop, completes_jobStop, Hw.writeAt_open opened]
    exact ⟨fun active => Hw.jobStop_of_active (h := a) active, fun admitting => Hw.jobStop_of_admitting (h := a) admitting⟩
  case busMaster =>
    intro running off b
    have clears {g : Hw} (e : h.busMasterClear t = g) : Completes (.vfBusMasterClear t) s (fun x => x = g) :=
      (completes_vfBusMasterClear t s _).2 ((Hw.clocked_on running).trans e)
    exact ⟨fun other => clears (Hw.busMasterClear_of_other other),
      fun reads turn passes => clears (Hw.busMasterClear_of_read turn reads passes)⟩

end

section
/-! F1s and F0s at the anchor and partition resets (R77, R699, R713 to R716, R725, R837), and the obligation on them. -/

namespace Sys2Proof.Machine

theorem Hw.reg_modReg_of_ne (h : Hw) {id id' : RegId} (ne : id ≠ id') (i j i' j' : Nat) (f : Word → Word) :
    (h.modReg id i j f).reg id' i' j' = h.reg id' i' j' := by
  rw [Hw.reg_modReg, if_neg fun e => ne e.1]

section
variable {h : Hw} {x : Notice} {rest : List Notice}

/-! What an F1 at the anchor does (R714, R716). -/

/-- Traffic of another generation than the tenant's is stale (R699). -/
theorem Hw.acceptF1_of_stale (other : x.gen ≠ h.gen x.tenant) : h.acceptF1 x = h.stale x.tenant 1 := if_pos other

/-- LATE and HANG, here or at the origin of a remote notice, are captured before the job ends (R837). -/
def Hw.f1Captured (h : Hw) (x : Notice) : Hw :=
  if [0x01, 0x13].contains (if x.remote then x.source else x.cause) then h.capture x.tenant x.cause else h

/-- The F1 of a job ends it (R714). -/
theorem Hw.acceptF1_of_active (current : x.gen = h.gen x.tenant) (active : h.active x.tenant = true) :
    h.acceptF1 x = (h.f1Captured x).endBy x.tenant x := (if_neg (not_not_intro current)).trans (if_pos active)

theorem Hw.now_recordEnd (t cause gen node origin bar phase detail source : Nat) (remote f0 : Bool) :
    (h.recordEnd t cause gen node origin bar phase detail source remote f0).now = h.now := by
  simp [Hw.recordEnd]

theorem Hw.now_faultEvt (t cause gen : Nat) (f0 remote : Bool) : (h.faultEvt t cause gen f0 remote).now = h.now := by
  simp [Hw.faultEvt]

/-- The end that an F1 brings: its event, its record, the VF's event, and the start of the restart with the cause of a stop, a VF reset or a
fault (R702, R715). -/
theorem Hw.endBy_of_f1 (t : Nat) (f1 : x.f0 = false) : h.endBy t x =
    (((h.faultEvt t x.cause (h.gen t) false x.remote).recordEnd t x.cause (h.gen t) x.node x.origin x.bar x.phase x.detail x.source x.remote
      false).vfEvent t 2).beginEnd t (if x.cause = 0x10 ∧ x.source = 1 then 2 else if x.cause = 0x11 then 5 else 3)
        (if x.remote then h.now else x.t0) := by
  unfold Hw.endBy endCauseOf
  dsimp only
  rw [f1, if_neg Bool.false_ne_true, Hw.now_recordEnd, Hw.now_faultEvt]

/-- The count of duplicates says nothing of a partition. -/
theorem Hw.tntState_gongDup (t : Nat) : h.gongDup.tntState t = h.tntState t :=
  congrArg (fld · 0 4) (h.reg_modReg_of_ne (id := .snGongEvt) (id' := .tntState) (by decide) anchorNode 0 t 0 (bumpFld · 16 8 1))

/-- An F1 that finds no job is a duplicate, which only a partition under restart records (R716). -/
theorem Hw.acceptF1_of_inactive (current : x.gen = h.gen x.tenant) (inactive : h.active x.tenant = false) : h.acceptF1 x =
    if h.tntState x.tenant = tsQuiesce ∨ h.tntState x.tenant = tsScrub then h.gongDup.faultEvt x.tenant x.cause x.gen false x.remote
    else h.gongDup := by
  rw [← Hw.tntState_gongDup (h := h)]
  exact (if_neg (not_not_intro current)).trans (if_neg (ne_true_of_eq_false inactive))

/-! The notice at the head of the anchor's (R713). -/

/-- The anchor holds the notices of a list. -/
def Hw.withAnchor (h : Hw) (notices : List Notice) : Hw := { h with fault := { h.fault with atAnchor := notices } }

section
variable (head : h.fault.atAnchor = x :: rest)
include head

theorem Hw.faultAccept_of_f1 (f1 : x.f0 = false) : h.faultAccept = (h.withAnchor rest).acceptF1 x := by
  unfold Hw.faultAccept
  rw [head]
  exact if_neg (ne_true_of_eq_false f1)

theorem Hw.f0Accept_of_f0 (f0 : x.f0 = true) : h.f0Accept = (h.withAnchor rest).acceptF0 x := by
  unfold Hw.f0Accept
  rw [head]
  exact if_pos f0

/-- The request that a partition reset (cause 0x10) or a VF reset (0x11) has recorded for its tenant is the one that the restart takes (R77,
R692). -/
theorem Hw.partitionReset_of_head (f1 : x.f0 = false) (cause : x.cause = 0x10 ∨ x.cause = 0x11) (here : x.remote = false) :
    h.partitionReset x.tenant = (h.withAnchor rest).acceptF1 x := by
  have requested : (!x.f0 && !x.remote && x.tenant == x.tenant && (x.cause == 0x10 || x.cause == 0x11)) = true := by
    simp [f1, here, cause]
  unfold Hw.partitionReset
  simp only [head, List.find?_cons, requested, List.erase_cons_head]
  rfl

end

end

end Sys2Proof.Machine

open Sys2Proof Sys2Proof.Machine

/-- Settles O54: which F1 ends a job, is stale or is a duplicate, what an F0 ends, and the request that a partition reset takes. -/
theorem faultsAccepted : Obligations.FaultsAccepted := by
  unfold Obligations.FaultsAccepted
  intro s x rest running head h t
  refine ⟨fun f1 => ?f1, fun f0 => ?f0⟩
  case f1 =>
    have accepts {g : Hw} (e : h.acceptF1 x = g) : Completes .faultAccept s (fun y => y = g) :=
      (completes_faultAccept s _).2 ((Hw.clocked_on running).trans ((Hw.faultAccept_of_f1 head f1).trans e))
    refine ⟨fun other => accepts (Hw.acceptF1_of_stale other), fun current active => ?_,
      fun current inactive => accepts (Hw.acceptF1_of_inactive current inactive), fun cause here u own => ?_⟩
    · intro late a
      have ends : h.acceptF1 x = a.endBy t x := Hw.acceptF1_of_active current active
      exact accepts (ends.trans (Hw.endBy_of_f1 t f1))
    · rw [completes_partitionReset, own]
      exact (Hw.clocked_on running).trans (Hw.partitionReset_of_head head f1 cause here)
  case f0 =>
    rw [completes_f0Accept, Hw.clocked_on running, Hw.f0Accept_of_f0 head f0]
    unfold Hw.acceptF0
    rfl

end

section
/-! The start of a job (R458, R706 to R710, R805), and the obligation on it. -/

namespace Sys2Proof.Machine

/-! Bells and halted cores. -/

/-- No tile is the H node. -/
theorem tileNode_ne_hostNode (i : Nat) : tileNode i ≠ hostNode := by
  have position : tileNode i = i / 8 * 12 + i % 8 + 2 := rfl
  rw [position, hostNode]
  omega

/-- The start bell of a tile is bit 16 of its bells, and requests no vector (R311, R708). -/
theorem Hw.ringBell_startBell (h : Hw) (i : Nat) :
    h.ringBell (tileNode i) startBell = h.modReg .nodeBell (tileNode i) 0 (· ||| 0x10000#32) := if_neg (tileNode_ne_hostNode i)

/-- Which halted cores affect a partition stands in the cores' state, the duties' holders and the drain scope (R804). -/
theorem Hw.haltedFor_congr {g h : Hw} (cores : g.stw = h.stw) (duties : g.reg .stwDuty = h.reg .stwDuty)
    (scope : g.reg .stwBreakCtl = h.reg .stwBreakCtl) (t : Nat) : g.haltedFor t = h.haltedFor t := by
  unfold Hw.haltedFor Hw.affects Hw.dutiesOf Hw.dutyHolder
  rw [cores, duties, scope]

theorem Hw.stw_modReg (h : Hw) (id : RegId) (i j : Nat) (f : Word → Word) : (h.modReg id i j f).stw = h.stw := rfl

/-- A register that is neither the cores' scope nor their duties says nothing of the halts. -/
theorem Hw.haltedFor_modReg (h : Hw) {id : RegId} (duties : id ≠ .stwDuty) (scope : id ≠ .stwBreakCtl) (i j : Nat) (f : Word → Word) (t : Nat) :
    (h.modReg id i j f).haltedFor t = h.haltedFor t :=
  Hw.haltedFor_congr (Hw.stw_modReg h id i j f) (h.reg_modReg_of_ne duties i j 0 0 f) (h.reg_modReg_of_ne scope i j 0 0 f) t

section
variable {h : Hw} {t : Nat}

/-! The start round (R706, R732). -/

/-- The module waits in the start round of tenant t's partition: TNT_STATE shows it, and its bars count from here (R706, R709; the count by
log entry 35, DEDUCED). -/
def Hw.startJoined (h : Hw) (t : Nat) : Hw :=
  let b := (h.modReg .tntState t 0 (setBit · 9 true)).modJob t (fun j => { j with startBar := some 0 })
  { b with snet := { b.snet with start := b.snet.start ++ [((h.job t).startSync, t)] } }

theorem Hw.gen_startJoined : (h.startJoined t).gen t = h.gen t :=
  congrArg (fld · 0 10) (h.reg_modReg_of_ne (id := .tntState) (id' := .tntGen) (by decide) t 0 t 0 (setBit · 9 true))

/-- A module joins once, with a packet of its own in the round. -/
theorem Hw.startJoin_of_starting (multi : h.partMulti t = true) (starting : h.tntState t = tsStarting) (unjoined : (h.job t).startBar = none) :
    h.startJoin t = (h.startJoined t).anchorDone ⟨(h.job t).startSync, 0, t, h.gen t, []⟩ := by
  have joins : h.startJoin t = (h.startJoined t).anchorDone ⟨(h.job t).startSync, 0, t, (h.startJoined t).gen t, []⟩ :=
    if_pos (by simp [multi, starting, unjoined])
  rw [joins, Hw.gen_startJoined]

/-- A start write joins the round of a multi-module partition in STARTING, and is a misuse of any other (R706, R732). -/
theorem Hw.tntCtl_start (p : Path) (addr : Nat) : h.tntCtl p addr t 1#32 =
    if h.partMulti t && h.tntState t == tsStarting then h.startJoin t else h.misuse p true 9 addr := rfl

/-! The start bells (R458, R708, R710, R805). -/

/-- The start round of tenant t is over. -/
def Hw.startRoundOver (h : Hw) (t : Nat) : Hw :=
  ({ h with snet := { h.snet with startDown := h.snet.startDown.filter (· != t) } } : Hw).modJob t (fun j => { j with startBar := none })

/-- Tenant t runs: TNT_STATE shows RUNNING and no wait, and the bell of each tile of its plan has rung. -/
def Hw.startRun (h : Hw) (t : Nat) : Hw :=
  (bitsOf 64 (h.job t).tileMask).foldl (fun h i => h.modReg .nodeBell (tileNode i) 0 (· ||| 0x10000#32))
    ((h.startRoundOver t).modReg .tntState t 0 (fun w => setBit (setFld w 0 4 tsRunning) 9 false))

/-- The start of a job changes nothing that the halts rest on. -/
theorem Hw.haltedFor_startRun : (h.startRun t).haltedFor t = h.haltedFor t :=
  calc (h.startRun t).haltedFor t
    _ = ((h.startRoundOver t).modReg .tntState t 0 (fun w => setBit (setFld w 0 4 tsRunning) 9 false)).haltedFor t :=
      Hw.foldl_same (·.haltedFor t) _ _ (fun h i => h.haltedFor_modReg (by decide) (by decide) (tileNode i) 0 _ t) _
    _ = (h.startRoundOver t).haltedFor t := Hw.haltedFor_modReg _ (by decide) (by decide) t 0 _ t
    _ = h.haltedFor t := Hw.haltedFor_congr rfl rfl rfl t

/-- Released ports, and the round over where there is one, start the job; a halted core drains it again at once (R708, R710, R805). -/
theorem Hw.startBells_of_released (starting : h.tntState t = tsStarting)
    (released : ∀ i ∈ bitsOf 64 (h.job t).tileMask, (h.port i).launch = none ∧ h.portUp i = true)
    (ended : h.partMulti t = false ∨ t ∈ h.snet.startDown) :
    h.startBells t = if h.haltedFor t then (h.startRun t).haltPart t else h.startRun t := by
  have ports : h.portsReleased t = true := List.all_eq_true.2 fun i tile => by simp [released i tile]
  have bells : h.startBells t = if (h.startRun t).haltedFor t then (h.startRun t).haltPart t else h.startRun t := by
    unfold Hw.startBells
    rw [if_pos (by simpa [starting, ports] using ended)]
    simp only [Hw.ringBell_startBell]
    rfl
  rw [bells, Hw.haltedFor_startRun]

/-! The limit of the round (R709). -/

/-- A round that is not over start_bars bars after the module joined it raises START_TIMEOUT (the count by log entry 35, DEDUCED). -/
theorem Hw.startTimeout_of_late {k : Nat} (starting : h.tntState t = tsStarting) (joined : (h.job t).startBar = some k)
    (late : fld (h.reg .tntCfg t) 0 16 ≤ k) (pending : t ∉ h.snet.startDown) :
    h.startTimeout t = (h.modJob t (fun j => { j with startBar := none })).raiseF1 t (h.gen t) 0x12 anchorNode 0 :=
  if_pos (by simp [starting, joined, late, pending])

end

end Sys2Proof.Machine

open Sys2Proof Sys2Proof.Machine

/-- Settles O56: a start write, the start bells and the limit of the start round (the count of R709 by log entry 35, DEDUCED). -/
theorem jobsStart : Obligations.JobsStart := by
  unfold Obligations.JobsStart
  intro s t h j
  refine ⟨fun p opened => ?join, fun running starting released ended => ?bells, fun k running starting joined late pending => ?timeout⟩
  case join =>
    have written {g : Hw} (e : (h.readied p).tntCtl p (pathAddr p (Reg.addr ⟨.tntCtl, t, 0⟩)) t 1#32 = g) :
        Completes (.startRoundJoin p t) s (fun y => y = g) :=
      (completes_startRoundJoin p t s _).2 ((Hw.writeAt_open opened 1#32).trans e)
    refine ⟨fun multi starting unjoined => ?_, fun other => ?_⟩
    · have joins := Hw.startJoin_of_starting (h := h.readied p) multi starting unjoined
      exact written ((Hw.tntCtl_start p _).trans ((if_pos (Bool.and_eq_true_iff.2 ⟨multi, beq_iff_eq.2 starting⟩)).trans joins))
    · have misused : ¬(h.partMulti t && h.tntState t == tsStarting) = true := by
        rcases other with single | state
        · simp [single]
        · simp [state]
      exact written ((Hw.tntCtl_start p _).trans (if_neg misused))
  case bells =>
    have starts := (Hw.clocked_on (f := (·.startBells t.val)) running).trans (Hw.startBells_of_released starting released ended)
    exact ⟨fun unhalted => (completes_startBell t s _).2 (starts.trans (if_neg (ne_true_of_eq_false unhalted))),
      fun halted => (completes_startBell t s _).2 (starts.trans (if_pos halted))⟩
  case timeout =>
    exact (completes_startTimeout t s _).2 ((Hw.clocked_on running).trans (Hw.startTimeout_of_late starting joined late pending))

end

section
/-! Freeze requests, the hang watchdog, captures with their reports, and bins (R825, R830, R834, R835, R837, R838, R843), and the obligation on
them. -/

namespace Sys2Proof.Machine

/-! PMC_FREEZE_REQ (R830). -/

/-- The word of a request: v with an op, and go. -/
def gongRequest (op : Nat) (v : Word) : Word := setBit (setFld v 0 2 op) 31 true

/-- A request holds its op and go, and the lead, torus and snapshot fields of v. -/
theorem gongRequest_fields (op : Nat) (v : Word) :
    fld (gongRequest op v) 0 2 = op % 4 ∧ fld (gongRequest op v) 8 4 = fld v 8 4 ∧ bit (gongRequest op v) 31 = true ∧
    bit (gongRequest op v) 4 = bit v 4 ∧ bit (gongRequest op v) 12 = bit v 12 := by
  have opRead : fld (gongRequest op v) 0 2 = op % 4 :=
    (fld_setBit_other _ _ _ _ _ (by decide)).trans (fld_setFld_same _ _ _ _ (by decide))
  have lead : fld (gongRequest op v) 8 4 = fld v 8 4 :=
    (fld_setBit_other _ _ _ _ _ (by decide)).trans (fld_setFld_other _ _ _ _ _ _ (by decide))
  have other (i : Nat) (above : 2 ≤ i) (below : i ≠ 31) : bit (gongRequest op v) i = bit v i :=
    (bit_setBit_other _ _ _ _ below).trans (bit_setFld_other _ _ _ _ _ (Or.inr above))
  exact ⟨opRead, lead, bit_setBit_same _ _ _ (by decide), other 4 (by decide) (by decide), other 12 (by decide) (by decide)⟩

/-- A request for FREEZE (op 1) or THAW (op 2) sends it toward the bar that lies lead bars ahead; a lead under 3 is a misuse. -/
theorem Hw.freezeReq_gongRequest (h : Hw) (p : Path) (addr : Nat) {op : Nat} (v : Word) (named : op = 1 ∨ op = 2) :
    h.freezeReq p addr (gongRequest op v) = if fld v 8 4 < 3 then h.misuse p true 9 addr
      else h.gongSend op (bit v 12) (bit v 4) h.sysTenant 0 ((h.stamp.1 + fld v 8 4) % 4096) anchorNode := by
  obtain ⟨opRead, lead, go, torus, snap⟩ := gongRequest_fields op v
  have holds : op % 4 = op := by omega
  have legal : ¬(op = 0 ∨ op = 3) := by omega
  unfold Hw.freezeReq Hw.gongTimed
  rw [opRead, holds, lead, torus, snap, if_pos go]
  simp [← or_assoc, legal]

theorem Hw.pmcGongWrite_open {h : Hw} {p : Path} (opened : h.writeOpen p ⟨.pmcFreezeReq, 0, 0⟩) (op : Nat) (v : Word) :
    h.pmcGongWrite p op v = (h.readied p).freezeReq p (pathAddr p (Reg.addr ⟨.pmcFreezeReq, 0, 0⟩)) (gongRequest op v) :=
  Hw.writeAt_open opened _

/-! Waits that have reached their limit (R834, R835). -/

section
variable {h : Hw} {n e : Nat}

/-- The watchdog trips on a valid record of a tenant's engine that waits for no tile, gate or fence, whose partition runs with its watchdog on,
and whose age is at the limit (R834). -/
theorem Hw.hangTrip_of_late {t : Nat} (tenant : fld (h.waitWord n e 1) 16 6 = t) (valid : bit (h.waitWord n e 0) 15 = true)
    (enabled : bit (h.reg .pmcHangCfg) 31 = true) (notTile : fld (h.waitWord n e 0) 0 4 ≠ rsTile) (notHeld : fld (h.waitWord n e 0) 0 4 ≠ rsHeld)
    (notGate : fld (h.waitWord n e 0) 0 4 ≠ rsGate) (owned : fld (h.waitWord n e 1) 22 10 ≠ 0) (watched : bit (h.reg .pmcTntHang t) 31 = false)
    (runs : h.tntState t = tsRunning ∨ h.tntState t = tsHalted) (late : h.hangLimit t ≤ (h.waitWord n e 2).toNat) :
    h.hangTrip n e = (h.modReg .pmcHangEvt 0 0 (fun w => bumpFld (if fld w 24 8 = 0 then setFld w 8 6 t else w) 24 8 1)).raiseF1 t
      (fld (h.waitWord n e 1) 22 10) 0x13 n 0 := by
  subst tenant
  exact if_pos (by simp [valid, enabled, notTile, notHeld, notGate, owned, watched, runs, late])

/-- A die wait whose age is the limit counts in PMC_HANG_EVT, is logged as an F2 and captures with cause 0 (R835). -/
theorem Hw.dieWaitLimit_of_age (valid : bit (h.waitWord n e 0) 15 = true) (dieOwned : fld (h.waitWord n e 1) 22 10 = 0)
    (aged : (h.waitWord n e 2).toNat = fld (h.reg .pmcHangCfg) 0 20) :
    h.dieWaitLimit n e = ((h.modReg .pmcHangEvt 0 0 (bumpFld · 16 8 1)).logF2).capture h.sysTenant 0 :=
  if_pos (by simp [valid, dieOwned, aged])

end

/-! The report of a capture (R843). -/

/-- The report of the held capture joins the reports, of which the last four stay. -/
def Hw.reportKept (h : Hw) : Hw :=
  let rs := h.obs.reports ++ [(fld (h.reg .pmcHangStatus) 8 6, h.hangReportBytes)]
  { h with obs := { h.obs with due := false, reports := rs.drop (rs.length - 4) } }

/-- A held capture whose report is due is reported: vector 4 of the tenant's VF is requested, and the next capture may go. -/
theorem Hw.hangAssemble_of_due {h : Hw} (due : h.obs.due = true) (held : bit (h.reg .pmcHangStatus) 0 = true) :
    h.hangAssemble = (h.reportKept.vector (fld (h.reg .pmcHangStatus) 8 6 + 1) 4).hangRelease :=
  if_neg (by simp [due, held])

/-! Freed bins (R825). -/

/-- The registers of the given names at one place are set to 0, one after the other. -/
def Hw.zeroed (h : Hw) (ids : List RegId) (n b : Nat) : Hw := ids.foldl (fun (h : Hw) id => h.setReg id n b 0#32) h

/-- The registers that are set to 0 read 0, and every other reads as before. -/
theorem Hw.reg_zeroed (h : Hw) (ids : List RegId) (n b : Nat) (id : RegId) (i j : Nat) :
    (h.zeroed ids n b).reg id i j = if id ∈ ids ∧ n = i ∧ b = j then 0#32 else h.reg id i j := by
  induction ids generalizing h with
  | nil => simp [Hw.zeroed]
  | cons x ids ih =>
    have head : h.zeroed (x :: ids) n b = (h.setReg x n b 0#32).zeroed ids n b := rfl
    rw [head, ih, Hw.reg_setReg]
    by_cases place : n = i ∧ b = j
    · by_cases first : x = id
      · simp [place, first]
      · simp [place, first, Ne.symm first]
    · simp [place]

/-- The register file is all that changes. -/
theorem Hw.zeroed_regs (h : Hw) (ids : List RegId) (n b : Nat) : h.zeroed ids n b = { h with regs := (h.zeroed ids n b).regs } := by
  induction ids generalizing h with
  | nil => rfl
  | cons x ids ih => exact ih (h.setReg x n b 0#32)

theorem Hw.onlyRegs_zeroed (h : Hw) (ids : List RegId) (n b : Nat) : h.OnlyRegs (h.zeroed ids n b) ids :=
  ⟨h.zeroed_regs ids n b, fun id i j other => (h.reg_zeroed ids n b id i j).trans (if_neg fun inside => other inside.1)⟩

/-- The words of a tag bin (Tables 19.6 and 19.7). -/
def binWords : List RegId :=
  [.pmcBinKey, .pmcBinCmds, .pmcBinBusyLo, .pmcBinBusyHi, .pmcBinStallLo, .pmcBinStallHi, .pmcBinBytesLo, .pmcBinBytesHi]

/-- A freed bin's words are 0, and nothing else changes. -/
theorem Hw.binFree_words (h : Hw) (n b : Nat) :
    (∀ id ∈ binWords, (h.binFree n b).reg id n b = 0#32) ∧ h.OnlyRegs (h.binFree n b) binWords :=
  ⟨fun id word => (h.reg_zeroed binWords n b id n b).trans (if_pos ⟨word, rfl, rfl⟩), h.onlyRegs_zeroed binWords n b⟩

/-- A write of 0 to a bin's cmds word leaves valid at 0. -/
theorem viewValue_binCmds_zero (w : Word) : viewValue .pmcBinCmds 0 w 0#32 = 0#32 := by
  have whole : (RegId.desc .pmcBinCmds).wmask = 0xFFFFFFFF#32 := rfl
  unfold viewValue merge
  simp [whole]

/-- A write of 0 to a bin's cmds word frees the bin. -/
theorem Hw.writeAt_binCmds_zero {h : Hw} {p : Path} {n b : Nat} (opened : h.writeOpen p ⟨.pmcBinCmds, n, b⟩) :
    h.writeAt p ⟨.pmcBinCmds, n, b⟩ 0#32 = (h.readied p).binFree n b := by
  rw [Hw.writeAt_open opened]
  exact if_neg (by simp [viewValue_binCmds_zero, bit])

end Sys2Proof.Machine

open Sys2Proof Sys2Proof.Machine

/-- Settles O60: freeze requests, the limits of waits, the release and the report of a capture, and freed bins. -/
theorem observation : Obligations.Observation := by
  unfold Obligations.Observation
  intro s h
  refine ⟨fun p v opened => ?freeze, ?waits, fun p opened => ?release, fun running due held => ?report, fun p n b opened => ?bin⟩
  case freeze =>
    have sends {op : Nat} (named : op = 1 ∨ op = 2) :=
      (Hw.pmcGongWrite_open opened op v).trans ((h.readied p).freezeReq_gongRequest p _ v named)
    exact ⟨(completes_pmcFreeze p v s _).2 (sends (.inl rfl)), (completes_pmcThaw p v s _).2 (sends (.inr rfl))⟩
  case waits =>
    intro running n e w0 w1 age t valid
    refine ⟨fun enabled notTile notHeld notGate owned watched runs late => ?hang, fun dieOwned aged => ?dieWait⟩
    case hang =>
      have trips := Hw.hangTrip_of_late rfl valid enabled notTile notHeld notGate owned watched runs late
      exact (completes_hangWatchdogTrip n e s _).2 ((Hw.clocked_on running).trans trips)
    case dieWait =>
      exact (completes_dieWaitLimit n e s _).2 ((Hw.clocked_on running).trans (Hw.dieWaitLimit_of_age valid dieOwned aged))
  case release =>
    exact (completes_hangRelease p s _).2 (Hw.writeAt_open opened 1#32)
  case report =>
    exact (completes_hangReportAssemble s _).2 ((Hw.clocked_on running).trans (Hw.hangAssemble_of_due due held))
  case bin =>
    rw [completes_binFree, Hw.writeAt_binCmds_zero opened]
    exact (h.readied p).binFree_words n b.toNat

end

section
/-! Time that passes (entries 1 and 2 of the log), what every step keeps, the state after reset, and the obligations on them. -/

namespace Sys2Proof.Machine

/-- The block but for its register file, its counter of free values and the acts since time last passed: what the observation of time leaves. -/
def Hw.unobserved (h : Hw) : Hw := { h with regs := [], free := 0, busy := [] }

@[simp] theorem Hw.unobserved_setReg (h : Hw) (id : RegId) (i j : Nat) (v : Word) : (h.setReg id i j v).unobserved = h.unobserved := rfl

@[simp] theorem Hw.unobserved_modReg (h : Hw) (id : RegId) (i j : Nat) (f : Word → Word) : (h.modReg id i j f).unobserved = h.unobserved := rfl

@[simp] theorem Hw.unobserved_add64 (h : Hw) (lo hi : RegId) (i j d : Nat) : (h.add64 lo hi i j d).unobserved = h.unobserved := rfl

@[simp] theorem Hw.unobserved_fresh (h : Hw) : h.fresh.2.unobserved = h.unobserved := rfl

theorem Hw.unobserved_set_free (h : Hw) (n : Nat) : ({ h with free := n } : Hw).unobserved = h.unobserved := rfl

@[simp] theorem Hw.unobserved_chCount (h : Hw) (lo hi : RegId) (c d : Nat) : (h.chCount lo hi c d).unobserved = h.unobserved := by
  unfold Hw.chCount
  split <;> rfl

@[simp] theorem Hw.unobserved_binStall (h : Hw) (n k : Nat) : (h.binStall n k).unobserved = h.unobserved := by
  unfold Hw.binStall
  dsimp only
  (repeat' split) <;> rfl

@[simp] theorem Hw.unobserved_engineCount (h : Hw) (k n e : Nat) : (h.engineCount k n e).unobserved = h.unobserved := by
  unfold Hw.engineCount
  dsimp only
  simp [apply_ite Hw.unobserved, apply_ite (Prod.snd (α := Nat) (β := Hw))]

@[simp] theorem Hw.unobserved_refreshWaits (h : Hw) : h.refreshWaits.unobserved = h.unobserved := by
  unfold Hw.refreshWaits
  dsimp only
  rw [Hw.unobserved_set_free]
  refine Hw.foldl_same Hw.unobserved _ _ (fun g n => ?_) h
  refine Hw.foldl_same Hw.unobserved _ _ (fun g e => ?_) g
  exact Hw.foldl_same Hw.unobserved _ _ (fun g w => Hw.unobserved_setReg _ _ _ _ _) g

theorem Hw.unobserved_observeTime (h : Hw) (k : Nat) : (h.observeTime k).unobserved = h.unobserved := by
  unfold Hw.observeTime
  extract_lets g g'
  have counted : g'.unobserved = g.unobserved := by
    subst g'
    split
    · rfl
    · refine Hw.foldl_same Hw.unobserved _ _ (fun a n => Hw.foldl_same Hw.unobserved _ _ (fun b e => ?_) a) g
      split
      · exact Hw.unobserved_engineCount b k n e
      · rfl
  exact counted.trans (Hw.unobserved_refreshWaits h)

theorem Hw.unobserved_stallTime (h : Hw) (k : Nat) : (h.stallTime k).unobserved = h.unobserved :=
  Hw.foldl_same Hw.unobserved _ _ (fun g _ => Hw.unobserved_chCount g _ _ _ _) h

/-- As time passes, the time goes on, and the observation of time changes registers. -/
theorem Hw.unobserved_advance (h : Hw) (k : Nat) : (h.advance k).unobserved = { h.unobserved with now := h.now + k } := by
  have same : ((h.observeTime k).stallTime k).unobserved = h.unobserved :=
    (Hw.unobserved_stallTime _ k).trans (Hw.unobserved_observeTime h k)
  calc (h.advance k).unobserved
    _ = { ((h.observeTime k).stallTime k).unobserved with now := ((h.observeTime k).stallTime k).unobserved.now + k } := rfl
    _ = { h.unobserved with now := h.now + k } := by rw [same]; rfl

theorem Hw.now_advance (h : Hw) (k : Nat) : (h.advance k).now = h.now + k :=
  (congrArg Hw.now (h.unobserved_advance k) :)

theorem Hw.mem_advance (h : Hw) (k : Nat) : (h.advance k).mem = h.mem :=
  (congrArg Hw.mem (h.unobserved_advance k) :)

theorem Hw.bar_advance (h : Hw) (k : Nat) : (h.advance k).bar = h.bar :=
  (congrArg Hw.bar (h.unobserved_advance k) :)

theorem Hw.reg_powerOn {id : RegId} (other : id ≠ .ancResetCause) (i j : Nat) : Hw.powerOn.reg id i j = id.desc.reset := by
  unfold Hw.powerOn
  rw [Hw.reg_setReg, if_neg (fun e => other e.1.symm)]
  rfl

end Sys2Proof.Machine

open Sys2Proof Sys2Proof.Machine

/-- Settles O1: a step takes the front of the queue. -/
theorem commandAtFrontRuns : Obligations.CommandAtFrontRuns := fun _ _ => rfl

/-- Settles O2: what a step on an empty queue does outside a bar, within one and in its last cycle. -/
theorem idleStepIsOneCycle : Obligations.IdleStepIsOneCycle := by
  unfold Obligations.IdleStepIsOneCycle
  intro s idle
  have tick : step s = .next { s with hw := s.hw.tick } := by
    unfold step
    rw [idle]
  rw [tick]
  unfold Hw.tick
  refine ⟨fun stands => ?_, fun running clock inBar => ?_⟩
  · rw [if_pos (by simpa using stands)]
  · rw [if_neg (by simpa [running] using clock), if_pos inBar]
    refine ⟨fun early => ?_, fun last => ?_⟩
    · rw [if_pos early]
      refine ⟨_, rfl, idle, Hw.now_advance s.hw 1, ?_, (congrArg Prod.fst (Hw.vault_advance s.hw 1) :), Hw.mem_advance s.hw 1⟩
      change { (s.hw.advance 1).bar with phase := (s.hw.advance 1).bar.phase + 1 } = _
      rw [Hw.bar_advance]
    · rw [if_neg (Nat.not_lt.2 last)]

/-- Settles O3: every command's meaning is an operation on the block, which always answers. -/
theorem everyCommandCompletes : Obligations.EveryCommandCompletes := by
  unfold Obligations.EveryCommandCompletes
  intro c s
  cases c <;> exact ⟨_, rfl, rfl, trivial⟩

/-- Settles O4: the state after reset. -/
theorem resetState : Obligations.ResetState := by
  unfold Obligations.ResetState
  intro h
  have noPending : ∀ c, h.cplPend c = none := fun c => by cases c <;> rfl
  have cold : h.dieState = stColdReset := by decide
  have byPower : h.reg .ancResetCause = 1#32 := by decide
  exact ⟨rfl, cold, byPower, fun _ i j other => Hw.reg_powerOn other i j, rfl, rfl, rfl, rfl, fun _ => rfl, noPending, rfl, rfl, rfl, rfl, rfl,
    fun _ => rfl, rfl, rfl, rfl, fun _ => rfl, rfl, rfl⟩

/-- Settles O5: empty memories are canonical, and no bar counts. -/
theorem resetMeetsInvariant : Obligations.ResetMeetsInvariant := ⟨rfl, BarState.inRange_default⟩

/-- Settles O8: each command that is not named is an operation that leaves the lasting store alone (Laws/Vault). -/
theorem lastingStoreFrame : Obligations.LastingStoreFrame := by
  unfold Obligations.LastingStoreFrame
  intro c s t e
  cases c
  case pwrGoodLow | rstNLow | refclkLoss | coldReset | perstNAssert | pfFlr | warmReset | rootPllRelock | pllLock | fuseBurnDone | bootStart |
    nvmCommandTimeout | warmScrubDone | runEntry | progCommandDone | barBoundary | flitSinkDelivery | beatArrival | slabWrite | move | moveDone |
    patrolScrub | pageZeroDone | granuleZero | memoryPathAccess | bar2Write | restartReady | droopGateEnd | nvmWrite | nvmErase => trivial
  case gongNoticeArrival via =>
    cases e
    refine Hw.vault_clocked _ _ fun h => ?_
    cases via with
    | none => exact Hw.vault_gongLocal h
    | some q => exact Hw.vault_gongArrive h q
  case malformed i cmd =>
    cases e
    refine Hw.vault_clocked _ _ fun h => ?_
    cases cmd with
    | none => exact Hw.vault_malformedRun h i
    | some c => exact Hw.vault_malformedCmd h i c.1.toNat c.2.toNat
  case hbmPairFail q =>
    cases e
    refine Hw.vault_clocked _ (fun h => if h.running = true then h.pairFail q 0x46 else h) fun h => ?_
    split
    · exact Hw.vault_pairFail h q 0x46
    · rfl
  all_goals
    cases e
    simp [Hw.vault_clocked]

namespace Sys2Proof.Machine

/-- What a command keeps of the lasting store: all of it, but for the commands that O8 names, whose operations keep it sound (Laws/Kept). -/
theorem exec_kept (c : Instr) (s t : State) (e : exec c s = .next t) : Kept s.hw.vault t.hw.vault := by
  have start := Kept.rfl' s.hw.vault
  have frame := lastingStoreFrame c s t e
  cases c
  case pwrGoodLow => cases e; exact Hw.kept_pwrGoodLow _ start
  case rstNLow => cases e; exact Hw.kept_rstNLow _ start
  case refclkLoss => cases e; exact Hw.kept_refclkLoss _ start
  case coldReset => cases e; exact Hw.kept_coldBegins _ start
  case perstNAssert => cases e; exact Hw.kept_perstLow _ start
  case pfFlr => cases e; exact Hw.kept_pfFlr _ start
  case warmReset => cases e; exact Hw.kept_warmBegins _ start
  case rootPllRelock => cases e; exact Hw.kept_rootRelock _ start
  case pllLock => cases e; exact Hw.kept_pllLocks _ _ start
  case fuseBurnDone => cases e; exact Hw.kept_burnDone _ _ start
  case bootStart => cases e; exact Hw.kept_bootStart _ start
  case nvmCommandTimeout => cases e; exact Hw.kept_nvmTimeout _ _ start
  case warmScrubDone => cases e; exact Hw.kept_scrubDone _ start
  case runEntry => cases e; exact Hw.kept_runEntry _ start
  case progCommandDone => cases e; exact Hw.kept_progDone _ _ start
  case barBoundary => cases e; exact Hw.kept_barBoundary _ _ _ _ start
  case flitSinkDelivery n ue => cases e; refine Hw.kept_clocked _ (·.sinkDeliver n ue) start ?_; exact Hw.kept_sinkDeliver _ n ue start
  case beatArrival q hold hops => cases e; refine Hw.kept_clocked _ _ start ?_; exact Hw.kept_beatArrive _ q _ _ start
  case slabWrite => cases e; refine Hw.kept_clocked _ _ start ?_; exact Hw.kept_slabLaneWrite _ _ _ _ _ _ _ start
  case move => cases e; refine Hw.kept_clocked _ _ start ?_; exact Hw.kept_cmdMove _ _ _ _ start
  case moveDone => cases e; refine Hw.kept_clocked _ _ start ?_; exact Hw.kept_moveDone _ _ _ start
  case patrolScrub => cases e; refine Hw.kept_clocked _ _ start ?_; exact Hw.kept_patrol _ _ _ _ start
  case pageZeroDone => cases e; refine Hw.kept_clocked _ _ start ?_; exact Hw.kept_pageZeroDone _ _ start
  case granuleZero => cases e; refine Hw.kept_clocked _ _ start ?_; exact Hw.kept_zeroNext _ _ start
  case memoryPathAccess => cases e; refine Hw.kept_clocked _ _ start ?_; exact Hw.kept_memPerform _ _ _ _ _ _ _ _ start
  case bar2Write => cases e; refine Hw.kept_clocked _ _ start ?_; exact Hw.kept_bar2Write _ _ _ _ start
  case restartReady => cases e; refine Hw.kept_clocked _ _ start ?_; exact Hw.kept_restartReady _ _ start
  case droopGateEnd => cases e; refine Hw.kept_clocked _ _ start ?_; exact Hw.kept_droopEnd _ start
  case nvmWrite => cases e; refine Hw.kept_clocked _ _ start ?_; exact Hw.kept_serviceNvmWrite _ _ _ _ start
  case nvmErase => cases e; refine Hw.kept_clocked _ _ start ?_; exact Hw.kept_serviceNvmErase _ _ _ start
  all_goals exact (congrArg (Kept s.hw.vault) frame).mpr start

/-- What a step keeps of the lasting store, whether a command waits or time passes. -/
theorem step_kept (s t : State) (e : step s = .next t) : Kept s.hw.vault t.hw.vault := by
  unfold step at e
  cases waiting : s.pending with
  | nil =>
    rw [waiting] at e
    cases e
    exact Hw.kept_tick _ (Kept.rfl' _)
  | cons c rest =>
    rw [waiting] at e
    exact exec_kept c { s with pending := rest } t e

end Sys2Proof.Machine

/-- Settles O6, by what a step keeps of the memories and of the bar counter. -/
theorem stepKeepsInvariant : Obligations.StepKeepsInvariant := by
  unfold Obligations.StepKeepsInvariant
  intro s t ok inRange e
  have kept := step_kept s t e
  simp only [Hw.memoriesOk, Bool.and_eq_true] at ok ⊢
  obtain ⟨⟨slab, hbm⟩, nvm⟩ := ok
  exact ⟨⟨⟨kept.slab slab, kept.hbm hbm⟩, kept.nvm nvm⟩, kept.bar inRange⟩

/-- Settles O7, by what a step keeps of the fuses. -/
theorem burnedFusesStay : Obligations.BurnedFusesStay := fun s t e => (step_kept s t e).fuses

end

section
/-! PLLs (R49, R51, R53 to R55), port resets (R78, R85), and the obligation on both. -/

namespace Sys2Proof.Machine

/-! A register reads by the register file alone, whatever else of the block is changed. -/

theorem Hw.reg_set_now (h : Hw) (x : Nat) (id : RegId) (i j : Nat) : ({ h with now := x } : Hw).reg id i j = h.reg id i j := rfl
theorem Hw.reg_set_free (h : Hw) (x : Nat) (id : RegId) (i j : Nat) : ({ h with free := x } : Hw).reg id i j = h.reg id i j := rfl
theorem Hw.reg_set_cpl (h : Hw) (x : CplState) (id : RegId) (i j : Nat) : ({ h with cpl := x } : Hw).reg id i j = h.reg id i j := rfl
theorem Hw.reg_set_bar (h : Hw) (x : BarState) (id : RegId) (i j : Nat) : ({ h with bar := x } : Hw).reg id i j = h.reg id i j := rfl
theorem Hw.reg_set_rst (h : Hw) (x : ResetState) (id : RegId) (i j : Nat) : ({ h with rst := x } : Hw).reg id i j = h.reg id i j := rfl
theorem Hw.reg_set_fuse (h : Hw) (x : FuseArray) (id : RegId) (i j : Nat) : ({ h with fuse := x } : Hw).reg id i j = h.reg id i j := rfl
theorem Hw.reg_set_nvm (h : Hw) (x : NvmState) (id : RegId) (i j : Nat) : ({ h with nvm := x } : Hw).reg id i j = h.reg id i j := rfl
theorem Hw.reg_set_boot (h : Hw) (x : BootState) (id : RegId) (i j : Nat) : ({ h with boot := x } : Hw).reg id i j = h.reg id i j := rfl
theorem Hw.reg_set_fault (h : Hw) (x : FaultState) (id : RegId) (i j : Nat) : ({ h with fault := x } : Hw).reg id i j = h.reg id i j := rfl
theorem Hw.reg_set_msix (h : Hw) (x : List (Nat × Word)) (id : RegId) (i j : Nat) : ({ h with msix := x } : Hw).reg id i j = h.reg id i j := rfl
theorem Hw.reg_set_bnet (h : Hw) (x : BnetState) (id : RegId) (i j : Nat) : ({ h with bnet := x } : Hw).reg id i j = h.reg id i j := rfl
theorem Hw.reg_set_cnet (h : Hw) (x : CnetState) (id : RegId) (i j : Nat) : ({ h with cnet := x } : Hw).reg id i j = h.reg id i j := rfl
theorem Hw.reg_set_snet (h : Hw) (x : SnetState) (id : RegId) (i j : Nat) : ({ h with snet := x } : Hw).reg id i j = h.reg id i j := rfl
theorem Hw.reg_set_fold (h : Hw) (x : FoldState) (id : RegId) (i j : Nat) : ({ h with fold := x } : Hw).reg id i j = h.reg id i j := rfl
theorem Hw.reg_set_mem (h : Hw) (x : MemState) (id : RegId) (i j : Nat) : ({ h with mem := x } : Hw).reg id i j = h.reg id i j := rfl
theorem Hw.reg_set_coll (h : Hw) (x : CollState) (id : RegId) (i j : Nat) : ({ h with coll := x } : Hw).reg id i j = h.reg id i j := rfl
theorem Hw.reg_set_host (h : Hw) (x : HostState) (id : RegId) (i j : Nat) : ({ h with host := x } : Hw).reg id i j = h.reg id i j := rfl
theorem Hw.reg_set_jobs (h : Hw) (x : List (Nat × JobState)) (id : RegId) (i j : Nat) : ({ h with jobs := x } : Hw).reg id i j = h.reg id i j := rfl
theorem Hw.reg_set_power (h : Hw) (x : PowerState) (id : RegId) (i j : Nat) : ({ h with power := x } : Hw).reg id i j = h.reg id i j := rfl
theorem Hw.reg_set_stw (h : Hw) (x : StewardState) (id : RegId) (i j : Nat) : ({ h with stw := x } : Hw).reg id i j = h.reg id i j := rfl
theorem Hw.reg_set_dbg (h : Hw) (x : DebugState) (id : RegId) (i j : Nat) : ({ h with dbg := x } : Hw).reg id i j = h.reg id i j := rfl
theorem Hw.reg_set_obs (h : Hw) (x : ObsState) (id : RegId) (i j : Nat) : ({ h with obs := x } : Hw).reg id i j = h.reg id i j := rfl
theorem Hw.reg_set_opId (h : Hw) (x : Nat) (id : RegId) (i j : Nat) : ({ h with opId := x } : Hw).reg id i j = h.reg id i j := rfl

/-- Words of some registers are forgotten: they read their reset values again. -/
theorem Hw.reg_dropRegs (h : Hw) (p : Reg → Bool) (id : RegId) (i j : Nat) :
    (h.dropRegs p).reg id i j = if p ⟨id, i, j⟩ then id.desc.reset else h.reg id i j := by
  unfold Hw.reg Hw.dropRegs
  rw [sget_filter h.regs (fun r => !p r)]
  cases p ⟨id, i, j⟩ <;> rfl

theorem Hw.reg_dropRegs_other {h : Hw} {p : Reg → Bool} {id : RegId} {i j : Nat} (out : p ⟨id, i, j⟩ = false) :
    (h.dropRegs p).reg id i j = h.reg id i j := by
  rw [Hw.reg_dropRegs, out]
  rfl

theorem Hw.reg_modReg_other {id id' : RegId} (n : id ≠ id') (h : Hw) (i j i' j' : Nat) (f : Word → Word) :
    (h.modReg id i j f).reg id' i' j' = h.reg id' i' j' := by
  rw [Hw.reg_modReg, if_neg (fun e => n e.1)]

theorem Hw.reg_setReg_other {id id' : RegId} (n : id ≠ id') (h : Hw) (i j i' j' : Nat) (v : Word) :
    (h.setReg id i j v).reg id' i' j' = h.reg id' i' j' := by
  rw [Hw.reg_setReg, if_neg (fun e => n e.1)]

/-! PLLs. -/

theorem Hw.reg_pllUnlock {id : RegId} (n : .clkStatus ≠ id) (n' : .clkEvt ≠ id) (h : Hw) (w : PllId) (i j : Nat) :
    (h.pllUnlock w).reg id i j = h.reg id i j := by
  unfold Hw.pllUnlock
  rw [Hw.reg_modReg_other n', Hw.reg_modReg_other n]

theorem Hw.dieState_pllUnlock (h : Hw) (w : PllId) : (h.pllUnlock w).dieState = h.dieState :=
  congrArg (fld · 0 4) (Hw.reg_pllUnlock (by decide) (by decide) h w 0 0)

/-- The time that a record shows is the bar counter's. -/
theorem Hw.stamp_congr {g h : Hw} (e : g.bar = h.bar) : g.stamp = h.stamp := by
  unfold Hw.stamp
  rw [e]

theorem Hw.stamp_modReg (h : Hw) (id : RegId) (i j : Nat) (f : Word → Word) : (h.modReg id i j f).stamp = h.stamp := rfl

theorem Hw.stamp_setDieState (h : Hw) (s : Nat) : (h.setDieState s).stamp = h.stamp := Hw.stamp_congr (Hw.bar_of_vault (Hw.vault_setDieState h s))

theorem Hw.stamp_pllUnlock (h : Hw) (w : PllId) : (h.pllUnlock w).stamp = h.stamp := rfl

/-- Without the root PLL the die loses its clock, and F0 ROOT_CLOCK is recorded (R51). -/
theorem Hw.rootUnlock_of_out {h : Hw} (out : h.dieState ≠ 0) :
    h.rootUnlock = ((((h.pllUnlock .root).setDieState stClockLost).modReg .clkStatus 0 0 (setBit · 18 true)).modReg .ancFaultCond 0 0
      (setBit · 0 true)).recordF0 0x48 anchorNode h.stamp.1 := by
  unfold Hw.rootUnlock
  dsimp only
  rw [Hw.dieState_pllUnlock, if_neg (show h.dieState ≠ stColdReset from out)]
  rw [Hw.stamp_modReg, Hw.stamp_modReg, Hw.stamp_setDieState, Hw.stamp_pllUnlock]

/-- The usable pairs of a stack are mapped out as its PLL is lost (R54). -/
theorem Hw.hbmPllUnlock_of_out {h : Hw} (out : h.dieState ≠ 0) (k : Fin 6) :
    h.hbmPllUnlock k = (((List.range 16).foldl (fun (h : Hw) q => if h.pairUsable (16 * k + q) then h.pairOut (16 * k + q) true else h)
      (h.pllUnlock (.hbm k))).modReg .ancFaultCond 0 0 (setBit · 4 true)).raiseF0 0x47 (nodeOf 1 (2 * k)) 0 := by
  unfold Hw.hbmPllUnlock
  dsimp only
  rw [Hw.dieState_pllUnlock, if_neg (show h.dieState ≠ stColdReset from out)]

/-- A lock sets the PLL's bit, and the root PLL's does no more where it starts no warm reset (R49, R51). -/
theorem Hw.pllLocks_of_noRelock {h : Hw} {w : PllId} (held : w = .root → h.dieState = 7 → bit (h.reg .clkRootCfg) 16 = true) :
    h.pllLocks w = h.pllLock w := by
  unfold Hw.pllLocks
  by_cases root : w = .root
  · have state : (h.pllLock .root).dieState = h.dieState := congrArg (fld · 0 4) (Hw.reg_modReg_other (by decide) h _ _ _ _ _)
    have config : (h.pllLock .root).reg .clkRootCfg = h.reg .clkRootCfg := Hw.reg_modReg_other (by decide) h _ _ _ _ _
    have stays : ¬ ((h.pllLock .root).dieState = stClockLost ∧ (!bit ((h.pllLock .root).reg .clkRootCfg) 16) = true) := by
      rw [state, config]
      rintro ⟨lost, free⟩
      rw [held root lost] at free
      cases free
    rw [if_pos root, root]
    exact if_neg stays
  · exact if_neg root

/-- A port that is in use has its reset begun as its PHY PLL is lost (R53). -/
theorem Hw.phyPllUnlock_of_used {h : Hw} {p : Port} (up : h.portIsDown p = false) (on : h.phyState p ≠ 0) :
    h.phyPllUnlock p = ((h.pllUnlock (.phy p)).modPhy p (fun q => { q with pllLost := true })).torusPortReset p := by
  have down : (h.pllUnlock (.phy p)).portIsDown p = h.portIsDown p := by
    unfold Hw.portIsDown Hw.linkState Hw.phyState
    rw [Hw.reg_pllUnlock (by decide) (by decide), Hw.reg_pllUnlock (by decide) (by decide)]
  have state : (h.pllUnlock (.phy p)).phyState p = h.phyState p := by
    unfold Hw.phyState
    rw [Hw.reg_pllUnlock (by decide) (by decide)]
  unfold Hw.phyPllUnlock
  dsimp only
  rw [down, state, up, if_neg (by simpa [phOff] using on)]

/-! Port resets. -/

/-- The block but for its registers and the PHYs' own state: what the training of a port leaves as it is. -/
def Hw.besidePhy (h : Hw) : Hw := { h with regs := [], phy := [] }

theorem Hw.besidePhy_lanesTo (h : Hw) (p : Nat) (ks : List Nat) (s : Nat) (tx : Bool) : (h.lanesTo p ks s tx).besidePhy = h.besidePhy := by
  rw [Hw.lanesTo_keeps]
  rfl

theorem Hw.besidePhy_setReg (h : Hw) (id : RegId) (i j : Nat) (v : Word) : (h.setReg id i j v).besidePhy = h.besidePhy := rfl

theorem Hw.besidePhy_setPhy (h : Hw) (p : Nat) (v : PhyPort) : (h.setPhy p v).besidePhy = h.besidePhy := rfl

theorem Hw.besidePhy_lane17Mode (h : Hw) (p : Nat) (nrz : Bool) : (h.lane17Mode p nrz).besidePhy = h.besidePhy := by
  unfold Hw.lane17Mode
  dsimp only
  split
  · rfl
  · rw [Hw.besidePhy_setPhy]
    refine (Hw.foldl_same Hw.besidePhy _ _ (fun g k => ?_) _).trans ((Hw.foldl_same Hw.besidePhy _ _ (fun g k => ?_) _).trans ?_)
    · exact Hw.besidePhy_setReg _ _ _ _ _
    · exact Hw.besidePhy_setReg _ _ _ _ _
    · rfl

theorem Hw.besidePhy_phyStop (h : Hw) (p s : Nat) : (h.phyStop p s).besidePhy = h.besidePhy := Hw.besidePhy_lanesTo h p allLanes laOff false

theorem Hw.besidePhy_phySbAcq (h : Hw) (p : Nat) : (h.phySbAcq p).besidePhy = h.besidePhy :=
  (Hw.besidePhy_lanesTo _ p _ _ _).trans (Hw.besidePhy_lane17Mode (h.setPhyState p phSbAcq) p true)

theorem Hw.besidePhy_phyTrain (h : Hw) (p : Nat) (cold : Bool) : (h.phyTrain p cold).besidePhy = h.besidePhy := by
  unfold Hw.phyTrain
  dsimp only
  split
  · exact Hw.besidePhy_phyStop h p phCal
  · exact (Hw.besidePhy_phySbAcq _ p).trans (Hw.besidePhy_phyStop h p phCal)

/-- What is left of a torus port as its reset begins: what its sideband still sends, and nothing of its frames (R78, Table 2.3). -/
def Hw.torusCleared (h : Hw) (p : Nat) : Hw :=
  let l := h.linkOf p
  let us := (l.unacked.zip (List.range l.unacked.length)).map (fun x => { x.1 with useq := x.2 })
  let h := h.setLink p { queue := l.queue, relay := l.relay, lctl := [], fwd := l.fwd, cur0 := l.cur0, cur1 := l.cur1, turn := l.turn,
                         unacked := us, useq := us.length, resend := if us.isEmpty then none else some 0,
                         back := some (h.now, (h.phyOf p).pllLost) }
  let h := h.dropRegs (fun r => (decide (r.id = RegId.lnkLaneEc) || decide (r.id = RegId.lnkLqi) || decide (r.id = RegId.lnkRtt) ||
    decide (r.id = RegId.lnkPeer)) && r.i == p)
  let h := (List.range 18).foldl (fun h k => h.modReg .phyQual (laneIx p k) 0 (setFld · 16 8 0)) h
  h.dropRegs (fun r => decide (r.id = RegId.phySleepBars) && r.i == commonIx p)

/-- The reset of a torus port that is in use clears it and trains it. -/
theorem Hw.torusPortReset_of_used {h : Hw} {p : Nat} (up : h.portIsDown p = false) (on : h.phyState p ≠ 0) :
    h.torusPortReset p = (((h.torusCleared p).setLinkState p lsTraining).linkEvt p 0).phyTrain p (h.phyOf p).pllLost := by
  unfold Hw.torusPortReset
  rw [up, if_neg (by simpa [phOff] using on)]
  rfl

theorem Hw.besidePhy_torusCleared (h : Hw) (p : Nat) : ∃ l : LinkPort, l.replay = [] ∧ l.next = 0 ∧ l.expected = 0 ∧
    (h.torusCleared p).besidePhy = (h.setLink p l).besidePhy := by
  unfold Hw.torusCleared
  extract_lets l us h1 h2 h3
  refine ⟨_, rfl, rfl, rfl, (?_ : h3.besidePhy = h1.besidePhy)⟩
  refine Hw.foldl_same Hw.besidePhy _ _ (fun _ _ => ?_) h2
  rfl

/-- Its lanes' error counts and LQI are cleared (Table 2.3). -/
theorem Hw.reg_torusCleared_lane (h : Hw) (p k : Nat) {id : RegId} (lane : id = .lnkLaneEc ∨ id = .lnkLqi) :
    (h.torusCleared p).reg id p k = 0#32 := by
  have noQual : RegId.phyQual ≠ id := by rcases lane with rfl | rfl <;> decide
  have noSleep : id ≠ RegId.phySleepBars := by rcases lane with rfl | rfl <;> decide
  have reset : id.desc.reset = 0#32 := by rcases lane with rfl | rfl <;> rfl
  unfold Hw.torusCleared
  dsimp only
  rw [Hw.reg_dropRegs_other (by simp [noSleep]), Hw.foldl_same (fun h : Hw => h.reg id p k) _ _ (fun h n => Hw.reg_modReg_other noQual h _ _ _ _ _),
    Hw.reg_dropRegs, if_pos, reset]
  rcases lane with rfl | rfl <;> simp

/-- What a torus port in use is left with by its reset. -/
theorem Hw.torusPortReset_clears {h : Hw} {p : Nat} (up : h.portIsDown p = false) (on : h.phyState p ≠ 0) :
    let g := h.torusPortReset p
    g.rst = h.rst ∧ g.linkState p = lsTraining ∧ g.phyState p = (if (h.phyOf p).pllLost then phCal else phSbAcq) ∧
    (g.linkOf p).replay = [] ∧ (g.linkOf p).next = 0 ∧ (g.linkOf p).expected = 0 ∧
    ∀ k, g.reg .lnkLaneEc p k = 0#32 ∧ g.reg .lnkLqi p k = 0#32 := by
  intro g
  have trained : g = _ := Hw.torusPortReset_of_used up on
  obtain ⟨l, replay, next, expected, cleared⟩ := Hw.besidePhy_torusCleared h p
  have beside : g.besidePhy = (h.setLink p l).besidePhy := by
    rw [trained]
    exact (Hw.besidePhy_phyTrain _ p _).trans cleared
  have link : g.linkOf p = l := by
    have stored : g.link = (h.setLink p l).link := (congrArg Hw.link beside :)
    unfold Hw.linkOf
    rw [stored]
    exact (Hw.linkOf_setLink h p p l).trans (if_pos rfl)
  have lane (id : RegId) (k : Nat) (isLane : id = .lnkLaneEc ∨ id = .lnkLqi) : g.reg id p k = 0#32 := by
    rw [trained, Hw.reg_phyTrain _ _ _ _ _ _ (by rcases isLane with rfl | rfl <;> decide)]
    unfold Hw.linkEvt Hw.setLinkState
    rw [Hw.reg_modReg_other (by rcases isLane with rfl | rfl <;> decide), Hw.reg_modReg_other (by rcases isLane with rfl | rfl <;> decide)]
    exact Hw.reg_torusCleared_lane h p k isLane
  refine ⟨(congrArg Hw.rst beside :), ?_, ?_, ?_, ?_, ?_, fun k => ⟨lane _ k (.inl rfl), lane _ k (.inr rfl)⟩⟩
  · unfold Hw.linkState
    rw [trained, Hw.reg_phyTrain _ _ _ _ _ _ (by decide)]
    unfold Hw.linkEvt Hw.setLinkState
    rw [Hw.reg_modReg_other (by decide), Hw.reg_modReg, if_pos ⟨rfl, rfl, rfl⟩]
    exact fld_setFld_same _ _ _ _ (by decide)
  · rw [trained, Hw.phyState_phyTrain]
  · rw [link, replay]
  · rw [link, next]
  · rw [link, expected]

/-- The registers of a node's tile port's own engine (Table 19.1). -/
def portEngineReg (n : Nat) (r : Reg) : Bool :=
  r.i == n && r.j == 7 && decide (r.id = RegId.pmcEngineBusyLo ∨ r.id = RegId.pmcEngineBusyHi ∨
    r.id = RegId.pmcEngineStallLo ∨ r.id = RegId.pmcEngineStallHi ∨ r.id = RegId.pmcEngineIdleLo ∨ r.id = RegId.pmcEngineIdleHi ∨
    r.id = RegId.pmcEngineSelLo ∨ r.id = RegId.pmcEngineSelHi ∨ r.id = RegId.pmcStallReason)

/-- The reset of a tile port: once what its tile had under way has left the networks (g), the port is emptied, its violations are cleared, and it
enters RESET, or MASKED where it is masked. -/
theorem Hw.tilePortReset_eq (h : Hw) (i : Nat) : ∃ (g : Hw) (w : Word) (s : Nat), g.rst = h.rst ∧ (s = psReset ∨ s = psMasked) ∧
    h.tilePortReset i = (((((g.setPort i { resetAt := h.now, tclkBad := (h.port i).tclkBad }).setReg .tpViolCnt (tileNode i) 0 0#32).setReg
      .tpViolEvt (tileNode i) 0 0#32).setReg .tpViolLog (tileNode i) 0 0#32).setReg .tpCond (tileNode i) 0 (setFld w 0 4 s)).dropRegs
      (portEngineReg (tileNode i)) := by
  refine ⟨_, _, if h.portState i = psMasked ∨ h.siteMasked i then psMasked else psReset, ?_, ?_, rfl⟩
  · rfl
  · split
    · exact .inr rfl
    · exact .inl rfl

/-- A tile port is left with nothing, in RESET or, masked, in MASKED (R78). -/
theorem Hw.tilePortReset_clears (h : Hw) (i : Nat) :
    let g := h.tilePortReset i
    g.rst = h.rst ∧ g.port i = { resetAt := h.now, tclkBad := (h.port i).tclkBad } ∧ (g.portState i = psReset ∨ g.portState i = psMasked) ∧
    g.reg .tpViolCnt (tileNode i) = 0#32 ∧ g.reg .tpViolEvt (tileNode i) = 0#32 := by
  obtain ⟨g, w, s, rst, state, cleared⟩ := h.tilePortReset_eq i
  dsimp only
  rw [cleared]
  refine ⟨rst, (Hw.port_setPort g i i _).trans (if_pos rfl), ?_, ?_, ?_⟩
  · have shown : s % 2 ^ 4 = s := by rcases state with rfl | rfl <;> rfl
    unfold Hw.portState
    rw [Hw.reg_dropRegs_other (by simp [portEngineReg]), Hw.reg_setReg, if_pos ⟨rfl, rfl, rfl⟩, fld_setFld_same _ _ _ _ (by decide), shown]
    exact state
  · rw [Hw.reg_dropRegs_other (by simp [portEngineReg]), Hw.reg_setReg_other (by decide), Hw.reg_setReg_other (by decide),
      Hw.reg_setReg_other (by decide), Hw.reg_setReg, if_pos ⟨rfl, rfl, rfl⟩]
  · rw [Hw.reg_dropRegs_other (by simp [portEngineReg]), Hw.reg_setReg_other (by decide), Hw.reg_setReg_other (by decide), Hw.reg_setReg,
      if_pos ⟨rfl, rfl, rfl⟩]

/-! The requests for port resets (R85). -/

theorem Hw.reg_portResetBegins {id : RegId} (n : .ancResetCtl ≠ id) (n' : .ancState ≠ id) (h : Hw) (k i j : Nat) :
    (h.portResetBegins k).reg id i j = h.reg id i j := by
  unfold Hw.portResetBegins
  dsimp only
  (repeat' split) <;> simp only [Hw.reg_modReg_other n, Hw.reg_modReg_other n'] <;> rfl

/-- As a reset begins that was pending, it is so no more. -/
theorem Hw.portResetBegins_of_pending {h : Hw} {k : Nat} (pending : k ∈ h.rst.portResets) :
    let g := h.portResetBegins k
    g.rst.portResets = h.rst.portResets.erase k ∧ g.now = h.now ∧ g.ports = h.ports ∧ g.phy = h.phy := by
  unfold Hw.portResetBegins
  rw [if_pos (List.contains_iff_mem.2 pending)]
  dsimp only
  split <;> exact ⟨rfl, rfl, rfl, rfl⟩

end Sys2Proof.Machine

open Sys2Proof Sys2Proof.Machine

/-- Settles O10: PLL locks and losses, and the port resets that were requested. -/
theorem locksAndPortResets : Obligations.LocksAndPortResets := by
  unfold Obligations.LocksAndPortResets
  refine ⟨fun s => ?_, fun s running => ⟨fun p pending up on => ?_, fun i pending => ?_⟩⟩
  · intro lost
    refine ⟨fun w held => ?_, fun out => ?_, fun p up on => ?_, fun k out => ?_, ?_⟩
    · exact (completes_pllLock w s _).2 (Hw.pllLocks_of_noRelock held)
    · exact (completes_rootPllUnlock s _).2 (Hw.rootUnlock_of_out out)
    · exact (completes_phyPllUnlock p s _).2 (Hw.phyPllUnlock_of_used up on)
    · exact (completes_hbmPllUnlock k s _).2 (Hw.hbmPllUnlock_of_out out k)
    · exact (completes_pciePllUnlock s _).2 rfl
  · obtain ⟨begun, -, -, phys⟩ := Hw.portResetBegins_of_pending pending
    have status (id : RegId) (n : .ancResetCtl ≠ id) (n' : .ancState ≠ id) := Hw.reg_portResetBegins n n' s.hw p.val
    have up' : (s.hw.portResetBegins p).portIsDown p = false := by
      unfold Hw.portIsDown Hw.linkState Hw.phyState at up ⊢
      rw [status _ (by decide) (by decide), status _ (by decide) (by decide)]
      exact up
    have on' : (s.hw.portResetBegins p).phyState p ≠ 0 := by
      unfold Hw.phyState at on ⊢
      rw [status _ (by decide) (by decide)]
      exact on
    have clears := Hw.torusPortReset_clears up' on'
    unfold Hw.phyOf at clears
    rw [phys] at clears
    obtain ⟨rst, link, phy, replay, next, expected, lanes⟩ := clears
    have runs : s.hw.clocked (·.portReset (.torus p)) = (s.hw.portResetBegins p).torusPortReset p :=
      (Hw.clocked_on running).trans (if_pos (List.contains_iff_mem.2 pending))
    refine (completes_portReset (.torus p) s _).2 ?_
    rw [runs]
    refine ⟨(congrArg ResetState.portResets rst).trans begun, link, phy, replay, next, expected, lanes, ?_⟩
    rw [Hw.vault_torusPortReset, Hw.vault_portResetBegins]
  · obtain ⟨begun, now, ports, -⟩ := Hw.portResetBegins_of_pending pending
    obtain ⟨rst, port, state, count, event⟩ := (s.hw.portResetBegins (16 + i)).tilePortReset_clears i
    have runs : s.hw.clocked (·.portReset (.tile i)) = (s.hw.portResetBegins (16 + i)).tilePortReset i :=
      (Hw.clocked_on running).trans (if_pos (List.contains_iff_mem.2 pending))
    refine (completes_portReset (.tile i) s _).2 ?_
    rw [runs]
    refine ⟨(congrArg ResetState.portResets rst).trans begun, ?_, state, count, event, ?_⟩
    · unfold Hw.port at port ⊢
      rw [port, now, ports]
    · rw [Hw.vault_tilePortReset, Hw.vault_portResetBegins]

end

section
/-! Guarded values (R207, R210 to R213), the reset requests that they carry (R77 to R79, R85, R86), and the obligation on both. -/

namespace Sys2Proof.Machine

/-- Inside a mask that is all ones there, a field is the word's. -/
theorem fld_and_inside (v mask : Word) (lo len : Nat) (inside : fld mask lo len = 2 ^ len - 1) : fld (v &&& mask) lo len = fld v lo len := by
  apply Nat.eq_of_testBit_eq
  intro i
  have m : (decide (i < len) && mask.getLsbD (lo + i)) = decide (i < len) := by rw [← testBit_fld, inside, Nat.testBit_two_pow_sub_one]
  rw [testBit_fld, testBit_fld, BitVec.getLsbD_and, ← Bool.and_assoc, Bool.and_right_comm, m]

/-- A value write that no lock forbids is the CPL register's rule, whichever register it is (R210). -/
theorem Hw.writeAt_cpl {h : Hw} {p : Path} {c : CplReg} (opened : h.writeOpen p ⟨cplId c, 0, 0⟩) (v : Word) :
    h.writeAt p ⟨cplId c, 0, 0⟩ v = (h.readied p).cplValue p c v (pathAddr p (Reg.addr ⟨cplId c, 0, 0⟩)) := by
  rw [Hw.writeAt_open opened]
  cases c <;> rfl

theorem Hw.cplLocked_readied (h : Hw) (p : Path) (c : CplReg) (v : Word) : (h.readied p).cplLocked c v = h.cplLocked c v := rfl

theorem Hw.cplValue_of_free {h : Hw} {c : CplReg} {v : Word} (free : h.cplLocked c v = false) (p : Path) (addr : Nat) :
    h.cplValue p c v addr = h.setCplPend c (some ⟨p, v, h.now⟩) := by
  unfold Hw.cplValue
  rw [free]
  rfl

theorem Hw.cplExpire_of_over {h : Hw} {c : CplReg} {q : CplPend} (pending : h.cplPend c = some q) (expired : q.time + guardWindow ≤ h.now) :
    h.cplExpire c = (h.setCplPend c none).misuse q.path true 7 (Reg.addr ⟨cplId c, 0, 0⟩) := by
  unfold Hw.cplExpire
  rw [pending]
  exact if_neg (Nat.not_lt.2 expired)

/-- An accepted write of ANC_LOCK only sets lock bits (R213). -/
theorem Hw.lockSet_open {h : Hw} {p : Path} {v : Word} (opened : h.guardOpen p .lock v) : h.guardComplement p .lock =
    ((h.readied p).setCplPend .lock none).setReg .ancLock 0 0 (h.reg .ancLock ||| (v &&& 0x7F#32)) := by
  rw [Hw.guardComplement_open opened]
  rfl

/-- An accepted write of PWA_BUDGET replaces the budget (R759). -/
theorem Hw.budgetSet_open {h : Hw} {p : Path} {v : Word} (opened : h.guardOpen p .budget v) : h.guardComplement p .budget =
    ((h.readied p).setCplPend .budget none).setReg .pwaBudget 0 0 (v &&& 0x0FFF0FFF#32) := by
  rw [Hw.guardComplement_open opened]
  rfl

/-! Accepted reset requests. -/

/-- An accepted request stands in ANC_RESET_CTL and shows in ANC_STATE until its reset begins (R85). -/
def Hw.resetHeld (h : Hw) (v : Word) : Hw := (h.setReg .ancResetCtl 0 0 (v &&& 0xFF07#32)).modReg .ancState 0 0 (setBit · 8 true)

section
variable {h : Hw} {v : Word} (ok : resetTargetOk v = true) (p : Path) (addr : Nat)
include ok

theorem Hw.acceptReset_warm (kind : fld v 0 3 = 1) (cold : h.dieState ≠ stColdReset) (load : h.dieState ≠ stFuseLoad)
    (bist : h.dieState ≠ stBist)
    (noCold : h.rst.coldReq = false) :
    h.acceptReset p v addr = Hw.resetHeld { h with rst :=
      if h.dieState = stClockLost then { h.rst with lostCauses := h.rst.lostCauses ||| 0x10#32 } else { h.rst with warmReq := true } } v := by
  unfold Hw.acceptReset
  dsimp only
  rw [ok, fld_and_inside v _ 0 3 (by decide), kind, if_neg (by decide), if_neg (by simp [cold, load, bist, noCold])]
  by_cases lost : h.dieState = stClockLost
  · rw [if_pos lost, if_pos lost]
    rfl
  · rw [if_neg lost, if_neg lost]
    rfl

theorem Hw.acceptReset_cold (kind : fld v 0 3 = 2) :
    h.acceptReset p v addr = Hw.resetHeld { h with rst := { h.rst with coldReq := true } } v := by
  unfold Hw.acceptReset
  dsimp only
  rw [ok, fld_and_inside v _ 0 3 (by decide), kind, if_neg (by decide)]
  rfl

/-! Requests for less than a reset of the die, in RUN with no wider one pending (R77, R78). -/

variable (run : h.dieState = stRun) (noWider : h.widerPending = false)
include run noWider

theorem Hw.acceptReset_partition (kind : fld v 0 3 = 3) : h.acceptReset p v addr =
    (h.setReg .ancResetCtl 0 0 (setFld (v &&& 0xFF07#32) 0 3 0)).raiseF1 (fld v 8 8) (h.gen (fld v 8 8)) 0x10 anchorNode 0 := by
  have gen : (h.setReg .ancResetCtl 0 0 (setFld (v &&& 0xFF07#32) 0 3 0)).gen (fld v 8 8) = h.gen (fld v 8 8) :=
    congrArg (fld · 0 10) (Hw.reg_setReg_other (by decide) h _ _ _ _ _)
  unfold Hw.acceptReset
  dsimp only
  rw [ok, fld_and_inside v _ 0 3 (by decide), fld_and_inside v _ 8 8 (by decide), kind, if_neg (by decide), gen]
  exact if_pos ⟨run, congrArg (!·) noWider⟩

theorem Hw.acceptReset_torusPort (kind : fld v 0 3 = 4) : h.acceptReset p v addr =
    Hw.resetHeld { h with rst := { h.rst with portResets := h.rst.portResets ++ [fld v 8 8] } } v := by
  unfold Hw.acceptReset
  dsimp only
  rw [ok, fld_and_inside v _ 0 3 (by decide), fld_and_inside v _ 8 8 (by decide), kind, if_neg (by decide)]
  exact if_pos ⟨run, congrArg (!·) noWider⟩

theorem Hw.acceptReset_tilePort (kind : fld v 0 3 = 5) : h.acceptReset p v addr =
    Hw.resetHeld { h with rst := { h.rst with portResets := h.rst.portResets ++ [16 + fld v 8 8] } } v := by
  unfold Hw.acceptReset
  dsimp only
  rw [ok, fld_and_inside v _ 0 3 (by decide), fld_and_inside v _ 8 8 (by decide), kind, if_neg (by decide)]
  exact if_pos ⟨run, congrArg (!·) noWider⟩

end

/-- A request of the kind that its command says, whose guard write is accepted, is accepted with its value. -/
theorem Hw.resetRequest_open {h : Hw} {p : Path} {v : Word} (opened : h.guardOpen p .reset v) : h.resetRequest p (fld v 0 3) =
    ((h.readied p).setCplPend .reset none).acceptReset p v (pathAddr p (Reg.addr ⟨.ancResetGuard, 0, 0⟩)) := by
  obtain ⟨t, pending, -⟩ := opened.2.1
  unfold Hw.resetRequest
  rw [pending]
  exact (if_pos rfl).trans (Hw.guardComplement_open opened)

end Sys2Proof.Machine

open Sys2Proof Sys2Proof.Machine

/-- Settles O11: what a guarded value, its expiry and its acceptance do, and what an accepted reset request does by its kind. -/
theorem guardsAccepted : Obligations.GuardsAccepted := by
  unfold Obligations.GuardsAccepted
  refine ⟨fun s => ?_, fun s p v opened ok => ?_⟩
  · intro accepted
    refine ⟨fun p c v opened free => ?_, fun c q pending expired => ?_, fun p v opened => ?_, fun p v opened => ?_⟩
    · exact (completes_cplValueWrite p c v s _).2 ((Hw.writeAt_cpl opened v).trans (Hw.cplValue_of_free
        ((Hw.cplLocked_readied s.hw p c v).trans free) p _))
    · exact (completes_cplGuardExpired c s _).2 (Hw.cplExpire_of_over pending expired)
    · exact (completes_lockSet p s _).2 (Hw.lockSet_open opened)
    · exact (completes_budgetSet p s _).2 (Hw.budgetSet_open opened)
  · intro b held t
    have request (k : Nat) (kind : fld v 0 3 = k) := kind ▸ Hw.resetRequest_open opened
    refine ⟨fun kind cold load bist noCold => ?_, fun kind => ?_, fun run noWider => ⟨fun kind => ?_, fun kind => ?_, fun kind => ?_⟩⟩
    · exact (completes_resetReqWarm p s _).2 ((request 1 kind).trans (Hw.acceptReset_warm (h := b) ok p _ kind cold load bist noCold))
    · exact (completes_resetReqCold p s _).2 ((request 2 kind).trans (Hw.acceptReset_cold (h := b) ok p _ kind))
    · exact (completes_resetReqPartition p s _).2 ((request 3 kind).trans (Hw.acceptReset_partition (h := b) ok p _ run noWider kind))
    · exact (completes_resetReqTorusPort p s _).2 ((request 4 kind).trans (Hw.acceptReset_torusPort (h := b) ok p _ run noWider kind))
    · exact (completes_resetReqTilePort p s _).2 ((request 5 kind).trans (Hw.acceptReset_tilePort (h := b) ok p _ run noWider kind))

end

section
/-! The die's state and its events, the burn of a fuse row (R234 to R236), the load of the shadows (R93, R94, R131, R224), and the obligation on
both. -/

namespace Sys2Proof.Machine

/-! Changes of the die's state, and SAFE_HOLD. -/

theorem Hw.reg_pfEvent (h : Hw) (k : Nat) (id : RegId) (i j : Nat) :
    (h.pfEvent k).reg id i j = (h.modReg .hstPfEvt 0 0 (setBit · k true)).reg id i j := by
  unfold Hw.pfEvent
  exact Hw.reg_vector _ 0 k id i j

theorem Hw.reg_pfEvent_other {id : RegId} (n : .hstPfEvt ≠ id) (h : Hw) (k i j : Nat) : (h.pfEvent k).reg id i j = h.reg id i j := by
  rw [Hw.reg_pfEvent, Hw.reg_modReg_other n]

theorem Hw.reg_setDieState_other {id : RegId} (n : .ancState ≠ id) (n' : .hstPfEvt ≠ id) (h : Hw) (s i j : Nat) :
    (h.setDieState s).reg id i j = h.reg id i j := by
  unfold Hw.setDieState
  dsimp only
  split
  · rw [Hw.reg_modReg_other n]
  · rw [Hw.reg_pfEvent_other n', Hw.reg_modReg_other n]

theorem Hw.dieState_setDieState {s : Nat} (short : s < 2 ^ 4) (h : Hw) : (h.setDieState s).dieState = s := by
  have set : fld ((h.modReg .ancState 0 0 (setFld · 0 4 s)).reg .ancState) 0 4 = s := by
    rw [Hw.reg_modReg, if_pos ⟨rfl, rfl, rfl⟩, fld_setFld_same _ _ _ _ (by decide), Nat.mod_eq_of_lt short]
  unfold Hw.setDieState Hw.dieState
  dsimp only
  split
  · exact set
  · rw [Hw.reg_pfEvent_other (by decide), set]

/-- The PF hears of a new state (R140). -/
theorem Hw.pfEvent_setDieState {h : Hw} {s : Nat} (new : h.dieState ≠ s) : bit ((h.setDieState s).reg .hstPfEvt) 1 = true := by
  unfold Hw.setDieState
  dsimp only
  rw [if_neg new, Hw.reg_pfEvent, Hw.reg_modReg, if_pos ⟨rfl, rfl, rfl⟩, bit_setBit_same _ _ _ (by decide)]

/-- The registers of a die that goes to SAFE_HOLD with a code (R131). -/
theorem Hw.reg_safeHold (h : Hw) (code : Nat) : (h.safeHold code).dieState = stSafeHold ∧
    fld ((h.safeHold code).reg .bootErr) 24 8 = code % 2 ^ 8 ∧ fld ((h.safeHold code).reg .bootStatus) 0 4 = 15 ∧
    ∀ id i j, id ≠ .ancState → id ≠ .bootErr → id ≠ .bootStatus → id ≠ .hstPfEvt → (h.safeHold code).reg id i j = h.reg id i j := by
  have shown (id : RegId) (i j : Nat) : (h.safeHold code).reg id i j =
      (((h.setDieState stSafeHold).modReg .bootErr 0 0 (setFld · 24 8 code)).setPhase 0xF).reg id i j := by
    unfold Hw.safeHold
    dsimp only
    exact Hw.reg_set_boot _ _ _ _ _
  refine ⟨?_, ?_, ?_, fun id i j a b c d => ?_⟩
  · unfold Hw.dieState
    rw [shown, Hw.reg_setPhase (by decide), Hw.reg_modReg_other (by decide)]
    exact Hw.dieState_setDieState (by decide) h
  · rw [shown, Hw.reg_setPhase (by decide), Hw.reg_modReg, if_pos ⟨rfl, rfl, rfl⟩, fld_setFld_same _ _ _ _ (by decide)]
  · rw [shown]
    unfold Hw.setPhase
    rw [Hw.reg_modReg, if_pos ⟨rfl, rfl, rfl⟩]
    exact fld_setFld_same _ _ _ _ (by decide)
  · rw [shown, Hw.reg_setPhase c.symm, Hw.reg_modReg_other b.symm, Hw.reg_setDieState_other a.symm d.symm]

/-! The shadows. -/

theorem Hw.reg_loadRegs_other {id id' : RegId} (n : id ≠ id') (ws : List Word) (i i' j' : Nat) (h : Hw) :
    (h.loadRegs id i ws).reg id' i' j' = h.reg id' i' j' := by
  induction ws generalizing h i with
  | nil => rfl
  | cons w ws ih =>
    unfold Hw.loadRegs
    rw [ih, Hw.reg_setReg_other n]

theorem Hw.reg_loadRegs_below (id : RegId) (ws : List Word) (i i' : Nat) (below : i' < i) (h : Hw) :
    (h.loadRegs id i ws).reg id i' 0 = h.reg id i' 0 := by
  induction ws generalizing h i with
  | nil => rfl
  | cons w ws ih =>
    unfold Hw.loadRegs
    rw [ih (i + 1) (Nat.lt_succ_of_lt below), Hw.reg_setReg, if_neg (fun e => Nat.ne_of_gt below e.2.1)]

/-- Register i + k shows the k-th of the words. -/
theorem Hw.reg_loadRegs (id : RegId) (ws : List Word) (i k : Nat) (w : Word) (at_k : ws[k]? = some w) (h : Hw) :
    (h.loadRegs id i ws).reg id (i + k) 0 = w := by
  induction ws generalizing h i k with
  | nil => cases at_k
  | cons x ws ih =>
    unfold Hw.loadRegs
    cases k with
    | zero =>
      cases at_k
      rw [Hw.reg_loadRegs_below id ws (i + 1) (i + 0) (Nat.lt_succ_self i), Hw.reg_setReg, if_pos ⟨rfl, rfl, rfl⟩]
    | succ k =>
      have next := ih (i + 1) k at_k (h.setReg id i 0 x)
      rwa [Nat.add_right_comm] at next

theorem Hw.reg_maskPorts_other {id : RegId} (n : .tpCond ≠ id) (h : Hw) (i j : Nat) : h.maskPorts.reg id i j = h.reg id i j := by
  refine Hw.foldl_same (fun h : Hw => h.reg id i j) _ _ (fun h k => ?_) h
  dsimp only
  split
  · exact Hw.reg_modReg_other n h _ _ _ _ _
  · rfl

/-- The shadows after a load without an uncorrectable error (R93). -/
def Hw.shadowed (h : Hw) (corrected : Nat) : Hw :=
  let f := h.fuse
  let h := h.setReg .fusSecPolicy 0 0 (setFld f.secPolicy 8 6 f.svnFloor)
  let h := h.setReg .fusTenantMax 0 0 (mkWord [(0, 7, f.tenantMax)])
  let h := h.setReg .fusDebug 0 0 f.debug
  let h := h.loadRegs .fusNodeMask 0 f.nodeMask
  let h := h.loadRegs .fusLaneRepair 0 f.laneRepair
  let h := h.loadRegs .fusKeyhash 0 f.keyhash
  let h := h.loadRegs .fusPrivMap 0 f.privMap
  (h.setReg .fusStatus 0 0 (mkWord [(0, 1, 1), (8, 8, Nat.min 255 corrected)])).maskPorts

theorem Hw.fuseLoad_good {h : Hw} (loading : h.dieState = stFuseLoad) (corrected : Nat) :
    h.fuseLoad false corrected = (h.shadowed corrected).setDieState stBist := by
  unfold Hw.fuseLoad
  rw [if_neg (not_not_intro loading)]
  rfl

/-- Every shadow register shows the array's row (R93, Table 5.9). -/
theorem Hw.reg_shadowed (h : Hw) (corrected : Nat) :
    let g := h.shadowed corrected
    g.reg .fusSecPolicy = setFld h.fuse.secPolicy 8 6 h.fuse.svnFloor ∧ g.reg .fusTenantMax = mkWord [(0, 7, h.fuse.tenantMax)] ∧
    g.reg .fusDebug = h.fuse.debug ∧ g.reg .fusStatus = mkWord [(0, 1, 1), (8, 8, Nat.min 255 corrected)] ∧
    (∀ k w, h.fuse.nodeMask[k]? = some w → g.reg .fusNodeMask k = w) ∧
    (∀ k w, h.fuse.laneRepair[k]? = some w → g.reg .fusLaneRepair k = w) ∧
    (∀ k w, h.fuse.keyhash[k]? = some w → g.reg .fusKeyhash k = w) ∧ (∀ k w, h.fuse.privMap[k]? = some w → g.reg .fusPrivMap k = w) := by
  intro g
  have row (id : RegId) (ws : List Word) (b : Hw) (k : Nat) (w : Word) (e : ws[k]? = some w) : (b.loadRegs id 0 ws).reg id k 0 = w := by
    have loaded := Hw.reg_loadRegs id ws 0 k w e b
    rwa [Nat.zero_add] at loaded
  subst g
  unfold Hw.shadowed
  dsimp only
  refine ⟨?_, ?_, ?_, ?_, fun k w e => ?_, fun k w e => ?_, fun k w e => ?_, fun k w e => ?_⟩
  all_goals simp only [Hw.reg_maskPorts_other, Hw.reg_setReg, Hw.reg_loadRegs_other, ne_eq, reduceCtorEq, not_false_eq_true, false_and, if_false,
    and_self, if_true]
  all_goals exact row _ _ _ k w e

/-- The accepted write of FUS_PROG_CTL begins the burn of its row where the rules allow it (R234 to R236). -/
theorem Hw.acceptBurn_of_allowed {h : Hw} {v : Word} (hold : h.dieState = stSafeHold) (program : bit (h.reg .fusSecPolicy) 3 = true)
    (notClosed : bit (h.reg .fusSecPolicy) 4 = false) (start : bit v 8 = true) (idle : h.fuse.burning = none)
    (meets : h.burnOk (fld v 0 8) (h.reg .fusProgData) = true) (addr : Nat) :
    h.acceptBurn .pf v addr = { h.setReg .fusProgCtl 0 0 (v &&& 0x1FF#32) with
      fuse := { h.fuse with burning := some (fld v 0 8, h.reg .fusProgData) } }.setReg .fusProgStatus 0 0 1#32 := by
  have data : (h.setReg .fusProgCtl 0 0 (v &&& 0x1FF#32)).reg .fusProgData = h.reg .fusProgData := Hw.reg_setReg_other (by decide) h _ _ _ _ _
  have state : (h.setReg .fusProgCtl 0 0 (v &&& 0x1FF#32)).dieState = h.dieState :=
    congrArg (fld · 0 4) (Hw.reg_setReg_other (by decide) h _ _ _ _ _)
  have meets' : (h.setReg .fusProgCtl 0 0 (v &&& 0x1FF#32)).burnOk (fld v 0 8) (h.reg .fusProgData) = true := by
    unfold Hw.burnOk at meets ⊢
    simpa only [Hw.reg_setReg, reduceCtorEq, false_and, if_false] using meets
  unfold Hw.acceptBurn
  dsimp only
  rw [state, data, hold, program, notClosed, start, meets', if_neg (by decide), if_neg (by simp [idle])]
  rfl

end Sys2Proof.Machine

open Sys2Proof Sys2Proof.Machine

/-- Settles O12: a burn begun and ended, FUSE_LOAD with and without an uncorrectable error, and the training of the endpoint. -/
theorem fusesBurnAndLoad : Obligations.FusesBurnAndLoad := by
  unfold Obligations.FusesBurnAndLoad
  refine ⟨fun s => ⟨fun v opened hold program notClosed start idle meets => ?_, fun row d differs burning => ?_⟩,
    fun s => ⟨fun n loading => ?_, fun n loading => ?_, fun notCold notLoading => ?_⟩⟩
  · refine (completes_fuseBurn .pf s _).2 ((Hw.guardComplement_open opened).trans ?_)
    exact Hw.acceptBurn_of_allowed (h := (s.hw.readied .pf).setCplPend .fuse none) hold program notClosed start idle meets _
  · refine (completes_fuseBurnDone differs s _).2 ?_
    unfold Hw.burnDone
    rw [burning]
  · have held : s.hw.fuseLoad true n.toNat = s.hw.safeHold 0x80 := by
      unfold Hw.fuseLoad
      exact if_neg (not_not_intro loading)
    obtain ⟨state, code, phase, rest⟩ := Hw.reg_safeHold s.hw 0x80
    refine (completes_fuseLoadDone true n s _).2 ?_
    rw [held]
    exact ⟨rfl, state, code, phase, rfl, rest, Hw.vault_safeHold s.hw 0x80⟩
  · have loaded := Hw.fuseLoad_good loading n.toNat
    have before : (s.hw.shadowed n.toNat).dieState ≠ stBist := by
      have same : (s.hw.shadowed n.toNat).dieState = s.hw.dieState := by
        unfold Hw.shadowed Hw.dieState
        simp only [Hw.reg_maskPorts_other, Hw.reg_setReg, Hw.reg_loadRegs_other, ne_eq, reduceCtorEq, not_false_eq_true, false_and, if_false]
      rw [same, loading]
      decide
    obtain ⟨policy, tenants, debug, status, rows⟩ := Hw.reg_shadowed s.hw n.toNat
    have few : Nat.min 255 n.toNat = n.toNat := Nat.min_eq_right (Nat.le_of_lt_succ n.isLt)
    refine (completes_fuseLoadDone false n s _).2 ?_
    rw [loaded]
    simp only [Hw.reg_setDieState_other, ne_eq, reduceCtorEq, not_false_eq_true]
    rw [few] at status
    refine ⟨Hw.dieState_setDieState (by decide) _, policy, tenants, debug, status, rows.1, rows.2.1, rows.2.2.1, rows.2.2.2,
      Hw.pfEvent_setDieState before, ?_⟩
    rw [← loaded]
    exact Hw.vault_fuseLoad s.hw false n.toNat
  · exact (completes_pcieTrainingStart s _).2 (if_neg (by simp [notCold, notLoading, stColdReset, stFuseLoad]))

end

section
/-! The NVM: its probe (R103 to R106), timeouts (R107), the programmer's commands (R134 to R136, R810), and the obligation on them. -/

namespace Sys2Proof.Machine

/-! The probe. -/

/-- A device that reads all zeros or all ones is absent (R103). -/
theorem jedecAbsent_iff (j : BitVec 24) : jedecAbsent j.toNat = true ↔ j = 0#24 ∨ j = 0xFFFFFF#24 := by
  simp [jedecAbsent, BitVec.toNat_eq]

theorem jedecAbsent_of_answer {j : BitVec 24} (notZero : j ≠ 0#24) (notOnes : j ≠ 0xFFFFFF#24) : jedecAbsent j.toNat = false :=
  Bool.eq_false_iff.2 (fun absent => ((jedecAbsent_iff j).1 absent).elim notZero notOnes)

/-- The mode that is taken is the highest one advertised (R105). -/
theorem find_highestMode {modes mode : Nat} (low : 1 ≤ mode) (high : mode ≤ 5) (advertised : modes.testBit (mode - 1) = true)
    (none_above : ∀ m, mode < m → m ≤ 5 → modes.testBit (m - 1) = false) :
    [5, 4, 3, 2, 1].find? (fun m => modes.testBit (m - 1)) = some mode := by
  rw [List.find?_eq_some_iff_append]
  refine ⟨advertised, (List.range' (mode + 1) (5 - mode)).reverse, (List.range' 1 (mode - 1)).reverse, ?_, fun m above => ?_⟩
  · obtain rfl | rfl | rfl | rfl | rfl : mode = 1 ∨ mode = 2 ∨ mode = 3 ∨ mode = 4 ∨ mode = 5 := by omega
    all_goals rfl
  · have range : mode + 1 ≤ m ∧ m < mode + 1 + (5 - mode) := by simpa using above
    rw [none_above m range.1 (by omega)]
    rfl

/-- The shift that is taken is the least one that keeps SCK in the bounds of mode and device (R106). -/
theorem find_leastShift {shift mode kHz : Nat} (short : shift < 8) (inBounds : 200000000 / 2 ^ shift ≤ min (modeSck mode) (kHz * 1000))
    (least : ∀ k, k < shift → ¬ 200000000 / 2 ^ k ≤ min (modeSck mode) (kHz * 1000)) :
    (List.range 8).find? (fun k => 200000000 / 2 ^ k ≤ modeSck mode && 200000000 / 2 ^ k ≤ kHz * 1000) = some shift := by
  rw [List.find?_range_eq_some]
  refine ⟨?_, List.mem_range.2 short, fun k below => ?_⟩
  · simpa using Nat.le_min.1 inBounds
  · have out := least k below
    rw [Nat.le_min] at out
    simp only [Bool.not_eq_true', Bool.and_eq_false_iff, decide_eq_false_iff_not]
    exact Decidable.not_and_iff_not_or_not.1 out

/-- The NVM is taken in a mode, at a shift, with a size and a width of its addresses (R105, R106). -/
def Hw.nvmTaken (h : Hw) (mode shift size : Nat) (wide sfdp : Bool) : Hw :=
  { h with
      nvm := { h.nvm with mode := mode, shift := shift, addr4 := wide, size := size, sfdp := sfdp }
      boot := { h.boot with probed := true } }.modReg .bootStatus 0 0 (fun w => setFld (setFld w 12 3 mode) 24 3 shift)

theorem Hw.nvmChoose_of_sfdp (h : Hw) {modes kHz mode shift : Nat} (size : Nat)
    (top : [5, 4, 3, 2, 1].find? (fun m => modes.testBit (m - 1)) = some mode)
    (slow : (List.range 8).find? (fun k => 200000000 / 2 ^ k ≤ modeSck mode && 200000000 / 2 ^ k ≤ kHz * 1000) = some shift) :
    h.nvmChoose (some (modes, kHz, size)) = h.nvmTaken mode shift (min size 0x10000000) (decide (0x1000000 < size)) true := by
  unfold Hw.nvmChoose
  dsimp only
  rw [top, Option.getD_some, slow]
  rfl

section
variable {h : Hw} (boot : h.dieState = stBoot) (running : h.bar.running = true) (first : h.boot.probed = false)
include boot running first

theorem Hw.nvmProbe_absent {jedec : Nat} (absent : jedecAbsent jedec = true ∨ h.nvmBlocked = true) (sfdp : Option (Nat × Nat × Nat)) :
    h.nvmProbe jedec sfdp = (h.setPhase 1).safeHold 0x81 := by
  unfold Hw.nvmProbe
  rw [if_pos ⟨boot, running, by rw [first]; rfl⟩]
  have same : (h.setPhase 1).nvmBlocked = h.nvmBlocked := rfl
  exact if_pos (by simpa [same] using absent)

theorem Hw.nvmProbe_present {jedec : Nat} (present : jedecAbsent jedec = false) (free : h.nvmBlocked = false) (sfdp : Option (Nat × Nat × Nat)) :
    h.nvmProbe jedec sfdp = (h.setPhase 1).nvmChoose sfdp := by
  unfold Hw.nvmProbe
  rw [if_pos ⟨boot, running, by rw [first]; rfl⟩]
  have there : (jedecAbsent jedec || (h.setPhase 1).nvmBlocked) = false := by
    rw [present]
    exact free
  exact if_neg (by rw [there]; decide)

end

/-! The programmer (R134 to R136). -/

/-- An open write of BOOT_PROG_CTL is the programmer's rule. -/
theorem Hw.progWrite_rule {h : Hw} {p : Path} (opened : h.writeOpen p ⟨.bootProgCtl, 0, 0⟩) (v : Word) (d : NvmDevice) :
    h.progWrite p v d = (h.readied p).progStart p (fld v 0 3) d.jedec.toNat (d.sfdp.map (fun x => (x.1.toNat, x.2.1.toNat, x.2.2.toNat))) :=
  Hw.progWrite_open opened v d

/-- The programmer has begun a command at an address. -/
def Hw.progBusy (h : Hw) (cmd a : Nat) : Hw := { h with nvm := { h.nvm with busyCmd := some (cmd, a) } }

section
variable {h : Hw} (hold : h.dieState = stSafeHold) (allowed : bit (h.reg .fusSecPolicy) 2 = true) (idle : bit (h.reg .bootProgStatus) 0 = false)
include hold allowed idle

/-- In SAFE_HOLD, with the fuse set, an idle programmer becomes busy. -/
theorem Hw.progStart_of_allowed (cmd jedec : Nat) (sfdp : Option (Nat × Nat × Nat)) :
    let b := h.setReg .bootProgStatus 0 0 1#32
    let a := (h.reg .bootProgAddr).toNat
    h.progStart .pf cmd jedec sfdp = (if cmd = 0 ∨ 4 < cmd ∨ a % progSpan cmd ≠ 0 then b.progBusy 0 a
      else
        let absent := !h.boot.probed && (jedecAbsent jedec || h.nvmBlocked)
        let r := if h.boot.probed || absent then b else b.nvmChoose sfdp
        if absent || r.nvmReach ≤ a then r.progBusy 0 a else r.progBusy cmd a) := by
  intro b a
  have addr : b.reg .bootProgAddr = h.reg .bootProgAddr := Hw.reg_setReg_other (by decide) h _ _ _ _ _
  unfold Hw.progStart
  rw [hold, allowed, idle, if_neg (by decide), if_neg (by decide)]
  dsimp only
  rw [addr]
  rfl

/-- A command that is named begins at an aligned address in reach, after a probe, if none was made (R134). -/
theorem Hw.progStart_of_found {cmd jedec : Nat} (real : cmd ≠ 0 ∧ cmd ≤ 4) (sfdp : Option (Nat × Nat × Nat))
    (found : h.boot.probed = true ∨ (jedecAbsent jedec = false ∧ h.nvmBlocked = false))
    (aligned : (h.reg .bootProgAddr).toNat % progSpan cmd = 0) :
    let b := h.setReg .bootProgStatus 0 0 1#32
    let r := if h.boot.probed then b else b.nvmChoose sfdp
    (h.reg .bootProgAddr).toNat < r.nvmReach → h.progStart .pf cmd jedec sfdp = r.progBusy cmd (h.reg .bootProgAddr).toNat := by
  intro b r inReach
  have there : (!h.boot.probed && (jedecAbsent jedec || h.nvmBlocked)) = false := by
    rcases found with probed | ⟨present, free⟩
    · rw [probed]
      rfl
    · rw [present, free, Bool.or_false, Bool.and_false]
  rw [Hw.progStart_of_allowed hold allowed idle, if_neg (by omega)]
  dsimp only
  rw [there, Bool.or_false, if_neg (by simpa using inReach)]

end

/-- As a programmer's command ends without a timeout it has been performed, unless it was cut off by the boundary scan (R135, R810). -/
theorem Hw.progDone_of_run {h : Hw} {cmd a : Nat} (busy : h.nvm.busyCmd = some (cmd, a)) (free : cmd = 0 ∨ h.nvmBlocked = false) :
    h.progDone false = (h.progPerform cmd a).progEnd (decide (cmd = 0 ∨ 4 < cmd)) := by
  have runs : (false || (cmd != 0 && h.nvmBlocked)) = false := by
    rcases free with rfl | free
    · rfl
    · rw [free, Bool.and_false, Bool.or_false]
  unfold Hw.progDone
  rw [busy]
  exact if_neg (by rw [runs]; decide)

/-- As it times out it is cut (R107). -/
theorem Hw.progDone_of_timeout {h : Hw} {x : Nat × Nat} (busy : h.nvm.busyCmd = some x) : h.progDone true = h.nvmCut.progEnd true := by
  unfold Hw.progDone
  rw [busy]
  rfl

/-! Timeouts in BOOT (R107). -/

section
variable {h : Hw} (boot : h.dieState = stBoot) (probed : h.boot.probed = true) (unchecked : h.boot.checked = false)
include boot probed unchecked

theorem Hw.nvmTimeout_table (noTable : h.boot.tableRead = false) (copy : Nat) :
    h.nvmTimeout copy = { h with boot := { h.boot with tableTimeout := h.boot.tableTimeout ++ [copy] } } := by
  unfold Hw.nvmTimeout
  rw [boot, if_neg (by decide), if_pos ⟨rfl, probed, by rw [unchecked]; rfl⟩, noTable]
  rfl

theorem Hw.nvmTimeout_slot (table : h.boot.tableRead = true) {slot : Nat} {rest : List Nat} (order : h.boot.order = slot :: rest) (copy : Nat) :
    h.nvmTimeout copy = (h.beginAttempt slot).failSlot 0x11 0xff 0 := by
  unfold Hw.nvmTimeout
  rw [boot, if_neg (by decide), if_pos ⟨rfl, probed, by rw [unchecked]; rfl⟩, table, order]
  rfl

end

end Sys2Proof.Machine

open Sys2Proof Sys2Proof.Machine

/-- Settles O15: the probe's outcomes, timeouts, and the programmer's commands as they begin and end (the timing and the 1-to-0 programming by log
entry 23, DEDUCED). -/
theorem nvmCommands : Obligations.NvmCommands := by
  unfold Obligations.NvmCommands
  refine ⟨fun s => ?_, fun s => ?_⟩
  · intro chosen
    refine ⟨fun boot running first d => ⟨fun absent => ?_, fun notZero notOnes free => ⟨fun none => ?_, ?_⟩⟩, fun copy x hold busy => ?_,
      fun boot probed unchecked => ⟨fun copy noTable => ?_, fun copy slot rest table order => ?_⟩⟩
    · have gone : jedecAbsent d.jedec.toNat = true ∨ s.hw.nvmBlocked = true := by
        rw [jedecAbsent_iff, or_assoc]
        exact absent
      exact (completes_nvmProbe d s _).2 (Hw.nvmProbe_absent boot running first gone _)
    · have present : jedecAbsent d.jedec.toNat = false := jedecAbsent_of_answer notZero notOnes
      refine (completes_nvmProbe d s _).2 ((Hw.nvmProbe_present boot running first present free _).trans ?_)
      rw [none]
      rfl
    · intro modes kHz size mode shift sfdp low high advertised noneAbove short inBounds least
      have present : jedecAbsent d.jedec.toNat = false := jedecAbsent_of_answer notZero notOnes
      refine (completes_nvmProbe d s _).2 ((Hw.nvmProbe_present boot running first present free _).trans ?_)
      rw [sfdp]
      exact Hw.nvmChoose_of_sfdp _ _ (find_highestMode low high advertised noneAbove) (find_leastShift short inBounds least)
    · refine (completes_nvmCommandTimeout copy s _).2 ?_
      exact (if_pos hold).trans (Hw.progDone_of_timeout busy)
    · exact (completes_nvmCommandTimeout copy s _).2 (Hw.nvmTimeout_table boot probed unchecked noTable copy.val)
    · exact (completes_nvmCommandTimeout copy s _).2 (Hw.nvmTimeout_slot boot probed unchecked table order copy.val)
  · intro starts
    refine ⟨fun d opened hold allowed idle => ?_, fun cmd a busy => ?_⟩
    · have begins (cmd : Nat) (v : Word) (isCmd : fld v 0 3 = cmd) (real : cmd ≠ 0 ∧ cmd ≤ 4) (c : NvmDevice → Instr)
          (write : ∀ P, Completes (c d) s P ↔ P (s.hw.progWrite .pf v d)) : starts cmd c d := by
        intro there aligned inReach
        have found := there.imp_right (fun ⟨notZero, notOnes, free⟩ =>
          And.intro (jedecAbsent_of_answer notZero notOnes) free)
        refine (write _).2 ((Hw.progWrite_rule opened v d).trans ?_)
        rw [isCmd]
        exact Hw.progStart_of_found (h := s.hw.readied .pf) hold allowed idle real _ found aligned inReach
      refine ⟨begins 1 1#32 rfl (by decide) _ (completes_progRead .pf d s), begins 2 2#32 rfl (by decide) _ (completes_progProgram .pf d s),
        begins 3 3#32 rfl (by decide) _ (completes_progEraseSector .pf d s), begins 4 4#32 rfl (by decide) _ (completes_progEraseBlock .pf d s),
        fun v unknown => ?_⟩
      refine (completes_progUnknownCommand .pf v d s _).2 ((Hw.progWrite_rule opened v d).trans ?_)
      exact (Hw.progStart_of_allowed (h := s.hw.readied .pf) hold allowed idle _ _ _).trans (if_pos (unknown.imp_right .inl))
    · intro ends fill
      refine ⟨fun nothing => ?_, fun free => ⟨fun read => ?_, fun program => ?_, fun sector => ?_, fun block => ?_⟩, ?_⟩
      all_goals refine (completes_progCommandDone _ s _).2 ?_
      · exact (Hw.progDone_of_run busy (.inl nothing)).trans (by rw [nothing]; rfl)
      · exact (Hw.progDone_of_run busy (.inr free)).trans (by rw [read]; rfl)
      · exact (Hw.progDone_of_run busy (.inr free)).trans (by rw [program]; rfl)
      · exact (Hw.progDone_of_run busy (.inr free)).trans (by rw [sector]; rfl)
      · exact (Hw.progDone_of_run busy (.inr free)).trans (by rw [block]; rfl)
      · exact Hw.progDone_of_timeout busy

end

section
/-! An image applied (R124, R125, R127, R140), a fault as it is applied, the scrub and the entry into RUN (R98, R101, R126, R128, R129, R137), and
the obligation on them. -/

namespace Sys2Proof.Machine

/-- The block but for its registers and what it has for the host: what an event for the PF leaves as it is. -/
def Hw.besideHost (h : Hw) : Hw := { h with regs := [], host := {} }

theorem Hw.besideHost_modReg (h : Hw) (id : RegId) (i j : Nat) (f : Word → Word) : (h.modReg id i j f).besideHost = h.besideHost := rfl

theorem Hw.besideHost_pfEvent (h : Hw) (k : Nat) : (h.pfEvent k).besideHost = h.besideHost := by
  unfold Hw.pfEvent Hw.vector
  split <;> rfl

theorem Hw.besideHost_setDieState (h : Hw) (s : Nat) : (h.setDieState s).besideHost = h.besideHost := by
  unfold Hw.setDieState
  dsimp only
  split
  · rfl
  · rw [Hw.besideHost_pfEvent, Hw.besideHost_modReg]

/-- SAFE_HOLD keeps what is neither a register, nor for the host, nor the code that holds the die (R131). -/
theorem Hw.besideHost_safeHold (h : Hw) (code : Nat) :
    ∃ sticky, (h.safeHold code).besideHost = { h.besideHost with boot := { h.boot with sticky := sticky } } := by
  have same := Hw.besideHost_setDieState h stSafeHold
  have boot : (h.setDieState stSafeHold).boot = h.boot := (congrArg Hw.boot same :)
  refine ⟨if [beFuseEcc, beStewardBist, beFwsramBist, beCoreRouter].contains code then code else h.boot.sticky, ?_⟩
  calc (h.safeHold code).besideHost
    _ = { (h.setDieState stSafeHold).besideHost with boot := { (h.setDieState stSafeHold).boot with
          sticky := if [beFuseEcc, beStewardBist, beFwsramBist, beCoreRouter].contains code then code
            else (h.setDieState stSafeHold).boot.sticky } } := rfl
    _ = _ := by rw [same, boot]

theorem Hw.bootErr_safeHold (h : Hw) (code : Nat) : (h.safeHold code).reg .bootErr = setFld (h.reg .bootErr) 24 8 code := by
  unfold Hw.safeHold
  dsimp only
  rw [Hw.reg_set_boot, Hw.reg_setPhase (by decide), Hw.reg_modReg, if_pos ⟨rfl, rfl, rfl⟩, Hw.reg_setDieState_other (by decide) (by decide)]

/-! A fault while applying. -/

theorem slotInfo_ne {id : RegId} (a : .bootErrInfoA ≠ id) (b : .bootErrInfoB ≠ id) (r : .bootErrInfoR ≠ id) (slot : Nat) :
    slotInfo slot ≠ id := by
  unfold slotInfo
  split
  · exact a
  · exact b
  · exact r

/-- A slot's failure has been logged (R118). -/
def Hw.slotFailed (h : Hw) (code sect rec : Nat) : Hw :=
  { (h.modReg .bootErr 0 0 (setFld · (slotErrShift h.boot.cur) 8 code)).setReg (slotInfo h.boot.cur) 0 0 (mkWord [(16, 8, sect), (0, 16, rec)]) with
    boot := { h.boot with checked := false, staged := [] } }

/-- After a slot's failure the next one is tried; where none is left the die goes to SAFE_HOLD (R118, R131). -/
theorem Hw.failSlot_eq (h : Hw) (code sect rec : Nat) :
    h.failSlot code sect rec = if h.boot.order = [] then (h.slotFailed code sect rec).safeHold beAllFailed else h.slotFailed code sect rec := by
  unfold Hw.failSlot
  dsimp only
  by_cases noMore : h.boot.order = []
  · have empty : h.boot.order.isEmpty = true := by rw [noMore]; rfl
    rw [if_pos noMore]
    exact if_pos empty
  · have more : ¬ h.boot.order.isEmpty = true := by simpa using noMore
    rw [if_neg noMore]
    exact if_neg more

/-- What a slot's failure leaves beside registers. -/
theorem Hw.besideHost_failSlot (h : Hw) (code sect rec : Nat) :
    ∃ b : BootState, b.checked = false ∧ b.staged = [] ∧ b.applied = h.boot.applied ∧
      (h.failSlot code sect rec).besideHost = { h.besideHost with boot := b } := by
  rw [Hw.failSlot_eq]
  split
  · obtain ⟨sticky, held⟩ := Hw.besideHost_safeHold (h.slotFailed code sect rec) beAllFailed
    exact ⟨{ h.boot with sticky := sticky, checked := false, staged := [] }, rfl, rfl, rfl, held⟩
  · exact ⟨{ h.boot with checked := false, staged := [] }, rfl, rfl, rfl, rfl⟩

/-- The registers after a slot's failure. -/
theorem Hw.reg_failSlot {h : Hw} {code sect rec : Nat} (isSlot : 1 ≤ h.boot.cur ∧ h.boot.cur ≤ 3) (boot : h.dieState = stBoot) :
    let g := h.failSlot code sect rec
    (∀ id i j, id ∉ [RegId.ancState, .bootErr, .bootStatus, .hstPfEvt, .bootErrInfoA, .bootErrInfoB, .bootErrInfoR] →
      g.reg id i j = h.reg id i j) ∧
    fld (g.reg .bootErr) (slotErrShift h.boot.cur) 8 = code % 2 ^ 8 ∧ fld (g.reg (slotInfo h.boot.cur)) 16 8 = sect % 2 ^ 8 ∧
    g.dieState = (if h.boot.order = [] then stSafeHold else stBoot) := by
  obtain ⟨first, last⟩ := isSlot
  have inWord : slotErrShift h.boot.cur + 8 ≤ 24 := by
    unfold slotErrShift
    omega
  have failed (id : RegId) (i j : Nat) : (h.slotFailed code sect rec).reg id i j = ((h.modReg .bootErr 0 0
      (setFld · (slotErrShift h.boot.cur) 8 code)).setReg (slotInfo h.boot.cur) 0 0 (mkWord [(16, 8, sect), (0, 16, rec)])).reg id i j := rfl
  have info : fld ((h.slotFailed code sect rec).reg (slotInfo h.boot.cur)) 16 8 = sect % 2 ^ 8 := by
    rw [failed, Hw.reg_setReg, if_pos ⟨rfl, rfl, rfl⟩]
    change fld (setFld (setFld _ 16 8 sect) 0 16 rec) 16 8 = _
    rw [fld_setFld_other _ _ _ _ _ _ (by decide), fld_setFld_same _ _ _ _ (by decide)]
  have err : fld ((h.slotFailed code sect rec).reg .bootErr) (slotErrShift h.boot.cur) 8 = code % 2 ^ 8 := by
    rw [failed, Hw.reg_setReg_other (slotInfo_ne (by decide) (by decide) (by decide) _), Hw.reg_modReg, if_pos ⟨rfl, rfl, rfl⟩,
      fld_setFld_same _ _ _ _ (by omega)]
  have state : (h.slotFailed code sect rec).dieState = stBoot := by
    rw [← boot]
    unfold Hw.dieState
    rw [failed, Hw.reg_setReg_other (slotInfo_ne (by decide) (by decide) (by decide) _), Hw.reg_modReg_other (by decide)]
  have kept (id : RegId) (i j : Nat)
      (n : id ∉ [RegId.ancState, .bootErr, .bootStatus, .hstPfEvt, .bootErrInfoA, .bootErrInfoB, .bootErrInfoR]) :
      (h.slotFailed code sect rec).reg id i j = h.reg id i j := by
    simp only [List.mem_cons, List.not_mem_nil, or_false, not_or] at n
    obtain ⟨-, err, -, -, a, b, r⟩ := n
    rw [failed, Hw.reg_setReg_other (slotInfo_ne (Ne.symm a) (Ne.symm b) (Ne.symm r) _), Hw.reg_modReg_other (Ne.symm err)]
  dsimp only
  rw [Hw.failSlot_eq]
  by_cases noMore : h.boot.order = []
  · obtain ⟨held, -, -, others⟩ := Hw.reg_safeHold (h.slotFailed code sect rec) beAllFailed
    have infoKept := others (slotInfo h.boot.cur) 0 0 (slotInfo_ne (by decide) (by decide) (by decide) _)
      (slotInfo_ne (by decide) (by decide) (by decide) _) (slotInfo_ne (by decide) (by decide) (by decide) _)
      (slotInfo_ne (by decide) (by decide) (by decide) _)
    rw [if_pos noMore, if_pos noMore]
    refine ⟨fun id i j n => ?_, ?_, ?_, held⟩
    · have n' := n
      simp only [List.mem_cons, List.not_mem_nil, or_false, not_or] at n'
      obtain ⟨state, err, status, event, -⟩ := n'
      exact (others id i j state err status event).trans (kept id i j n)
    · rw [Hw.bootErr_safeHold, fld_setFld_other _ _ _ _ _ _ (.inl inWord), err]
    · rw [infoKept, info]
  · rw [if_neg noMore, if_neg noMore]
    exact ⟨kept, err, info, state⟩

/-- What is applied is taken back, and nothing else of the registers is changed, before the slot fails (R127). -/
def Hw.unapplied (h : Hw) : Hw :=
  (({ h.dropRegs (fun r => appliedRegs.contains r.id) with
      doc := none, bnet := {}, cnet := {}, snet := {}, fold := {}, mem := { h.mem with flows := [] }
      coll := {}, boot := { h.boot with applied := false } } : Hw).modReg .bootSlot 0 0 (setFld · 4 2 0)).modReg .bootStatus 0 0
    (fun w => setBit (setFld w 16 8 0) 8 false)

theorem Hw.applyFault_of_applied {h : Hw} (boot : h.dieState = stBoot) (applied : h.boot.applied = true) :
    h.applyFault = h.unapplied.failSlot 0x5c 0xff 0 := by
  unfold Hw.applyFault
  exact if_pos ⟨boot, applied⟩

/-- The registers that are applied from an image are none of those that a failing slot writes. -/
theorem appliedRegs_apart : ∀ id ∈ appliedRegs, id ∉ [RegId.ancState, .bootErr, .bootStatus, .hstPfEvt, .bootErrInfoA, .bootErrInfoB,
    .bootErrInfoR] ∧ RegId.bootSlot ≠ id ∧ RegId.bootStatus ≠ id := by
  decide

theorem Hw.reg_unapplied {h : Hw} {id : RegId} (applied : id ∈ appliedRegs) (i j : Nat) : h.unapplied.reg id i j = id.desc.reset := by
  obtain ⟨-, slot, status⟩ := appliedRegs_apart id applied
  unfold Hw.unapplied
  rw [Hw.reg_modReg_other status, Hw.reg_modReg_other slot]
  exact (Hw.reg_dropRegs h (fun r => appliedRegs.contains r.id) id i j).trans (if_pos (List.contains_iff_mem.2 applied))

theorem Hw.dieState_unapplied (h : Hw) : h.unapplied.dieState = h.dieState := by
  unfold Hw.unapplied Hw.dieState
  rw [Hw.reg_modReg_other (by decide), Hw.reg_modReg_other (by decide)]
  exact congrArg (fld · 0 4) (Hw.reg_dropRegs_other (p := fun r => appliedRegs.contains r.id) (by decide))

/-! The entry into RUN. -/

/-- What the entry into RUN leaves as it is but for lostBars: the bar counter, the memories, the fuses and the NVM. -/
def Hw.lasting (h : Hw) : BarState × MemState × FuseArray × NvmState := (h.bar, h.mem, h.fuse, h.nvm)

theorem Hw.lasting_setDieState (h : Hw) (s : Nat) : (h.setDieState s).lasting = h.lasting := (congrArg Hw.lasting (h.besideHost_setDieState s) :)

theorem Hw.lasting_phyTrain (h : Hw) (p : Nat) (cold : Bool) : (h.phyTrain p cold).lasting = h.lasting :=
  (congrArg Hw.lasting (h.besidePhy_phyTrain p cold) :)

theorem Hw.lasting_giveDuty (h : Hw) (d : Nat) (k : Option Nat) : (h.giveDuty d k).lasting = h.lasting := by cases k <;> rfl

theorem Hw.lasting_releaseStewards (h : Hw) : h.releaseStewards.lasting = h.lasting :=
  Hw.foldl_same Hw.lasting _ _ (fun g d => Hw.lasting_giveDuty g d (some 4)) _

theorem Hw.lasting_startPorts (h : Hw) : h.startPorts.lasting = h.lasting :=
  Hw.foldl_same Hw.lasting _ _ (fun g p => Hw.lasting_phyTrain (g.setLinkState p lsTraining) p true) h

theorem Hw.lasting_powerBar (h : Hw) : h.powerBar.lasting = h.lasting := by
  unfold Hw.powerBar
  dsimp only
  split <;> rfl

theorem Hw.lasting_firstWindow (h : Hw) : h.firstWindow.lasting = h.lasting := by
  unfold Hw.firstWindow
  split
  · exact Hw.lasting_powerBar h
  · rfl

/-! Stewards and ports that start with RUN (R128, R129). -/

theorem Hw.reg_giveDuty_other {id : RegId} (n : .stwDuty ≠ id) (h : Hw) (d : Nat) (k : Option Nat) (i j : Nat) :
    (h.giveDuty d k).reg id i j = h.reg id i j := by
  cases k with
  | none => exact Hw.reg_modReg_other n h _ _ _ _ _
  | some k =>
    exact (Hw.reg_set_stw _ _ id i j).trans (Hw.reg_modReg_other n h _ _ _ _ _)

theorem Hw.reg_releaseStewards_other {id : RegId} (n : .stwDuty ≠ id) (h : Hw) (i j : Nat) : h.releaseStewards.reg id i j = h.reg id i j :=
  Hw.foldl_same (fun g : Hw => g.reg id i j) _ _ (fun g d => Hw.reg_giveDuty_other n g d (some 4) i j) _

/-- A core that takes a duty is active, and those that were stay so. -/
theorem Hw.active_giveDuties (k : Nat) (ds : List Nat) : ∀ g : Hw, g.stw.active.testBit k = true →
    (ds.foldl (fun g d => g.giveDuty d (some 4)) g).stw.active.testBit k = true := by
  induction ds with
  | nil => exact fun _ active => active
  | cons d ds ih =>
    intro g active
    refine ih _ ?_
    change (g.stw.active ||| 2 ^ 4).testBit k = true
    rw [Nat.testBit_or, active, Bool.true_or]

/-- Of the four cores with duties, those that are not out. -/
theorem testBit_coresLeft (out : Nat → Bool) {k : Nat} (core : k < 4) (isLeft : out k = false) :
    ((List.range 4).foldl (fun (m : Nat) (k : Nat) => if out k then m else m + 2 ^ k) 0).testBit k = true := by
  have all : ∀ a b c d : Bool, ∀ k : Fin 4, [a, b, c, d][k] = false →
      ([(0, a), (1, b), (2, c), (3, d)].foldl (fun (m : Nat) (e : Nat × Bool) => if e.2 then m else m + 2 ^ e.1) 0).testBit k = true := by
    decide
  refine all (out 0) (out 1) (out 2) (out 3) ⟨k, core⟩ ?_
  obtain rfl | rfl | rfl | rfl : k = 0 ∨ k = 1 ∨ k = 2 ∨ k = 3 := by omega
  all_goals exact isLeft

theorem Hw.stw_releaseStewards (h : Hw) : h.releaseStewards.stw.failed = h.stewardsOut ∧
    ∀ k, k < 4 → h.stewardsOut.testBit k = false → h.releaseStewards.stw.active.testBit k = true := by
  refine ⟨?_, fun k core isLeft => ?_⟩
  · unfold Hw.releaseStewards
    dsimp only
    refine Hw.foldl_same (fun g : Hw => g.stw.failed) _ _ (fun g d => ?_) _
    rfl
  · exact Hw.active_giveDuties k _ _ (testBit_coresLeft h.stewardsOut.testBit core isLeft)

theorem Hw.reg_startPorts_other {id : RegId} (n : .lnkPortStatus ≠ id)
    (n' : id ∉ [RegId.phyLaneStatus, .phyFfe, .phyDfe, .phyPortStatus, .phyTxLanes, .phyRxLanes]) (h : Hw) (i j : Nat) :
    h.startPorts.reg id i j = h.reg id i j := by
  refine Hw.foldl_same (fun g : Hw => g.reg id i j) _ _ (fun g p => ?_) h
  rw [Hw.reg_phyTrain _ _ _ _ _ _ n']
  exact Hw.reg_modReg_other n g _ _ _ _ _

/-- A port that a training was begun for trains, whatever other ports begin to train. -/
theorem Hw.linkState_trains (p : Nat) (ps : List Nat) (h : Hw) :
    (ps.foldl (fun h p => (h.setLinkState p lsTraining).phyTrain p true) h).linkState p = if p ∈ ps then lsTraining else h.linkState p := by
  induction ps generalizing h with
  | nil => rfl
  | cons q ps ih =>
    have one : ((h.setLinkState q lsTraining).phyTrain q true).linkState p = if q = p then lsTraining else h.linkState p := by
      unfold Hw.linkState Hw.setLinkState
      rw [Hw.reg_phyTrain _ _ _ _ _ _ (by decide), Hw.reg_modReg]
      by_cases same : q = p
      · rw [if_pos ⟨rfl, same, rfl⟩, if_pos same, fld_setFld_same _ _ _ _ (by decide)]
        rfl
      · rw [if_neg (fun e => same e.2.1), if_neg same]
    rw [List.foldl_cons, ih, one]
    by_cases later : p ∈ ps
    · rw [if_pos later, if_pos (List.mem_cons_of_mem q later)]
    · rw [if_neg later]
      by_cases same : q = p
      · rw [if_pos same, if_pos (by rw [same]; exact List.mem_cons_self)]
      · rw [if_neg same, if_neg (by simp [later, Ne.symm same])]

theorem Hw.linkState_startPorts {h : Hw} {p : Nat} (port : p < 6) (enabled : h.topo.portEnable.testBit p = true) :
    h.startPorts.linkState p = lsTraining := by
  unfold Hw.startPorts
  rw [Hw.linkState_trains, if_pos (List.mem_filter.2 ⟨List.mem_range.2 port, enabled⟩)]

theorem Hw.reg_firstWindow_other {id : RegId} (n : .pwaGrantEvt ≠ id) (h : Hw) (i j : Nat) : h.firstWindow.reg id i j = h.reg id i j := by
  unfold Hw.firstWindow Hw.powerBar
  dsimp only
  split
  · split
    · exact (Hw.reg_set_power _ _ id i j).trans (Hw.reg_modReg_other n h _ _ _ _ _)
    · rfl
  · rfl

/-- The die as it enters RUN: BOOT_TIME is taken, the stewards are released and the ports begin to train. -/
def Hw.entered (h : Hw) : Hw := ((((h.setPhase 8).setReg .bootTime 0 0 h.bootTime).setDieState stRun).releaseStewards).startPorts

/-- The clock aligned is a follower's to find; no bar has been lost, and the first window may begin. -/
def Hw.runBegins (h : Hw) : Hw :=
  let g := if h.isSource then h else h.modReg .clkStatus 0 0 (setBit · 16 false)
  ({ g with bar := { g.bar with lostBars := 0 } } : Hw).firstWindow

theorem Hw.runEntry_of_ready {h : Hw} (boot : h.dieState = stBoot) (applied : h.boot.applied = true) (scrubbed : h.boot.scrubbed = true) :
    h.runEntry = h.entered.runBegins := by
  unfold Hw.runEntry
  exact if_pos ⟨boot, applied, scrubbed⟩

theorem Hw.reg_runBegins_other {id : RegId} (n : .clkStatus ≠ id) (n' : .pwaGrantEvt ≠ id) (h : Hw) (i j : Nat) :
    h.runBegins.reg id i j = h.reg id i j := by
  unfold Hw.runBegins
  dsimp only
  rw [Hw.reg_firstWindow_other n', Hw.reg_set_bar]
  split
  · rfl
  · exact Hw.reg_modReg_other n h _ _ _ _ _

theorem Hw.stw_runBegins (h : Hw) : h.runBegins.stw = h.stw := by
  unfold Hw.runBegins Hw.firstWindow Hw.powerBar
  dsimp only
  (repeat' split) <;> rfl

theorem Hw.lasting_runBegins (h : Hw) : h.runBegins.lasting = ({ h.bar with lostBars := 0 }, h.mem, h.fuse, h.nvm) := by
  unfold Hw.runBegins
  dsimp only
  rw [Hw.lasting_firstWindow]
  split <;> rfl

theorem Hw.lasting_entered (h : Hw) : h.entered.lasting = h.lasting := by
  unfold Hw.entered
  rw [Hw.lasting_startPorts, Hw.lasting_releaseStewards, Hw.lasting_setDieState]
  rfl

/-- The registers that the stewards' release and the ports' training leave alone. -/
theorem Hw.reg_entered {id : RegId} (n : .stwDuty ≠ id) (n' : .lnkPortStatus ≠ id)
    (n'' : id ∉ [RegId.phyLaneStatus, .phyFfe, .phyDfe, .phyPortStatus, .phyTxLanes, .phyRxLanes]) (h : Hw) (i j : Nat) :
    h.entered.reg id i j = (((h.setPhase 8).setReg .bootTime 0 0 h.bootTime).setDieState stRun).reg id i j := by
  unfold Hw.entered
  rw [Hw.reg_startPorts_other n' n'', Hw.reg_releaseStewards_other n]

theorem Hw.stw_startPorts (h : Hw) : h.startPorts.stw = h.stw := by
  refine Hw.foldl_same Hw.stw _ _ (fun g p => ?_) h
  exact (congrArg Hw.stw (Hw.besidePhy_phyTrain (g.setLinkState p lsTraining) p true) :)

theorem Hw.stewardsOut_congr {g h : Hw} (health : g.health = h.health) (mask : ∀ k, g.reg .fusNodeMask k = h.reg .fusNodeMask k) :
    g.stewardsOut = h.stewardsOut := by
  unfold Hw.stewardsOut Hw.nodeMasked
  simp only [health, mask]

theorem Hw.doc_releaseStewards (h : Hw) : h.releaseStewards.doc = h.doc := by
  refine Hw.foldl_same Hw.doc _ _ (fun g d => ?_) _
  rfl

theorem Hw.stw_entered (h : Hw) : h.entered.stw.failed = h.stewardsOut ∧
    ∀ k, k < 4 → h.stewardsOut.testBit k = false → h.entered.stw.active.testBit k = true := by
  have same : (((h.setPhase 8).setReg .bootTime 0 0 h.bootTime).setDieState stRun).stewardsOut = h.stewardsOut := by
    refine Hw.stewardsOut_congr ?_ (fun k => ?_)
    · exact (congrArg Hw.health (Hw.besideHost_setDieState ((h.setPhase 8).setReg .bootTime 0 0 h.bootTime) stRun) :)
    · rw [Hw.reg_setDieState_other (by decide) (by decide), Hw.reg_setReg_other (by decide), Hw.reg_setPhase (by decide)]
  unfold Hw.entered
  rw [Hw.stw_startPorts, ← same]
  exact Hw.stw_releaseStewards _

theorem Hw.linkState_entered {h : Hw} {p : Nat} (port : p < 6) (enabled : h.topo.portEnable.testBit p = true) :
    h.entered.linkState p = lsTraining := by
  refine Hw.linkState_startPorts port ?_
  have doc : ((((h.setPhase 8).setReg .bootTime 0 0 h.bootTime).setDieState stRun).releaseStewards).doc = h.doc :=
    (Hw.doc_releaseStewards _).trans
      (congrArg Hw.doc (Hw.besideHost_setDieState ((h.setPhase 8).setReg .bootTime 0 0 h.bootTime) stRun) :)
  unfold Hw.topo at enabled ⊢
  rwa [doc]

end Sys2Proof.Machine

open Sys2Proof Sys2Proof.Machine

/-- Settles O16: an image applied, a fault taken back, the scrub, the entry into RUN and fw_ready. -/
theorem imageAppliedAndRun : Obligations.ImageAppliedAndRun := by
  unfold Obligations.ImageAppliedAndRun
  refine ⟨fun s boot => ⟨fun checked fresh noDoc => ?_, fun applied first last => ?_⟩,
    fun s => ⟨fun unscrubbed => ?_, fun boot applied scrubbed => ?_, fun run active notReady => ?_⟩⟩
  · intro b d h0 h1 h2 h3 h4 h5
    refine (completes_imageApply s _).2 ⟨?_, Hw.vault_imageApply s.hw⟩
    unfold Hw.imageApply
    exact if_pos ⟨boot, checked, by rw [fresh]; rfl, by rw [noDoc]; rfl⟩
  · refine (completes_applyFault s _).2 ?_
    rw [Hw.applyFault_of_applied boot applied]
    have slot : 1 ≤ s.hw.unapplied.boot.cur ∧ s.hw.unapplied.boot.cur ≤ 3 := ⟨first, last⟩
    obtain ⟨others, err, info, state⟩ := Hw.reg_failSlot (code := 0x5c) (sect := 0xff) (rec := 0) slot ((Hw.dieState_unapplied s.hw).trans boot)
    obtain ⟨b, checked, staged, stillApplied, rest⟩ := Hw.besideHost_failSlot s.hw.unapplied 0x5c 0xff 0
    have bootIs := (congrArg Hw.boot rest :)
    refine ⟨fun id i j applied => ?_, (congrArg Hw.doc rest :), (congrArg Hw.bnet rest :), (congrArg Hw.cnet rest :), (congrArg Hw.snet rest :),
      (congrArg Hw.fold rest :), (congrArg Hw.coll rest :), (congrArg (fun g => g.mem.flows) rest :), ?_, ?_, ?_, err, info, state, ?_⟩
    · exact (others id i j (appliedRegs_apart id applied).1).trans (Hw.reg_unapplied applied i j)
    · exact (congrArg BootState.applied bootIs).trans stillApplied
    · exact (congrArg BootState.checked bootIs).trans checked
    · exact (congrArg BootState.staged bootIs).trans staged
    · exact (congrArg Hw.vault (Hw.applyFault_of_applied boot applied)).symm.trans (Hw.vault_applyFault s.hw)
  · refine (completes_warmScrubDone s _).2 ?_
    unfold Hw.scrubDone
    exact if_neg (by rw [unscrubbed]; decide)
  · refine (completes_runEntry s _).2 ?_
    rw [Hw.runEntry_of_ready boot applied scrubbed]
    have shown {id : RegId} (n : .clkStatus ≠ id) (n' : .pwaGrantEvt ≠ id) (d : .stwDuty ≠ id) (l : .lnkPortStatus ≠ id)
        (p : id ∉ [RegId.phyLaneStatus, .phyFfe, .phyDfe, .phyPortStatus, .phyTxLanes, .phyRxLanes]) :=
      (Hw.reg_runBegins_other n n' s.hw.entered 0 0).trans (Hw.reg_entered d l p s.hw 0 0)
    have before : ((s.hw.setPhase 8).setReg .bootTime 0 0 s.hw.bootTime).dieState ≠ stRun := by
      unfold Hw.dieState
      rw [Hw.reg_setReg_other (by decide), Hw.reg_setPhase (by decide)]
      exact fun run => absurd (run.symm.trans boot) (by decide)
    have stewards := Hw.stw_entered s.hw
    have lasting := Hw.lasting_runBegins s.hw.entered
    have entering := Hw.lasting_entered s.hw
    refine ⟨?_, ?_, ?_, ?_, ?_, fun p port enabled => ?_, ?_, ?_, ?_, ?_, ?_⟩
    · exact (congrArg (fld · 0 4) (shown (by decide) (by decide) (by decide) (by decide) (by decide))).trans
        (Hw.dieState_setDieState (by decide) _)
    · rw [shown (by decide) (by decide) (by decide) (by decide) (by decide), Hw.reg_setDieState_other (by decide) (by decide),
        Hw.reg_setReg_other (by decide)]
      unfold Hw.setPhase
      exact (congrArg (fld · 0 4) ((Hw.reg_modReg ..).trans (if_pos ⟨rfl, rfl, rfl⟩))).trans (fld_setFld_same _ _ _ _ (by decide))
    · rw [shown (by decide) (by decide) (by decide) (by decide) (by decide), Hw.reg_setDieState_other (by decide) (by decide),
        Hw.reg_setReg, if_pos ⟨rfl, rfl, rfl⟩]
      rfl
    · rw [Hw.stw_runBegins, stewards.1]
    · rw [Hw.stw_runBegins]
      exact stewards.2
    · refine Eq.trans ?_ (Hw.linkState_entered port enabled)
      unfold Hw.linkState
      rw [Hw.reg_runBegins_other (by decide) (by decide)]
    · rw [shown (by decide) (by decide) (by decide) (by decide) (by decide), Hw.pfEvent_setDieState before]
    · exact (congrArg Prod.fst lasting :).trans (congrArg (fun l => ({ l.1 with lostBars := 0 } : BarState)) entering :)
    · exact (congrArg (·.2.1) lasting :).trans (congrArg (·.2.1) entering :)
    · exact (congrArg (·.2.2.1) lasting :).trans (congrArg (·.2.2.1) entering :)
    · exact (congrArg (·.2.2.2) lasting :).trans (congrArg (·.2.2.2) entering :)
  · refine (completes_fwReady s _).2 ?_
    unfold Hw.fwReady
    exact if_pos (by simp [Hw.running, run, stRun, active, notReady])

end

section
/-! The end of a bar (R56 to R61, R374; R72, R73 for the TCLK counts) and the obligation on it. -/

namespace Sys2Proof.Machine

/-- What both branches keep is kept. -/
theorem Hw.keeps_ite {β : Type} {P : Hw → β} {x : β} {c : Prop} [Decidable c] {a b : Hw} (first : P a = x) (second : P b = x) :
    P (if c then a else b) = x := by
  split
  · exact first
  · exact second

/-- The registers that the end of a bar shows. -/
def barRegs : List RegId := [.clkEvt, .nodeTclkMeas, .ancState, .snDbStatus, .fusNodeMask]

/-- The block beside its counting: the time, the plan, the fault notices and the registers that the end of a bar shows. -/
def Hw.barSide (h : Hw) : Nat × Option Doc × FaultState × ({id : RegId // id ∈ barRegs} → Nat → Nat → Word) :=
  (h.now, h.doc, h.fault, fun id i j => h.reg id i j)

theorem Hw.reg_of_barSide {g h : Hw} (e : g.barSide = h.barSide) {id : RegId} (shown : id ∈ barRegs) (i j : Nat) :
    g.reg id i j = h.reg id i j :=
  congrFun (congrFun (congrFun (congrArg (·.2.2.2) e :) ⟨id, shown⟩) i) j

theorem Hw.barSide_set_free (h : Hw) (n : Nat) : ({ h with free := n } : Hw).barSide = h.barSide := rfl

theorem Hw.barSide_set_jobs (h : Hw) (x : List (Nat × JobState)) : ({ h with jobs := x } : Hw).barSide = h.barSide := rfl

@[simp] theorem Hw.barSide_setReg {id : RegId} (n : id ∉ barRegs) (h : Hw) (i j : Nat) (v : Word) : (h.setReg id i j v).barSide = h.barSide := by
  unfold Hw.barSide
  refine congrArg (fun r => (h.now, h.doc, h.fault, r)) (funext fun id' => funext fun i' => funext fun j' => ?_)
  exact Hw.reg_setReg_other (fun e => n (by rw [e]; exact id'.2)) _ _ _ _ _ _

@[simp] theorem Hw.barSide_modReg {id : RegId} (n : id ∉ barRegs) (h : Hw) (i j : Nat) (f : Word → Word) :
    (h.modReg id i j f).barSide = h.barSide := Hw.barSide_setReg n h i j _

@[simp] theorem Hw.barSide_fresh (h : Hw) : h.fresh.2.barSide = h.barSide := rfl

theorem Hw.barSide_add64 {lo hi : RegId} (n : lo ∉ barRegs) (n' : hi ∉ barRegs) (h : Hw) (i j d : Nat) : (h.add64 lo hi i j d).barSide = h.barSide :=
  (Hw.barSide_setReg n' _ i j _).trans (Hw.barSide_setReg n h i j _)

/-! As time passes. -/

theorem Hw.barSide_refreshWaits (h : Hw) : h.refreshWaits.barSide = h.barSide := by
  unfold Hw.refreshWaits
  dsimp only
  rw [Hw.barSide_set_free]
  refine Hw.foldl_same Hw.barSide _ _ (fun g n => ?_) h
  refine Hw.foldl_same Hw.barSide _ _ (fun g e => ?_) g
  exact Hw.foldl_same Hw.barSide _ _ (fun g w => Hw.barSide_setReg (by decide) g n _ _) g

theorem Hw.barSide_binStall (h : Hw) (n k : Nat) : (h.binStall n k).barSide = h.barSide := by
  unfold Hw.binStall
  dsimp only
  split
  · rfl
  · split
    · split
      · exact Hw.barSide_add64 (by decide) (by decide) _ _ _ _
      · rfl
    · rfl

theorem Hw.barSide_engineCount (h : Hw) (k n e : Nat) : (h.engineCount k n e).barSide = h.barSide := by
  unfold Hw.engineCount
  extract_lets acts busy rest valid f x g1 stall g2 g3 r g4 g5
  have e1 : g1.barSide = h.barSide := by
    simp only [g1, x, f]
    split
    · rfl
    · split <;> rfl
  have e2 : g2.barSide = h.barSide := Hw.keeps_ite e1 ((Hw.barSide_add64 (by decide) (by decide) g1 _ _ _).trans e1)
  have e3 : g3.barSide = h.barSide := Hw.keeps_ite e2 ((Hw.barSide_add64 (by decide) (by decide) g2 _ _ _).trans e2)
  have e4 : g4.barSide = h.barSide :=
    ((Hw.barSide_modReg (by decide) _ _ _ _).trans (Hw.barSide_add64 (by decide) (by decide) g3 _ _ _)).trans e3
  have e5 : g5.barSide = h.barSide := Hw.keeps_ite ((Hw.barSide_add64 (by decide) (by decide) g4 _ _ _).trans e4) e4
  exact Hw.keeps_ite e3 (Hw.keeps_ite ((Hw.barSide_binStall g5 _ _).trans e5) e5)

theorem Hw.barSide_observeTime (h : Hw) (k : Nat) : (h.observeTime k).barSide = h.barSide := by
  unfold Hw.observeTime
  extract_lets g g'
  have counted : g'.barSide = g.barSide := by
    subst g'
    split
    · rfl
    · refine Hw.foldl_same Hw.barSide _ _ (fun a n => Hw.foldl_same Hw.barSide _ _ (fun b e => ?_) a) g
      split
      · exact Hw.barSide_engineCount b k n e
      · rfl
  exact counted.trans (Hw.barSide_refreshWaits h)

theorem Hw.barSide_stallTime (h : Hw) (k : Nat) : (h.stallTime k).barSide = h.barSide := by
  refine Hw.foldl_same Hw.barSide _ _ (fun g _ => ?_) h
  unfold Hw.chCount
  split
  · exact Hw.barSide_add64 (by decide) (by decide) _ _ _ _
  · rfl

/-- Time that passes changes, of what the end of a bar shows, the time alone. -/
theorem Hw.barSide_advance (h : Hw) (k : Nat) : (h.advance k).barSide = (h.now + k, h.barSide.2) := by
  have same := (Hw.barSide_stallTime (h.observeTime k) k).trans (Hw.barSide_observeTime h k)
  calc (h.advance k).barSide
    _ = (((h.observeTime k).stallTime k).barSide.1 + k, ((h.observeTime k).stallTime k).barSide.2) := rfl
    _ = _ := by rw [same]; rfl

theorem Hw.reg_advance {id : RegId} (shown : id ∈ barRegs) (h : Hw) (k i j : Nat) : (h.advance k).reg id i j = h.reg id i j :=
  congrFun (congrFun (congrFun (congrArg (·.2.2.2) (Hw.barSide_advance h k) :) ⟨id, shown⟩) i) j

theorem Hw.fault_advance (h : Hw) (k : Nat) : (h.advance k).fault = h.fault := (congrArg (·.2.2.1) (Hw.barSide_advance h k) :)

/-! What the bar's end does beside the TCLK counts (R57 to R61). -/

theorem Hw.barSide_setRegs {id : RegId} (n : id ∉ barRegs) (i : Nat) (f : Nat → Word) (l : List Nat) (h : Hw) :
    (l.foldl (fun h j => h.setReg id i j (f j)) h).barSide = h.barSide :=
  Hw.foldl_same Hw.barSide _ _ (fun g j => Hw.barSide_setReg n g i j (f j)) h

theorem Hw.barSide_laneEq (h : Hw) (p k : Nat) (m : LaneMeas) (sweep : Bool) : (h.laneEq p k m sweep).barSide = h.barSide := by
  unfold Hw.laneEq Hw.modLane
  dsimp only
  split
  · rw [Hw.barSide_setRegs (by decide)]
    have swept : (if sweep = true then h.modReg .phyLaneStatus (laneIx p k) 0 (setFld · 12 4 m.ctle.toNat) else h).barSide = h.barSide :=
      Hw.keeps_ite (Hw.barSide_modReg (by decide) h _ _ _) rfl
    exact Hw.keeps_ite swept ((Hw.barSide_setRegs (by decide) (laneIx p k) (fun j => (m.ffe.getD j 0#8).setWidth 32) _ _).trans swept)
  · exact Hw.barSide_modReg (by decide) h _ _ _
  · rfl

theorem Hw.barSide_laneQuality (h : Hw) (p k errSq samples pmmSum steps : Nat) :
    (h.laneQuality p k errSq samples pmmSum steps).barSide = h.barSide := by
  unfold Hw.laneQuality
  dsimp only
  rw [Hw.barSide_setReg (by decide), Hw.barSide_setReg (by decide), Hw.barSide_setReg (by decide)]
  split <;> rfl

theorem Hw.barSide_laneBar (h : Hw) (m : LaneMeas) : (h.laneBar m).barSide = h.barSide := by
  unfold Hw.laneBar
  dsimp only
  split
  · unfold Hw.laneGainStep Hw.modLane
    dsimp only
    rw [Hw.barSide_modReg (by decide), Hw.barSide_laneQuality, Hw.barSide_laneEq]
    split
    · exact Hw.barSide_setReg (by decide) h _ _ _
    · exact (Hw.barSide_modReg (by decide) _ _ _ _).trans (Hw.barSide_setReg (by decide) h _ _ _)
  · rfl

theorem Hw.barSide_sleepBar (h : Hw) (p : Nat) : (h.sleepBar p).barSide = h.barSide := by
  unfold Hw.sleepBar
  split
  · exact Hw.barSide_modReg (by decide) h _ _ _
  · rfl

theorem Hw.barSide_linkBar (h : Hw) (p : Nat) : (h.linkBar p).barSide = h.barSide := by
  unfold Hw.linkBar
  split <;> rfl

theorem Hw.barSide_portBar (h : Hw) (i : Nat) : (h.portBar i).barSide = h.barSide := rfl

theorem Hw.barSide_linkErrorBar (h : Hw) : h.linkErrorBar.barSide = h.barSide := by
  have dec (net : Nat) {id : RegId} (n : id ∉ barRegs) (g : Hw) : ((g.regs.filter (fun e => decide (e.1.id = id))).foldl (fun h e =>
      (List.range 4).foldl (fun h d =>
        if h.bnet.errBar.contains (net * 384 + e.1.i * 4 + d) then h
        else h.modReg id e.1.i 0 (fun w => setFld w (d * 8) 8 (fld w (d * 8) 8 - 1))) h) g).barSide = g.barSide := by
    refine Hw.foldl_same Hw.barSide _ _ (fun a e => Hw.foldl_same Hw.barSide _ _ (fun b d => ?_) a) g
    split
    · rfl
    · exact Hw.barSide_modReg n b _ _ _
  exact ((dec 2 (by decide) _).trans (dec 1 (by decide) _)).trans (dec 0 (by decide) h)

theorem Hw.barSide_heartbeatBar (h : Hw) : h.heartbeatBar.barSide = h.barSide := by
  refine Hw.foldl_same Hw.barSide _ _ (fun g k => ?_) h
  split
  · exact Hw.barSide_modReg (by decide) g _ _ _
  · rfl

theorem Hw.barSide_ageWaits (h : Hw) : h.ageWaits.barSide = h.barSide :=
  Hw.foldl_same Hw.barSide _ _ (fun g _ => Hw.barSide_modReg (by decide) g _ _ _) h

theorem Hw.barSide_phaseBar (h : Hw) : h.phaseBar.barSide = h.barSide := by
  refine Hw.foldl_same Hw.barSide _ _ (fun g e => ?_) h
  split
  · unfold Hw.phaseSwitch
    split
    · rfl
    · exact Hw.barSide_modReg (by decide) _ _ _ _
  · rfl

/-- The TCLK counts of a bar: those given, and for the other sites those that stand. -/
def Hw.tclkCounted (h : Hw) (tclk : List (Nat × Nat)) : Hw :=
  ((List.range 64).filter (fun i => !(tclk.map (·.1)).contains i)).foldl
    (fun (h : Hw) i => h.tclkBar i (fld (h.reg .nodeTclkMeas (tileNode i)) 0 13)) (tclk.foldl (fun (h : Hw) x => h.tclkBar x.1 x.2) h)

theorem Hw.barSide_barEnd (h : Hw) (tclk : List (Nat × Nat)) (lanes : List LaneMeas) :
    (h.barEnd tclk lanes).barSide = (h.tclkCounted tclk).barSide := by
  unfold Hw.barEnd Hw.tclkCounted
  extract_lets g1 seen g2 g3 g4 g5 g6
  calc g6.linkErrorBar.heartbeatBar.ageWaits.phaseBar.barSide
    _ = g6.barSide := by rw [Hw.barSide_phaseBar, Hw.barSide_ageWaits, Hw.barSide_heartbeatBar, Hw.barSide_linkErrorBar]
    _ = g5.barSide := Hw.barSide_set_jobs g5 (g5.jobs.map (fun e => (e.1, { e.2 with startBar := e.2.startBar.map (· + 1) })))
    _ = g4.barSide := Hw.foldl_same Hw.barSide _ _ (fun g i => Hw.barSide_portBar g i) g4
    _ = g3.barSide := Hw.foldl_same Hw.barSide _ _ (fun g p => (Hw.barSide_linkBar _ p).trans (Hw.barSide_sleepBar g p)) g3
    _ = g2.barSide := Hw.foldl_same Hw.barSide _ _ Hw.barSide_laneBar g2

/-! The TCLK counts (R72, R73). -/

/-- The registers that the end of a bar shows besides the TCLK counts. -/
def countRegs : List RegId := [.clkEvt, .ancState, .snDbStatus, .fusNodeMask]

/-- The block beside its counting and the TCLK counts. -/
def Hw.countSide (h : Hw) : Nat × Option Doc × FaultState × ({id : RegId // id ∈ countRegs} → Nat → Nat → Word) :=
  (h.now, h.doc, h.fault, fun id i j => h.reg id i j)

theorem Hw.reg_of_countSide {g h : Hw} (e : g.countSide.2 = h.countSide.2) {id : RegId} (shown : id ∈ countRegs) (i j : Nat) :
    g.reg id i j = h.reg id i j :=
  congrFun (congrFun (congrFun (congrArg (·.2.2) e :) ⟨id, shown⟩) i) j

theorem Hw.countSide_of_barSide_snd {g h : Hw} (e : g.barSide.2 = h.barSide.2) : g.countSide.2 = h.countSide.2 := by
  have fewer : ∀ id ∈ countRegs, id ∈ barRegs := by decide
  have regs : (fun (id : {id : RegId // id ∈ countRegs}) i j => g.reg id i j) = fun id i j => h.reg id.1 i j :=
    funext fun id => funext fun i => funext fun j => congrFun (congrFun (congrFun (congrArg (·.2.2) e :) ⟨id, fewer id id.2⟩) i) j
  exact Prod.ext (congrArg (·.1) e :) (Prod.ext (congrArg (·.2.1) e :) regs)

theorem Hw.countSide_of_barSide {g h : Hw} (e : g.barSide = h.barSide) : g.countSide = h.countSide :=
  Prod.ext (congrArg Prod.fst e :) (Hw.countSide_of_barSide_snd (congrArg Prod.snd e :))

theorem Hw.countSide_setReg {id : RegId} (n : id ∉ countRegs) (h : Hw) (i j : Nat) (v : Word) : (h.setReg id i j v).countSide = h.countSide := by
  unfold Hw.countSide
  refine congrArg (fun r => (h.now, h.doc, h.fault, r)) (funext fun id' => funext fun i' => funext fun j' => ?_)
  exact Hw.reg_setReg_other (fun e => n (by rw [e]; exact id'.2)) _ _ _ _ _ _

theorem Hw.countSide_modReg {id : RegId} (n : id ∉ countRegs) (h : Hw) (i j : Nat) (f : Word → Word) :
    (h.modReg id i j f).countSide = h.countSide := Hw.countSide_setReg n h i j _

theorem Hw.countSide_modPort (h : Hw) (i : Nat) (f : TilePort → TilePort) : (h.modPort i f).countSide = h.countSide := rfl

theorem Hw.countSide_tclkBar (h : Hw) (i count : Nat) : (h.tclkBar i count).countSide = h.countSide := by
  unfold Hw.tclkBar
  dsimp only
  split
  · rfl
  · rw [Hw.countSide_modPort, Hw.countSide_modReg (by decide), Hw.countSide_setReg (by decide)]

theorem Hw.countSide_tclkBars {α : Type} (site : α → Nat) (count : Hw → α → Nat) (l : List α) (h : Hw) :
    (l.foldl (fun h x => h.tclkBar (site x) (count h x)) h).countSide = h.countSide :=
  Hw.foldl_same Hw.countSide l (fun h x => h.tclkBar (site x) (count h x)) (fun g x => Hw.countSide_tclkBar g (site x) (count g x)) h

theorem Hw.countSide_tclkCounted (h : Hw) (tclk : List (Nat × Nat)) : (h.tclkCounted tclk).countSide = h.countSide :=
  (Hw.countSide_tclkBars (fun i => i) (fun h i => fld (h.reg .nodeTclkMeas (tileNode i)) 0 13) _ _).trans
    (Hw.countSide_tclkBars (fun x : Nat × Nat => x.1) (fun _ x => x.2) tclk h)

/-- What a site shows of its TCLK count (Table 2.4). -/
def tclkWord (count : Nat) : Word :=
  mkWord [(0, 13, count), (16, 1, b2n (decide (845 ≤ count ∧ count ≤ 3447))), (17, 1, b2n (count == 0))]

theorem Hw.tclkMeas_tclkBar {h : Hw} {i : Nat} (unmasked : h.nodeMasked (tileNode i) = false) (count : Nat) :
    (h.tclkBar i count).reg .nodeTclkMeas (tileNode i) = tclkWord count := by
  unfold Hw.tclkBar
  dsimp only
  rw [if_neg (by simp [unmasked])]
  rw [Hw.reg_modPort, Hw.reg_modReg_other (by decide), Hw.reg_setReg, if_pos ⟨rfl, rfl, rfl⟩]
  rfl

/-- Tile sites stand at nodes of their own. -/
theorem tileNode_inj {i k : Nat} (e : tileNode i = tileNode k) : i = k := by
  have node (i : Nat) : tileNode i = i / 8 * 12 + i % 8 + 2 := by
    unfold tileNode nodeOf
    exact if_pos rfl
  rw [node, node] at e
  omega

theorem Hw.tclkMeas_tclkBar_other {i k : Nat} (other : k ≠ i) (h : Hw) (count : Nat) :
    (h.tclkBar k count).reg .nodeTclkMeas (tileNode i) = h.reg .nodeTclkMeas (tileNode i) := by
  unfold Hw.tclkBar
  dsimp only
  split
  · rfl
  · rw [Hw.reg_modPort, Hw.reg_modReg_other (by decide), Hw.reg_setReg, if_neg (fun e => other (tileNode_inj e.2.1))]

theorem Hw.nodeMasked_tclkBar (h : Hw) (i count k : Nat) : (h.tclkBar i count).nodeMasked k = h.nodeMasked k := by
  unfold Hw.nodeMasked
  rw [Hw.reg_of_countSide (congrArg Prod.snd (Hw.countSide_tclkBar h i count) :) (by decide)]

theorem Hw.tclkMeas_other {α : Type} (site : α → Nat) (count : Hw → α → Nat) {i : Nat} (l : List α) (others : ∀ x ∈ l, site x ≠ i) (h : Hw) :
    (l.foldl (fun h x => h.tclkBar (site x) (count h x)) h).reg .nodeTclkMeas (tileNode i) = h.reg .nodeTclkMeas (tileNode i) := by
  induction l generalizing h with
  | nil => rfl
  | cons x l ih =>
    rw [List.foldl_cons, ih (fun y isIn => others y (List.mem_cons_of_mem x isIn)),
      Hw.tclkMeas_tclkBar_other (others x List.mem_cons_self)]

theorem Hw.tclkMeas_given {i n : Nat} (tclk : List (Nat × Nat)) (once : (tclk.map (·.1)).Nodup) (given : (i, n) ∈ tclk) (h : Hw)
    (unmasked : h.nodeMasked (tileNode i) = false) :
    (tclk.foldl (fun (h : Hw) x => h.tclkBar x.1 x.2) h).reg .nodeTclkMeas (tileNode i) = tclkWord n := by
  induction tclk generalizing h with
  | nil => cases given
  | cons x tclk ih =>
    rw [List.map_cons, List.nodup_cons] at once
    rw [List.foldl_cons]
    rcases List.mem_cons.1 given with rfl | later
    · rw [Hw.tclkMeas_other (·.1) (fun _ x => x.2) tclk (fun y isIn e => once.1 (by
        have listed : y.1 ∈ tclk.map (·.1) := List.mem_map_of_mem isIn
        rwa [e] at listed)), Hw.tclkMeas_tclkBar unmasked]
    · exact ih once.2 later _ ((Hw.nodeMasked_tclkBar ..).trans unmasked)

theorem Hw.tclkMeas_tclkCounted {i n : Nat} {tclk : List (Nat × Nat)} (once : (tclk.map (·.1)).Nodup) (given : (i, n) ∈ tclk) {h : Hw}
    (unmasked : h.nodeMasked (tileNode i) = false) : (h.tclkCounted tclk).reg .nodeTclkMeas (tileNode i) = tclkWord n := by
  unfold Hw.tclkCounted
  rw [Hw.tclkMeas_other (fun i => i) (fun h i => fld (h.reg .nodeTclkMeas (tileNode i)) 0 13), Hw.tclkMeas_given tclk once given h unmasked]
  intro k notSeen e
  have seen : i ∈ tclk.map (·.1) := List.mem_map_of_mem given
  simp [e, seen] at notSeen

theorem fld_tclkWord {n : Nat} (short : n < 2 ^ 13) : fld (tclkWord n) 0 13 = n := by
  change fld (setFld (setFld (setFld (0 : Word) 0 13 n) 16 1 _) 17 1 _) 0 13 = n
  rw [fld_setFld_other _ _ _ _ _ _ (by decide), fld_setFld_other _ _ _ _ _ _ (by decide), fld_setFld_same _ _ _ _ (by decide),
    Nat.mod_eq_of_lt short]

theorem bit_setFld_b2n (w : Word) {k : Nat} (inWord : k < 32) (b : Bool) : bit (setFld w k 1 (b2n b)) k = b := by
  unfold bit
  rw [getLsbD_setFld]
  cases b <;> simp [b2n, inWord]

theorem inRange_tclkWord (n : Nat) : bit (tclkWord n) 16 = true ↔ 845 ≤ n ∧ n ≤ 3447 := by
  change bit (setFld (setFld _ 16 1 (b2n (decide (845 ≤ n ∧ n ≤ 3447)))) 17 1 _) 16 = true ↔ _
  rw [bit_setFld_other _ _ _ _ _ (by decide), bit_setFld_b2n _ (by decide), decide_eq_true_iff]

theorem stopped_tclkWord (n : Nat) : bit (tclkWord n) 17 = true ↔ n = 0 := by
  change bit (setFld _ 17 1 (b2n (n == 0))) 17 = true ↔ _
  rw [bit_setFld_b2n _ (by decide), beq_iff_eq]

/-! The bar's end, its rests and the next bar's start. -/

/-- The bar that ends, at its last cycle, with what the end of a bar does. -/
def Hw.barEnding (h : Hw) (tclk : List (Nat × Nat)) (lanes : List LaneMeas) : Hw :=
  ({ h.advance (4096 - h.bar.phase) with bar := { (h.advance (4096 - h.bar.phase)).bar with phase := 4095 } } : Hw).barEnd tclk lanes

theorem Hw.bar_barEnding (h : Hw) (tclk : List (Nat × Nat)) (lanes : List LaneMeas) :
    (h.barEnding tclk lanes).bar = { h.bar with phase := 4095 } := by
  unfold Hw.barEnding
  rw [Hw.bar_of_vault (Hw.vault_barEnd _ tclk lanes)]
  exact congrArg (fun b : BarState => { b with phase := 4095 }) (Hw.bar_advance h _)

theorem Hw.countSide_barEnding (h : Hw) (tclk : List (Nat × Nat)) (lanes : List LaneMeas) :
    (h.barEnding tclk lanes).countSide = (h.now + (4096 - h.bar.phase), h.countSide.2) := by
  unfold Hw.barEnding
  rw [Hw.countSide_of_barSide (Hw.barSide_barEnd _ tclk lanes), Hw.countSide_tclkCounted]
  have advanced := Hw.barSide_advance h (4096 - h.bar.phase)
  exact Prod.ext (congrArg Prod.fst advanced :) (Hw.countSide_of_barSide_snd (g := h.advance (4096 - h.bar.phase)) (congrArg Prod.snd advanced :))

/-- Whether a die gives the downbeat, or follows one, is a matter of its plan and of its state. -/
theorem Hw.isSource_congr {g h : Hw} (doc : g.doc = h.doc) (state : g.reg .ancState = h.reg .ancState) : g.isSource = h.isSource := by
  unfold Hw.isSource Hw.topo Hw.running Hw.dieState
  rw [doc, state]

theorem Hw.restBegins_of_plain {h : Hw} (plain : h.isSource = true ∨ h.bar.jumpTo = none) : h.restBegins =
    { h with bar := { h.bar with c := h.restChoice, e := if h.isSource then 0 else h.bar.e - ((h.restChoice : Int) - 1), jumpTo := none } } := by
  have none : (if h.isSource then none else h.bar.jumpTo) = none := by
    split
    · rfl
    · exact plain.resolve_left ‹_›
  unfold Hw.restBegins
  dsimp only
  rw [none]

/-- A follower's jump: its rests, its bar and the event. -/
def Hw.jumpBegun (h : Hw) (j : Nat × Nat) : Hw :=
  ({ h with bar := { h.bar with c := j.2, e := 0, jumped := true, jumpTo := none, target := some j.1 } } : Hw).modReg .clkEvt 0 0 (setBit · 17 true)

theorem Hw.restBegins_of_jump {h : Hw} {j : Nat × Nat} (follower : h.isSource = false) (jump : h.bar.jumpTo = some j) :
    h.restBegins = if h.bar.jumped then (h.jumpBegun j).raiseF0 0x49 anchorNode 0 else h.jumpBegun j := by
  have chosen : h.restChoice = j.2 := by
    unfold Hw.restChoice
    rw [follower, jump]
    rfl
  have some : (if h.isSource then none else h.bar.jumpTo) = some j := by rw [follower, jump]; rfl
  unfold Hw.restBegins
  dsimp only
  rw [some, chosen]
  cases h.bar.jumped <;> rfl

theorem Hw.barSide_chSend (h : Hw) (n k : Nat) (t : Option Nat) (c : Nat) (data : BitVec 512) (cmd : Option (Nat × Nat)) :
    (h.chSend n k t c data cmd).1.barSide = h.barSide := by
  have dropped (cause : Nat) : (h.cDrop n cause c).barSide = h.barSide := by
    have noted := Hw.barSide_modReg (id := .chDropEvt) (by decide) h n 0 (fun w =>
      if fld w 24 8 = 0 then mkWord [(24, 8, 1), (16, 4, cause), (0, 12, c)] else bumpFld w 24 8 1)
    exact Hw.keeps_ite ((Hw.barSide_modReg (by decide) _ _ _ _).trans noted) noted
  unfold Hw.chSend
  split
  · exact dropped 1
  · split
    · exact dropped 2
    · split
      · exact (Hw.barSide_setReg (id := .chStatus) (by decide) _ c 0 _).trans (Hw.barSide_setReg (id := .chSeq) (by decide) _ c 0 _)
      · split
        · exact Hw.barSide_setReg (id := .chStatus) (by decide) _ c 0 _
        · exact Hw.barSide_modReg (by decide) h _ _ _

theorem Hw.barSide_postReply (h : Hw) (r : Nat) (m : BitVec 512) : (h.postReply r m).barSide = h.barSide := by
  have sent := h.barSide_chSend (h.chSrc r).1 (h.chSrc r).2 none r m none
  unfold Hw.postReply
  split
  · rename_i g result
    rw [result] at sent
    exact sent
  · rename_i g _ result
    rw [result] at sent
    exact sent

theorem Hw.barSide_tokenRefill (h : Hw) : h.tokenRefill.barSide = h.barSide :=
  Hw.foldl_same Hw.barSide _ _ (fun g _ => Hw.barSide_modReg (by decide) g _ _ _) h

theorem Hw.barSide_repost (h : Hw) : h.repost.barSide = h.barSide :=
  Hw.foldl_same Hw.barSide h.stw.posts (fun g e => g.postReply e.1 e.2) (fun g e => Hw.barSide_postReply g e.1 e.2)
    { h with stw := { h.stw with posts := [] } }

theorem Hw.barSide_set_power (h : Hw) (x : PowerState) : ({ h with power := x } : Hw).barSide = h.barSide := rfl

theorem Hw.barSide_firstWindow (h : Hw) : h.firstWindow.barSide = h.barSide := by
  unfold Hw.firstWindow Hw.powerBar
  dsimp only
  split
  · split
    · exact (Hw.barSide_set_power (h.modReg .pwaGrantEvt 0 0 (setBit · 2 true)) _).trans (Hw.barSide_modReg (by decide) h 0 0 _)
    · rfl
  · rfl

/-- The bars without a BEAT, as the next bar starts (R374). -/
def Hw.nextLost (h : Hw) : Nat := if h.running && !h.isSource then (if h.bar.beatSeen then 0 else h.bar.lostBars + 1) else 0

/-- The bar counter as the next bar starts (R56, R59). -/
def Hw.nextBar (h : Hw) : BarState :=
  { h.bar with
    bar := BitVec.ofNat 48 (h.bar.target.getD ((h.bar.bar.toNat + 1) % 2 ^ 48))
    phase := 0, rest := 0, target := none, beatSeen := false
    lostBars := h.nextLost }

/-- The next bar has its number, and its BEAT is waited for. -/
def Hw.barStarting (h : Hw) : Hw :=
  let g : Hw := { h with bar := h.nextBar }
  if g.isSource then g else g.modReg .snDbStatus anchorNode 0 (setFld · 16 16 (min 65535 h.nextLost))

theorem Hw.barStart_eq (h : Hw) : h.barStart =
    if h.barStarting.tokenRefill.repost.running then h.barStarting.tokenRefill.repost.firstWindow else h.barStarting.tokenRefill.repost := rfl

theorem Hw.barSide_barStart (h : Hw) : h.barStart.barSide = h.barStarting.barSide := by
  rw [Hw.barStart_eq]
  have both := (Hw.barSide_repost h.barStarting.tokenRefill).trans (Hw.barSide_tokenRefill h.barStarting)
  exact Hw.keeps_ite ((Hw.barSide_firstWindow _).trans both) both

theorem Hw.bar_barStart (h : Hw) : h.barStart.bar = h.nextBar := by
  have starting : h.barStarting.bar = h.nextBar := Hw.keeps_ite rfl rfl
  have kept : h.barStarting.tokenRefill.repost.vault = h.barStarting.vault := (Hw.vault_repost _).trans (Hw.vault_tokenRefill _)
  rw [Hw.barStart_eq, ← starting, ← Hw.bar_of_vault kept]
  exact Hw.keeps_ite (Hw.bar_of_vault (Hw.vault_firstWindow _)) rfl

theorem Hw.now_barStart (h : Hw) : h.barStart.now = h.now :=
  (congrArg Prod.fst h.barSide_barStart :).trans (Hw.keeps_ite (P := Hw.now) rfl rfl)

theorem Hw.fault_barStart (h : Hw) : h.barStart.fault = h.fault :=
  (congrArg (·.2.2.1) h.barSide_barStart :).trans (Hw.keeps_ite (P := Hw.fault) rfl rfl)

/-- The next bar's start keeps, of the registers that the end of a bar shows, all but SN_DB_STATUS. -/
theorem Hw.reg_barStart {id : RegId} (shown : id ∈ barRegs) (n : .snDbStatus ≠ id) (h : Hw) (i j : Nat) : h.barStart.reg id i j = h.reg id i j := by
  rw [Hw.reg_of_barSide h.barSide_barStart shown]
  exact Hw.keeps_ite (P := fun g => g.reg id i j) (Hw.reg_set_bar _ _ id i j) (Hw.reg_modReg_other n _ _ _ _ _ _)

/-- The bars without a BEAT once this one has ended (R374). -/
def Hw.barsLost (h : Hw) : Nat := if h.dieState = 5 ∧ h.isSource = false ∧ h.bar.beatSeen = false then h.bar.lostBars + 1 else 0

/-- The counter b as bar num starts. -/
def Hw.barNext (h : Hw) (num : Nat) (b : BarState) : BarState :=
  { b with bar := BitVec.ofNat 48 num, phase := 0, rest := 0, target := none, beatSeen := false, lostBars := h.barsLost }

/-- A block in whose state the die's state, its plan and the bars lost are those of h. -/
def Hw.SameBar (g h : Hw) : Prop :=
  g.reg .ancState = h.reg .ancState ∧ g.doc = h.doc ∧ g.bar.beatSeen = h.bar.beatSeen ∧ g.bar.lostBars = h.bar.lostBars

theorem Hw.nextLost_of_sameBar {g h : Hw} (same : g.SameBar h) : g.nextLost = h.barsLost := by
  obtain ⟨state, doc, seen, lost⟩ := same
  unfold Hw.nextLost Hw.barsLost
  rw [Hw.isSource_congr doc state, seen, lost]
  have running : g.running = decide (h.dieState = 5) := by
    unfold Hw.running Hw.dieState
    rw [state]
    rfl
  rw [running]
  by_cases run : h.dieState = 5 <;> cases h.isSource <;> cases h.bar.beatSeen <;> simp [run]

theorem Hw.bar_barStart_of_sameBar {g h : Hw} (same : g.SameBar h) :
    g.barStart.bar = h.barNext (g.bar.target.getD ((g.bar.bar.toNat + 1) % 2 ^ 48)) g.bar := by
  rw [Hw.bar_barStart]
  unfold Hw.nextBar Hw.barNext
  rw [Hw.nextLost_of_sameBar same]

/-- Time that passes within a bar leaves what its end asks for. -/
theorem Hw.sameBar_advance {g h : Hw} (same : g.SameBar h) (k : Nat) : (g.advance k).SameBar h := by
  obtain ⟨state, doc, seen, lost⟩ := same
  have kept := Hw.countSide_of_barSide_snd (g := g.advance k) (congrArg Prod.snd (Hw.barSide_advance g k) :)
  refine ⟨(Hw.reg_of_countSide kept (by decide) 0 0).trans state, (congrArg Prod.fst kept :).trans doc, ?_, ?_⟩
  · rw [Hw.bar_advance, seen]
  · rw [Hw.bar_advance, lost]

theorem Hw.sameBar_barEnding (h : Hw) (tclk : List (Nat × Nat)) (lanes : List LaneMeas) : (h.barEnding tclk lanes).SameBar h := by
  have kept := (congrArg Prod.snd (h.countSide_barEnding tclk lanes) :)
  refine ⟨Hw.reg_of_countSide kept (by decide) 0 0, (congrArg Prod.fst kept :), ?_, ?_⟩
  · rw [Hw.bar_barEnding]
  · rw [Hw.bar_barEnding]

theorem Hw.isSource_barEnding (h : Hw) (tclk : List (Nat × Nat)) (lanes : List LaneMeas) : (h.barEnding tclk lanes).isSource = h.isSource :=
  have ⟨state, doc, _, _⟩ := h.sameBar_barEnding tclk lanes
  Hw.isSource_congr doc state

theorem Hw.now_barEnding (h : Hw) (tclk : List (Nat × Nat)) (lanes : List LaneMeas) :
    (h.barEnding tclk lanes).now = h.now + (4096 - h.bar.phase) := (congrArg Prod.fst (h.countSide_barEnding tclk lanes) :)

/-- Rests that follow the bar, before they are taken. -/
def Hw.resting (h : Hw) (tclk : List (Nat × Nat)) (lanes : List LaneMeas) : Hw := (h.barEnding tclk lanes).restBegins

section
variable {h : Hw} {tclk : List (Nat × Nat)} {lanes : List LaneMeas} (counts : h.bar.running = true) (on : h.dieState ≠ 7)
include counts on

theorem Hw.barBoundary_of_bar (within : h.bar.rest = 0) (rest : Nat) : h.barBoundary tclk lanes rest =
    if rest ≠ 0 ∧ rest ≤ (h.resting tclk lanes).bar.c then
      { (h.resting tclk lanes).advance (rest - 1) with bar := { ((h.resting tclk lanes).advance (rest - 1)).bar with rest := rest } }
    else ((h.resting tclk lanes).advance (h.resting tclk lanes).bar.c).barStart := by
  have goes : ¬ (!h.bar.running || h.dieState == stClockLost) = true := by simp [counts, on, stClockLost]
  unfold Hw.barBoundary
  rw [if_neg goes, if_pos within]
  rfl

theorem Hw.barBoundary_of_rest (resting : h.bar.rest ≠ 0) (rest : Nat) :
    h.barBoundary tclk lanes rest = (h.advance (h.bar.c + 1 - h.bar.rest)).barStart := by
  have goes : ¬ (!h.bar.running || h.dieState == stClockLost) = true := by simp [counts, on, stClockLost]
  unfold Hw.barBoundary
  rw [if_neg goes, if_neg resting]

end

/-- The counter of a bar that ends without a jump (R59 to R61). -/
def Hw.plainRest (h : Hw) : BarState :=
  let c : Nat := if h.isSource = true ∨ bit (h.reg .snDbStatus anchorNode) 0 = true then 1 else (1 + min (max h.bar.e (-1)) 2).toNat
  { h.bar with c := c, e := if h.isSource then 0 else h.bar.e - ((c : Int) - 1), jumpTo := none }

theorem Hw.restChoice_of_plain {h : Hw} (plain : h.isSource = true ∨ h.bar.jumpTo = none) :
    h.restChoice = if h.isSource = true ∨ bit (h.reg .snDbStatus anchorNode) 0 = true then 1 else (1 + min (max h.bar.e (-1)) 2).toNat := by
  unfold Hw.restChoice
  rcases source : h.isSource with _ | _
  · rw [source] at plain
    rw [plain.resolve_left (by decide)]
    simp
  · simp

theorem Hw.resting_of_plain {h : Hw} (tclk : List (Nat × Nat)) (lanes : List LaneMeas) (plain : h.isSource = true ∨ h.bar.jumpTo = none) :
    h.resting tclk lanes = { h.barEnding tclk lanes with bar := { h.plainRest with phase := 4095 } } := by
  have source := h.isSource_barEnding tclk lanes
  have bar := h.bar_barEnding tclk lanes
  have lost : (h.barEnding tclk lanes).reg .snDbStatus anchorNode = h.reg .snDbStatus anchorNode :=
    Hw.reg_of_countSide (congrArg Prod.snd (h.countSide_barEnding tclk lanes) :) (by decide) _ _
  have plain' : (h.barEnding tclk lanes).isSource = true ∨ (h.barEnding tclk lanes).bar.jumpTo = none := by
    rw [source, bar]
    exact plain
  unfold Hw.resting
  rw [Hw.restBegins_of_plain plain', Hw.restChoice_of_plain plain', source, bar, lost]
  rfl

theorem Hw.sameBar_resting_of_plain {h : Hw} (tclk : List (Nat × Nat)) (lanes : List LaneMeas) (plain : h.isSource = true ∨ h.bar.jumpTo = none) :
    (h.resting tclk lanes).SameBar h := by
  obtain ⟨state, doc, -, -⟩ := h.sameBar_barEnding tclk lanes
  rw [Hw.resting_of_plain tclk lanes plain]
  exact ⟨state, doc, rfl, rfl⟩

/-- The counter of a follower's bar that ends with a jump (R61). -/
def Hw.jumpRest (h : Hw) (j : Nat × Nat) : BarState := { h.bar with c := j.2, e := 0, jumped := true, jumpTo := none, target := some j.1 }

theorem Hw.resting_of_jump {h : Hw} {j : Nat × Nat} (tclk : List (Nat × Nat)) (lanes : List LaneMeas) (follower : h.isSource = false)
    (jump : h.bar.jumpTo = some j) : h.resting tclk lanes = if h.bar.jumped then ((h.barEnding tclk lanes).jumpBegun j).raiseF0 0x49 anchorNode 0
      else (h.barEnding tclk lanes).jumpBegun j := by
  unfold Hw.resting
  rw [Hw.restBegins_of_jump ((h.isSource_barEnding tclk lanes).trans follower) (by rw [Hw.bar_barEnding]; exact jump), Hw.bar_barEnding]

/-- A follower's jump: the counter, the event, and F0 for a jump after the first (R61). -/
theorem Hw.jumps {h : Hw} {j : Nat × Nat} (tclk : List (Nat × Nat)) (lanes : List LaneMeas) (follower : h.isSource = false)
    (jump : h.bar.jumpTo = some j) :
    let g := h.resting tclk lanes
    g.bar = { h.jumpRest j with phase := 4095 } ∧ g.SameBar h ∧ g.now = h.now + (4096 - h.bar.phase) ∧ bit (g.reg .clkEvt) 17 = true ∧
    (h.bar.jumped = true → ∃ n ∈ g.fault.notices, n.f0 = true ∧ n.cause = 0x49) := by
  obtain ⟨state, doc, -, -⟩ := h.sameBar_barEnding tclk lanes
  have bar : ((h.barEnding tclk lanes).jumpBegun j).bar = { h.jumpRest j with phase := 4095 } :=
    congrArg (fun b : BarState => { b with c := j.2, e := 0, jumped := true, jumpTo := none, target := some j.1 }) (h.bar_barEnding tclk lanes)
  have begun : ((h.barEnding tclk lanes).jumpBegun j).SameBar h := by
    refine ⟨?_, doc, by rw [bar]; rfl, by rw [bar]; rfl⟩
    unfold Hw.jumpBegun
    rw [Hw.reg_modReg_other (by decide), Hw.reg_set_bar]
    exact state
  have event : bit (((h.barEnding tclk lanes).jumpBegun j).reg .clkEvt) 17 = true := by
    unfold Hw.jumpBegun
    rw [Hw.reg_modReg, if_pos ⟨rfl, rfl, rfl⟩, bit_setBit_same _ _ _ (by decide)]
  dsimp only
  rw [Hw.resting_of_jump tclk lanes follower jump]
  cases again : h.bar.jumped with
  | false => exact ⟨bar, begun, h.now_barEnding tclk lanes, event, fun never => absurd never (by decide)⟩
  | true => exact ⟨bar, begun, h.now_barEnding tclk lanes, event, fun _ => ⟨_, List.mem_append_right _ List.mem_cons_self, rfl, rfl⟩⟩

theorem Hw.tclkMeas_restBegins (h : Hw) (i : Nat) : h.restBegins.reg .nodeTclkMeas i = h.reg .nodeTclkMeas i := by
  by_cases plain : h.isSource = true ∨ h.bar.jumpTo = none
  · rw [Hw.restBegins_of_plain plain, Hw.reg_set_bar]
  · obtain ⟨follower, jumps⟩ := not_or.1 plain
    obtain ⟨j, jump⟩ := Option.ne_none_iff_exists'.1 jumps
    rw [Hw.restBegins_of_jump (by simpa using follower) jump]
    have begun : (h.jumpBegun j).reg .nodeTclkMeas i = h.reg .nodeTclkMeas i :=
      (Hw.reg_modReg_other (by decide) _ _ _ _ _ _).trans (Hw.reg_set_bar _ _ _ _ _)
    split
    · exact begun
    · exact begun

/-- The TCLK counts stand once the bar has ended, whether the command stops in a rest or in the next bar. -/
theorem Hw.tclkMeas_barBoundary {h : Hw} {i n : Nat} {tclk : List (Nat × Nat)} (lanes : List LaneMeas) (rest : Nat) (on : h.dieState ≠ 7)
    (counts : h.bar.running = true) (within : h.bar.rest = 0) (once : (tclk.map (·.1)).Nodup) (given : (i, n) ∈ tclk)
    (unmasked : h.nodeMasked (tileNode i) = false) : (h.barBoundary tclk lanes rest).reg .nodeTclkMeas (tileNode i) = tclkWord n := by
  have resting : (h.resting tclk lanes).reg .nodeTclkMeas (tileNode i) = tclkWord n := by
    unfold Hw.resting Hw.barEnding
    rw [Hw.tclkMeas_restBegins, Hw.reg_of_barSide (Hw.barSide_barEnd _ tclk lanes) (by decide)]
    refine Hw.tclkMeas_tclkCounted once given ?_
    unfold Hw.nodeMasked at unmasked ⊢
    rw [Hw.reg_set_bar]
    rwa [Hw.reg_advance (by decide)]
  rw [Hw.barBoundary_of_bar counts on within]
  refine Hw.keeps_ite (P := fun g => g.reg .nodeTclkMeas (tileNode i)) ?_ ?_
  · rw [Hw.reg_set_bar, Hw.reg_advance (by decide), resting]
  · rw [Hw.reg_barStart (by decide) (by decide), Hw.reg_advance (by decide), resting]

end Sys2Proof.Machine

open Sys2Proof Sys2Proof.Machine

/-- Settles O17: the end of a bar with its rests and jumps, the TCLK counts, and a site out of range. The command that may stop in a rest cycle, and
the time it moves, are entry 1 of the log. -/
theorem barsEnd : Obligations.BarsEnd := by
  unfold Obligations.BarsEnd
  refine ⟨fun s tclk lanes counts on => ⟨fun within untargeted => ⟨fun plain => ?_, fun j c follower jump => ?_⟩, fun resting rest => ?_⟩,
    fun s on => ⟨fun tclk lanes rest i n counts within once given unmasked => ?_, fun i bad => ?_⟩⟩
  · intro c b
    have same := Hw.sameBar_resting_of_plain (tclk.map (fun x => (x.1.val, x.2.toNat))) lanes plain
    have resting := Hw.resting_of_plain (tclk.map (fun x => (x.1.val, x.2.toNat))) lanes plain
    refine ⟨(completes_barBoundary tclk lanes 0 s _).2 ?_, fun rest first last => (completes_barBoundary tclk lanes rest s _).2 ?_⟩
    · rw [Hw.barBoundary_of_bar counts on within, if_neg (fun e => e.1 rfl), Hw.bar_barStart_of_sameBar (Hw.sameBar_advance same _),
        Hw.bar_advance, Hw.now_barStart, Hw.now_advance, resting]
      refine ⟨?_, ?_⟩
      · exact congrArg (fun t => s.hw.barNext (t.getD ((s.hw.bar.bar.toNat + 1) % 2 ^ 48)) { s.hw.plainRest with phase := 4095 }) untargeted
      · exact congrArg (· + c) (Hw.now_barEnding ..)
    · rw [Hw.barBoundary_of_bar counts on within, if_pos ⟨Nat.one_le_iff_ne_zero.1 first, by rw [resting]; exact last⟩]
      refine ⟨?_, ?_⟩
      · dsimp only
        rw [Hw.bar_advance, resting]
        rfl
      · refine (Hw.now_advance _ _).trans ?_
        rw [resting]
        exact congrArg (· + (rest.val - 1)) (Hw.now_barEnding ..)
  · refine (completes_barBoundary tclk lanes 0 s _).2 ?_
    obtain ⟨bar, same, now, event, again⟩ := Hw.jumps (tclk.map (fun x => (x.1.val, x.2.toNat))) lanes follower jump
    rw [Hw.barBoundary_of_bar counts on within, if_neg (fun e => e.1 rfl)]
    refine ⟨?_, ?_, ?_, fun jumped => ?_⟩
    · rw [Hw.bar_barStart_of_sameBar (Hw.sameBar_advance same _), Hw.bar_advance, bar]
      rfl
    · rw [Hw.now_barStart, Hw.now_advance, now, bar]
      rfl
    · rw [Hw.reg_barStart (by decide) (by decide)]
      rw [Hw.reg_advance (by decide)]
      exact event
    · rw [Hw.fault_barStart, Hw.fault_advance]
      exact again jumped
  · refine (completes_barBoundary tclk lanes rest s _).2 ?_
    rw [Hw.barBoundary_of_rest counts on resting]
    refine ⟨?_, (Hw.now_barStart _).trans (Hw.now_advance ..)⟩
    rw [Hw.bar_barStart_of_sameBar (Hw.sameBar_advance ⟨rfl, rfl, rfl, rfl⟩ _), Hw.bar_advance]
    rfl
  · refine (completes_barBoundary tclk lanes rest s _).2 ?_
    have once' : ((tclk.map (fun x => (x.1.val, x.2.toNat))).map (·.1)).Nodup := by
      have tiles : (tclk.map (fun x => (x.1.val, x.2.toNat))).map (·.1) = (tclk.map (·.1)).map Fin.val := by simp [List.map_map]
      rw [tiles]
      exact List.pairwise_map.2 (List.Pairwise.imp (fun differ same => differ (Fin.ext same)) once)
    rw [Hw.tclkMeas_barBoundary lanes rest on counts within once' (List.mem_map_of_mem given) unmasked]
    exact ⟨fld_tclkWord n.isLt, inRange_tclkWord _, (stopped_tclkWord _).trans (by simp [← BitVec.toNat_inj])⟩
  · refine (completes_tclkOutOfRange i s _).2 ((Hw.clocked_on on).trans ?_)
    exact if_pos bad

end

section
/-! The downbeat: BEAT packets, the error that a follower measures, and a downbeat lost (R370 to R372, R374), and the obligation on it. -/

namespace Sys2Proof.Machine

/-- A BEAT has been measured: the error stands, and the wait for a BEAT begins anew (R371). -/
def Hw.beatMeasured (h : Hw) (e : Int) : Hw :=
  ({ h with bar := { h.bar with e := e, beatSeen := true, lostBars := 0 } } : Hw).modReg .snDbStatus anchorNode 0
    (fun w => setFld (setBit w 0 false) 16 16 0)

/-- The bar to jump to and its rests, for an error beyond 256 cycles (R372). -/
def BarState.jumpFor (b : BarState) (e : Int) : Nat × Nat :=
  let s : Int := ((b.bar.toNat * 4096 + 4096 : Nat) : Int) - e
  (((s + 4095) / 4096 % 2 ^ 48).toNat, ((-s) % 4096).toNat)

theorem BarState.jumpFor_rests (b : BarState) (e : Int) : (b.jumpFor e).2 < 4096 := by
  unfold BarState.jumpFor
  dsimp only
  omega

section
variable (h : Hw) {e : Int}

theorem Hw.measure_of_aligned (aligned : e.natAbs ≤ 16) : h.measure e = (h.beatMeasured e).modReg .clkStatus 0 0 (setBit · 16 true) := by
  unfold Hw.measure
  exact if_pos aligned

theorem Hw.measure_of_slip (unaligned : ¬ e.natAbs ≤ 16) (slips : e.natAbs ≤ 256) : h.measure e =
    (((h.beatMeasured e).modReg .clkStatus 0 0 (setBit · 16 false)).modReg .clkEvt 0 0 (setBit · 16 true)).logF2 := by
  unfold Hw.measure
  exact (if_neg unaligned).trans (if_pos slips)

theorem Hw.measure_of_jump (unaligned : ¬ e.natAbs ≤ 16) (far : ¬ e.natAbs ≤ 256) : h.measure e =
    { (h.beatMeasured e).modReg .clkStatus 0 0 (setBit · 16 false) with
      bar := { h.bar with e := e, beatSeen := true, lostBars := 0, jumpTo := some (h.bar.jumpFor e) } } := by
  unfold Hw.measure
  exact (if_neg unaligned).trans (if_neg far)

/-- SN_DB_STATUS once a BEAT has been measured. -/
theorem Hw.dbStatus_beatMeasured (e : Int) :
    (h.beatMeasured e).reg .snDbStatus anchorNode = setFld (setBit (h.reg .snDbStatus anchorNode) 0 false) 16 16 0 := by
  unfold Hw.beatMeasured
  rw [Hw.reg_modReg, if_pos ⟨rfl, rfl, rfl⟩, Hw.reg_set_bar]

theorem Hw.measure_shows (e : Int) :
    (h.measure e).reg .snDbStatus anchorNode = setFld (setBit (h.reg .snDbStatus anchorNode) 0 false) 16 16 0 ∧
    bit ((h.measure e).reg .clkStatus) 16 = decide (e.natAbs ≤ 16) ∧
    (16 < e.natAbs → e.natAbs ≤ 256 → bit ((h.measure e).reg .clkEvt) 16 = true ∧ bit ((h.measure e).reg .ancFaultEvt) 1 = true) := by
  have db := h.dbStatus_beatMeasured e
  by_cases aligned : e.natAbs ≤ 16
  · rw [Hw.measure_of_aligned h aligned, Hw.reg_modReg_other (by decide), Hw.reg_modReg, if_pos ⟨rfl, rfl, rfl⟩]
    refine ⟨db, ?_, fun more _ => absurd aligned (Nat.not_le.2 more)⟩
    rw [bit_setBit_same _ _ _ (by decide), decide_eq_true aligned]
  · by_cases slips : e.natAbs ≤ 256
    · rw [Hw.measure_of_slip h aligned slips]
      unfold Hw.logF2
      refine ⟨?_, ?_, fun _ _ => ⟨?_, ?_⟩⟩
      · rw [Hw.reg_modReg_other (by decide), Hw.reg_modReg_other (by decide), Hw.reg_modReg_other (by decide), db]
      · rw [Hw.reg_modReg_other (by decide), Hw.reg_modReg_other (by decide), Hw.reg_modReg, if_pos ⟨rfl, rfl, rfl⟩,
          bit_setBit_same _ _ _ (by decide), decide_eq_false aligned]
      · rw [Hw.reg_modReg_other (by decide), Hw.reg_modReg, if_pos ⟨rfl, rfl, rfl⟩, bit_setBit_same _ _ _ (by decide)]
      · rw [Hw.reg_modReg, if_pos ⟨rfl, rfl, rfl⟩]
        exact (bit_setFld_other _ _ _ _ _ (by decide)).trans (bit_setBit_same _ _ _ (by decide))
    · rw [Hw.measure_of_jump h aligned slips]
      refine ⟨?_, ?_, fun _ within => absurd within slips⟩
      · rw [Hw.reg_set_bar, Hw.reg_modReg_other (by decide), db]
      · rw [Hw.reg_set_bar, Hw.reg_modReg, if_pos ⟨rfl, rfl, rfl⟩, bit_setBit_same _ _ _ (by decide), decide_eq_false aligned]

/-- The counter once a BEAT has been measured: the error, and beyond 256 cycles the jump. -/
theorem Hw.bar_measure (e : Int) : (h.measure e).bar = { h.bar with
    e := e, beatSeen := true, lostBars := 0, jumpTo := if e.natAbs ≤ 256 then h.bar.jumpTo else some (h.bar.jumpFor e) } := by
  by_cases aligned : e.natAbs ≤ 16
  · rw [Hw.measure_of_aligned h aligned, if_pos (by omega)]
    rfl
  · by_cases slips : e.natAbs ≤ 256
    · rw [Hw.measure_of_slip h aligned slips, if_pos slips]
      rfl
    · rw [Hw.measure_of_jump h aligned slips, if_neg slips]

theorem Hw.snet_measure (e : Int) : (h.measure e).snet = h.snet := by
  by_cases aligned : e.natAbs ≤ 16
  · rw [Hw.measure_of_aligned h aligned]
    rfl
  · by_cases slips : e.natAbs ≤ 256
    · rw [Hw.measure_of_slip h aligned slips]
      rfl
    · rw [Hw.measure_of_jump h aligned slips]
      rfl

end

/-- A BEAT that a follower takes: it is forwarded with its age and measured (R370 to R372). -/
theorem Hw.beatArrive_of_beat {g h : Hw} {q hold hops : Nat} {w0 w1 : Word} (follower : h.isSource = false)
    (beat : h.torusRx q [kBeat] = some (kBeat, [w0, w1], g)) (phaseZero : fld w0 22 10 = 0) :
    let age := (fld w1 0 24 + fld (g.reg .lnkRtt q) 16 16 + hold) % 2 ^ 24
    h.beatArrive q hold hops = ((g.castOn kBeat w0 (setFld w1 0 24 age)).modReg .snDbStatus anchorNode 0 (setFld · 8 5 hops)).measure
      (h.beatError (fld w0 0 16) age) := by
  dsimp only
  have bar : (g.castOn kBeat w0 (setFld w1 0 24 ((fld w1 0 24 + fld (g.reg .lnkRtt q) 16 16 + hold) % 2 ^ 24))).bar = h.bar :=
    Hw.bar_of_vault ((Hw.vault_castOn ..).trans (Hw.vault_of_torusRx beat))
  unfold Hw.beatArrive
  rw [if_neg (by simp [follower]), beat]
  dsimp only
  rw [if_neg (by simp [phaseZero])]
  unfold Hw.beatError
  rw [bar]

end Sys2Proof.Machine

open Sys2Proof Sys2Proof.Machine

/-- Settles O18: a source's BEAT, a BEAT that a follower measures, and a downbeat lost. -/
theorem downbeatMeasured : Obligations.DownbeatMeasured := by
  unfold Obligations.DownbeatMeasured
  refine fun s on => ⟨fun run source within first fourth => ?_, fun q hold hops w0 w1 h follower beat phaseZero => ?_,
    fun run follower late here => ?_⟩
  · refine (completes_beatSend s _).2 ((Hw.clocked_on on).trans (if_pos ?_))
    simp [Hw.running, run, stRun, source, within, first, fourth]
  · intro age e
    refine (completes_beatArrival q hold hops s _).2 ?_
    rw [Hw.clocked_on on, Hw.beatArrive_of_beat follower beat phaseZero]
    have bar : (h.castOn kBeat w0 (setFld w1 0 24 age)).bar = s.hw.bar :=
      Hw.bar_of_vault ((Hw.vault_castOn ..).trans (Hw.vault_of_torusRx beat))
    obtain ⟨db, aligned, slips⟩ :=
      Hw.measure_shows ((h.castOn kBeat w0 (setFld w1 0 24 age)).modReg .snDbStatus anchorNode 0 (setFld · 8 5 hops.toNat)) e
    have counter := Hw.bar_measure ((h.castOn kBeat w0 (setFld w1 0 24 age)).modReg .snDbStatus anchorNode 0 (setFld · 8 5 hops.toNat)) e
    have bar' : ((h.castOn kBeat w0 (setFld w1 0 24 age)).modReg .snDbStatus anchorNode 0 (setFld · 8 5 hops.toNat)).bar = s.hw.bar := bar
    rw [bar'] at counter
    rw [Hw.reg_modReg, if_pos ⟨rfl, rfl, rfl⟩] at db
    refine ⟨(congrArg BarState.e counter :), (congrArg BarState.beatSeen counter :), (congrArg BarState.lostBars counter :), ?_, ?_, ?_, aligned,
      fun near => ?_, fun more near => ⟨?_, slips more near⟩, fun far => ⟨s.hw.bar.jumpFor e, ?_, BarState.jumpFor_rests _ _⟩, ?_,
      (congrArg BarState.bar counter :), (congrArg BarState.phase counter :)⟩
    · rw [db, fld_setFld_other _ _ _ _ _ _ (by decide), fld_setBit_other _ _ _ _ _ (by decide), fld_setFld_same _ _ _ _ (by decide)]
      exact Nat.mod_eq_of_lt hops.isLt
    · rw [db, bit_setFld_other _ _ _ _ _ (by decide), bit_setBit_same _ _ _ (by decide)]
    · rw [db]
      exact fld_setFld_same _ _ _ _ (by decide)
    · exact (congrArg BarState.jumpTo counter :).trans (if_pos (by omega))
    · exact (congrArg BarState.jumpTo counter :).trans (if_pos near)
    · exact (congrArg BarState.jumpTo counter :).trans (if_neg (by omega))
    · rw [Hw.snet_measure]
      rfl
  · refine (completes_downbeatLost s _).2 ((Hw.clocked_on on).trans (if_pos ?_))
    simp [Hw.running, run, stRun, follower, late, here]

end

section
/-! Write requests of several words, and the writes that are refused (R182, R188, R189, R198, R206, R223, R227), and the obligation on them. -/

namespace Sys2Proof.Machine

section
variable (h : Hw) (p : Path) (write : Bool) (cause addr : Nat)

theorem Hw.reg_misuse_other {id : RegId} (n : id ≠ .ancMisuseEvt) (n' : id ≠ .ancFaultEvt) (i j : Nat) :
    (h.misuse p write cause addr).reg id i j = h.reg id i j := by
  unfold Hw.misuse
  dsimp only
  rw [Hw.reg_modReg_other n'.symm]
  split
  · rw [Hw.reg_set_fault, Hw.reg_setReg_other n.symm]
  · exact Hw.reg_setReg_other n.symm _ _ _ _ _ _

theorem Hw.faultEvt_misuse : bit ((h.misuse p write cause addr).reg .ancFaultEvt) 2 = true := by
  unfold Hw.misuse
  dsimp only
  rw [Hw.reg_modReg, if_pos ⟨rfl, rfl, rfl⟩, bit_setBit_same _ _ _ (by decide)]

/-- The first misuse is logged (R223). -/
theorem Hw.misuseEvt_first (first : fld (h.reg .ancMisuseEvt) 24 8 = 0) : (h.misuse p write cause addr).reg .ancMisuseEvt =
    mkWord [(24, 8, 1), (16, 8, pathCode p), (5, 1, b2n write), (0, 5, cause)] := by
  unfold Hw.misuse
  dsimp only
  rw [Hw.reg_modReg_other (by decide), if_pos first, Hw.reg_set_fault, Hw.reg_setReg, if_pos ⟨rfl, rfl, rfl⟩]

/-- A later misuse is counted (R223). -/
theorem Hw.misuseEvt_later (later : fld (h.reg .ancMisuseEvt) 24 8 ≠ 0) :
    (h.misuse p write cause addr).reg .ancMisuseEvt = bumpFld (h.reg .ancMisuseEvt) 24 8 1 := by
  unfold Hw.misuse
  dsimp only
  rw [Hw.reg_modReg_other (by decide), if_neg later, Hw.reg_setReg, if_pos ⟨rfl, rfl, rfl⟩]

end

theorem pathCode_lt (p : Path) : pathCode p < 2 ^ 8 := by
  cases p with
  | pf => decide
  | vf t => exact Nat.lt_trans t.isLt (by decide)
  | steward k => exact Nat.lt_trans (Nat.add_lt_add_left k.isLt _) (by decide)
  | debug => decide

/-- The fields of a misuse that is logged. -/
theorem misuseWord_fields (p : Path) {cause : Nat} (short : cause < 2 ^ 5) :
    let w := mkWord [(24, 8, 1), (16, 8, pathCode p), (5, 1, b2n true), (0, 5, cause)]
    fld w 0 5 = cause ∧ bit w 5 = true ∧ fld w 16 8 = pathCode p ∧ fld w 24 8 = 1 := by
  dsimp only
  change fld (setFld (setFld (setFld (setFld (0 : Word) 24 8 1) 16 8 _) 5 1 1) 0 5 _) 0 5 = cause ∧ bit (setFld (setFld _ 5 1 1) 0 5 _) 5 = true ∧
    fld (setFld (setFld (setFld (setFld (0 : Word) 24 8 1) 16 8 _) 5 1 1) 0 5 _) 16 8 = _ ∧
    fld (setFld (setFld (setFld (setFld (0 : Word) 24 8 1) 16 8 _) 5 1 1) 0 5 _) 24 8 = 1
  refine ⟨?_, ?_, ?_, ?_⟩
  · rw [fld_setFld_same _ _ _ _ (by decide), Nat.mod_eq_of_lt short]
  · rw [bit_setFld_other _ _ _ _ _ (by decide)]
    exact bit_setFld_b2n _ (by decide) true
  · rw [fld_setFld_other _ _ _ _ _ _ (by decide), fld_setFld_other _ _ _ _ _ _ (by decide), fld_setFld_same _ _ _ _ (by decide),
      Nat.mod_eq_of_lt (pathCode_lt p)]
  · rw [fld_setFld_other _ _ _ _ _ _ (by decide), fld_setFld_other _ _ _ _ _ _ (by decide), fld_setFld_other _ _ _ _ _ _ (by decide)]
    exact fld_setFld_same _ _ _ _ (by decide)

/-- A field is its low part with its high part above. -/
theorem fld_add (w : BitVec n) (lo a b : Nat) : fld w lo (a + b) = fld w lo a + 2 ^ a * fld w (lo + a) b := by
  unfold fld
  rw [Nat.pow_add, Nat.mod_mul, Nat.div_div_eq_div_mul, ← Nat.pow_add]

theorem fld_one_of_bit {w : BitVec n} {k : Nat} (set : bit w k = true) : fld w k 1 = 1 := by
  have low : (fld w k 1).testBit 0 = true := by
    rw [testBit_fld]
    simpa [bit] using set
  have short := fld_lt w k 1
  have odd := Nat.testBit_zero (fld w k 1)
  rw [low] at odd
  simp at odd
  omega

/-- A write of p has been refused for a cause: the misuse is logged, and nothing else changes but BOOT_PROG_STATUS. -/
structure Hw.Refused (h : Hw) (p : Path) (cause : Nat) (g : Hw) : Prop where
  logged : fld (h.reg .ancMisuseEvt) 24 8 = 0 → fld (g.reg .ancMisuseEvt) 0 5 = cause ∧ bit (g.reg .ancMisuseEvt) 5 = true ∧
    fld (g.reg .ancMisuseEvt) 16 8 = pathCode p ∧ fld (g.reg .ancMisuseEvt) 24 8 = 1
  event : bit (g.reg .ancFaultEvt) 2 = true
  others : ∀ id i j, id ≠ .ancMisuseEvt → id ≠ .ancFaultEvt → id ≠ .bootProgStatus → g.reg id i j = h.reg id i j
  lasting : g.vault = h.vault

theorem Hw.refused_misuse (h : Hw) (p : Path) {cause : Nat} (short : cause < 2 ^ 5) (addr : Nat) :
    h.Refused p cause (h.misuse p true cause addr) where
  logged first := by
    rw [Hw.misuseEvt_first _ _ _ _ _ first]
    exact misuseWord_fields p short
  event := Hw.faultEvt_misuse ..
  others _ _ _ evt fault _ := Hw.reg_misuse_other _ _ _ _ _ evt fault _ _
  lasting := Hw.vault_misuse ..

theorem Hw.Refused.setPath {h g : Hw} {p : Path} {cause : Nat} (refused : h.Refused p cause g) (v : PathState) :
    h.Refused p cause (g.setPath p v) where
  logged first := by
    rw [Hw.reg_setPath]
    exact refused.logged first
  event := by
    rw [Hw.reg_setPath]
    exact refused.event
  others id i j evt fault prog := by
    rw [Hw.reg_setPath]
    exact refused.others id i j evt fault prog
  lasting := refused.lasting

/-- What was refused after BOOT_PROG_STATUS showed denied was refused before (R223). -/
theorem Hw.Refused.of_denied {h g : Hw} {p : Path} {cause : Nat} {f : Word → Word} (refused : (h.modReg .bootProgStatus 0 0 f).Refused p cause g) :
    h.Refused p cause g where
  logged first := refused.logged (by rwa [Hw.reg_modReg_other (by decide)])
  event := refused.event
  others id i j evt fault prog := (refused.others id i j evt fault prog).trans (Hw.reg_modReg_other prog.symm _ _ _ _ _ _)
  lasting := refused.lasting.trans (Hw.vault_modReg _ _ _ _ _)

/-- A write that a path makes has been refused, if its own access, begun, has. -/
theorem Hw.Refused.of_readied {h g : Hw} {p : Path} {cause : Nat} (refused : (h.readied p).Refused p cause g) : h.Refused p cause g where
  logged first := refused.logged (by
    unfold Hw.readied
    rwa [Hw.reg_setPath])
  event := refused.event
  others id i j evt fault prog := (refused.others id i j evt fault prog).trans (Hw.reg_setPath _ _ _ _ _ _)
  lasting := refused.lasting

/-- The gate refuses a write for a cause. -/
def Hw.GateRefuses (h : Hw) (p : Path) (addr cause : Nat) : Prop := ∃ g, h.writeGate p addr = .done g ∧ h.Refused p cause g

section
variable {h : Hw} {p : Path} {addr : Nat} (answers : h.answers p (h.resolve p addr).2.1 = true)
include answers

theorem Hw.gateRefuses_odd (odd : addr % 4 ≠ 0) : h.GateRefuses p addr 8 := by
  unfold Hw.GateRefuses Hw.writeGate
  revert answers
  obtain ⟨view, a, t⟩ := h.resolve p addr
  intro answers
  dsimp only at answers ⊢
  rw [answers]
  simp only [Bool.not_true, Bool.false_eq_true, if_false]
  rw [if_pos odd]
  exact ⟨_, rfl, (h.refused_misuse p (by decide) addr).setPath _⟩

variable (aligned : addr % 4 = 0)
include aligned

theorem Hw.gateRefuses_none (target : (h.resolve p addr).2.2 = .none) : h.GateRefuses p addr 3 := by
  unfold Hw.GateRefuses Hw.writeGate
  revert answers target
  obtain ⟨view, a, t⟩ := h.resolve p addr
  rintro answers rfl
  dsimp only at answers ⊢
  rw [answers]
  simp only [Bool.not_true, Bool.false_eq_true, if_false]
  rw [if_neg (not_not_intro aligned)]
  exact ⟨_, rfl, (h.refused_misuse p (by decide) addr).setPath _⟩

/-- The path may write registers of the region at address a (Table 5.2). -/
def Hw.mayWriteReg (h : Hw) (p : Path) (a : Nat) (r : Reg) : Bool := h.mayWrite p (regionOf a) (r.id.desc.access == .cpl || r.id.desc.access == .grd)

/-- The register, or its alias view, has nothing to write (R198). -/
def nothingToWrite (view : Nat) (r : Reg) : Bool := !r.id.writable || (view != 0 && r.id.aliasMask == 0#32)

variable {r : Reg} (target : (h.resolve p addr).2.2 = .reg r)
include target

theorem Hw.gateRefuses_region (denied : h.mayWriteReg p (h.resolve p addr).2.1 r = false) : h.GateRefuses p addr 2 := by
  unfold Hw.GateRefuses Hw.writeGate
  revert answers target denied
  obtain ⟨view, a, t⟩ := h.resolve p addr
  rintro answers rfl denied
  unfold Hw.mayWriteReg at denied
  dsimp only at answers denied ⊢
  rw [answers, denied]
  simp only [Bool.not_true, Bool.not_false, Bool.false_eq_true, if_false]
  rw [if_neg (not_not_intro aligned)]
  exact ⟨_, rfl, (h.refused_misuse p (by decide) addr).setPath _⟩

variable (may : h.mayWriteReg p (h.resolve p addr).2.1 r = true)
include may

/-- The gate for a register that the path may write. -/
theorem Hw.writeGate_of_may : h.writeGate p addr =
    if nothingToWrite (h.resolve p addr).1 r then
      .done ((h.misuse p true 4 addr).setPath p { (h.misuse p true 4 addr).path p with accessFault := false })
    else if !writerOk r.id.desc.writers p r.i then
      .done ((if r.id = .bootProgCtl then h.modReg .bootProgStatus 0 0 (setBit · 3 true) else h).misuse p true 10 addr)
    else .go (h.resolve p addr).1 r := by
  unfold Hw.writeGate
  revert answers target may
  obtain ⟨view, a, t⟩ := h.resolve p addr
  rintro answers rfl may
  unfold Hw.mayWriteReg at may
  unfold nothingToWrite
  dsimp only at answers may ⊢
  rw [answers, may]
  simp only [Bool.not_true, Bool.false_eq_true, if_false]
  rw [if_neg (not_not_intro aligned)]
  cases r.id.writable
  · rfl
  · cases r.id.aliasMask == 0#32 <;> by_cases plain : view = 0 <;> simp [plain]

theorem Hw.gateRefuses_nothing (nothing : nothingToWrite (h.resolve p addr).1 r = true) : h.GateRefuses p addr 4 := by
  refine ⟨_, (Hw.writeGate_of_may answers aligned target may).trans (if_pos nothing), ?_⟩
  exact (h.refused_misuse p (by decide) addr).setPath _

theorem Hw.gateRefuses_writer (some : nothingToWrite (h.resolve p addr).1 r = false) (other : writerOk r.id.desc.writers p r.i = false) :
    h.GateRefuses p addr 10 := by
  refine ⟨_, (Hw.writeGate_of_may answers aligned target may).trans ((if_neg (by simp [some])).trans (if_pos (by simp [other]))), ?_⟩
  split
  · exact (Hw.refused_misuse _ p (by decide) addr).of_denied
  · exact h.refused_misuse p (by decide) addr

end

/-- A write that the gate refuses is refused. -/
theorem Hw.refused_busWrite {h : Hw} {p : Path} {addr cause : Nat} (idle : (h.path p).idxRead = none) (reaches : h.hostReaches p = true)
    (gate : (h.readied p).GateRefuses p addr cause) (v : Word) (dev : NvmDevice) : h.Refused p cause (h.busWrite p addr v dev) := by
  obtain ⟨g, done, refused⟩ := gate
  have reaches' : (h.readied p).hostReaches p = true := reaches
  have written : h.busWrite p addr v dev = g := by
    unfold Hw.busWrite
    rw [Hw.idxFarReadDone_none idle]
    unfold Hw.readied at reaches' done
    dsimp only
    rw [reaches']
    simp only [Bool.not_true, Bool.false_eq_true, if_false]
    rw [done]
  rw [written]
  exact refused.of_readied

/-- A request that is none of words at a word address is a misuse (R189). -/
theorem Hw.badRequest_of_answered {h : Hw} {p : Path} {addr : Nat} (reaches : h.hostReaches p = true)
    (answers : h.answers p (h.resolve p addr).2.1 = true) :
    ∃ v, h.badRequest p true addr = (h.misuse p true 8 addr).setPath p v := by
  unfold Hw.badRequest
  revert answers
  obtain ⟨view, a, t⟩ := h.resolve p addr
  intro answers
  dsimp only at answers ⊢
  rw [reaches, answers]
  exact ⟨_, rfl⟩

end Sys2Proof.Machine

open Sys2Proof Sys2Proof.Machine

/-- Settles O20: requests of several words, requests of none, and the first check that a write fails. -/
theorem writeRequestsAndRefusals : Obligations.WriteRequestsAndRefusals := by
  unfold Obligations.WriteRequestsAndRefusals
  refine ⟨fun s p addr d => ⟨fun v vs aligned few => ?_, fun data en bad reaches answers => ?_⟩, fun s p addr v idle reaches => ?_⟩
  · refine (completes_registerWrite p addr (v :: vs) true d s _).2 (if_pos ?_)
    simp only [requestOk, List.length_cons, Bool.true_and, Bool.and_eq_true, beq_iff_eq, decide_eq_true_eq]
    omega
  · refine (completes_registerWrite p addr data en d s _).2 ?_
    have notOk : ¬ requestOk addr.toNat (4 * data.length) en = true := by
      unfold requestOk
      rcases bad with off | odd | none
      · simp [off]
      · simp [odd]
      · simp [none]
    obtain ⟨path, refused⟩ := Hw.badRequest_of_answered reaches answers
    unfold Hw.writeRequest
    rw [if_neg notOk, refused]
    refine ⟨?_, ?_, fun id i j evt fault => ?_, ?_⟩
    · rw [Hw.reg_setPath]
      split
      · rename_i first
        rw [Hw.misuseEvt_first _ _ _ _ _ first]
        obtain ⟨cause, write, -, -⟩ := misuseWord_fields p (cause := 8) (by decide)
        exact (fld_add _ 0 5 1).trans (congr (congrArg (fun low top => low + 2 ^ 5 * top) cause) (fld_one_of_bit write))
      · rename_i later
        rw [Hw.misuseEvt_later _ _ _ _ _ later]
        exact fld_setFld_other _ _ _ _ _ _ (by decide)
    · rw [Hw.reg_setPath]
      exact Hw.faultEvt_misuse ..
    · rw [Hw.reg_setPath, Hw.reg_misuse_other _ _ _ _ _ evt fault]
    · exact Hw.vault_misuse ..
  · intro x answers may nothing refused
    have gate {cause : Nat} (refuses : (s.hw.readied p).GateRefuses p addr.toNat cause) : refused cause := by
      refine (completes_lowWordWrite p addr v s _).2 ?_
      obtain ⟨logged, event, others, lasting⟩ := Hw.refused_busWrite idle reaches refuses v noDevice
      exact ⟨logged, event, others, lasting⟩
    refine ⟨fun odd => gate (Hw.gateRefuses_odd answers odd), fun aligned => ⟨fun none => gate (Hw.gateRefuses_none answers aligned none),
      fun r target denied => gate (Hw.gateRefuses_region answers aligned target denied),
      fun r target allowed empty => gate (Hw.gateRefuses_nothing answers aligned target allowed empty),
      fun r target allowed some other => gate (Hw.gateRefuses_writer answers aligned target allowed some other)⟩⟩

end

section
/-! Accesses of far registers through IDX_DATA (R216 to R221), and the obligation on them. -/

namespace Sys2Proof.Machine

section
variable {h : Hw} {p : Path} {a : Nat}

theorem Hw.idxRead_of_ok {r : Reg} (ok : h.idxCheck p false = .ok r) (addr : Nat) :
    h.idxRead p addr = (h.setPath p { h.path p with idxRead := some (h.path p).idxAddr.toNat }).idxAdvance p := by
  unfold Hw.idxRead
  rw [ok]

theorem Hw.idxPost_of_ok {r : Reg} (ok : h.idxCheck p true = .ok r) (addr : Nat) (v : Word) :
    h.idxPost p addr v = (h.setPath p { h.path p with idxWrite := some ((h.path p).idxAddr.toNat, v) }).idxAdvance p := by
  unfold Hw.idxPost
  rw [ok]

theorem Hw.regWrite_idxData (v : Word) (addr : Nat) (dev : NvmDevice) :
    h.regWrite p addr 0 ⟨.idxData, 0, 0⟩ v dev = (h.idxFarWriteDone p).idxPost p addr v := rfl

/-- A far write that changes no locked field is the far register's write (R217). -/
theorem Hw.farWrite_of_free {r : Reg} {v : Word} (writable : r.id.writable = true)
    (free : (h.reg r.id r.i r.j ^^^ merge r.id.desc.wmask (h.reg r.id r.i r.j) v) &&& lockedMask r.id (h.reg .ancLock) = 0#32) (addr : Nat) :
    h.farWrite p r v addr = h.phyRegWrite p addr r v (merge r.id.desc.wmask (h.reg r.id r.i r.j) v) := by
  unfold Hw.farWrite
  rw [if_neg (by simp [writable])]
  exact congrArg (fun x : Hw × Word => x.1.phyRegWrite p addr r v x.2) (Hw.lockFilter_of_free free p addr)

variable {r : Reg} (far : findFar (a / 2 ^ 20 % 16) (a / 2 ^ 12 % 256) (a % 2 ^ 12) = some r)
include far

theorem Hw.idxFarWriteDone_of_posted {v : Word} (posted : (h.path p).idxWrite = some (a, v)) :
    h.idxFarWriteDone p = (h.setPath p { h.path p with idxWrite := none }).farWrite p r v idxDataAddr := by
  unfold Hw.idxFarWriteDone
  rw [posted]
  dsimp only
  rw [far]

theorem Hw.idxFarReadDone_of_held (held : (h.path p).idxRead = some a) :
    h.idxFarReadDone p = ((h.setPath p { h.path p with idxRead := none }).readEffect p r).answer p
      ((h.setPath p { h.path p with idxRead := none }).value p r) := by
  unfold Hw.idxFarReadDone
  rw [held]
  dsimp only
  rw [far]

end

end Sys2Proof.Machine

open Sys2Proof Sys2Proof.Machine

/-- Settles O22: an IDX_DATA access held or posted, its far access, and its end after the time limit, which acts when its command comes
(entry 20 of the log). -/
theorem indirectAccesses : Obligations.IndirectAccesses := by
  unfold Obligations.IndirectAccesses
  refine fun s p => ⟨fun r opened ok => ?_, fun v r opened ok => ?_, fun on => ⟨fun a v r posted far writable => ?_, fun a r held far => ?_⟩,
    fun a held => ?_, fun x noRead posted => ?_⟩
  · refine (completes_idxDataRead p s _).2 ?_
    exact (Hw.busRead_open opened).trans (Hw.idxRead_of_ok ok _)
  · refine (completes_idxDataWrite p v s _).2 ?_
    exact (Hw.writeAt_open opened v).trans ((Hw.regWrite_idxData v _ noDevice).trans (Hw.idxPost_of_ok ok _ v))
  · intro old w free
    refine (completes_idxFarWriteDone p s _).2 ?_
    have written := Hw.farWrite_of_free (h := s.hw.setPath p { s.hw.path p with idxWrite := none }) (p := p) (r := r) (v := v) writable
    rw [Hw.reg_setPath, Hw.reg_setPath] at written
    exact (Hw.clocked_on on).trans ((Hw.idxFarWriteDone_of_posted far posted).trans (written free idxDataAddr))
  · refine (completes_idxFarReadDone p s _).2 ?_
    exact (Hw.clocked_on on).trans (Hw.idxFarReadDone_of_held far held)
  · refine (completes_idxFarTimeout p s _).2 ?_
    exact if_pos (by rw [held]; rfl)
  · refine (completes_idxFarTimeout p s _).2 ?_
    unfold Hw.idxTimeout
    dsimp only
    rw [noRead, posted]
    rfl

end

section
/-! A router's output serves a head flit against a credit (R239, R243 to R246, R252, R255, R269, R279 to R282), and the obligation on it. -/

namespace Sys2Proof.Machine

section
variable {h : Hw} {n out m : Nat} (there : neighbour n out = some m)
include there

/-- A hop of the flit that arbitration chooses (R243 to R246). -/
theorem Hw.hop_of_served {port vc : Nat} {f : Flit} {rest : List Flit} {err : MeshErr} (sound : err ≠ .router)
    (served : (h.bCleanAll n).arbitrate n out (fun _ vc _ => (h.bCleanAll n).bUsed (qKey m (facing out) vc) < 8) = some (port, vc))
    (head : (h.bCleanAll n).bq n port vc = f :: rest) :
    h.hop n out err = ((((h.bCleanAll n).arbitrated n out port vc).bTook n port vc out).bReceive n out vc f err).act n out := by
  have hops : h.flitHop n out err = (((h.bCleanAll n).arbitrated n out port vc).bTook n port vc out).bReceive n out vc f err := by
    unfold Hw.flitHop
    rw [there]
    dsimp only
    rw [served]
    dsimp only
    rw [head]
  unfold Hw.hop
  rw [if_neg sound, there]
  dsimp only
  rw [served, hops]
  rfl

end

end Sys2Proof.Machine

open Sys2Proof Sys2Proof.Machine

/-- Settles O24: a hop in an error of the router, a hop that is served, and a credit that goes back. -/
theorem flitHops : Obligations.FlitHops := by
  unfold Obligations.FlitHops
  refine fun s n out on => ⟨?_, fun m port vc f rest err there sound => ?_, fun m port vc => ?_⟩
  · exact (completes_flitHop n out .router s _).2 ((Hw.clocked_on on).trans (if_pos rfl))
  · intro h served head h' far k c keep
    refine (completes_flitHop n out err s _).2 ((Hw.clocked_on on).trans ((Hw.hop_of_served there sound served head).trans ?_))
    refine congrArg (fun g : Hw => g.act n.val out.val) ?_
    unfold Hw.bReceive
    rw [there]
    cases err <;> rfl
  · intro k owed
    exact (completes_bnetCreditReturn m port vc s _).2 ((Hw.clocked_on on).trans (if_neg owed))

end

section
/-! Sends on a channel, and arrivals of its messages and credits (R302, R304 to R308, R312, R319, R320), and the obligation on them. -/

namespace Sys2Proof.Machine

/-! A send by an endpoint (R302, R305, R306, R319). -/

/-- A send waits behind those that are stalled (R305). -/
def Hw.chQueued (h : Hw) (c : Nat) (data : BitVec 512) (cmd : Option (Nat × Nat)) : Hw :=
  ({ h with cnet := { h.cnet with stalled := nset h.cnet.stalled c (h.chStalled c ++ [(⟨data, cmd⟩ : StalledSend)]) [] } }).setChStatus c (h.chOcc c)
    (h.chCredits c) true

section
variable {h : Hw} {n k c : Nat} {t : Option Nat} {data : BitVec 512} {cmd : Option (Nat × Nat)}

theorem Hw.chSend_of_other (other : h.chValid c = false ∨ h.chSrc c ≠ (n, k)) : h.chSend n k t c data cmd = (h.cDrop n 1 c, .dropped 1) := by
  unfold Hw.chSend
  refine if_pos ?_
  rcases other with invalid | elsewhere
  · simp [invalid]
  · simp [elsewhere]

variable (valid : h.chValid c = true) (mine : h.chSrc c = (n, k)) (tenant : ∀ u, t = some u → u = h.chTenant c)
include valid mine tenant

/-- A send by the owner of the channel's source (R302). -/
theorem Hw.chSend_of_owner : h.chSend n k t c data cmd =
    if (h.chStalled c).isEmpty && 0 < h.chCredits c && !h.chFenced c then (h.chAccept c data, .accepted)
    else if h.chBlocking c || h.chFenced c then (h.chQueued c data cmd, .stalled)
    else (h.modReg .chEvt c 0 (bumpFld · 24 8 1), .full) := by
  have own : ¬ t.any (fun t => t != h.chTenant c) = true := by
    cases t with
    | none => simp
    | some u => simp [tenant u rfl]
  unfold Hw.chSend
  rw [if_neg (by simp [valid, mine]), if_neg own]
  rfl

theorem Hw.chSend_of_credit (unstalled : h.chStalled c = []) (credit : 0 < h.chCredits c) (unfenced : h.chFenced c = false) :
    h.chSend n k t c data cmd = (h.chAccept c data, .accepted) := by
  rw [Hw.chSend_of_owner valid mine tenant, if_pos (by simp [unstalled, credit, unfenced])]

variable (waits : h.chStalled c ≠ [] ∨ h.chCredits c = 0 ∨ h.chFenced c = true)
include waits

theorem Hw.chSend_of_waits : h.chSend n k t c data cmd =
    if h.chBlocking c || h.chFenced c then (h.chQueued c data cmd, .stalled)
    else (h.modReg .chEvt c 0 (bumpFld · 24 8 1), .full) := by
  have notNow : ¬ ((h.chStalled c).isEmpty && 0 < h.chCredits c && !h.chFenced c) = true := by
    rcases waits with stalled | none | fenced
    · simp [stalled]
    · simp [none]
    · simp [fenced]
  rw [Hw.chSend_of_owner valid mine tenant, if_neg notNow]

end

theorem Hw.agentSend_on {h g : Hw} {n k c : Nat} {data : BitVec 512} {result : SendResult} {r : AgentResp} (ends : hasEndpoints n = true)
    (sent : h.chSend n k (h.agentTenant n) c data none = (g, result))
    (answer : (result, r) ∈ [(SendResult.accepted, AgentResp.accepted), (.stalled, .stalled), (.full, .chFull), (.dropped 1, .dropped)]) :
    h.agentSend n k c data = g.setResp n k r := by
  unfold Hw.agentSend
  rw [if_neg (by simp [ends]), sent]
  simp only [List.mem_cons, Prod.mk.injEq, List.not_mem_nil, or_false] at answer
  rcases answer with ⟨rfl, rfl⟩ | ⟨rfl, rfl⟩ | ⟨rfl, rfl⟩ | ⟨rfl, rfl⟩ <;> rfl

/-! Credit packets (R305, R319). -/

/-- The packet is of this channel, at the endpoint's node, for its tenant and generation. -/
def Hw.OursAt (h : Hw) (c : Nat) (p : CPkt) (node : Nat) : Prop :=
  p.chan = c ∧ h.chValid c = true ∧ node = p.dst ∧ p.tenant = h.chTenant c ∧ p.gen = h.chGen c

section
variable {h g g' : Hw} {c : Nat} {p q : CPkt} {errs : List CErr} {crossed : Bool}

theorem Hw.chCredit_of_ours (ours : g.OursAt c q (g.chSrc c).1) : g.chCredit q =
    if g.chDepth c < g.chCredits c + q.seq + 1 then (g.cDrop q.dst 5 c).chFault c 4 q.dst
    else g.chUpdate c (g.chOcc c) (g.chCredits c + q.seq + 1) := by
  obtain ⟨rfl, valid, node, tenant, gen⟩ := ours
  unfold Hw.chCredit
  dsimp only
  rw [if_neg (by simp [valid, node]), if_neg (not_not_intro tenant), if_neg (not_not_intro gen)]

theorem Hw.creditArrival_of_crossed (taken : h.cTake ccCredit c = some (p, g)) (crosses : g.cCross p errs crossed = (g', some q)) :
    h.creditArrival c errs crossed = (g'.chCredit q).unstall c ((g'.chCredit q).chStalled c).length := by
  unfold Hw.creditArrival
  rw [taken]
  dsimp only
  rw [crosses]

theorem Hw.cnet_chUpdate (h : Hw) (c occ credits : Nat) : (h.chUpdate c occ credits).cnet = h.cnet := by
  unfold Hw.chUpdate Hw.setChStatus Hw.setReg
  rfl

theorem Hw.chStalled_chUpdate (h : Hw) (c occ credits d : Nat) : (h.chUpdate c occ credits).chStalled d = h.chStalled d := by
  unfold Hw.chStalled
  rw [Hw.cnet_chUpdate]

theorem Hw.cnet_chFault (h : Hw) (c cause n : Nat) : (h.chFault c cause n).cnet = h.cnet := by
  unfold Hw.chFault Hw.raiseOwner
  split <;> rfl

theorem Hw.cnet_cDrop (h : Hw) (n cause c : Nat) : (h.cDrop n cause c).cnet = h.cnet := by
  unfold Hw.cDrop
  dsimp only
  split <;> rfl

/-! Messages (R304, R307, R308, R312, R320). -/

theorem Hw.chMsgArrival_of_crossed (taken : h.cTake ccMsg c = some (p, g)) (crosses : g.cCross p errs crossed = (g', some q)) :
    h.chMsgArrival c errs crossed = g'.chDeliver q := by
  unfold Hw.chMsgArrival
  rw [taken]
  dsimp only
  rw [crosses]

/-- The channel expects the message after this one. -/
def Hw.chExpects (h : Hw) (c : Nat) (q : CPkt) : Hw := h.setReg .chSeq c 0 (setFld (h.reg .chSeq c) 8 8 (q.seq + 1))

/-- The message is in a slot of its destination, and counted, as the channel shows credits. -/
def Hw.chStoredWith (h : Hw) (c : Nat) (q : CPkt) (credits : Nat) : Hw :=
  let b := h.chExpects c q
  ((({ b with cnet := { b.cnet with fifos := nset b.cnet.fifos c (b.chFifo c ++ [q.data]) [] } }).chUpdate c (h.chOcc c + 1)
    credits).chCount .chMsgCntLo .chMsgCntHi c 1).modReg .chStore q.dst 0 (fun x => setFld x 16 11 (fld x 16 11 + 1))

def Hw.chEnqueued (h : Hw) (c : Nat) (q : CPkt) : Hw := h.chStoredWith c q (h.chCredits c)

theorem Hw.reg_add64_other {lo hi id : RegId} (n : lo ≠ id) (n' : hi ≠ id) (h : Hw) (i j d i' j' : Nat) :
    (h.add64 lo hi i j d).reg id i' j' = h.reg id i' j' :=
  (Hw.reg_setReg_other n' _ _ _ _ _ _).trans (Hw.reg_setReg_other n _ _ _ _ _ _)

theorem Hw.reg_chCount_other {lo hi id : RegId} (n : lo ≠ id) (n' : hi ≠ id) (h : Hw) (c d i j : Nat) :
    (h.chCount lo hi c d).reg id i j = h.reg id i j := by
  unfold Hw.chCount
  split
  · exact Hw.reg_add64_other n n' _ _ _ _ _ _
  · rfl

/-- A message that is enqueued leaves its channel's configuration and ends. -/
theorem Hw.reg_chEnqueued {id : RegId} (n : id ∉ [RegId.chSeq, .chStatus, .chMsgCntLo, .chMsgCntHi, .chStore]) (h : Hw) (c : Nat)
    (q : CPkt) (i j : Nat) :
    (h.chEnqueued c q).reg id i j = h.reg id i j := by
  simp only [List.mem_cons, List.not_mem_nil, or_false, not_or] at n
  obtain ⟨seq, status, lo, hi, store⟩ := n
  unfold Hw.chEnqueued Hw.chStoredWith
  dsimp only
  rw [Hw.reg_modReg_other (Ne.symm store), Hw.reg_chCount_other (Ne.symm lo) (Ne.symm hi)]
  exact (Hw.reg_setReg_other (Ne.symm status) _ _ _ _ _ _).trans (Hw.reg_setReg_other (Ne.symm seq) _ _ _ _ _ _)

theorem Hw.chDeliver_of_ours (ours : g.OursAt c q (g.chDst c).1) : g.chDeliver q =
    if q.seq ≠ fld (g.reg .chSeq c) 8 8 then ((g.chExpects c q).cDrop q.dst 4 c).chFault c 2 q.dst
    else if g.chDepth c ≤ g.chOcc c then ((g.chExpects c q).cDrop q.dst 5 c).chFault c 4 q.dst
    else if q.poison then ((g.chExpects c q).cDrop q.dst 6 c).chFault c 3 q.dst
    else if bit (g.reg .chCfg c) 13 = true ∧ g.chOcc c + 1 = fld (g.reg .chCfg c) 0 8 + 1 then (g.chEnqueued c q).ringBell q.dst (2 ^ (g.chDst c).2)
    else g.chEnqueued c q := by
  have cfg := Hw.reg_chEnqueued (id := .chCfg) (by decide) g c q c 0
  have ends : (g.chEnqueued c q).chDst c = g.chDst c := by
    unfold Hw.chDst
    rw [Hw.reg_chEnqueued (by decide)]
  have credits : (g.chExpects c q).chCredits c = g.chCredits c := by
    unfold Hw.chCredits Hw.chExpects
    rw [Hw.reg_setReg_other (by decide)]
  have stored : g.chStoredWith c q ((g.chExpects c q).chCredits c) = g.chEnqueued c q := by
    unfold Hw.chEnqueued
    rw [credits]
  obtain ⟨rfl, valid, node, tenant, gen⟩ := ours
  have last (X : Hw) (e : X = g.chEnqueued q.chan q) :
      (if bit (X.reg .chCfg q.chan) 13 && g.chOcc q.chan + 1 == fld (X.reg .chCfg q.chan) 0 8 + 1 then
        X.ringBell q.dst (2 ^ (X.chDst q.chan).2) else X) =
      if bit (g.reg .chCfg q.chan) 13 = true ∧ g.chOcc q.chan + 1 = fld (g.reg .chCfg q.chan) 0 8 + 1 then
        (g.chEnqueued q.chan q).ringBell q.dst (2 ^ (g.chDst q.chan).2) else g.chEnqueued q.chan q := by
    rw [e, cfg, ends]
    simp only [Bool.and_eq_true, beq_iff_eq]
  unfold Hw.chDeliver
  dsimp only
  rw [if_neg (by simp [valid, node]), if_neg (not_not_intro tenant), if_neg (not_not_intro gen)]
  refine ite_congr rfl (fun _ => rfl) (fun _ => ite_congr rfl (fun _ => rfl) (fun _ => ite_congr rfl (fun _ => rfl) (fun _ => last _ stored)))

end

end Sys2Proof.Machine

open Sys2Proof Sys2Proof.Machine

/-- Settles O27: sends by an endpoint, and the credits and messages that arrive. That a message that finds no slot, or a poisoned one, leaves the
sequence number after its own expected is DEDUCED (entry 32 of the log). -/
theorem channelMessages : Obligations.ChannelMessages := by
  unfold Obligations.ChannelMessages
  refine ⟨fun s n k c data on ends => ?_, fun s c errs crossed on => ?_⟩
  · intro ch mine answered
    have sends {g : Hw} {result : SendResult} {r : AgentResp} (sent : s.hw.chSend n.val k.toNat (s.hw.agentTenant n.val) ch data none = (g, result))
        (answer : (result, r) ∈ [(SendResult.accepted, AgentResp.accepted), (.stalled, .stalled), (.full, .chFull), (.dropped 1, .dropped)]) :
        answered g r :=
      (completes_channelSend n k c data s _).2 ((Hw.clocked_on on).trans (Hw.agentSend_on ends sent answer))
    refine ⟨fun ⟨valid, source, tenant⟩ unstalled credit unfenced => ?_,
      fun ⟨valid, source, tenant⟩ waits => ⟨fun held => ?_, fun posts unfenced => ?_⟩,
      fun other => ?_⟩
    · intro w pkt
      have accepted := Hw.chSend_of_credit (data := data) (cmd := none) valid source tenant unstalled credit unfenced
      unfold Hw.chAccept at accepted
      dsimp only at accepted
      rw [source] at accepted
      exact sends accepted (by decide)
    · exact sends ((Hw.chSend_of_waits valid source tenant waits).trans (if_pos (by simpa using held))) (by decide)
    · exact sends ((Hw.chSend_of_waits valid source tenant waits).trans (if_neg (by simp [posts, unfenced]))) (by decide)
    · exact sends (Hw.chSend_of_other other) (by decide)
  · intro ch ours
    refine ⟨fun p h q h' taken crosses mine => ⟨fun room => ?_, fun excess unstalled => ?_⟩, fun p h q h' taken crosses mine => ?_, fun p h => ?_⟩
    · refine (completes_channelCreditArrival c errs crossed s _).2 ((Hw.clocked_on on).trans ?_)
      rw [Hw.creditArrival_of_crossed taken crosses, Hw.chCredit_of_ours mine, if_neg (Nat.not_lt.2 room), Hw.chStalled_chUpdate]
    · refine (completes_channelCreditArrival c errs crossed s _).2 ((Hw.clocked_on on).trans ?_)
      rw [Hw.creditArrival_of_crossed taken crosses, Hw.chCredit_of_ours mine, if_pos excess]
      have none : ((h'.cDrop q.dst 5 ch).chFault ch 4 q.dst).chStalled ch = [] := by
        unfold Hw.chStalled
        rw [Hw.cnet_chFault, Hw.cnet_cDrop]
        exact unstalled
      rw [none]
      rfl
    · intro n w b occ stored drops
      have arrives {P : Hw → Prop} (delivered : P (h'.chDeliver q)) : Completes (.channelMsgArrival c errs crossed) s P := by
        refine (completes_channelMsgArrival c errs crossed s _).2 ?_
        rw [Hw.clocked_on on, Hw.chMsgArrival_of_crossed taken crosses]
        exact delivered
      have delivered := Hw.chDeliver_of_ours mine
      refine ⟨fun next room sound => arrives ?_, fun ahead => arrives ?_, fun next full => arrives ?_, fun next room bad => arrives ?_⟩
      · rw [delivered, if_neg (not_not_intro next), if_neg (Nat.not_le.2 room), if_neg (by simp [sound])]
        rfl
      · exact delivered.trans (if_pos ahead)
      · rw [delivered, if_neg (not_not_intro next), if_pos (Nat.lt_succ_iff.1 full)]
        rfl
      · rw [delivered, if_neg (not_not_intro next), if_neg (Nat.not_le.2 room), if_pos bad]
        rfl
    · rfl

end

section
/-! Bells (R311 to R315), register requests over the control network and their answers (R316 to R318), and the obligation on them. -/

namespace Sys2Proof.Machine

/-! Bits of sums of powers of two, and of the words that take them. -/

/-- The sum of the powers of two that a test chooses below 2^n. -/
theorem testBit_chosenBits (chosen : Nat → Bool) (n : Nat) :
    (List.range n).foldl (fun (m : Nat) (k : Nat) => if chosen k then m + 2 ^ k else m) 0 < 2 ^ n ∧
    ∀ k, ((List.range n).foldl (fun (m : Nat) (k : Nat) => if chosen k then m + 2 ^ k else m) 0).testBit k = (decide (k < n) && chosen k) := by
  induction n with
  | zero => exact ⟨Nat.one_pos, fun k => by simp⟩
  | succ n ih =>
    obtain ⟨below, bits⟩ := ih
    rw [List.range_succ, List.foldl_append]
    generalize (List.range n).foldl (fun (m : Nat) (k : Nat) => if chosen k then m + 2 ^ k else m) 0 = s at below bits
    simp only [List.foldl_cons, List.foldl_nil]
    have twice : 2 ^ (n + 1) = 2 ^ n + 2 ^ n := by rw [Nat.pow_succ, Nat.mul_two]
    cases isIn : chosen n with
    | false =>
      refine ⟨by simp only [Bool.false_eq_true, if_false]; omega, fun k => ?_⟩
      simp only [Bool.false_eq_true, if_false]
      rw [bits k]
      by_cases last : k = n
      · subst last
        simp [isIn]
      · have : (k < n) = (k < n + 1) := by
          simp only [eq_iff_iff]
          omega
        simp [this]
    | true =>
      refine ⟨by simp only [if_true]; omega, fun k => ?_⟩
      simp only [if_true]
      rw [Nat.add_comm]
      rcases Nat.lt_trichotomy k n with less | rfl | more
      · rw [Nat.testBit_two_pow_add_gt less, bits k]
        simp [less, Nat.lt_succ_of_lt less]
      · rw [Nat.testBit_two_pow_add_eq, Nat.testBit_lt_two_pow below]
        simp [isIn]
      · have short : 2 ^ n + s < 2 ^ k := by
          have : 2 ^ (n + 1) ≤ 2 ^ k := Nat.pow_le_pow_right (by decide) more
          omega
        rw [Nat.testBit_lt_two_pow short]
        have : ¬ k < n + 1 := by omega
        simp [this]

/-! Bells (R311 to R315). -/

section
variable {κ α : Type} [DecidableEq κ] [DecidableEq α] (p : κ × α → Bool)

omit [DecidableEq κ] [DecidableEq α] in
theorem any_sinsert (lt : κ → κ → Bool) (m : List (κ × α)) (k : κ) (v : α) : (sinsert lt m k v).any p = (p (k, v) || m.any p) := by
  induction m with
  | nil => rfl
  | cons e m ih =>
    unfold sinsert
    split
    · rw [List.any_cons, ih, List.any_cons, ← Bool.or_assoc, ← Bool.or_assoc, Bool.or_comm (p e)]
    · rw [List.any_cons]

/-- A test that no entry of a key passes sees the same store before and after a write of that key. -/
theorem any_sset {k : κ} (never : ∀ v, p (k, v) = false) (lt : κ → κ → Bool) (m : List (κ × α)) (v d : α) : (sset lt m k v d).any p = m.any p := by
  have erased : (serase m k).any p = m.any p := by
    induction m with
    | nil => rfl
    | cons e m ih =>
      unfold serase at ih ⊢
      rw [List.filter_cons, List.any_cons]
      split
      · rw [List.any_cons, ih]
      · rename_i same
        have key : e.1 = k := by simpa using same
        have none : p e = false := by
          have := never e.2
          rwa [← key] at this
        rw [ih, none, Bool.false_or]
  unfold sset
  split
  · exact erased
  · rw [any_sinsert, never, erased, Bool.false_or]

end

theorem Hw.bellDue_setBell (h : Hw) (m : Nat) (w : Word) (n k : Nat) : (h.setReg .nodeBell m 0 w).bellDue n k = h.bellDue n k := by
  have ends (i : Nat) : (h.setReg .nodeBell m 0 w).reg .chEp i = h.reg .chEp i := Hw.reg_setReg_other (by decide) _ _ _ _ _ _
  have status (i : Nat) : (h.setReg .nodeBell m 0 w).reg .chStatus i = h.reg .chStatus i := Hw.reg_setReg_other (by decide) _ _ _ _ _ _
  unfold Hw.bellDue
  simp only [ends, status]
  exact any_sset _ (fun v => by simp) _ _ _ _

theorem Hw.reg_ringBell (h : Hw) (n mask : Nat) (id : RegId) (i j : Nat) :
    (h.ringBell n mask).reg id i j = (h.modReg .nodeBell n 0 (· ||| (BitVec.ofNat 32 mask &&& 0xFFFFFF#32))).reg id i j := by
  unfold Hw.ringBell
  dsimp only
  split
  · refine Hw.foldl_same (fun g : Hw => g.reg id i j) _ _ (fun g k => ?_) _
    split
    · rfl
    · exact Hw.reg_vector _ _ _ _ _ _
  · rfl

/-- The bells that ring again as bells are cleared: those whose channels still hold more than their level (R313). -/
def Hw.bellsAgain (h : Hw) (n mask : Nat) : Nat :=
  (List.range 16).foldl (fun m k => if mask.testBit k && h.bellDue n k then m + 2 ^ k else m) 0

theorem Hw.clearBells_eq (h : Hw) (n mask : Nat) :
    h.clearBells n mask = (h.modReg .nodeBell n 0 (· &&& ~~~ (BitVec.ofNat 32 mask))).ringBell n (h.bellsAgain n mask) := by
  unfold Hw.clearBells Hw.bellsAgain
  dsimp only
  simp only [Hw.modReg, Hw.bellDue_setBell]

theorem Hw.bell_clearBells (h : Hw) (n mask : Nat) : (h.clearBells n mask).reg .nodeBell n =
    (h.reg .nodeBell n &&& ~~~ (BitVec.ofNat 32 mask)) ||| (BitVec.ofNat 32 (h.bellsAgain n mask) &&& 0xFFFFFF#32) := by
  rw [Hw.clearBells_eq, Hw.reg_ringBell, Hw.reg_modReg, if_pos ⟨rfl, rfl, rfl⟩, Hw.reg_modReg, if_pos ⟨rfl, rfl, rfl⟩]

theorem Hw.bit_bellsAgain (h : Hw) (n : Nat) (v : Word) {k : Nat} (bell : k < 24) :
    bit (BitVec.ofNat 32 (h.bellsAgain n (v &&& 0xFFFFFF#32).toNat) &&& 0xFFFFFF#32) k = (decide (k < 16) && (bit v k && h.bellDue n k)) := by
  have low : ∀ k : Fin 24, (0xFFFFFF#32).getLsbD k = true := by decide
  have chosen := (testBit_chosenBits (fun k => (v &&& 0xFFFFFF#32).toNat.testBit k && h.bellDue n k) 16).2 k
  have inMask : (0xFFFFFF#32).getLsbD k = true := low ⟨k, bell⟩
  have inWord : k < 32 := by omega
  unfold bit Hw.bellsAgain
  rw [BitVec.getLsbD_and, inMask, Bool.and_true, BitVec.getLsbD_ofNat, chosen]
  simp only [inWord, decide_true, Bool.true_and, BitVec.testBit_toNat, BitVec.getLsbD_and, inMask, Bool.and_true]

theorem Hw.regWrite_nodeBell (h : Hw) (p : Path) (addr n : Nat) (v : Word) (dev : NvmDevice) :
    h.regWrite p addr 0 ⟨.nodeBell, n, 0⟩ v dev = h.clearBells n (v &&& 0xFFFFFF#32).toNat := rfl

theorem Hw.regWrite_nodeBellRing (h : Hw) (p : Path) (addr n : Nat) (v : Word) (dev : NvmDevice) :
    h.regWrite p addr 0 ⟨.nodeBellRing, n, 0⟩ v dev = h.ringBell n (v &&& 0xFF0000#32).toNat := rfl

theorem Hw.bellDue_readied (h : Hw) (p : Path) (n k : Nat) : (h.readied p).bellDue n k = h.bellDue n k := rfl

theorem Hw.reg_readied (h : Hw) (p : Path) (id : RegId) (i j : Nat) : (h.readied p).reg id i j = h.reg id i j := rfl

theorem Hw.bit_clearBells (h : Hw) (n : Nat) (v : Word) {k : Nat} (bell : k < 24) :
    bit ((h.clearBells n (v &&& 0xFFFFFF#32).toNat).reg .nodeBell n) k =
      ((bit (h.reg .nodeBell n) k && !bit v k) || (decide (k < 16) && (bit v k && h.bellDue n k))) := by
  have low : ∀ k : Fin 24, (0xFFFFFF#32).getLsbD k = true := by decide
  have inMask : (0xFFFFFF#32).getLsbD k = true := low ⟨k, bell⟩
  have inWord : k < 32 := by omega
  rw [Hw.bell_clearBells, ← h.bit_bellsAgain n v bell]
  unfold bit
  rw [BitVec.getLsbD_or, BitVec.ofNat_toNat, BitVec.setWidth_eq]
  simp only [BitVec.getLsbD_and, BitVec.getLsbD_not, inMask, inWord, decide_true, Bool.and_true, Bool.true_and]

/-! Packets of the control network. -/

section
variable (cls src dst tenant gen chan : Nat) (data : BitVec 512)

theorem CPkt.dst_mkCPkt : (mkCPkt cls src dst tenant gen chan 0 data).dst = dst % 128 := by
  unfold CPkt.dst mkCPkt fld
  generalize (if cls = ccMsg then 3 else 0) = k
  simp only [BitVec.toNat_ofNat]
  omega

theorem CPkt.src_mkCPkt : (mkCPkt cls src dst tenant gen chan 0 data).src = src % 128 := by
  unfold CPkt.src mkCPkt fld
  generalize (if cls = ccMsg then 3 else 0) = k
  simp only [BitVec.toNat_ofNat]
  omega

theorem CPkt.poison_mkCPkt (notMsg : cls ≠ ccMsg) : (mkCPkt cls src dst tenant gen chan 0 data).poison = false := by
  unfold CPkt.poison mkCPkt bit
  rw [if_neg notMsg, BitVec.getLsbD_ofNat]
  rw [Nat.testBit_lt_two_pow, Bool.and_false]
  omega

end

/-- Nodes of the mesh have numbers of seven bits. -/
theorem nodeOf_lt {cls : Nat} (edge : cls ≠ 0) (k : Nat) : nodeOf cls k < 128 := by
  have edges : ∀ e ∈ edgeNodes, e.1 < 128 := by decide
  unfold nodeOf
  rw [if_neg edge]
  cases found : edgeNodes.find? (fun e => e.2.1 == cls && e.2.2 == k) with
  | none => decide
  | some e => exact edges e (List.mem_of_find?_eq_some found)

theorem entryNode_lt (p : Path) : entryNode p < 128 := by
  cases p with
  | pf => decide
  | vf t =>
    exact (by decide : hostNode < 128)
  | steward k => exact nodeOf_lt (by decide) k.val
  | debug => decide

theorem blockNode_lt (a : Nat) : blockNode a < 128 := by
  unfold blockNode
  split
  · decide
  · split
    · omega
    · split
      · exact nodeOf_lt (by decide) _
      · split
        · omega
        · split
          · omega
          · decide

/-- A packet crosses unhurt where no link of its path is down, or it crossed them before. -/
theorem Hw.cCross_of_up {h : Hw} {p : CPkt} {crossed : Bool}
    (up : crossed = true ∨ ∀ l ∈ defaultLinks p.src p.dst, (h.linksUp 1 l.1).testBit (l.2 - 1) = true) : h.cCross p [] crossed = (h, some p) := by
  have clear : (if crossed then none else (defaultLinks p.src p.dst).find? (fun l => !(h.linksUp 1 l.1).testBit (l.2 - 1))) = none := by
    rcases up with rfl | up
    · rfl
    · cases crossed
      · simpa using up
      · rfl
  unfold Hw.cCross
  dsimp only
  rw [clear]
  rfl

/-! Register requests and their answers (R316 to R318). -/

/-- The access that a register request makes at its block. -/
def Hw.regAccess (h : Hw) (p : Path) (addr : Nat) (write : Option Word) : Hw :=
  match write with
  | some v => h.busWrite p addr v noDevice
  | none => h.busRead p addr

/-- The block after the access of a register request: the answer of the access waits to travel back. -/
def Hw.regAnswered (h : Hw) (p : Path) (write : Option Word) (req : RegReq) (a : Hw) : Hw :=
  let g := a.setPath p { a.path p with resp := (h.path p).resp, accessFault := (h.path p).accessFault }
  { g with cnet := { g.cnet with regRsp := g.cnet.regRsp ++ [(req, if write.isSome then 0#32 else (a.path p).resp, (a.path p).accessFault)] } }

theorem Hw.path_regAnswered (h a : Hw) (p : Path) (write : Option Word) (req : RegReq) : (h.regAnswered p write req a).path p =
    { a.path p with resp := (h.path p).resp, accessFault := (h.path p).accessFault } :=
  (Hw.path_setPath a p p _).trans (if_pos rfl)

theorem Hw.regRequest_of_up {h : Hw} {p : Path} {addr : Nat} {write : Option Word} {crossed : Bool}
    (few : (h.cnet.regRsp.filter (fun x => x.1.path == pathCode p)).length < 16)
    (ordered : write = none → ∀ x ∈ h.cnet.regRsp.filter (fun x => x.1.path == pathCode p), x.1.write = false)
    (up : crossed = true ∨
      ∀ l ∈ defaultLinks (entryNode p) (blockNode (h.resolve p addr).2.1), (h.linksUp 1 l.1).testBit (l.2 - 1) = true) :
    ∃ req, h.regRequest p addr write [] crossed = h.regAnswered p write req (h.regAccess p addr write) ∧
      req.path = pathCode p ∧ req.write = write.isSome ∧ req.addr = addr ∧ req.data = write.getD 0#32 := by
  have goes : ¬ (16 ≤ (h.cnet.regRsp.filter (fun x => x.1.path == pathCode p)).length ||
      (write.isNone && (h.cnet.regRsp.filter (fun x => x.1.path == pathCode p)).any (fun x => x.1.write))) = true := by
    cases write with
    | some v => simpa using few
    | none =>
      have behind := ordered rfl
      simp only [Option.isNone_none, Bool.true_and, Bool.or_eq_true, decide_eq_true_eq, List.any_eq_true, not_or, not_exists, not_and]
      exact ⟨Nat.not_le.2 few, fun x isIn => by simp [behind x isIn]⟩
  have crosses (tenant chan : Nat) (data : BitVec 512) : h.cCross (mkCPkt 3 (entryNode p) (blockNode (h.resolve p addr).2.1) tenant 0 chan 0 data) []
      crossed = (h, some (mkCPkt 3 (entryNode p) (blockNode (h.resolve p addr).2.1) tenant 0 chan 0 data)) := by
    refine Hw.cCross_of_up ?_
    rw [CPkt.src_mkCPkt, CPkt.dst_mkCPkt, Nat.mod_eq_of_lt (entryNode_lt p), Nat.mod_eq_of_lt (blockNode_lt _)]
    exact up
  unfold Hw.regRequest
  dsimp only
  rw [if_neg goes, crosses]
  dsimp only
  rw [CPkt.poison_mkCPkt _ _ _ _ _ _ _ (by decide)]
  exact ⟨⟨pathCode p, blockNode (h.resolve p addr).2.1, write.isSome, addr, write.getD 0#32, ((List.range 256).find? (fun k =>
    (h.cnet.regRsp.filter (fun x => x.1.path == pathCode p)).all (fun x => x.1.tag != k))).getD 0⟩, rfl, rfl, rfl, rfl, rfl⟩

theorem Hw.regResponse_of_oldest {h : Hw} {p : Path} {req : RegReq} {w : Word} {fault : Bool} {rest : List (RegReq × Word × Bool)}
    (oldest : takeFirst (fun x : RegReq × Word × Bool => x.1.path == pathCode p) h.cnet.regRsp = some ((req, w, fault), rest)) :
    h.regResponse p [] true = ({ h with cnet := { h.cnet with regRsp := rest } }).setPath p
      { h.path p with resp := if req.write then (h.path p).resp else w, accessFault := fault } := by
  unfold Hw.regResponse
  rw [oldest]
  dsimp only
  rw [Hw.cCross_of_up (.inl rfl)]
  dsimp only
  rw [CPkt.poison_mkCPkt _ _ _ _ _ _ _ (by decide)]
  cases req.write <;> rfl

end Sys2Proof.Machine

open Sys2Proof Sys2Proof.Machine

/-- Settles O29: bells cleared and rung, register requests and their answers. That the access is performed as the request arrives is entry 24 of
the log. -/
theorem bellsAndRegisterPackets : Obligations.BellsAndRegisterPackets := by
  unfold Obligations.BellsAndRegisterPackets
  refine ⟨fun s p n v => ⟨fun opened => ?_, fun opened => ?_⟩, fun s p on => ⟨fun addr write crossed => ?_, fun req w fault rest oldest => ?_⟩⟩
  · refine (completes_nodeBellClear p n v s _).2 ?_
    rw [Hw.writeAt_open opened, Hw.regWrite_nodeBell]
    have bits {k : Nat} (bell : k < 24) := Hw.bit_clearBells (s.hw.readied p) n.val v bell
    refine ⟨fun k low => ?_, fun k high bell => ?_, fun id i j other => ?_, ?_⟩
    · rw [bits (Nat.lt_trans low (by decide)), Hw.bellDue_readied, Hw.reg_readied]
      simp [low]
    · rw [bits bell, Hw.reg_readied]
      simp [Nat.not_lt.2 high]
    · rw [Hw.clearBells_eq, Hw.reg_ringBell, Hw.reg_modReg, if_neg (fun e => other (by rw [← e.1, e.2.1, ← e.2.2])), Hw.reg_modReg,
        if_neg (fun e => other (by rw [← e.1, e.2.1, ← e.2.2])), Hw.reg_readied]
    · exact (Hw.vault_clearBells ..).trans (Hw.vault_setPath ..)
  · refine (completes_bellRing p n v s _).2 ?_
    rw [Hw.writeAt_open opened, Hw.regWrite_nodeBellRing]
    refine ⟨?_, fun id i j other => ?_, (Hw.vault_ringBell ..).trans (Hw.vault_setPath ..)⟩
    · rw [Hw.reg_ringBell, Hw.reg_modReg, if_pos ⟨rfl, rfl, rfl⟩, Hw.reg_readied, BitVec.ofNat_toNat, BitVec.setWidth_eq, BitVec.and_assoc]
      rfl
    · rw [Hw.reg_ringBell, Hw.reg_modReg, if_neg (fun e => other (by rw [← e.1, e.2.1, ← e.2.2])), Hw.reg_readied]
  · intro mine far few ordered up
    obtain ⟨req, asked, path, isWrite, at', data⟩ := Hw.regRequest_of_up (write := write) few ordered up
    refine (completes_regRequest p addr write [] crossed s _).2 ?_
    rw [Hw.clocked_on on, asked]
    refine ⟨?_, ?_, ?_, ?_, req, ?_, path, isWrite, at', data⟩
    · cases write <;> rfl
    · cases write <;> rfl
    · rw [Hw.path_regAnswered]
    · rw [Hw.path_regAnswered]
    · cases write <;> rfl
  · exact (completes_regResponse p [] true s _).2 ((Hw.clocked_on on).trans (Hw.regResponse_of_oldest oldest))

end

section
/-! Contributions to a sync, partials of a torus ring, and a sync cleared (R337, R339, R340, R351 to R353, R358, R378), and the obligation on them. -/

namespace Sys2Proof.Machine

theorem tileNode_ne_anchorNode (i : Nat) : tileNode i ≠ anchorNode := by
  have node : tileNode i = i / 8 * 12 + i % 8 + 2 := by
    unfold tileNode nodeOf
    exact if_pos rfl
  rw [node]
  unfold anchorNode
  omega

section
variable {h : Hw} {n : Nat} {p : SPkt}

/-- A packet that comes up at a node other than the anchor is held at its port (R337). -/
theorem Hw.upArrive_of_joined {port : Nat} (inner : n ≠ anchorNode) (joined : (h.joinByte n p.sync).testBit port = true)
    (free : h.upAt n port p.sync = none) : h.upArrive n port p = h.setUp n port p.sync p := by
  unfold Hw.upArrive
  rw [if_neg (by simp [joined])]
  dsimp only
  rw [if_neg inner, if_neg (by decide), free, if_neg inner]
  rfl

theorem Hw.contribute_of_sound {round : Nat} (inner : n ≠ anchorNode) (sound : h.sCheck p round = 0)
    (joined : (h.joinByte n p.sync).testBit 0 = true) (free : h.upAt n 0 p.sync = none) : h.contribute n p round = (h.setUp n 0 p.sync p, 0) := by
  unfold Hw.contribute
  dsimp only
  rw [if_neg (not_not_intro sound), Hw.upArrive_of_joined inner joined free]

theorem Hw.contribute_of_fails {round : Nat} (fails : h.sCheck p round ≠ 0) :
    h.contribute n p round = (h.sFail n (h.sCheck p round) p, h.sCheck p round) := if_pos fails

end

/-- What a tile contributes to a sync (R339). -/
def Hw.tilePkt (h : Hw) (i id : Nat) (ws : List Word) : SPkt := { h.syncPkt id ws with tenant := h.tileTenant i, gen := h.tileGen i }

section
variable {h : Hw} {i id : Nat} (unfenced : h.fenced (fld (h.syncCfg id) 16 6) (fld (h.syncCfg id) 22 10) = false)
include unfenced

theorem Hw.syncContribute_of_sync {x : SyncOp} (waits : (h.port i).syncs.find? (fun x => x.sync == id) = some x) (unsent : x.sent = false) :
    h.syncContribute i id =
      let r := h.contribute (tileNode i) (h.tilePkt i id x.words) (fld (h.syncStatus id) 0 8)
      if r.2 = 0 then
        (r.1.act (tileNode i) 11).modPort i (fun p => { p with syncs := p.syncs.map (fun y => if y.tag = x.tag then { y with sent := true } else y) })
      else
        (r.1.modPort i (fun p => { p with syncs := p.syncs.filter (fun y => y.tag != x.tag) })).finish i x.tag
          (if r.2 = 5 then scBadArg else scBadSync) [] 0 := by
  unfold Hw.syncContribute
  dsimp only
  rw [if_neg (by simp [unfenced]), waits]
  dsimp only
  rw [if_neg (by simp [unsent])]
  rfl

theorem Hw.syncContribute_of_tail {c : CcxOp} (noSync : (h.port i).syncs.find? (fun x => x.sync == id) = none)
    (tail : (h.port i).ccx.find? (fun c => c.phase == 1 && !c.sentW && h.countSyncOf i c == some id) = some c) :
    h.syncContribute i id =
      ((h.contribute (tileNode i) (h.tilePkt i id (h.countLanes i c)) (fld (h.syncStatus id) 0 8)).1.act (tileNode i) 11).modCcx i
        c.id (fun c => { c with sentW := true }) := by
  unfold Hw.syncContribute
  dsimp only
  rw [if_neg (by simp [unfenced]), noSync]
  dsimp only
  rw [tail]
  rfl

end

/-! A torus ring (R351 to R353). -/

/-- A packet of a ring passes its checks: the sync is valid, of its tenant, generation and length (R378). -/
def Hw.RingSound (h : Hw) (p : SPkt) : Prop :=
  bit (h.syncCfg p.sync) 15 = true ∧ p.tenant = fld (h.syncCfg p.sync) 16 6 ∧ p.gen = fld (h.syncCfg p.sync) 22 10 ∧
  p.words.length = h.syncWords p.sync

/-- What a partial of p that is now kept leads to: this module's turn takes it (R352). -/
def Hw.partialKept (h : Hw) (p : SPkt) : Hw :=
  match h.snet.torus.find? (fun r => r.pkt.sync == p.sync) with
  | some r => h.torusStep p.sync 4 r.pkt r.axis
  | none => h

section
variable {h g : Hw} {q kind : Nat} {ws : List Word} {p : SPkt} (came : h.torusRx q [kUp, kDown] = some (kind, ws, g))
  (packet : SPkt.ofWords ws = some p) (sound : g.RingSound p)
include came packet sound

/-- A packet of a ring whose role is this module's (R351). -/
theorem Hw.ringPartial_of_role (role : (if kind = kUp then (g.ringRole q p.sync).testBit 1 else (g.ringRole q p.sync).testBit 0) = true) :
    h.ringPartial q =
      if kind = kDown then g.torusDone p
      else if (g.partialAt q p.sync).isSome then g.sFail (portNode q) 4 p
      else ({ g with snet := { g.snet with partials := sinsert nlt g.snet.partials (q * 512 + p.sync) p } } : Hw).partialKept p := by
  obtain ⟨valid, tenant, gen, length⟩ := sound
  unfold Hw.ringPartial
  rw [came]
  dsimp only
  rw [packet]
  dsimp only
  rw [if_neg (by rw [valid, role]; decide), if_neg (not_not_intro tenant), if_neg (not_not_intro gen), if_neg (not_not_intro length)]
  rfl

end

/-! A sync cleared (R358). -/

/-- The register of a sync's configuration. -/
theorem syncCfgId_cases (id : Nat) : (id < 256 ∧ syncCfgId id = .snBarrierCfg) ∨ (256 ≤ id ∧ syncCfgId id = .snRimshotCfg) := by
  by_cases barrier : id < 256
  · exact .inl ⟨barrier, if_pos barrier⟩
  · exact .inr ⟨Nat.not_lt.1 barrier, if_neg barrier⟩

theorem Hw.regWrite_syncCfg (h : Hw) (p : Path) (addr id : Nat) (v : Word) (dev : NvmDevice) :
    h.regWrite p addr 0 ⟨syncCfgId id, anchorNode, id % 256⟩ v dev =
      h.syncRegWrite p addr ⟨syncCfgId id, anchorNode, id % 256⟩ (viewValue (syncCfgId id) 0 (h.syncCfg id) v) := by
  unfold Hw.syncCfg
  obtain ⟨-, barrier⟩ | ⟨-, rimshot⟩ := syncCfgId_cases id
  · rw [barrier]
    rfl
  · rw [rimshot]
    rfl

theorem Hw.syncRegWrite_of_cleared {h : Hw} {p : Path} {addr id : Nat} {w : Word} (short : id < 512) (valid : bit (h.syncCfg id) 15 = true)
    (cleared : bit w 15 = false) : h.syncRegWrite p addr ⟨syncCfgId id, anchorNode, id % 256⟩ w = h.syncDisable id := by
  have named : (if syncCfgId id = RegId.snRimshotCfg then 256 + id % 256 else id % 256) = id := by
    obtain ⟨less, barrier⟩ | ⟨more, rimshot⟩ := syncCfgId_cases id
    · rw [barrier, if_neg (by decide), Nat.mod_eq_of_lt less]
    · rw [rimshot, if_pos rfl]
      omega
  unfold Hw.syncRegWrite
  dsimp only
  rw [named, if_pos valid, if_neg (by simp [cleared])]

/-- A write of a sync's configuration writes valid. -/
theorem valid_viewValue_syncCfg (id : Nat) (old v : Word) : bit (viewValue (syncCfgId id) 0 old (setBit v 15 false)) 15 = false := by
  have new {r : RegId} (inMask : (r.desc.wmask).getLsbD 15 = true) : bit (viewValue r 0 old (setBit v 15 false)) 15 = false := by
    have set : (setBit v 15 false).getLsbD 15 = false := bit_setBit_same v 15 false (by decide)
    unfold viewValue merge bit
    simp only [BitVec.getLsbD_or, BitVec.getLsbD_and, BitVec.getLsbD_not, inMask, set]
    simp
  obtain ⟨-, barrier⟩ | ⟨-, rimshot⟩ := syncCfgId_cases id
  · rw [barrier]
    exact new (by decide)
  · rw [rimshot]
    exact new (by decide)

end Sys2Proof.Machine

open Sys2Proof Sys2Proof.Machine

/-- Settles O30: contributions, ring partials and a sync cleared. That clearing valid discards what the sync held is DEDUCED (entry 31 of the log). -/
theorem syncContributions : Obligations.SyncContributions := by
  unfold Obligations.SyncContributions
  refine ⟨fun s i k on => ?_, fun s => ⟨fun q kind ws h p on came packet valid tenant gen length => ?_, fun p k v => ?_⟩⟩
  · intro n id cfg pkt check unfenced
    have contributes {P : Hw → Prop} (e : P (s.hw.syncContribute i.val id)) : Completes (.syncContribute i k) s P := by
      refine (completes_syncContribute i k s _).2 ?_
      rw [Hw.clocked_on on]
      exact e
    refine ⟨fun x waits unsent => ⟨fun sound joined free => contributes ?_, fun fails => contributes ?_⟩,
      fun c noSync tail sound joined free => contributes ?_⟩
    · rw [Hw.syncContribute_of_sync unfenced waits unsent,
        Hw.contribute_of_sound (p := s.hw.tilePkt i.val id x.words) (tileNode_ne_anchorNode i.val) sound joined free]
      rfl
    · rw [Hw.syncContribute_of_sync unfenced waits unsent, Hw.contribute_of_fails (p := s.hw.tilePkt i.val id x.words) fails]
      exact if_neg fails
    · rw [Hw.syncContribute_of_tail unfenced noSync tail,
        Hw.contribute_of_sound (p := s.hw.tilePkt i.val id (s.hw.countLanes i.val c)) (tileNode_ne_anchorNode i.val) sound joined free]
      rfl
  · intro kept turn
    have arrives {P : Hw → Prop} (e : P (s.hw.ringPartial q.val)) : Completes (.ringPartialArrival q) s P := by
      refine (completes_ringPartialArrival q s _).2 ?_
      rw [Hw.clocked_on on]
      exact e
    refine ⟨fun up role free => ⟨fun noTurn => arrives ?_, fun r inTurn => arrives ?_⟩, fun down role => arrives ?_⟩
    · rw [Hw.ringPartial_of_role came packet ⟨valid, tenant, gen, length⟩ ((if_pos up).trans role), up, if_neg (by decide), free]
      have alone : h.snet.torus.find? (fun r => r.pkt.sync == p.sync) = none := noTurn
      rw [if_neg (by decide)]
      unfold Hw.partialKept
      dsimp only
      rw [alone]
    · rw [Hw.ringPartial_of_role came packet ⟨valid, tenant, gen, length⟩ ((if_pos up).trans role), up, if_neg (by decide), free]
      have found : h.snet.torus.find? (fun r => r.pkt.sync == p.sync) = some r := inTurn
      rw [if_neg (by decide)]
      unfold Hw.partialKept
      dsimp only
      rw [found]
    · rw [Hw.ringPartial_of_role came packet ⟨valid, tenant, gen, length⟩ ((if_neg (by rw [down]; decide)).trans role), if_pos down]
      rfl
  · intro id h opened valid
    refine (completes_syncCfgDisable p k v s _).2 ?_
    rw [Hw.writeAt_open opened]
    refine (Hw.regWrite_syncCfg (s.hw.readied p) p _ id (setBit v 15 false) noDevice).trans ?_
    exact Hw.syncRegWrite_of_cleared k.isLt valid (valid_viewValue_syncCfg id _ v)

end

section
/-! Rounds of the sync network, up to the anchor and down to the members (R335 to R337, R341 to R343), and the obligation on them. -/

namespace Sys2Proof.Machine

/-- The joined inputs of a router, in port order. -/
def Hw.joinedPorts (h : Hw) (n id : Nat) : List Nat := (List.range 5).filter (fun q => (h.joinByte n id).testBit q)

/-- The router has taken the packets of its joined inputs. -/
def Hw.upTaken (h : Hw) (n id : Nat) : Hw := ((h.joinedPorts n id).foldl (fun h q => h.clearUp n q id) h).act n 11

/-- A combined packet crosses to the parent m, with the effect of what the parent's receiver reports (R337). -/
def Hw.upForwarded (h : Hw) (m port id : Nat) (x : SPkt) (err : MeshErr) : Hw :=
  match err with
  | .ok => h.upArrive m port x
  | .corrected => ((h.modReg .snEccEvt m 0 (bumpFld · 0 16 1)).logF2).upArrive m port x
  | _ => (((h.modReg .snEccEvt m 0 (bumpFld · 24 8 1)).sDrop m 6 id).raiseF0 0x42 m 0).linkError 2 .snLinkEc m (port - 1)

section
variable {h : Hw} {n id : Nat} {err : MeshErr} {p : SPkt} {rest : List SPkt} (sound : err ≠ .router)
  (whole : (h.joinedPorts n id).mapM (fun q => h.upAt n q id) = some (p :: rest))
include sound whole

/-- At the anchor the round is counted, and its result goes down or into the torus (R341). -/
theorem Hw.upCombine_at_anchor (anchor : n = anchorNode) : h.upCombine n id err = (h.upTaken n id).anchorDone (h.combineUp id p rest) := by
  unfold Hw.joinedPorts at whole
  unfold Hw.upCombine
  rw [if_neg sound]
  dsimp only
  rw [whole]
  exact if_pos anchor

/-- Another router forwards the result to its parent (R336, R337). -/
theorem Hw.upCombine_below {m : Nat} (inner : n ≠ anchorNode) (parent : neighbour n (treePort n) = some m) : h.upCombine n id err =
    if !((h.upTaken n id).linksUp 2 n).testBit (treePort n - 1) then (h.upTaken n id).sDrop n 7 id
    else (h.upTaken n id).upForwarded m (facing (treePort n)) id (h.combineUp id p rest) err := by
  unfold Hw.joinedPorts at whole
  unfold Hw.upCombine
  rw [if_neg sound]
  dsimp only
  rw [whole]
  refine (if_neg inner).trans ?_
  rw [parent]
  cases err <;> rfl

end

section
variable {h : Hw} {n id : Nat} {e : Nat × SPkt} {rest : List (Nat × SPkt)}
  (oldest : takeFirst (fun e : Nat × SPkt => e.1 == n && e.2.sync == id) h.snet.down = some (e, rest)) (ue : Option Nat)
include oldest

theorem Hw.downDeliver_of_sync {x : SyncOp}
    (waits : (h.port (nodeInst n)).syncs.find? (fun x => x.sync == id && x.sent) = some x) : h.downDeliver n id ue =
    (({ h with snet := { h.snet with down := rest } } : Hw).modPort (nodeInst n)
      (fun p => { p with syncs := p.syncs.filter (fun y => y.tag != x.tag) })).finish (nodeInst n) x.tag 0 (wordPairs e.2.words) 0 := by
  have waits' : (({ h with snet := { h.snet with down := rest } } : Hw).port (nodeInst n)).syncs.find? (fun x => x.sync == id && x.sent) = some x :=
    waits
  unfold Hw.downDeliver
  rw [oldest]
  dsimp only
  rw [waits']

theorem Hw.downDeliver_of_tail {c : CcxOp} (noSync : (h.port (nodeInst n)).syncs.find? (fun x => x.sync == id && x.sent) = none)
    (tail : (({ h with snet := { h.snet with down := rest } } : Hw).port (nodeInst n)).ccx.find? (fun c => c.phase == 1 && c.sentW &&
      ({ h with snet := { h.snet with down := rest } } : Hw).countSyncOf (nodeInst n) c == some id) = some c) :
    h.downDeliver n id ue = ({ h with snet := { h.snet with down := rest } } : Hw).countOutcome (nodeInst n) c e.2.words ue := by
  have noSync' : (({ h with snet := { h.snet with down := rest } } : Hw).port (nodeInst n)).syncs.find? (fun x => x.sync == id && x.sent) = none :=
    noSync
  unfold Hw.downDeliver
  rw [oldest]
  dsimp only
  rw [noSync']
  dsimp only
  rw [tail]

end

end Sys2Proof.Machine

open Sys2Proof Sys2Proof.Machine

/-- Settles O31: a round at the anchor and below it, and the packets that come down. -/
theorem syncRounds : Obligations.SyncRounds := by
  unfold Obligations.SyncRounds
  intro s k on id
  refine ⟨fun n => ?_, fun n err p rest sound whole => ?_, fun n ue e rest oldest => ?_⟩
  · exact (completes_snetUpCombine n k .router s _).2 ((Hw.clocked_on on).trans (if_pos rfl))
  · intro ports x h dir
    refine ⟨fun anchor => ?_, fun m inner parent => ⟨fun up => ⟨fun ok => ?_, fun corrected => ?_, fun bad => ?_⟩, fun down => ?_⟩⟩
    · refine (completes_snetUpCombine n k err s _).2 ((Hw.clocked_on on).trans ?_)
      exact Hw.upCombine_at_anchor sound whole anchor
    · refine (completes_snetUpCombine n k err s _).2 ((Hw.clocked_on on).trans ((Hw.upCombine_below sound whole inner parent).trans ?_))
      rw [ok]
      exact if_neg (by rw [Bool.not_eq_true', Bool.not_eq_false]; exact up)
    · refine (completes_snetUpCombine n k err s _).2 ((Hw.clocked_on on).trans ((Hw.upCombine_below sound whole inner parent).trans ?_))
      rw [corrected]
      exact if_neg (by rw [Bool.not_eq_true', Bool.not_eq_false]; exact up)
    · refine (completes_snetUpCombine n k err s _).2 ((Hw.clocked_on on).trans ((Hw.upCombine_below sound whole inner parent).trans ?_))
      refine (if_neg (by rw [Bool.not_eq_true', Bool.not_eq_false]; exact up)).trans ?_
      rcases bad with rfl | rfl | rfl <;> rfl
    · refine (completes_snetUpCombine n k err s _).2 ((Hw.clocked_on on).trans ((Hw.upCombine_below sound whole inner parent).trans ?_))
      exact if_pos (by rw [Bool.not_eq_true']; exact down)
  · intro h i
    refine ⟨fun x waits => ?_, fun c noSync tail => ?_⟩
    · exact (completes_snetDownDeliver n k ue s _).2 ((Hw.clocked_on on).trans (Hw.downDeliver_of_sync oldest ue waits))
    · exact (completes_snetDownDeliver n k ue s _).2 ((Hw.clocked_on on).trans (Hw.downDeliver_of_tail oldest ue noSync tail))

end

section
/-! Gong requests, and FREEZE and THAW notices at the anchor (R362 to R364, R367 to R369), and the obligation on them. -/

namespace Sys2Proof.Machine

theorem bit_merge_new {mask : Word} {k : Nat} (inMask : mask.getLsbD k = true) (old new : Word) : bit (merge mask old new) k = bit new k := by
  unfold bit merge
  simp [inMask]

/-- What SN_GONG_CTL would hold after a request of op with v. -/
def gongWord (op : Nat) (old v : Word) : Word := merge (RegId.desc .snGongCtl).wmask old (gongRequest op v)

theorem gongWord_fields (op : Nat) (old v : Word) :
    fld (gongWord op old v) 0 2 = op % 4 ∧ fld (gongWord op old v) 8 4 = fld v 8 4 ∧ bit (gongWord op old v) 31 = true ∧
    bit (gongWord op old v) 4 = bit v 4 ∧ bit (gongWord op old v) 12 = bit v 12 ∧ fld (gongWord op old v) 16 6 = fld v 16 6 := by
  obtain ⟨opRead, lead, go, torus, snap⟩ := gongRequest_fields op v
  have tenant : fld (gongRequest op v) 16 6 = fld v 16 6 :=
    (fld_setBit_other _ _ _ _ _ (by decide)).trans (fld_setFld_other _ _ _ _ _ _ (by decide))
  unfold gongWord
  refine ⟨?_, ?_, ?_, ?_, ?_, ?_⟩
  · rw [fld_merge_new _ _ _ _ _ (by decide), opRead]
  · rw [fld_merge_new _ _ _ _ _ (by decide), lead]
  · rw [bit_merge_new (by decide), go]
  · rw [bit_merge_new (by decide), torus]
  · rw [bit_merge_new (by decide), snap]
  · rw [fld_merge_new _ _ _ _ _ (by decide), tenant]

/-- A request is kept without its go (R378). -/
def Hw.gongKept (h : Hw) (w : Word) : Hw := h.setReg .snGongCtl anchorNode 0 (setBit w 31 false)

section
variable {h : Hw} {p : Path} {v : Word} (opened : h.writeOpen p ⟨.snGongCtl, anchorNode, 0⟩) (lead : 3 ≤ fld v 8 4)
include opened

theorem Hw.gongWrite_open (op : Nat) : h.gongWrite p op v = (h.readied p).gongCtl p (pathAddr p (Reg.addr ⟨.snGongCtl, anchorNode, 0⟩))
    (gongWord op (h.reg .snGongCtl anchorNode) v) :=
  Hw.writeAt_open opened (gongRequest op v)

include lead

/-- A request with a lead of three bars and more, once go is taken off it (R362, R363). -/
theorem Hw.gongWrite_of_lead {op : Nat} (named : op % 4 ≠ 0) : h.gongWrite p op v =
    let g := (h.readied p).gongKept (gongWord op (h.reg .snGongCtl anchorNode) v)
    match op % 4 with
    | 3 => g.gongFault (bit v 12) (fld v 16 6)
    | o => g.gongTimed o (fld v 8 4) (bit v 4) (bit v 12) := by
  obtain ⟨opRead, leads, go, torus, snap, tenant⟩ := gongWord_fields op (h.reg .snGongCtl anchorNode) v
  rw [Hw.gongWrite_open opened]
  unfold Hw.gongCtl
  rw [leads, opRead, go, if_neg (by omega), snap, tenant, torus]
  rfl

theorem Hw.gongWrite_timed {op : Nat} (timed : op = 1 ∨ op = 2) : h.gongWrite p op v =
    ((h.readied p).gongKept (gongWord op (h.reg .snGongCtl anchorNode) v)).gongSend op (bit v 12) (bit v 4) h.sysTenant 0
      ((h.stamp.1 + fld v 8 4) % 4096) anchorNode := by
  rw [Hw.gongWrite_of_lead opened lead (by omega)]
  rcases timed with rfl | rfl <;> rfl

theorem Hw.gongWrite_fault : h.gongWrite p 3 v =
    if bit v 12 then ((h.readied p).gongKept (gongWord 3 (h.reg .snGongCtl anchorNode) v)).raiseF0 0x4d anchorNode 0
    else ((h.readied p).gongKept (gongWord 3 (h.reg .snGongCtl anchorNode) v)).raiseF1 (fld v 16 6) (h.gen (fld v 16 6)) 0x14 anchorNode 0 2 := by
  have gen : ((h.readied p).gongKept (gongWord 3 (h.reg .snGongCtl anchorNode) v)).gen (fld v 16 6) = h.gen (fld v 16 6) := by
    unfold Hw.gen Hw.gongKept
    rw [Hw.reg_setReg_other (by decide), Hw.reg_readied]
  rw [Hw.gongWrite_of_lead opened lead (by decide), ← gen]
  rfl

end

/-! FREEZE and THAW at their target bar (R367). -/

theorem Hw.freezeNow_of_running {h : Hw} (runs : h.frozen = false) (snap : Bool) : h.freezeNow snap =
    let a : Hw := { h with snet := { h.snet with freeze := none } }
    let b := (if snap then a.snapshot else a).openWindows
    (b.modReg .snGongStatus anchorNode 0 (fun w => setBit (setBit w 0 true) 1 false)).modReg .snGongEvt anchorNode 0 (setBit · 0 true) :=
  if_neg (by
    rw [Bool.not_eq_true]
    exact runs)

theorem Hw.thawNow_of_frozen {h : Hw} (frozen : h.frozen = true) : h.thawNow =
    (({ h with snet := { h.snet with thaw := none } } : Hw).modReg .snGongStatus anchorNode 0 (fun w => setBit (setBit w 0 false) 2 false)).modReg
      .snGongEvt anchorNode 0 (setBit · 1 true) := if_pos frozen

/-- The status after a FREEZE or a THAW shows whether the counters are frozen. -/
theorem Hw.frozen_status (h : Hw) (f : Word → Word) (b : Bool) (shows : ∀ w, bit (f w) 0 = b) (e : Word → Word) :
    ((h.modReg .snGongStatus anchorNode 0 f).modReg .snGongEvt anchorNode 0 e).frozen = b := by
  unfold Hw.frozen
  rw [Hw.reg_modReg_other (by decide), Hw.reg_modReg, if_pos ⟨rfl, rfl, rfl⟩, shows]

theorem Hw.frozen_freezeNow {h : Hw} (runs : h.frozen = false) (snap : Bool) : (h.freezeNow snap).frozen = true := by
  rw [Hw.freezeNow_of_running runs]
  refine Hw.frozen_status _ _ true (fun w => ?_) _
  rw [bit_setBit_other _ _ _ _ (by decide), bit_setBit_same _ _ _ (by decide)]

theorem Hw.frozen_thawNow {h : Hw} (frozen : h.frozen = true) : h.thawNow.frozen = false := by
  rw [Hw.thawNow_of_frozen frozen]
  refine Hw.frozen_status _ _ false (fun w => ?_) _
  rw [bit_setBit_other _ _ _ _ (by decide), bit_setBit_same _ _ _ (by decide)]

/-! Notices at the anchor (R364, R368, R369). -/

theorem find?_of_takeFirst {α : Type} {p : α → Bool} {l rest : List α} {x : α} (taken : takeFirst p l = some (x, rest)) : l.find? p = some x := by
  induction l generalizing rest with
  | nil => cases taken
  | cons y l ih =>
    unfold takeFirst at taken
    cases hit : p y with
    | true =>
      rw [hit] at taken
      cases taken
      exact List.find?_cons_of_pos hit
    | false =>
      rw [hit] at taken
      simp only [Bool.false_eq_true, if_false, Option.map_eq_some_iff] at taken
      obtain ⟨r, later, e⟩ := taken
      cases e
      rw [List.find?_cons_of_neg (by rw [hit]; decide)]
      exact ih later

/-- The oldest packet of a kind that came through a port is the one that is taken. -/
theorem Hw.find?_of_torusRx {h g : Hw} {q kind k : Nat} {ws : List Word} (came : h.torusRx q [kind] = some (k, ws, g)) :
    ∃ i, h.snet.rx.find? (fun e => e.1 == q && e.2.1 == kind) = some (i, k, ws) := by
  unfold Hw.torusRx at came
  obtain ⟨⟨x, rest⟩, taken, e⟩ := Option.map_eq_some_iff.1 came
  cases e
  have found := find?_of_takeFirst taken
  have tests : (fun e : Nat × Nat × List Word => e.1 == q && [kind].contains e.2.1) = fun e => e.1 == q && e.2.1 == kind := by
    funext e
    rw [List.contains_cons, List.contains_nil, Bool.or_false]
  rw [tests] at found
  exact ⟨x.1, found⟩

/-- What a FREEZE or THAW notice from the torus leads to: it is held unless its name has been seen (R364, R367). -/
def Hw.remoteGongTaken (h : Hw) (w0 w1 : Word) : Hw :=
  match h.gongRemote w0 w1 with
  | some g => g.gongHold w0 w1
  | none => h.gongDup

section
variable {h g : Hw} {q : Nat} {w0 w1 : Word} (came : h.torusRx q [kGong] = some (kGong, [w0, w1], g)) (timed : fld w0 0 2 ≠ 3)
include came timed

theorem Hw.gongArrive_of_timed : h.gongArrive q = g.remoteGongTaken w0 w1 := by
  obtain ⟨i, found⟩ := Hw.find?_of_torusRx came
  unfold Hw.gongArrive
  rw [found]
  dsimp only
  rw [if_neg timed, came]
  rfl

theorem Hw.gongArrive_of_new (new : gongName w1 ∉ g.snet.seen) : h.gongArrive q = ((g.gongSee w1).castOn kGong w0 w1).gongHold w0 w1 := by
  have remote : g.gongRemote w0 w1 = some ((g.gongSee w1).castOn kGong w0 w1) := if_neg (by simp [new])
  rw [Hw.gongArrive_of_timed came timed]
  unfold Hw.remoteGongTaken
  rw [remote]

theorem Hw.gongArrive_of_seen (seen : gongName w1 ∈ g.snet.seen) : h.gongArrive q = g.gongDup := by
  have remote : g.gongRemote w0 w1 = none := if_pos (by simp [seen])
  rw [Hw.gongArrive_of_timed came timed]
  unfold Hw.remoteGongTaken
  rw [remote]

end

/-- The notice that the anchor received last. -/
def Hw.gongShown (h : Hw) (w0 w1 : Word) : Hw := (h.setReg .snGongLast anchorNode 0 w0).setReg .snGongLast anchorNode 1 w1

/-- A notice whose target bar has begun but not with this cycle is marked late (R367). -/
def Hw.gongLate (h : Hw) (target : Nat) : Hw :=
  if h.sinceTarget target = 0 && h.firstCycle then h else h.modReg .snGongEvt anchorNode 0 (setBit · 2 true)

/-- A notice waits for its target bar, as bit b of the status shows. -/
def Hw.gongWaits (h : Hw) (b target : Nat) : Hw := h.modReg .snGongStatus anchorNode 0 (fun w => setFld (setBit w b true) 16 12 target)

theorem Hw.frozen_gongShown (h : Hw) (w0 w1 : Word) : (h.gongShown w0 w1).frozen = h.frozen := by
  unfold Hw.frozen Hw.gongShown
  rw [Hw.reg_setReg_other (by decide), Hw.reg_setReg_other (by decide)]

theorem Hw.frozen_gongLate (h : Hw) (target : Nat) : (h.gongLate target).frozen = h.frozen := by
  refine Hw.keeps_ite (P := Hw.frozen) rfl ?_
  unfold Hw.frozen
  rw [Hw.reg_modReg_other (by decide)]

/-- A FREEZE at the anchor (R367, R368, R369). -/
theorem Hw.gongHold_freeze {h : Hw} {w0 w1 : Word} (op : fld w0 0 2 = 1) : h.gongHold w0 w1 =
    let a := h.gongShown w0 w1
    if h.frozen then
      if h.snet.thaw.any (fun x => x.target == fld w0 20 12) then
        ({ a with snet := { a.snet with thaw := none } } : Hw).modReg .snGongStatus anchorNode 0 (setBit · 2 false)
      else a
    else if h.sinceTarget (fld w0 20 12) < 2048 then (a.gongLate (fld w0 20 12)).freezeNow (bit w0 2)
    else ({ a with snet := { a.snet with freeze := some ⟨fld w0 20 12, bit w0 2⟩ } } : Hw).gongWaits 1 (fld w0 20 12) := by
  dsimp only
  rw [← Hw.frozen_gongShown h w0 w1]
  unfold Hw.gongHold
  dsimp only
  exact if_pos op

/-- A THAW at the anchor (R367, R368, R369). -/
theorem Hw.gongHold_thaw {h : Hw} {w0 w1 : Word} (op : fld w0 0 2 = 2) : h.gongHold w0 w1 =
    let a := h.gongShown w0 w1
    if !h.frozen then
      if h.snet.freeze.any (fun x => x.target == fld w0 20 12) then
        ({ a with snet := { a.snet with freeze := none } } : Hw).modReg .snGongStatus anchorNode 0 (setBit · 1 false)
      else a
    else if h.sinceTarget (fld w0 20 12) < 2048 then (a.gongLate (fld w0 20 12)).thawNow
    else ({ a with snet := { a.snet with thaw := some ⟨fld w0 20 12, false⟩ } } : Hw).gongWaits 2 (fld w0 20 12) := by
  dsimp only
  rw [← Hw.frozen_gongShown h w0 w1]
  unfold Hw.gongHold
  dsimp only
  exact (if_neg (by rw [op]; decide)).trans (if_pos op)

end Sys2Proof.Machine

open Sys2Proof Sys2Proof.Machine

/-- Settles O32: gong requests, FREEZE and THAW in their target bars, and their notices at the anchor. -/
theorem gongFreezeAndThaw : Obligations.GongFreezeAndThaw := by
  unfold Obligations.GongFreezeAndThaw
  refine ⟨fun s => ⟨fun p v opened lead => ?_, fun on => ⟨fun f pending begun runs => ?_, fun f pending begun frozen => ?_⟩⟩,
    fun s on => ⟨fun w0 w1 rest waits => ?_, fun q w0 w1 h came timed => ⟨fun new => ?_, fun seen => ?_⟩, fun h w0 w1 => ?_⟩⟩
  · intro w h timed
    refine ⟨(completes_gongFreezeReq p v s _).2 ?_, (completes_gongThawReq p v s _).2 ?_, (completes_gongFaultReq p v s _).2 ?_⟩
    · exact Hw.gongWrite_timed opened lead (.inl rfl)
    · exact Hw.gongWrite_timed opened lead (.inr rfl)
    · exact Hw.gongWrite_fault opened lead
  · refine (completes_freezeTakeEffect s _).2 ((Hw.clocked_on on).trans ?_)
    unfold Hw.freezeDue
    rw [pending]
    exact (if_pos begun).trans (Hw.freezeNow_of_running runs f.snap)
  · refine (completes_thawTakeEffect s _).2 ((Hw.clocked_on on).trans ?_)
    unfold Hw.thawDue
    rw [pending]
    exact (if_pos begun).trans (Hw.thawNow_of_frozen frozen)
  · refine (completes_gongNoticeArrival none s _).2 ((Hw.clocked_on on).trans ?_)
    dsimp only
    unfold Hw.gongLocal
    rw [waits]
  · exact (completes_gongNoticeArrival (some q) s _).2 ((Hw.clocked_on on).trans (Hw.gongArrive_of_new came timed new))
  · exact (completes_gongNoticeArrival (some q) s _).2 ((Hw.clocked_on on).trans (Hw.gongArrive_of_seen came timed seen))
  · intro a target waits
    refine ⟨fun op runs ahead => ?_, fun op frozen ahead => ?_, fun op runs begun => ?_, fun op frozen begun => ?_, fun op frozen other => ?_,
      fun op runs other => ?_⟩
    · rw [Hw.gongHold_freeze op]
      dsimp only
      rw [runs, if_neg (by decide), if_neg (Nat.not_lt.2 ahead)]
      rfl
    · rw [Hw.gongHold_thaw op]
      dsimp only
      rw [frozen, if_neg (by decide), if_neg (Nat.not_lt.2 ahead)]
      rfl
    · rw [Hw.gongHold_freeze op]
      dsimp only
      rw [runs, if_neg (by decide), if_pos begun]
      refine Hw.frozen_freezeNow ?_ _
      rw [Hw.frozen_gongLate, Hw.frozen_gongShown, runs]
    · rw [Hw.gongHold_thaw op]
      dsimp only
      rw [frozen, if_neg (by decide), if_pos begun]
      refine Hw.frozen_thawNow ?_
      rw [Hw.frozen_gongLate, Hw.frozen_gongShown, frozen]
    · rw [Hw.gongHold_freeze op]
      dsimp only
      rw [frozen, if_pos rfl, if_pos other]
      rfl
    · rw [Hw.gongHold_thaw op]
      dsimp only
      rw [runs, if_pos (by decide), if_pos other]
      rfl

end

section
/-! FAULT notices at the anchor, of this module and of others (R361, R364, R366, R713, R717), and the obligation on them. -/

namespace Sys2Proof.Machine

/-! A notice from the torus leaves the block but for the sync network. -/

/-- The block but for its sync network. -/
def Hw.besideSnet (h : Hw) : Hw := { h with snet := {} }

theorem Hw.besideSnet_set (h : Hw) (x : SnetState) : ({ h with snet := x } : Hw).besideSnet = h.besideSnet := rfl

theorem Hw.besideSnet_torusTx (h : Hw) (p kind : Nat) (ws : List Word) : (h.torusTx p kind ws).besideSnet = h.besideSnet := Hw.besideSnet_set h _

theorem Hw.besideSnet_gongSee (h : Hw) (w1 : Word) : (h.gongSee w1).besideSnet = h.besideSnet := Hw.besideSnet_set h _

theorem Hw.besideSnet_castFrom (h : Hw) (kind stage : Nat) (w0 w1 : Word) : (h.castFrom kind stage w0 w1).besideSnet = h.besideSnet := by
  unfold Hw.castFrom
  refine Hw.foldl_same Hw.besideSnet _ _ (fun g x => ?_) h
  exact Hw.besideSnet_torusTx g _ _ _

theorem Hw.besideSnet_castOn (h : Hw) (kind : Nat) (w0 w1 : Word) : (h.castOn kind w0 w1).besideSnet = h.besideSnet := by
  unfold Hw.castOn
  dsimp only
  refine Hw.keeps_ite rfl ?_
  rw [Hw.besideSnet_castFrom]
  exact Hw.keeps_ite (Hw.besideSnet_torusTx h _ _ _) rfl

theorem Hw.besideSnet_of_torusRx {h g : Hw} {q k : Nat} {ks : List Nat} {ws : List Word} (came : h.torusRx q ks = some (k, ws, g)) :
    g.besideSnet = h.besideSnet := by
  unfold Hw.torusRx at came
  obtain ⟨x, _, e⟩ := Option.map_eq_some_iff.1 came
  cases e
  rfl

/-! A notice of another module (R364, R717). -/

section
variable {h g : Hw} {q : Nat} {w0 w1 : Word} (came : h.torusRx q [kGong] = some (kGong, [w0, w1], g)) (fault : fld w0 0 2 = 3)
include came fault

theorem Hw.remoteFault_of_seen (seen : gongName w1 ∈ g.snet.seen) : h.remoteFault q = g.gongDup := by
  have remote : g.gongRemote w0 w1 = none := if_pos (by simp [seen])
  obtain ⟨i, found⟩ := Hw.find?_of_torusRx came
  unfold Hw.remoteFault
  rw [found]
  dsimp only
  rw [if_neg (not_not_intro fault), came]
  dsimp only
  rw [remote]

/-- A notice that is new is forwarded and received. -/
def Hw.gongPassed (g : Hw) (w0 w1 : Word) : Hw := ((g.gongSee w1).castOn kGong w0 w1).gongTaken w0 w1

theorem Hw.remoteFault_of_new (new : gongName w1 ∉ g.snet.seen) : h.remoteFault q =
    let a := g.gongPassed w0 w1
    if bit w0 2 then ((List.range 64).filter (fun t => a.boxHas t (fld w1 0 12) && a.partMulti t)).foldl
      (fun b t => b.remoteNotice t (b.gen t) (fld w0 20 8) (fld w1 12 7) (fld w1 0 12)) a
    else if !a.boxHas (fld w0 4 6) (fld w1 0 12) then a
    else if fld w0 10 10 = a.gen (fld w0 4 6) then
      a.remoteNotice (fld w0 4 6) (fld w0 10 10) (fld w0 20 8) (fld w1 12 7) (fld w1 0 12)
    else a.stale (fld w0 4 6) 1 := by
  have remote : g.gongRemote w0 w1 = some ((g.gongSee w1).castOn kGong w0 w1) := if_neg (by simp [new])
  obtain ⟨i, found⟩ := Hw.find?_of_torusRx came
  unfold Hw.remoteFault
  rw [found]
  dsimp only
  rw [if_neg (not_not_intro fault), came]
  dsimp only
  rw [remote]
  rfl

omit fault

/-- What is received leaves the time and the generations. -/
theorem Hw.gongPassed_keeps : (g.gongPassed w0 w1).now = h.now ∧ (g.gongPassed w0 w1).bar = h.bar ∧ ∀ t, (g.gongPassed w0 w1).gen t = h.gen t := by
  have same : ((g.gongSee w1).castOn kGong w0 w1).besideSnet = h.besideSnet :=
    (Hw.besideSnet_castOn _ _ _ _).trans ((Hw.besideSnet_gongSee g w1).trans (Hw.besideSnet_of_torusRx came))
  refine ⟨(congrArg Hw.now same :), (congrArg Hw.bar same :), fun t => ?_⟩
  unfold Hw.gongPassed Hw.gongTaken Hw.gen
  rw [Hw.reg_modReg_other (by decide), Hw.reg_setReg_other (by decide), Hw.reg_setReg_other (by decide)]
  exact congrArg (fld · 0 10) (Hw.reg_congr (congrArg Hw.regs same :) .tntGen t 0)

end

/-! A notice of this module (R361, R366, R713). -/

/-- Whether a notice affects partitions of several modules is a matter of their configurations. -/
theorem Hw.affectsTorus_congr {g h : Hw} (cfg : ∀ t, g.reg .tntPartCfgLo t = h.reg .tntPartCfgLo t) (x : Notice) :
    g.affectsTorus x = h.affectsTorus x := by
  unfold Hw.affectsTorus Hw.partValid Hw.partMulti
  simp only [cfg]

theorem Hw.affectsTorus_gongTaken (h : Hw) (w0 w1 : Word) (f : FaultState) (x : Notice) :
    ({ h.gongTaken w0 w1 with fault := f } : Hw).affectsTorus x = h.affectsTorus x := by
  refine Hw.affectsTorus_congr (fun t => ?_) x
  rw [Hw.reg_set_fault]
  unfold Hw.gongTaken
  rw [Hw.reg_modReg_other (by decide), Hw.reg_setReg_other (by decide), Hw.reg_setReg_other (by decide)]

/-- A notice at the anchor goes on to the torus where it affects partitions of several modules. -/
def Hw.noticeSent (h g : Hw) (x : Notice) : Hw := g.gongSend 3 x.f0 (h.affectsTorus x) x.tenant x.gen x.cause x.node

/-- The anchor keeps the notice. -/
def Hw.noticeKept (h : Hw) (x : Notice) : Hw := { h with fault := { h.fault with atAnchor := h.fault.atAnchor ++ [x] } }

/-- What the anchor received: the words of the notice (Table 8.4). -/
def Hw.noticeShown (h : Hw) (x : Notice) : Hw :=
  h.gongTaken (h.gongWords 3 x.f0 (h.affectsTorus x) x.tenant x.gen x.cause x.node).1
    (h.gongWords 3 x.f0 (h.affectsTorus x) x.tenant x.gen x.cause x.node).2

theorem Hw.noticeTo_of_here {h : Hw} {x : Notice} (here : x.remote = false) : h.noticeTo x =
    let a := h.noticeShown x
    if x.f0 then
      if a.fault.f0Forwarded then a.gongDup
      else (h.noticeSent { a with fault := { a.fault with f0Forwarded := true } } x).noticeKept x
    else if a.fault.forwarded.contains (x.tenant, x.gen) then a.noticeKept x
    else (h.noticeSent { a with fault := { a.fault with forwarded := a.fault.forwarded ++ [(x.tenant, x.gen)] } } x).noticeKept x := by
  have sends (w0 w1 : Word) (f : FaultState) : h.noticeSent { h.gongTaken w0 w1 with fault := f } x =
      ({ h.gongTaken w0 w1 with fault := f } : Hw).noticeSent { h.gongTaken w0 w1 with fault := f } x := by
    unfold Hw.noticeSent
    rw [Hw.affectsTorus_gongTaken]
  unfold Hw.noticeShown
  dsimp only
  rw [sends, sends]
  exact if_neg (by simp [here])

end Sys2Proof.Machine

open Sys2Proof Sys2Proof.Machine

/-- Settles O33: the first notice at the anchor, and a notice of another module. -/
theorem faultNotices : Obligations.FaultNotices := by
  unfold Obligations.FaultNotices
  refine fun s on => ⟨fun x first => ?_, fun q w0 w1 h came fault => ?_⟩
  · intro g w a taken sent
    have noticed {P : Hw → Prop} (e : P (g.noticeTo x)) : Completes .faultNotice s P := by
      refine (completes_faultNotice s _).2 ?_
      rw [Hw.clocked_on on]
      unfold Hw.faultNotice
      rw [first]
      exact e
    refine ⟨fun remote => noticed ?_, fun here f1 before => noticed ?_, fun here f1 new => noticed ?_, fun here f0 new => noticed ?_,
      fun here f0 before => noticed ?_⟩
    · exact if_pos remote
    · rw [Hw.noticeTo_of_here here]
      exact (if_neg (by simp [f1])).trans (if_pos (List.contains_iff_mem.2 before))
    · rw [Hw.noticeTo_of_here here]
      exact (if_neg (by simp [f1])).trans (if_neg (fun again => new (List.contains_iff_mem.1 again)))
    · rw [Hw.noticeTo_of_here here]
      exact (if_pos f0).trans (if_neg (by rw [Bool.not_eq_true]; exact new))
    · rw [Hw.noticeTo_of_here here]
      exact (if_pos f0).trans (if_pos before)
  · intro a t
    obtain ⟨now, bar, gen⟩ := Hw.gongPassed_keeps (w0 := w0) (w1 := w1) came
    have arrives {P : Hw → Prop} (e : P (s.hw.remoteFault q.val)) : Completes (.remoteFaultNotice q) s P := by
      refine (completes_remoteFaultNotice q s _).2 ?_
      rw [Hw.clocked_on on]
      exact e
    refine ⟨fun seen => arrives (Hw.remoteFault_of_seen came fault seen), fun new f1 inBox => ⟨fun current => arrives ?_, fun other => arrives ?_⟩,
      fun new f1 outside => arrives ?_, fun new f0 => arrives ?_⟩
    · rw [Hw.remoteFault_of_new came fault new]
      refine (if_neg (by simp [f1])).trans ((if_neg (by rw [Bool.not_eq_true', Bool.not_eq_false]; exact inBox)).trans ?_)
      rw [gen, if_pos current, current]
      unfold Hw.remoteNotice
      rw [now, Hw.stamp_congr bar]
      rfl
    · rw [Hw.remoteFault_of_new came fault new]
      refine (if_neg (by simp [f1])).trans ((if_neg (by rw [Bool.not_eq_true', Bool.not_eq_false]; exact inBox)).trans ?_)
      rw [gen]
      exact if_neg other
    · rw [Hw.remoteFault_of_new came fault new]
      exact (if_neg (by simp [f1])).trans (if_pos (by rw [Bool.not_eq_true']; exact outside))
    · rw [Hw.remoteFault_of_new came fault new]
      exact if_pos f0

end

section
/-! Tile commands that go on after their acceptance (R485 to R488, R531, R414), and the obligation on them. -/

namespace Sys2Proof.Machine

section
variable {h : Hw} {i : Nat} {x : CmdHdr} {body : List (BitVec 64)}

/-! SEND, RECV and MOVE (R485 to R488). -/

/-- A valid length of a transfer: some whole lines (R485). -/
def wholeLines (bytes : Nat) : Prop := bytes ≠ 0 ∧ bytes % 128 = 0

/-- h with a new operation id taken. -/
def Hw.idTaken (h : Hw) : Hw := { h with opId := h.opId + 1 }

theorem Hw.cmdSend_open {ueAt : Option Nat} {f : Nat} (o : h.commandOpen i x body [2] [0xFFFFFFFF00003FFF, mask48])
    (whole : wholeLines (fld (bodyWord body 1) 32 32)) (aligned : fld (bodyWord body 2) 0 48 % 128 = 0)
    (named : (h.commandHeld i opSend x body).flowOf i (fld (bodyWord body 1) 0 13) = some f)
    (source : ∃ k, (h.commandHeld i opSend x body).flowSlot (tileNode i) f = some k ∧
      bit ((h.commandHeld i opSend x body).reg .bnFlowCfg (tileNode i) k) 14 = true)
    (leased : (h.commandHeld i opSend x body).rangeHeld i ((h.commandHeld i opSend x body).tileTenant i)
      ((h.commandHeld i opSend x body).tileGen i) (fld (bodyWord body 2) 0 48) (fld (bodyWord body 1) 32 32) true = true) :
    h.cmdSend i x body ueAt = ((((h.commandHeld i opSend x body).idTaken.modPort i (fun p => { p with
      sends := p.sends ++ [⟨(h.commandHeld i opSend x body).opId, x.tag.toNat, f, fld (bodyWord body 2) 0 48, fld (bodyWord body 1) 32 32,
        fld (bodyWord body 1) 32 32, bit (bodyWord body 1) 13, 0, false, false, ueAt⟩] })).pump i)).ciTake i 3 := by
  refine Hw.accept_of_length o ?_
  obtain ⟨some_, lines⟩ := whole
  obtain ⟨k, slot, live⟩ := source
  dsimp only
  rw [if_neg (by omega), named, Option.filter_some_pos (by simp [slot, live])]
  dsimp only
  rw [if_neg (by simp [leased])]
  rfl

theorem Hw.cmdRecv_open {f : Nat} (o : h.commandOpen i x body [2] [0xFFFFFFFF00005FFF, mask48])
    (whole : wholeLines (fld (bodyWord body 1) 32 32))
    (named : (h.commandHeld i opRecv x body).flowOf i (fld (bodyWord body 1) 0 13) = some f)
    (room : bit (bodyWord body 1) 14 = true ∨ (fld (bodyWord body 2) 0 48 % 128 = 0 ∧
      (h.commandHeld i opRecv x body).rangeHeld i ((h.commandHeld i opRecv x body).tileTenant i)
        ((h.commandHeld i opRecv x body).tileGen i) (fld (bodyWord body 2) 0 48) (fld (bodyWord body 1) 32 32) true = true)) :
    h.cmdRecv i x body = ((h.commandHeld i opRecv x body).idTaken.modPort i (fun p => { p with
      recvs := p.recvs ++ [⟨(h.commandHeld i opRecv x body).opId, x.tag.toNat, f, fld (bodyWord body 2) 0 48, fld (bodyWord body 1) 32 32,
        bit (bodyWord body 1) 14, 0, 0, false, 0, false, false⟩] })).ciTake i 3 := by
  refine Hw.accept_of_length o ?_
  obtain ⟨some_, lines⟩ := whole
  dsimp only
  rcases room with lane | ⟨aligned, leased⟩
  · rw [if_neg (by simp [some_, lines, lane]), named]
    dsimp only
    rw [if_neg (by simp [lane])]
    rfl
  · rw [if_neg (by simp [some_, lines, aligned]), named]
    dsimp only
    rw [if_neg (by simp [leased])]
    rfl

theorem Hw.cmdMove_open (o : h.commandOpen i x body [3] [0xFFFFFFFF00000000, mask48, mask48])
    (whole : wholeLines (fld (bodyWord body 1) 32 32)) (srcAligned : fld (bodyWord body 2) 0 48 % 128 = 0)
    (dstAligned : fld (bodyWord body 3) 0 48 % 128 = 0)
    (srcLeased : (h.commandHeld i opMove x body).rangeHeld i ((h.commandHeld i opMove x body).tileTenant i)
      ((h.commandHeld i opMove x body).tileGen i) (fld (bodyWord body 2) 0 48) (fld (bodyWord body 1) 32 32) true = true)
    (dstLeased : (h.commandHeld i opMove x body).rangeHeld i ((h.commandHeld i opMove x body).tileTenant i)
      ((h.commandHeld i opMove x body).tileGen i) (fld (bodyWord body 3) 0 48) (fld (bodyWord body 1) 32 32) true = true)
    (oneLocal : remoteAddr (fld (bodyWord body 2) 0 48) = false ∨ remoteAddr (fld (bodyWord body 3) 0 48) = false) :
    h.cmdMove i x body = (((h.commandHeld i opMove x body).idTaken.modPort i (fun p => { p with
      moves := p.moves ++ [⟨(h.commandHeld i opMove x body).opId, x.tag.toNat, fld (bodyWord body 2) 0 48, fld (bodyWord body 3) 0 48,
        fld (bodyWord body 1) 32 32, 0, false, false⟩] })).moveRun i (h.commandHeld i opMove x body).opId
      (if remoteAddr (fld (bodyWord body 2) 0 48) || remoteAddr (fld (bodyWord body 3) 0 48) then 1 else 0)).ciTake i 4 := by
  refine Hw.accept_of_length o ?_
  obtain ⟨some_, lines⟩ := whole
  dsimp only
  rw [if_neg (by omega), if_neg (by rcases oneLocal with e | e <;> simp [srcLeased, dstLeased, e])]
  rfl

/-! MSG_SEND and MSG_DEQ. -/

/-- The status of a MSG_SEND whose send came to this: none while it is stalled. -/
def Hw.msgSent (r : Hw × SendResult) (i tag : Nat) : Hw :=
  match r with
  | (h, .accepted) => h.finish i tag 0 [] 64
  | (h, .stalled) => h
  | (h, .full) => h.finish i tag scChFull [] 0
  | (h, .dropped _) => h.failCmd i tag scBadChannel

/-- The answer of a MSG_DEQ whose dequeue came to this. -/
def Hw.msgTaken (r : Hw × AgentResp) (i tag : Nat) : Hw :=
  match r with
  | (h, .message m) => h.finish i tag 0 (wordsOfMsg m) 64
  | (h, .empty) => h.finish i tag scEmpty [] 0
  | (h, _) => h.failCmd i tag scBadChannel

theorem Hw.cmdMsgSend_open {c : Nat} (o : h.commandOpen i x body [9] [0xFFF])
    (named : (h.commandHeld i opMsgSend x body).chanOf i (fld (bodyWord body 1) 0 12) = some c)
    (valid : (h.commandHeld i opMsgSend x body).chValid c = true) (source : ((h.commandHeld i opMsgSend x body).chSrc c).1 = tileNode i) :
    h.cmdMsgSend i x body = (Hw.msgSent ((h.commandHeld i opMsgSend x body).chSend (tileNode i) ((h.commandHeld i opMsgSend x body).chSrc c).2
      (some ((h.commandHeld i opMsgSend x body).tileTenant i)) c (msgOfWords (body.drop 1)) (some (i, x.tag.toNat))) i x.tag.toNat).ciTake i 10 := by
  refine Hw.accept_of_length o ?_
  dsimp only
  rw [named, Option.filter_some_pos (by simp [valid, source])]
  rfl

theorem Hw.cmdMsgDeq_open {c : Nat} {merge : Bool} (o : h.commandOpen i x body [1] [0xFFF])
    (named : (h.commandHeld i opMsgDeq x body).chanOf i (fld (bodyWord body 1) 0 12) = some c)
    (valid : (h.commandHeld i opMsgDeq x body).chValid c = true) (sink : ((h.commandHeld i opMsgDeq x body).chDst c).1 = tileNode i) :
    h.cmdMsgDeq i x body merge = (Hw.msgTaken ((h.commandHeld i opMsgDeq x body).chDequeue (tileNode i)
      ((h.commandHeld i opMsgDeq x body).chDst c).2 c merge) i x.tag.toNat).ciTake i 2 := by
  refine Hw.accept_of_length o ?_
  dsimp only
  rw [named, Option.filter_some_pos (by simp [valid, sink])]
  rfl

/-! SYNC. -/

/-- Sync id of tile i's port is in use: by a SYNC, or by the count exchange of a tail. -/
def Hw.syncBusy (h : Hw) (i id : Nat) : Bool :=
  (h.port i).syncs.any (fun y => y.sync == id) || (h.port i).ccx.any (fun c => c.phase == 1 && h.countSyncOf i c == some id)

/-- The 32-bit words of a command's words from the second on. -/
def halfWords (body : List (BitVec 64)) : List Word :=
  (body.drop 1).flatMap (fun (v : BitVec 64) => [v.setWidth 32, (v >>> 32).setWidth 32])

/-- Without the zero that fills up an odd number of words. -/
def withoutFill (ws : List Word) (n : Nat) : List Word := if ws.length = n + 1 ∧ ws.getLast? = some 0#32 then ws.dropLast else ws

theorem withoutFill_filled (ws : List Word) : withoutFill (ws ++ (if ws.length % 2 = 1 then [0#32] else [])) ws.length = ws := by
  unfold withoutFill
  by_cases odd : ws.length % 2 = 1
  · rw [if_pos odd, if_pos (by simp), List.dropLast_concat]
  · rw [if_neg odd, List.append_nil, if_neg (by omega)]

theorem Hw.cmdSync_busy {id : Nat} (o : h.commandOpen i x body [1, 2, 3, 4, 5] [0xFF])
    (named : (h.commandHeld i opSync x body).syncOf i (fld (bodyWord body 1) 0 8) = some id)
    (busy : (h.commandHeld i opSync x body).syncBusy i id = true) :
    h.cmdSync i x body = ((h.commandHeld i opSync x body).failCmd i x.tag.toNat scSyncBusy).ciTake i (body.length + 1) := by
  refine (Hw.accept_open o _).trans (congrArg (Hw.ciTake · i (body.length + 1)) ?_)
  dsimp only
  rw [named]
  exact if_pos busy

theorem Hw.cmdSync_free {id : Nat} {ws : List Word} (o : h.commandOpen i x body [1, 2, 3, 4, 5] [0xFF])
    (named : (h.commandHeld i opSync x body).syncOf i (fld (bodyWord body 1) 0 8) = some id)
    (free : (h.commandHeld i opSync x body).syncBusy i id = false) (length : (h.commandHeld i opSync x body).syncWords id = ws.length)
    (words : halfWords body = ws ++ (if ws.length % 2 = 1 then [0#32] else [])) :
    h.cmdSync i x body = ((h.commandHeld i opSync x body).modPort i (fun p => { p with
      syncs := p.syncs ++ [⟨x.tag.toNat, id, ws, false⟩] })).ciTake i (body.length + 1) := by
  have kept : withoutFill (halfWords body) ((h.commandHeld i opSync x body).syncWords id) = ws := by
    rw [words, length, withoutFill_filled]
  refine (Hw.accept_open o _).trans (congrArg (Hw.ciTake · i (body.length + 1)) ?_)
  dsimp only
  rw [named]
  refine (if_neg (ne_true_of_eq_false free)).trans ?_
  conv => rhs; rw [← kept]
  rfl

/-! LEASE_ALLOC (R531). -/

theorem Hw.mem_leasePage (h : Hw) (t g q : Nat) : (h.leasePage t g q).mem = h.mem := by simp only [Hw.leasePage, Hw.setReg_keeps]

theorem Hw.mem_leasePages (h : Hw) (t g : Nat) (ps : List Nat) : (ps.foldl (fun h q => h.leasePage t g q) h).mem = h.mem :=
  Hw.foldl_same Hw.mem ps (fun h q => h.leasePage t g q) (fun f q => f.mem_leasePage t g q) h

/-- What a LEASE_ALLOC comes to that finds this: no space, or an answer, held back while a page is being zeroed. -/
def Hw.allocated (h : Hw) (r : Option (Hw × Nat × List Nat)) (i tag count : Nat) : Hw :=
  match r with
  | none => h.finish i tag scNoSpace [] 0
  | some (h, a, ps) =>
    if ps.any (fun q => h.mem.zeroing.contains q) then h.modPort i (fun p => { p with allocs := p.allocs ++ [(tag, a, count)] })
    else h.finish i tag 0 [BitVec.ofNat 64 a] 0

theorem Hw.cmdLeaseAlloc_open (o : h.commandOpen i x body [1] [0x7F0001]) (least : 1 ≤ fld (bodyWord body 1) 16 7)
    (most : fld (bodyWord body 1) 16 7 ≤ 64) :
    h.cmdLeaseAlloc i x body = ((h.commandHeld i opLeaseAlloc x body).allocated ((h.commandHeld i opLeaseAlloc x body).leaseAlloc i
      (fld (bodyWord body 1) 0 1) (fld (bodyWord body 1) 16 7)) i x.tag.toNat (fld (bodyWord body 1) 16 7)).ciTake i 2 := by
  refine Hw.accept_of_length o ?_
  dsimp only
  rw [if_neg (by omega)]
  rfl

/-- The lowest run of free pages of slab i. -/
def Hw.freePages (h : Hw) (i count : Nat) : Option Nat := lowestRun 64 count (fun p => h.pageFree (i * 64 + p))

/-- The slab pages that tenant t may hold. -/
def Hw.pageQuota (h : Hw) (t : Nat) : Nat := ((h.envelope t).map (·.slabPages)).getD 0

theorem Hw.leaseAlloc_noPages {count : Nat}
    (full : h.freePages i count = none ∨ h.pageQuota (h.tileTenant i) < h.pagesHeld (h.tileTenant i) + count) :
    h.leaseAlloc i 0 count = none := by
  unfold Hw.leaseAlloc
  dsimp only
  rw [if_pos rfl]
  split
  · next p found =>
    rcases full with e | e
    · exact absurd (e.symm.trans found) (by simp)
    · exact if_neg (Nat.not_le.2 e)
  · rfl

theorem Hw.leaseAlloc_pages {count p : Nat} (found : h.freePages i count = some p)
    (within : h.pagesHeld (h.tileTenant i) + count ≤ h.pageQuota (h.tileTenant i)) :
    let ps := (List.range count).map (fun k => i * 64 + p + k)
    h.leaseAlloc i 0 count = some (ps.foldl (fun g q => g.leasePage (h.tileTenant i) (h.tileGen i) q) h, (i * 64 + p) * pageSize, ps) := by
  unfold Hw.freePages at found
  unfold Hw.leaseAlloc
  dsimp only
  rw [if_pos rfl, found]
  exact if_pos within

/-- The lowest run of tenant t's unit slots whose units are free. -/
def Hw.freeSlots (h : Hw) (t count : Nat) : Option Nat :=
  lowestRun (nget h.mem.units t 0) count (fun k => (h.slotUnit t k).any (fun u => !bit (h.reg .slbHlease u) 15 && !h.unitRetired u))

theorem Hw.leaseAlloc_noUnits {count : Nat} (full : h.freeSlots (h.tileTenant i) count = none) : h.leaseAlloc i 1 count = none := by
  unfold Hw.freeSlots at full
  unfold Hw.leaseAlloc
  dsimp only
  rw [if_neg (by decide), full]

theorem Hw.leaseAlloc_units {count k : Nat} (found : h.freeSlots (h.tileTenant i) count = some k) :
    h.leaseAlloc i 1 count = some (((List.range count).filterMap (fun m => h.slotUnit (h.tileTenant i) (k + m))).foldl
      (fun g u => g.leaseUnit (h.tileGen i) u) h, hbmBase + k * unitSize, []) := by
  unfold Hw.freeSlots at found
  unfold Hw.leaseAlloc
  dsimp only
  rw [if_neg (by decide), found]

/-! CCX (R414). -/

/-- The tail that a CCX's words describe. -/
def ccxOf (id tag slot : Nat) (body : List (BitVec 64)) : CcxOp :=
  let w (k : Nat) := bodyWord body k
  ⟨id, tag, slot, w 1, fld (w 2) 0 48, fld (w 3) 0 48, fld (w 4) 0 32, bit (w 1) 11, 0, 0, 0, 0, 0, 0, 0, false, 0, 0, [], false,
    fld (w 2) 48 16 != 0 || fld (w 3) 48 16 != 0 || fld (w 4) 32 32 != 0, false⟩

theorem Hw.cmdCcx_full (o : h.commandOpen i x body [4] []) (full : 16 ≤ ((h.commandHeld i opCcx x body).port i).ccx.length) :
    h.cmdCcx i x body = (((h.commandHeld i opCcx x body).tailEvt i scQueueFull x.tag.toNat).failCmd i x.tag.toNat scQueueFull).ciTake i 5 :=
  Hw.accept_of_length o (if_pos full)

theorem Hw.cmdCcx_noGroup (o : h.commandOpen i x body [4] []) (room : ((h.commandHeld i opCcx x body).port i).ccx.length < 16)
    (unnamed : (h.commandHeld i opCcx x body).groupSlot i (fld (bodyWord body 1) 0 8) = none) :
    h.cmdCcx i x body = (((h.commandHeld i opCcx x body).tailEvt i scBadGroup x.tag.toNat).failCmd i x.tag.toNat scBadGroup).ciTake i 5 := by
  refine Hw.accept_of_length o ?_
  dsimp only
  rw [if_neg (Nat.not_le.2 room), unnamed]

theorem Hw.cmdCcx_held {k : Nat} (o : h.commandOpen i x body [4] []) (room : ((h.commandHeld i opCcx x body).port i).ccx.length < 16)
    (named : (h.commandHeld i opCcx x body).groupSlot i (fld (bodyWord body 1) 0 8) = some k) :
    h.cmdCcx i x body = ((h.commandHeld i opCcx x body).idTaken.modPort i (fun p => { p with
      ccx := p.ccx ++ [ccxOf (h.commandHeld i opCcx x body).opId x.tag.toNat k body] })).ciTake i 5 := by
  refine Hw.accept_of_length o ?_
  dsimp only
  rw [if_neg (Nat.not_le.2 room), named]
  rfl

end

end Sys2Proof.Machine

open Sys2Proof Sys2Proof.Machine

/-- Settles O36: how a command that goes on after its acceptance begins, by its opcode. -/
theorem tileCommandsBegin : Obligations.TileCommandsBegin := by
  unfold Obligations.TileCommandsBegin
  intro s i x body on n tag w held a48 units
  refine ⟨?send, ?recv, ?move, ?msgSend, ?msgDeq, ?sync, ?leaseAlloc, ?ccx⟩
  case send =>
    intro ueAt f o h bytes whole aligned named source leased
    exact (completes_send i x body ueAt s _).2 ((Hw.clocked_on on).trans (Hw.cmdSend_open o whole aligned named source leased))
  case recv =>
    intro f o h cap whole named room
    exact (completes_recv i x body s _).2 ((Hw.clocked_on on).trans (Hw.cmdRecv_open o whole named room))
  case move =>
    intro o h bytes whole srcAligned dstAligned srcLeased dstLeased oneLocal
    exact (completes_move i x body s _).2
      ((Hw.clocked_on on).trans (Hw.cmdMove_open o whole srcAligned dstAligned srcLeased dstLeased oneLocal))
  case msgSend =>
    intro c o h r named valid source
    have sent (g : Hw) (e : Hw.msgSent r i.val tag = g) : Completes (.msgSend i x body) s (fun g' => g' = g.ciTake i 10) := by
      rw [completes_msgSend, Hw.clocked_on on, Hw.cmdMsgSend_open o named valid source]
      exact congrArg (Hw.ciTake · i.val 10) e
    have split : r = (r.1, r.2) := rfl
    refine ⟨fun e => sent _ ?_, fun e => sent _ ?_, fun e => sent _ ?_⟩
    all_goals rw [split, e]; rfl
  case msgDeq =>
    intro c merge o h r named valid sink
    have taken (g : Hw) (e : Hw.msgTaken r i.val tag = g) : Completes (.msgDeq i x body merge) s (fun g' => g' = g.ciTake i 2) := by
      rw [completes_msgDeq, Hw.clocked_on on, Hw.cmdMsgDeq_open o named valid sink]
      exact congrArg (Hw.ciTake · i.val 2) e
    have split : r = (r.1, r.2) := rfl
    refine ⟨fun m e => taken _ ?_, fun e => taken _ ?_⟩
    all_goals rw [split, e]; rfl
  case sync =>
    intro id o h named busy
    refine ⟨fun inUse => ?_, fun ws free length words => ?_⟩
    · exact (completes_sync i x body s _).2 ((Hw.clocked_on on).trans (Hw.cmdSync_busy o named inUse))
    · exact (completes_sync i x body s _).2 ((Hw.clocked_on on).trans (Hw.cmdSync_free o named free length words))
  case leaseAlloc =>
    intro o h t count least most
    have found {r : Option (Hw × Nat × List Nat)} {kind : Nat} (named : fld (w 1) 0 1 = kind) (e : h.leaseAlloc i.val kind count = r) :
        Completes (.leaseAlloc i x body) s (fun g => g = (h.allocated r i.val tag count).ciTake i 2) := by
      rw [completes_leaseAlloc, Hw.clocked_on on, Hw.cmdLeaseAlloc_open o least most, ← e, ← named]
    refine ⟨fun page => ?_, fun unit => ?_⟩
    · intro run quota
      refine ⟨fun full => found page (Hw.leaseAlloc_noPages full), fun p lowest within => ?_⟩
      intro ps b
      have leased := found page (Hw.leaseAlloc_pages lowest within)
      have busy : b.mem = h.mem := Hw.mem_leasePages h t (h.tileGen i.val) ps
      refine ⟨fun clean => ?_, fun zeroing => ?_⟩
      · have none_ : ps.any (fun q => b.mem.zeroing.contains q) = false := busy ▸ clean
        have e : h.allocated (some (b, (i.val * 64 + p) * pageSize, ps)) i.val tag count =
          b.finish i tag 0 [BitVec.ofNat 64 ((i.val * 64 + p) * 65536)] 0 := if_neg (ne_true_of_eq_false none_)
        exact e ▸ leased
      · have some_ : ps.any (fun q => b.mem.zeroing.contains q) = true := busy ▸ zeroing
        have e : h.allocated (some (b, (i.val * 64 + p) * pageSize, ps)) i.val tag count =
          b.modPort i (fun p' => { p' with allocs := p'.allocs ++ [(tag, (i.val * 64 + p) * 65536, count)] }) := if_pos some_
        exact e ▸ leased
    · intro free run
      exact ⟨fun full => found unit (Hw.leaseAlloc_noUnits full), fun k lowest => found unit (Hw.leaseAlloc_units lowest)⟩
  case ccx =>
    intro o h
    refine ⟨fun full => ?_, fun room => ⟨fun unnamed => ?_, fun k named => ?_⟩⟩
    · exact (completes_ccx i x body s _).2 ((Hw.clocked_on on).trans (Hw.cmdCcx_full o full))
    · exact (completes_ccx i x body s _).2 ((Hw.clocked_on on).trans (Hw.cmdCcx_noGroup o room unnamed))
    · refine (completes_ccx i x body s _).2 ?_
      rw [Hw.clocked_on on, Hw.cmdCcx_held o room named]
      exact ⟨ccxOf h.opId tag k body, rfl, rfl, rfl, rfl, rfl, rfl, rfl, rfl, rfl, rfl, rfl, rfl⟩

end

section
/-! Contributions to fold contexts, and contexts made valid and cleared (R401 to R407, R412, R413), and the obligation on them. -/

namespace Sys2Proof.Machine

/-! A flit of a fold stream at the head of an input (R402 to R407). -/

/-- f heads the input of node n that the command names, and its fold stream ends in a context of the node. -/
structure Hw.FoldArrives (h : Hw) (n port sel : Nat) (f : Flit) : Prop where
  head : h.foldHead n port sel = some f
  stream : (h.flowKind f.flow).kind = 1
  here : port ≠ 0 → h.outMask n f = 1 ∧ (h.flowKind f.flow).remote = 0xffff

section
variable {h : Hw} {n port sel : Nat} {f : Flit}

/-- The flit is not one that only passes through this node. -/
theorem Hw.FoldArrives.ends (a : h.FoldArrives n port sel f) :
    ¬ ((h.flowKind f.flow).kind ≠ 1 ∨ (port ≠ 0 ∧ (h.outMask n f ≠ 1 ∨ (h.flowKind f.flow).remote ≠ 0xffff))) := by
  rintro (other | ⟨network, away⟩)
  · exact other a.stream
  · obtain ⟨own, near⟩ := a.here network
    exact away.elim (· own) (· near)

theorem Hw.foldArrive_of_noContext (a : h.FoldArrives n port sel f) (noContext : h.treeCtx n (h.flowKind f.flow).tree = none) :
    h.foldArrive n port sel = (h.foldEvt n 0 1).foldPop n port sel := by
  unfold Hw.foldArrive
  rw [a.head]
  dsimp only
  rw [if_neg a.ends, noContext]

/-- The ring entry that still gates the local input of the context. -/
def Hw.shutGate (h : Hw) (n port k : Nat) : Option Nat := if port = 0 then h.gateShut n k else none

theorem Hw.foldArrive_of_shut {k r : Nat} (a : h.FoldArrives n port sel f) (context : h.treeCtx n (h.flowKind f.flow).tree = some k)
    (shut : h.shutGate n port k = some r) : h.foldArrive n port sel = h.modReg .cqRingStatus n r (setBit · 0 true) := by
  unfold Hw.shutGate at shut
  unfold Hw.foldArrive
  rw [a.head]
  dsimp only
  rw [if_neg a.ends, context]
  dsimp only
  rw [shut]

/-- A flit taken from its input, with the sink checks passed, that contributes nothing to context k. -/
def Hw.foldGone (h : Hw) (n port sel k : Nat) (f : Flit) (slot : Option Nat) (c : FoldCtx) : Hw :=
  (((h.foldPop n port sel).sinkChecked n f 0 slot).setCtx n k (c.after port f)).ctxShow n k false

/-- How many operations ahead of context k's current one the flit's is. -/
def Hw.opsAhead (h : Hw) (n k : Nat) (f : Flit) : Nat := (cidOp f.cid + 8 - h.ctxOp n k) % 8

/-- Another contribution holds the input. -/
def FoldCtx.inputBusy (c : FoldCtx) (port : Nat) : Bool := c.ins.any (fun e => e.port == port && e.accept)

/-- A flit whose checks pass begins a contribution of its flow to context k. -/
structure Hw.FoldBegins (h : Hw) (n port sel k : Nat) (f : Flit) : Prop extends h.FoldArrives n port sel f where
  context : h.treeCtx n (h.flowKind f.flow).tree = some k
  opened : h.shutGate n port k = none
  sound : (h.foldSink n port f).1 = 0
  fresh : (h.ctx n k).ins.find? (fun e => e.flow == f.flow) = none

variable {k : Nat} (b : h.FoldBegins n port sel k f)
include b

/-- What the first flit of a stream does is told by its producer and its operation. -/
theorem Hw.foldArrive_of_begins : h.foldArrive n port sel =
    if !h.producerOk n k port f.cid then
      (((h.foldEvt n k 2).ctxStop n k).foldGone n port sel k f (h.foldSink n port f).2 (h.ctx n k)).foldFault n k
    else if 5 ≤ h.opsAhead n k f then (h.foldDup n k f.cid).foldGone n port sel k f (h.foldSink n port f).2 (h.ctx n k)
    else if h.opsAhead n k f = 0 then
      if (h.ctx n k).inputBusy port then (h.foldDup n k f.cid).foldGone n port sel k f (h.foldSink n port f).2 (h.ctx n k)
      else (h.setCtx n k { h.ctx n k with ins := (h.ctx n k).ins ++ [⟨port, f.flow, f.cid, true⟩] }).ctxShow n k false
    else h.modReg .fldStatus n k (setBit · 15 true) := by
  obtain ⟨a, context, opened, sound, fresh⟩ := b
  unfold Hw.shutGate at opened
  unfold Hw.foldArrive
  rw [a.head]
  dsimp only
  rw [if_neg a.ends, context]
  dsimp only
  rw [opened]
  dsimp only
  rw [if_neg (not_not_intro sound), fresh]
  rfl

theorem Hw.foldArrive_of_wrongProducer (wrong : h.producerOk n k port f.cid = false) : h.foldArrive n port sel =
    (((h.foldEvt n k 2).ctxStop n k).foldGone n port sel k f (h.foldSink n port f).2 (h.ctx n k)).foldFault n k := by
  rw [Hw.foldArrive_of_begins b, wrong]
  rfl

variable (expected : h.producerOk n k port f.cid = true)
include expected

theorem Hw.foldArrive_of_current (current : h.opsAhead n k f = 0) (free : (h.ctx n k).inputBusy port = false) : h.foldArrive n port sel =
    (h.setCtx n k { h.ctx n k with ins := (h.ctx n k).ins ++ [⟨port, f.flow, f.cid, true⟩] }).ctxShow n k false := by
  rw [Hw.foldArrive_of_begins b, expected, current, free]
  rfl

theorem Hw.foldArrive_of_ahead (least : 1 ≤ h.opsAhead n k f) (most : h.opsAhead n k f ≤ 4) :
    h.foldArrive n port sel = h.modReg .fldStatus n k (setBit · 15 true) := by
  rw [Hw.foldArrive_of_begins b, expected, Bool.not_true, if_neg Bool.false_ne_true, if_neg (by omega), if_neg (by omega)]

theorem Hw.foldArrive_of_duplicate (late : 5 ≤ h.opsAhead n k f ∨ (h.opsAhead n k f = 0 ∧ (h.ctx n k).inputBusy port = true)) :
    h.foldArrive n port sel = (h.foldDup n k f.cid).foldGone n port sel k f (h.foldSink n port f).2 (h.ctx n k) := by
  rw [Hw.foldArrive_of_begins b, expected, Bool.not_true, if_neg Bool.false_ne_true]
  rcases late with gone | ⟨current, busy⟩
  · exact if_pos gone
  · rw [if_neg (by omega), if_pos current, if_pos busy]

end

/-! A write of a context's configuration (R401, R412, R413). -/

/-- The bit of FLD_CFG that valid is takes a write's. -/
theorem valid_viewValue_fldCfg (old v : Word) (b : Bool) : bit (viewValue .fldCfg 0 old (setBit v 15 b)) 15 = b := by
  have inMask : (RegId.fldCfg.desc.wmask).getLsbD 15 = true := by decide
  have set : (setBit v 15 b).getLsbD 15 = b := bit_setBit_same v 15 b (by decide)
  unfold viewValue merge bit
  simp only [BitVec.getLsbD_or, BitVec.getLsbD_and, BitVec.getLsbD_not, inMask, set]
  simp

/-- The formats of FLD_FMT are legal (R401). -/
def foldFormatsLegal (f : Word) : Prop :=
  1 ≤ fld f 0 4 ∧ fld f 0 4 ≤ 7 ∧ 9 ≤ fld f 4 4 ∧ fld f 4 4 ≤ 11 ∧ fld f 8 4 ≤ 7 ∧ fld f 16 5 ≠ 0 ∧ fld f 24 3 ≤ 4

/-- The model's test of the formats. -/
def foldFormatsOk (f : Word) : Bool :=
  1 ≤ fld f 0 4 && fld f 0 4 ≤ 7 && 9 ≤ fld f 4 4 && fld f 4 4 ≤ 11 && fld f 8 4 ≤ 7 && fld f 16 5 != 0 && fld f 24 3 ≤ 4

theorem foldFormatsOk_iff (f : Word) : foldFormatsOk f = true ↔ foldFormatsLegal f := by
  unfold foldFormatsOk foldFormatsLegal
  simp only [Bool.and_eq_true, decide_eq_true_eq, bne_iff_ne, and_assoc]

section
variable {h : Hw} {p : Path} {addr n k : Nat} {w : Word}

theorem Hw.foldRegWrite_of_idle (idle : bit (h.reg .fldCfg n k) 15 = false) (sets : bit w 15 = true) :
    h.foldRegWrite p addr ⟨.fldCfg, n, k⟩ w =
      if foldFormatsOk (h.reg .fldFmt n k) then h.foldEnable n k w else h.misuse p true 9 addr := by
  unfold Hw.foldRegWrite
  dsimp only
  rw [if_neg (ne_true_of_eq_false idle), if_pos sets]
  rfl

theorem Hw.foldRegWrite_of_live (live : bit (h.reg .fldCfg n k) 15 = true) (clears : bit w 15 = false) :
    h.foldRegWrite p addr ⟨.fldCfg, n, k⟩ w =
      (if (h.reg .fldCfg n k ^^^ w) &&& 0xFFFF7FFF#32 = 0#32 then h else h.misuse p true 4 addr).foldClear n k := by
  unfold Hw.foldRegWrite
  dsimp only
  rw [if_pos live, if_neg (ne_true_of_eq_false clears)]

theorem Hw.regWrite_fldCfg (h : Hw) (p : Path) (addr n k : Nat) (v : Word) (dev : NvmDevice) : h.regWrite p addr 0 ⟨.fldCfg, n, k⟩ v dev =
    h.foldRegWrite p addr ⟨.fldCfg, n, k⟩ (viewValue .fldCfg 0 (h.reg .fldCfg n k) v) := rfl

end

end Sys2Proof.Machine

open Sys2Proof Sys2Proof.Machine

/-- Settles O37: contributions to a fold context, and contexts made valid or cleared. -/
theorem foldContributions : Obligations.FoldContributions := by
  unfold Obligations.FoldContributions
  refine ⟨fun s n port sel f on => ?_, fun s p n k v => ?_⟩
  · intro h kind head stream here
    have arrives {g : Hw} (e : h.foldArrive n port sel.toNat = g) :
        Completes (.foldContributionArrival n port sel) s (fun g' => g' = g) :=
      (completes_foldContributionArrival n port sel s _).2 ((Hw.clocked_on on).trans e)
    have a : h.FoldArrives n port sel.toNat f := ⟨head, stream, here⟩
    refine ⟨fun noContext => arrives (Hw.foldArrive_of_noContext a noContext), fun k context => ?_⟩
    intro c
    refine ⟨fun r local_ shut => arrives (Hw.foldArrive_of_shut a context ((if_pos local_).trans shut)), fun opened sound fresh => ?_⟩
    intro d busy gone
    have notShut : h.shutGate n port k = none := by
      unfold Hw.shutGate
      by_cases local_ : port.val = 0
      · rw [if_pos local_]
        exact opened.resolve_left (not_not_intro local_)
      · exact if_neg local_
    have b : h.FoldBegins n port sel.toNat k f := ⟨a, context, notShut, sound, fresh⟩
    refine ⟨fun expected => ⟨fun current free => ?_, fun least most => ?_, fun late => ?_⟩, fun wrong => ?_⟩
    · exact arrives (Hw.foldArrive_of_current b expected current free)
    · exact arrives (Hw.foldArrive_of_ahead b expected least most)
    · exact arrives (Hw.foldArrive_of_duplicate b expected late)
    · exact arrives (Hw.foldArrive_of_wrongProducer b wrong)
  · intro c h old mask f ok opened
    refine ⟨fun idle => ?_, fun live => ?_⟩
    · have enables {g : Hw} (e : (if foldFormatsOk f then h.foldEnable n c (merge mask old (setBit v 15 true))
          else h.misuse p true 9 (pathAddr p (Reg.addr ⟨.fldCfg, n, c⟩))) = g) :
          Completes (.foldContextEnable p n k v) s (fun g' => g' = g) := by
        refine (completes_foldContextEnable p n k v s _).2 ?_
        rw [Hw.writeAt_open opened, Hw.regWrite_fldCfg,
          Hw.foldRegWrite_of_idle (h := s.hw.readied p) idle (valid_viewValue_fldCfg _ v true), Hw.reg_readied]
        exact e
      exact ⟨fun legal => enables (if_pos ((foldFormatsOk_iff f).2 legal)),
        fun illegal => enables (if_neg (fun legal => illegal ((foldFormatsOk_iff f).1 legal)))⟩
    · refine (completes_foldContextClear p n k v s _).2 ?_
      rw [Hw.writeAt_open opened, Hw.regWrite_fldCfg, Hw.foldRegWrite_of_live (h := s.hw.readied p) live (valid_viewValue_fldCfg _ v false)]
      rfl

end

section
/-! A fold context combines the blocks of its inputs (R381, R389 to R401, R405, R410, R433), and the obligation on it. -/

namespace Sys2Proof.Machine

/-! Combining changes no context's formats. -/

/-- The formats and inputs of every context. -/
def Hw.foldFmts (h : Hw) : Nat → Nat → Word := fun n k => h.reg .fldFmt n k

theorem Hw.foldFmts_setReg {id : RegId} (n : id ≠ .fldFmt) (h : Hw) (i j : Nat) (v : Word) : (h.setReg id i j v).foldFmts = h.foldFmts :=
  funext fun _ => funext fun _ => Hw.reg_setReg_other n h i j _ _ v

theorem Hw.foldFmts_modReg {id : RegId} (n : id ≠ .fldFmt) (h : Hw) (i j : Nat) (f : Word → Word) : (h.modReg id i j f).foldFmts = h.foldFmts :=
  funext fun _ => funext fun _ => Hw.reg_modReg_other n h i j _ _ f

theorem Hw.foldFmts_set_fold (h : Hw) (x : FoldState) : ({ h with fold := x } : Hw).foldFmts = h.foldFmts := rfl

theorem Hw.foldFmts_set_bnet (h : Hw) (x : BnetState) : ({ h with bnet := x } : Hw).foldFmts = h.foldFmts := rfl

theorem Hw.foldFmts_set_busy (h : Hw) (x : List (Nat × Nat)) : ({ h with busy := x } : Hw).foldFmts = h.foldFmts := rfl

theorem Hw.foldFmts_foldPop (h : Hw) (n port sel : Nat) : (h.foldPop n port sel).foldFmts = h.foldFmts := by
  unfold Hw.foldPop
  refine Hw.keeps_ite (Hw.foldFmts_set_fold h _) ?_
  unfold Hw.bPop
  exact Hw.keeps_ite (Hw.foldFmts_set_bnet h _) ((Hw.foldFmts_set_bnet _ _).trans (Hw.foldFmts_set_bnet h _))

theorem Hw.foldFmts_sinkChecked_passed (h : Hw) (n : Nat) (f : Flit) (slot : Option Nat) : (h.sinkChecked n f 0 slot).foldFmts = h.foldFmts := by
  unfold Hw.sinkChecked
  cases slot with
  | none => rfl
  | some s =>
    dsimp only
    unfold Hw.setSinkSeq
    exact Hw.keeps_ite (Hw.foldFmts_set_bnet h _) (Hw.foldFmts_modReg (by decide) h _ _ _)

theorem Hw.foldFmts_act (h : Hw) (n e : Nat) : (h.act n e).foldFmts = h.foldFmts := by
  unfold Hw.act
  refine (Hw.foldFmts_set_busy _ _).trans (Hw.foldl_same Hw.foldFmts _ _ (fun g w => ?_) h)
  exact Hw.foldFmts_setReg (by decide) g _ _ _

theorem Hw.foldFmts_inject (h : Hw) (n : Nat) (owner : Option Nat) (f : Flit) : (h.inject n owner f).foldFmts = h.foldFmts := by
  have dropped (cause : Nat) : (h.bDrop n cause f.flow).foldFmts = h.foldFmts := Hw.foldFmts_modReg (by decide) h _ _ _
  unfold Hw.inject
  split
  · exact dropped 1
  · exact Hw.keeps_ite (dropped 1) (Hw.keeps_ite (dropped 2) (Hw.foldFmts_set_bnet h _))

theorem Hw.foldFmts_foldPresent (h : Hw) (n k : Nat) (elems : List Nat) (last poison : Bool) :
    (h.foldPresent n k elems last poison).foldFmts = h.foldFmts := by
  unfold Hw.foldPresent
  refine Hw.keeps_ite ?_ (Hw.foldFmts_inject h _ _ _)
  refine (Hw.foldl_same Hw.foldFmts _ _ (fun g x => ?_) _).trans (Hw.foldFmts_set_fold h _)
  exact Hw.foldFmts_inject g _ _ _

theorem Hw.foldFmts_ctxShow (h : Hw) (n k : Nat) (waiting : Bool) : (h.ctxShow n k waiting).foldFmts = h.foldFmts :=
  Hw.foldFmts_modReg (by decide) h _ _ _

/-! The parts of a combination, in their order. -/

/-- The blocks' flits leave their inputs, with the sink checks passed. -/
def Hw.blocksTaken (h : Hw) (n : Nat) (bs : List FoldBlock) : Hw :=
  bs.foldl (fun h b => match b.flit with
    | some f => (h.foldPop n b.port b.sel).sinkChecked n f 0 (h.foldSink n b.port f).2
    | none => h) h

/-- After an operation's last block the ring entry that gates the context has passed it (R433). -/
def Hw.gatePassed (h : Hw) (n k : Nat) (last : Bool) : Hw :=
  match (if last && nodeClass n == 2 then h.gateOf n k else none) with
  | some r => h.ringPassed n r
  | none => h

/-- The block counts, after the last one the operation (R401). -/
def Hw.blockCounted (h : Hw) (n k : Nat) (last : Bool) : Hw :=
  if last then
    ((h.setCtx n k { h.ctx n k with ins := (h.ctx n k).ins.filter (fun e => !e.accept) }).setReg .fldBlocks n k 0#32).modReg .fldStatus n k
      (fun w => setFld w 0 3 (fld w 0 3 + 1))
  else h.modReg .fldBlocks n k (bumpFld · 0 32 1)

/-- Blocks b and rest of context k are combined. -/
def Hw.blocksCombined (h : Hw) (n k : Nat) (b : FoldBlock) (rest : List FoldBlock) (hurt : Bool) : Hw :=
  let sum := rest.foldl (fun a x => List.zipWith (carAdd (h.ctxCarrier n k)) a x.elems) b.elems
  let taken := h.blocksTaken n (b :: rest)
  let noted := if hurt then taken.foldEvt n k 4 else taken
  (((((noted.foldPresent n k sum b.last hurt).act n 5).gatePassed n k b.last).blockCounted n k b.last).ctxShow n k false)

theorem Hw.foldFmts_blocksTaken (h : Hw) (n : Nat) (bs : List FoldBlock) : (h.blocksTaken n bs).foldFmts = h.foldFmts := by
  unfold Hw.blocksTaken
  refine Hw.foldl_same Hw.foldFmts _ _ (fun g b => ?_) h
  split
  · exact (Hw.foldFmts_sinkChecked_passed _ _ _ _).trans (Hw.foldFmts_foldPop g _ _ _)
  · rfl

theorem Hw.foldFmts_gatePassed (h : Hw) (n k : Nat) (last : Bool) : (h.gatePassed n k last).foldFmts = h.foldFmts := by
  unfold Hw.gatePassed
  split
  · exact Hw.foldFmts_modReg (by decide) h _ _ _
  · rfl

theorem Hw.foldFmts_blockCounted (h : Hw) (n k : Nat) (last : Bool) : (h.blockCounted n k last).foldFmts = h.foldFmts := by
  unfold Hw.blockCounted
  refine Hw.keeps_ite ?_ (Hw.foldFmts_modReg (by decide) h _ _ _)
  exact (Hw.foldFmts_modReg (by decide) _ _ _ _).trans ((Hw.foldFmts_setReg (by decide) _ _ _ _).trans (Hw.foldFmts_set_fold h _))

theorem Hw.foldFmts_blocksCombined (h : Hw) (n k : Nat) (b : FoldBlock) (rest : List FoldBlock) (hurt : Bool) :
    (h.blocksCombined n k b rest hurt).foldFmts = h.foldFmts := by
  unfold Hw.blocksCombined
  dsimp only
  rw [Hw.foldFmts_ctxShow, Hw.foldFmts_blockCounted, Hw.foldFmts_gatePassed, Hw.foldFmts_act, Hw.foldFmts_foldPresent]
  exact Hw.keeps_ite ((Hw.foldFmts_modReg (by decide) _ _ _ _).trans (Hw.foldFmts_blocksTaken h _ _)) (Hw.foldFmts_blocksTaken h _ _)

theorem Hw.ctxMask_blocksCombined (h : Hw) (n k : Nat) (b : FoldBlock) (rest : List FoldBlock) (hurt : Bool) :
    (h.blocksCombined n k b rest hurt).ctxMask n k = h.ctxMask n k :=
  congrArg (fld · 16 5) (congrFun (congrFun (Hw.foldFmts_blocksCombined h n k b rest hurt) n) k)

/-! A context that can combine (R389, R410). -/

/-- Context k of node n is enabled, neither stopped nor fenced, and its output is free. -/
structure Hw.CombineOpen (h : Hw) (n k : Nat) : Prop where
  valid : bit (h.reg .fldCfg n k) 15 = true
  runs : h.ctxStopped n k = false
  free : h.ctxFree n k = true
  unfenced : h.fenced (fld (h.reg .fldCfg n k) 16 6) (fld (h.reg .fldCfg n k) 22 10) = false

/-- The block of context k at input p: the mover's at the local input of a node that is no tile port, else a flit's. -/
def Hw.inputBlock (h : Hw) (n k : Nat) (mover : Option (List Nat × Bool)) (p : Nat) : Option FoldBlock :=
  if p = 0 ∧ nodeClass n ≠ 2 then mover.map (fun b => ⟨0, 0, none, b.1, b.2⟩) else h.foldBlock n k p

/-- The inputs that context k waits for. -/
def Hw.ctxInputs (h : Hw) (n k : Nat) : List Nat := (List.range 5).filter (fun p => (h.ctxMask n k).testBit p)

/-- A block's flit fails its sink checks. -/
def Hw.blockFails (h : Hw) (n : Nat) (b : FoldBlock) : Bool :=
  match b.flit with
  | some f => (h.foldSink n b.port f).1 != 0
  | none => false

theorem Hw.blockFails_of_passed {h : Hw} {n : Nat} {b : FoldBlock} (passed : ∀ f, b.flit = some f → (h.foldSink n b.port f).1 = 0) :
    h.blockFails n b = false := by
  unfold Hw.blockFails
  split
  · next f carried => rw [passed f carried]; rfl
  · rfl

section
variable {h : Hw} {n k : Nat} (o : h.CombineOpen n k)
include o

/-- No condition holds the combination back. -/
theorem Hw.CombineOpen.proceeds : ¬ ((!bit (h.reg .fldCfg n k) 15 || h.ctxStopped n k || !h.ctxFree n k ||
    h.fenced (fld (h.reg .fldCfg n k) 16 6) (fld (h.reg .fldCfg n k) 22 10)) = true) := by
  rw [o.valid, o.runs, o.free, o.unfenced]
  decide

theorem Hw.foldCombineAt_of_stateError : h.foldCombineAt n k .state = ((h.foldEvt n k 5).ctxStop n k).raiseF0 0x44 n k := by
  have e (mover : Option (List Nat × Bool)) : h.foldCombine n k mover .state = (((h.foldEvt n k 5).ctxStop n k).raiseF0 0x44 n k, false) := by
    unfold Hw.foldCombine
    exact (if_neg o.proceeds).trans (if_pos rfl)
  unfold Hw.foldCombineAt
  dsimp only
  rw [e]

section
variable {mover : Option (List Nat × Bool)} {err : FoldErr} {b : FoldBlock} {rest : List FoldBlock} (intact : err ≠ .state)
  (blocks : (h.ctxInputs n k).mapM (h.inputBlock n k mover) = some (b :: rest))
  (passed : ∀ x ∈ b :: rest, ∀ f, x.flit = some f → (h.foldSink n x.port f).1 = 0)
include intact blocks passed

/-- Blocks whose flits pass their checks are combined, if they agree about the last one. -/
theorem Hw.foldCombine_of_blocks : h.foldCombine n k mover err =
    if rest.any (fun x => x.last != b.last) then (((h.foldEvt n k 3).ctxStop n k).foldFault n k, false)
    else (h.blocksCombined n k b rest (err = .data), true) := by
  have noneFails : (b :: rest).filter (h.blockFails n) = [] :=
    List.filter_eq_nil_iff.2 fun x inside => ne_true_of_eq_false (Hw.blockFails_of_passed (passed x inside))
  have quiet : ¬ ((!((b :: rest).filter (h.blockFails n)).isEmpty) = true) := by
    rw [noneFails]
    decide
  unfold Hw.ctxInputs Hw.inputBlock at blocks
  unfold Hw.foldCombine
  dsimp only
  rw [if_neg o.proceeds, if_neg intact, blocks]
  refine (if_neg quiet).trans ?_
  unfold Hw.blocksCombined
  simp only [decide_eq_true_eq]
  rfl

end

section
variable {err : FoldErr} {b : FoldBlock} {rest : List FoldBlock} (intact : err ≠ .state)
  (blocks : (h.ctxInputs n k).mapM (h.inputBlock n k ((h.tailBlock n k).map (·.2))) = some (b :: rest))
  (passed : ∀ x ∈ b :: rest, ∀ f, x.flit = some f → (h.foldSink n x.port f).1 = 0)
include intact blocks passed

theorem Hw.foldCombineAt_of_disagree (differs : ∃ x ∈ rest, x.last ≠ b.last) :
    h.foldCombineAt n k err = ((h.foldEvt n k 3).ctxStop n k).foldFault n k := by
  obtain ⟨x, inside, other⟩ := differs
  have disagree : rest.any (fun x => x.last != b.last) = true := List.any_eq_true.2 ⟨x, inside, bne_iff_ne.2 other⟩
  unfold Hw.foldCombineAt
  dsimp only
  rw [Hw.foldCombine_of_blocks o intact blocks passed, if_pos disagree]

/-- The mover's block is used up with the ones of the flits. -/
def Hw.moverConsumed (h : Hw) (n k : Nat) (tail : Option (CcxOp × List Nat × Bool)) : Hw :=
  match (if (h.ctxMask n k).testBit 0 then tail else none) with
  | some (t, _, last) => h.tailConsumed n k t last
  | none => h

theorem Hw.foldCombineAt_of_agree (same : ∀ x ∈ rest, x.last = b.last) :
    h.foldCombineAt n k err = (h.blocksCombined n k b rest (err = .data)).moverConsumed n k (h.tailBlock n k) := by
  have agree : ¬ (rest.any (fun x => x.last != b.last) = true) := by
    rw [List.any_eq_true]
    rintro ⟨x, inside, other⟩
    exact bne_iff_ne.1 other (same x inside)
  unfold Hw.foldCombineAt
  dsimp only
  rw [Hw.foldCombine_of_blocks o intact blocks passed, if_neg agree, ← Hw.ctxMask_blocksCombined h n k b rest (err = .data)]
  rfl

end

end

end Sys2Proof.Machine

open Sys2Proof Sys2Proof.Machine

/-- Settles O38: how a fold context combines its inputs' blocks. -/
theorem foldsCombine : Obligations.FoldsCombine := by
  unfold Obligations.FoldsCombine
  intro s n k on h c cfg valid runs free unfenced
  have o : h.CombineOpen n c := ⟨valid, runs, free, unfenced⟩
  have combines {err : FoldErr} {g : Hw} (e : h.foldCombineAt n c err = g) : Completes (.foldCombine n k err) s (fun g' => g' = g) :=
    (completes_foldCombine n k err s _).2 ((Hw.clocked_on on).trans e)
  refine ⟨combines (Hw.foldCombineAt_of_stateError o), ?_⟩
  intro err b rest intact tail block blocks passed
  have movers : h.inputBlock n c (tail.map (·.2)) = block := by
    funext p
    unfold Hw.inputBlock
    rw [Option.map_map]
    rfl
  have present : (h.ctxInputs n c).mapM (h.inputBlock n c (tail.map (·.2))) = some (b :: rest) := by
    rw [movers]
    exact blocks
  refine ⟨fun differs => combines (Hw.foldCombineAt_of_disagree o intact present passed differs), fun same => combines ?_⟩
  rw [Hw.foldCombineAt_of_agree o intact present passed same]
  unfold Hw.blocksCombined
  simp only [decide_eq_true_eq]
  rfl

end

section
/-! Tails of collectives start and complete (R417, R432, R435, R438 to R442, R446, R447), and the obligation on them. -/

namespace Sys2Proof.Machine

/-! A tail starts (R417, R432, R435). -/

section
variable {h : Hw} {i tag : Nat} {c : CcxOp}

/-- The oldest held tail of a group slot starts once it is released, outside DRAINED and unfenced. -/
theorem Hw.startable_of_released (held : (h.port i).ccx.find? (fun c => c.tag == tag) = some c) (waits : c.phase = 0) (released : c.released = true)
    (oldest : ((h.port i).ccx.takeWhile (fun x => x.id != c.id)).any (fun x => x.slot == c.slot) = false) (runs : h.portState i ≠ psDrained)
    (unfenced : h.fenced (h.tileTenant i) (h.tileGen i) = false) : h.startable i tag = some c := by
  unfold Hw.startable
  rw [held]
  exact if_pos ⟨waits, released, by simpa using oldest, runs, by simpa using unfenced⟩

/-- The tail's descriptor is checked, and a failing one counts its violation. -/
def Hw.tailChecked (h : Hw) (i tag : Nat) (c : CcxOp) : Hw :=
  if h.tailCheck i c = 0 then h else h.violation i (h.tailCheck i c) tag opCcx

/-- The tail with the result of its check and its operation number. -/
def Hw.tailNumbered (h : Hw) (i tag : Nat) (c : CcxOp) : CcxOp :=
  { c with null := h.tailCheck i c, opno := fld ((h.tailChecked i tag c).reg .cqStatus (tileNode i) c.slot) 24 8 }

/-- The tail has its number, and its sequencer hears of the start. -/
def Hw.tailBegun (h : Hw) (i tag : Nat) (c : CcxOp) : Hw :=
  ((h.tailChecked i tag c).modCcx i c.id (fun _ => h.tailNumbered i tag c)).seqReport i c.slot true 0

/-- The tail's group has no flow for its operation. -/
def Hw.tailNoFlow (h : Hw) (i : Nat) (c : CcxOp) : Bool :=
  (c.reduce && (h.localCtx i c.slot).isNone) || (!c.reduce && (h.slotBcast i c.slot).isNone) || c.op == 0 || c.op == 3

section
variable {ueAt : Option Nat} (startable : h.startable i tag = some c)
include startable

theorem Hw.tailStart_of_startable : h.tailStart i tag ueAt =
    if !c.capacity then (h.tailBegun i tag c).modCcx i c.id (fun x => { x with phase := 1 })
    else if (h.tailBegun i tag c).tailNoFlow i (h.tailNumbered i tag c) then
      (h.tailBegun i tag c).modCcx i c.id (fun x => { x with phase := 3, status := h.tailCheck i c })
    else (h.tailBegun i tag c).tailMove i (h.tailNumbered i tag c) ueAt := by
  unfold Hw.tailStart
  rw [startable]
  rfl

theorem Hw.tailStart_of_counted (counted : c.capacity = false) :
    h.tailStart i tag ueAt = (h.tailBegun i tag c).modCcx i c.id (fun x => { x with phase := 1 }) := by
  rw [Hw.tailStart_of_startable startable, if_pos (by simp [counted])]

theorem Hw.tailStart_of_noFlow (capacity : c.capacity = true)
    (noFlow : (h.tailBegun i tag c).tailNoFlow i (h.tailNumbered i tag c) = true) :
    h.tailStart i tag ueAt = (h.tailBegun i tag c).modCcx i c.id (fun x => { x with phase := 3, status := h.tailCheck i c }) := by
  rw [Hw.tailStart_of_startable startable, if_neg (by simp [capacity]), if_pos noFlow]

theorem Hw.tailStart_of_moves (capacity : c.capacity = true)
    (flows : (h.tailBegun i tag c).tailNoFlow i (h.tailNumbered i tag c) = false) :
    h.tailStart i tag ueAt = (h.tailBegun i tag c).tailMove i (h.tailNumbered i tag c) ueAt := by
  rw [Hw.tailStart_of_startable startable, if_neg (by simp [capacity]), if_neg (ne_true_of_eq_false flows)]

end

/-! A tail completes (R438 to R442, R446, R447). -/

/-- The two words of a completed tail: the elements it moved and dropped, its members, failures, operation number and group. -/
def CcxOp.resultWords (c : CcxOp) (elems drops : Nat) : List (BitVec 64) :=
  [BitVec.ofNat 64 (elems % 2 ^ 32 + drops % 2 ^ 32 * 2 ^ 32),
    BitVec.ofNat 64 (c.members % 2 ^ 20 + c.failed % 2 ^ 20 * 2 ^ 20 + c.opno % 256 * 2 ^ 40 + c.group * 2 ^ 48)]

/-- The slot counts the tail's operation and shows its status, an error is logged, and the sequencer hears of the completion. -/
def Hw.tailEnded (h : Hw) (i tag status : Nat) (c : CcxOp) : Hw :=
  (((h.tailEvt i status tag).modPort i (fun p => p.dropOp c.id)).modReg .cqStatus (tileNode i) c.slot
    (fun w => setFld (setFld w 24 8 (fld w 24 8 + 1)) 0 8 status)).seqReport i c.slot false (if c.phase = 3 then 0 else c.op)

/-- A tail without data has its status and no elements. -/
theorem Hw.tailResult_of_ended (ended : c.phase = 3) : h.tailResult i c = some (c.status, 0, 0) := if_pos ended

theorem Hw.tailComplete_of_result {status elems drops : Nat} (held : (h.port i).ccx.find? (fun c => c.tag == tag) = some c)
    (result : h.tailResult i c = some (status, elems, drops)) : h.tailComplete i tag =
      if c.null ≠ 0 then (h.tailEnded i tag status c).finishCounted i tag status (c.resultWords elems drops) elems
      else (h.tailEnded i tag status c).finish i tag status (c.resultWords elems drops) elems := by
  unfold Hw.tailComplete
  rw [held]
  dsimp only
  rw [result]
  rfl

end

end Sys2Proof.Machine

open Sys2Proof Sys2Proof.Machine

/-- Settles O39: tails start and complete. The read that finds an error is the command's to name (entry 28 of the log). -/
theorem collectiveTails : Obligations.CollectiveTails := by
  unfold Obligations.CollectiveTails
  refine ⟨fun s i tag ueAt c on held waits released oldest runs unfenced => ?_, fun s i tag c st elems drops on held ends => ?_⟩
  · intro st a c' h noFlow
    have startable := Hw.startable_of_released held waits released oldest runs unfenced
    have starts {g : Hw} (e : s.hw.tailStart i tag.toNat ueAt = g) : Completes (.tailStart i tag ueAt) s (fun g' => g' = g) :=
      (completes_tailStart i tag ueAt s _).2 ((Hw.clocked_on on).trans e)
    exact ⟨fun counted => starts (Hw.tailStart_of_counted startable counted),
      fun capacity none_ => starts (Hw.tailStart_of_noFlow startable capacity none_),
      fun capacity flows => starts (Hw.tailStart_of_moves startable capacity flows)⟩
  · intro n body a
    have result : s.hw.tailResult i.val c = some (st, elems, drops) := by
      obtain ⟨ended, rfl, rfl, rfl⟩ | ⟨-, result⟩ := ends
      · exact Hw.tailResult_of_ended ended
      · exact result
    have completes {g : Hw} (e : (if c.null ≠ 0 then a.finishCounted i tag.toNat st body elems else a.finish i tag.toNat st body elems) = g) :
        Completes (.tailComplete i tag) s (fun g' => g' = g) :=
      (completes_tailComplete i tag s _).2 ((Hw.clocked_on on).trans ((Hw.tailComplete_of_result held result).trans e))
    exact ⟨fun sound => completes (if_neg (not_not_intro sound)), fun failed => completes (if_pos failed)⟩

end

section
/-! Sequencers count reports and arm ring entries, and relays pass flits on (R431 to R434, R699), and the obligation on them. -/

namespace Sys2Proof.Machine

/-! A member's report (R431, R432). -/

/-- Some group context of node q is tenant t's for group k, of any generation. -/
def Hw.groupKnown (h : Hw) (q group tenant : Nat) : Bool :=
  (List.range 64).any (fun j => bit (h.reg .cqSeqCfg q j) 15 && fld (h.reg .cqSeqCfg q j) 0 8 == group &&
    fld (h.reg .cqSeqCfg q j) 16 6 == tenant)

/-- The starts and completions that a sequencer has counted of a member. -/
def SeqState.countOf (x : SeqState) (node : Nat) : Nat × Nat := ((x.tiles.find? (fun t => t.1 == node)).map (·.2)).getD (0, 0)

/-- The counts of a member with report r. -/
def SeqState.counted (x : SeqState) (r : SeqReport) : Nat × Nat :=
  if r.start then ((x.countOf r.node).1 + 1, (x.countOf r.node).2) else ((x.countOf r.node).1, (x.countOf r.node).2 + 1)

/-- A sequencer's state with report r counted. -/
def SeqState.withReport (x : SeqState) (r : SeqReport) : SeqState :=
  { x with
    tiles := x.tiles.filter (fun t => t.1 != r.node) ++ [(r.node, (x.counted r).1, (x.counted r).2)]
    moved := if !r.start && r.moved != 0 && (x.counted r).2 == x.ops + 1 then r.moved else x.moved }

/-- h with other reports waiting. -/
def Hw.withReports (h : Hw) (reports : List SeqReport) : Hw := { h with coll := { h.coll with reports := reports } }

section
variable {h : Hw} {q : Nat} {r : SeqReport} {rest : List SeqReport}
  (oldest : takeFirst (fun r : SeqReport => r.q == q) h.coll.reports = some (r, rest))
include oldest

theorem Hw.seqArrive_of_unknown (unknown : (h.withReports rest).seqOf q r.group r.tenant r.gen = none) : h.seqArrive q =
    if (h.withReports rest).groupKnown q r.group r.tenant then (h.withReports rest).stale r.tenant 1 else h.withReports rest := by
  unfold Hw.withReports at unknown
  unfold Hw.seqArrive
  rw [oldest]
  dsimp only
  rw [unknown]
  rfl

theorem Hw.seqArrive_of_known {j : Nat} (known : (h.withReports rest).seqOf q r.group r.tenant r.gen = some j) : h.seqArrive q =
    (((h.withReports rest).setSeq q j (((h.withReports rest).seqState q j).withReport r)).act q 10).seqRefresh q j := by
  unfold Hw.withReports at known
  unfold Hw.seqArrive
  rw [oldest]
  dsimp only
  rw [known]
  rfl

end

/-! The ring entries (R433, R434, R699). -/

theorem Hw.seqArm_of_start {h : Hw} {q j : Nat} (valid : bit (h.reg .cqSeqCfg q j) 15 = true) (unarmed : (h.seqState q j).armed = false)
    (starts : ∃ t ∈ (h.seqState q j).tiles, (h.seqState q j).ops < t.2.1) : h.seqArm q j =
      ((((h.groupEntries q j).foldl (fun h e => h.modReg .cqRingStatus (portNode e.1) e.2 (setBit · 8 true)) h).setSeq q j
        { h.seqState q j with armed := true }).act q 10).seqRefresh q j := by
  have some_ : (h.seqState q j).tiles.any (fun t => (h.seqState q j).ops < t.2.1) = true := by simpa using starts
  unfold Hw.seqArm
  exact if_pos (by rw [valid, unarmed, some_]; rfl)

/-- Flit f heads the input of node n that the command names, for relay entry r. -/
structure Hw.RelayArrives (h : Hw) (n r port sel : Nat) (f : Flit) : Prop where
  head : h.foldHead n port sel = some f
  valid : h.ringValid n r = true
  relays : h.ringGate n r = false
  flow : f.flow = fld (h.reg .cqRingFlow n r) 0 13
  here : port ≠ 0 → h.outMask n f = 1

section
variable {h : Hw} {n r port sel : Nat} {f : Flit} (a : h.RelayArrives n r port sel f)
include a

/-- The flit is the entry's. -/
theorem Hw.RelayArrives.taken : ¬ ((!h.ringValid n r || h.ringGate n r || f.flow != fld (h.reg .cqRingFlow n r) 0 13 ||
    (port != 0 && h.outMask n f != 1)) = true) := by
  obtain ⟨-, valid, relays, flow, here⟩ := a
  rw [valid, relays, flow]
  simpa using here

theorem Hw.ringRelay_of_unarmed (unarmed : h.ringArmed n r = false) :
    h.ringRelay n r port sel = h.modReg .cqRingStatus n r (setBit · 0 true) := by
  unfold Hw.ringRelay
  dsimp only
  rw [a.head]
  dsimp only
  rw [if_neg a.taken, if_pos (by simp [unarmed])]

variable (armed : h.ringArmed n r = true)
include armed

theorem Hw.ringRelay_of_fails (fails : (h.foldSink n port f).1 ≠ 0) :
    h.ringRelay n r port sel = (h.foldPop n port sel).sinkChecked n f (h.foldSink n port f).1 (h.foldSink n port f).2 := by
  unfold Hw.ringRelay
  dsimp only
  rw [a.head]
  dsimp only
  rw [if_neg a.taken, if_neg (by simp [armed]), if_pos fails]

/-- The flit goes on with the entry's output flow, and its last one disarms the entry. -/
def Hw.ringRelayed (h : Hw) (n r port sel : Nat) (f : Flit) : Hw :=
  let taken := (h.foldPop n port sel).sinkChecked n f 0 (h.foldSink n port f).2
  let sent := taken.inject n (some (fld (h.reg .cqRingCfg n r) 16 6)) (mkFlit (fld (h.reg .cqRingFlow n r) 16 13) f.last f.cid f.data)
  (if f.last then sent.ringPassed n r else sent.modReg .cqRingStatus n r (setBit · 0 false)).seqRefreshAll

/-- The source slot of the flow, where the node has one, has no flit waiting. -/
def Hw.sourceFree (h : Hw) (n flow : Nat) : Bool :=
  match h.flowSlot n flow with
  | some s => (h.waiting n s).isEmpty
  | none => true

omit a armed in
theorem Hw.sourceFree_of_empty {flow : Nat} (empty : ∀ m, h.flowSlot n flow = some m → h.waiting n m = []) : h.sourceFree n flow = true := by
  unfold Hw.sourceFree
  split
  · next m slot => rw [empty m slot]; rfl
  · rfl

theorem Hw.ringRelay_of_free (passed : (h.foldSink n port f).1 = 0)
    (empty : ∀ m, h.flowSlot n (fld (h.reg .cqRingFlow n r) 16 13) = some m → h.waiting n m = []) :
    h.ringRelay n r port sel = h.ringRelayed n r port sel f := by
  have free := Hw.sourceFree_of_empty empty
  have goes : ¬ ((!h.sourceFree n (fld (h.reg .cqRingFlow n r) 16 13)) = true) := by simp [free]
  unfold Hw.ringRelay
  dsimp only
  rw [a.head]
  dsimp only
  rw [if_neg a.taken, if_neg (by simp [armed]), if_neg (not_not_intro passed)]
  exact if_neg goes

end

end Sys2Proof.Machine

open Sys2Proof Sys2Proof.Machine

/-- Settles O40: sequencers and ring entries. -/
theorem sequencers : Obligations.Sequencers := by
  unfold Obligations.Sequencers
  intro s q on
  refine ⟨fun r rest oldest => ?_, fun j => ?_, fun k port sel f => ?_⟩
  · intro h ofTenant
    have reports {g : Hw} (e : s.hw.seqArrive q = g) : Completes (.seqReport q) s (fun g' => g' = g) :=
      (completes_seqReport q s _).2 ((Hw.clocked_on on).trans e)
    exact ⟨fun unknown => reports (Hw.seqArrive_of_unknown oldest unknown), fun j known => reports (Hw.seqArrive_of_known oldest known)⟩
  · intro k x valid unarmed starts
    exact (completes_seqArm q j s _).2 ((Hw.clocked_on on).trans (Hw.seqArm_of_start valid unarmed starts))
  · intro h r w out head valid relays flow here
    have a : h.RelayArrives q r port sel.toNat f := ⟨head, valid, relays, flow, here⟩
    have relays {g : Hw} (e : h.ringRelay q r port sel.toNat = g) : Completes (.ringRelay q k port sel) s (fun g' => g' = g) :=
      (completes_ringRelay q k port sel s _).2 ((Hw.clocked_on on).trans e)
    refine ⟨fun unarmed => relays (Hw.ringRelay_of_unarmed a unarmed), fun armed => ⟨fun fails => ?_, fun passed empty => ?_⟩⟩
    · exact relays (Hw.ringRelay_of_fails a armed fails)
    · exact relays (Hw.ringRelay_of_free a armed passed empty)

end

section
/-! The lanes of a tile port: slab accesses, flits, credits (R452, R453, R463 to R472, R476, R477), and the obligation on them. -/

namespace Sys2Proof.Machine

/-! What a working port does not change: every register but the wait counters of its engine. -/

section
variable {κ α : Type} [DecidableEq κ] [DecidableEq α] (p : κ × α → Bool)

omit [DecidableEq κ] [DecidableEq α] in
theorem find?_sinsert {k : κ} {v : α} (never : p (k, v) = false) (lt : κ → κ → Bool) (m : List (κ × α)) :
    (sinsert lt m k v).find? p = m.find? p := by
  induction m with
  | nil => simp [sinsert, never]
  | cons e m ih =>
    unfold sinsert
    split
    · rw [List.find?_cons, List.find?_cons, ih]
    · rw [List.find?_cons_of_neg (by simp [never])]

omit [DecidableEq α] in
theorem find?_serase {k : κ} (never : ∀ v, p (k, v) = false) (m : List (κ × α)) : (serase m k).find? p = m.find? p := by
  unfold serase
  rw [List.find?_filter]
  refine congrArg (fun q => m.find? q) (funext fun e => ?_)
  by_cases same : e.1 = k
  · have none : p e = false := by
      have fails := never e.2
      rwa [← same] at fails
    simp [none]
  · simp [same]

/-- What is never found does not hide what is. -/
theorem find?_sset {k : κ} (never : ∀ v, p (k, v) = false) (lt : κ → κ → Bool) (m : List (κ × α)) (v d : α) :
    (sset lt m k v d).find? p = m.find? p := by
  unfold sset
  split
  · exact find?_serase p never m
  · rw [find?_sinsert p (never v), find?_serase p never]

end

theorem Hw.flowSlot_setReg {id : RegId} (other : id ≠ .bnFlowCfg) (h : Hw) (i j : Nat) (v : Word) (n flow : Nat) :
    (h.setReg id i j v).flowSlot n flow = h.flowSlot n flow := by
  unfold Hw.flowSlot Hw.setReg
  exact congrArg (Option.map _) (find?_sset _ (fun w => by simp [other]) _ _ _ _)

theorem Hw.flowSlot_act (h : Hw) (n e m flow : Nat) : (h.act n e).flowSlot m flow = h.flowSlot m flow := by
  unfold Hw.act
  refine Hw.foldl_same (fun h => h.flowSlot m flow) _ _ (fun g w => ?_) h
  exact Hw.flowSlot_setReg (by decide) g _ _ _ _ _

theorem Hw.reg_act {id : RegId} (other : .pmcWait ≠ id) (h : Hw) (n e i j : Nat) : (h.act n e).reg id i j = h.reg id i j := by
  unfold Hw.act
  refine Hw.foldl_same (fun h => h.reg id i j) _ _ (fun g w => ?_) h
  exact Hw.reg_setReg_other other g _ _ _ _ _

theorem Hw.mem_act (h : Hw) (n e : Nat) : (h.act n e).mem = h.mem := by
  unfold Hw.act
  exact Hw.foldl_same Hw.mem _ _ (fun g w => by simp only [Hw.setReg_keeps]) h

theorem Hw.tileTenant_act (h : Hw) (n e i : Nat) : (h.act n e).tileTenant i = h.tileTenant i := by
  unfold Hw.tileTenant Hw.tileOwner Hw.partTiles Hw.partValid Hw.partRect
  simp only [Hw.reg_act (show RegId.pmcWait ≠ RegId.tntPartCfgLo by decide)]

theorem Hw.lanePage_act (h : Hw) (n e i p : Nat) : (h.act n e).lanePage i p = h.lanePage i p := by
  unfold Hw.lanePage Hw.tileGen Hw.gen
  simp only [Hw.holds, Hw.pageRetired, Hw.tileTenant_act, Hw.mem_act, Hw.reg_act (show RegId.pmcWait ≠ RegId.slbLease by decide),
    Hw.reg_act (show RegId.pmcWait ≠ RegId.slbRetired by decide), Hw.reg_act (show RegId.pmcWait ≠ RegId.tntGen by decide)]

theorem Hw.flowOf_act (h : Hw) (n e i plan : Nat) : (h.act n e).flowOf i plan = h.flowOf i plan := by
  unfold Hw.flowOf Hw.mapGet
  simp only [Hw.reg_act (show RegId.pmcWait ≠ RegId.tpFmap by decide)]

theorem Hw.fiCause_act (h : Hw) (n e i flow : Nat) : (h.act n e).fiCause i flow = h.fiCause i flow := by
  unfold Hw.fiCause
  simp only [Hw.flowSlot_act, Hw.tileTenant_act, Hw.reg_act (show RegId.pmcWait ≠ RegId.bnFlowCfg by decide)]

/-! A droop gate holds a port's credits back (R765); nothing on a lane opens or closes one. -/

/-- What decides which nodes are gated. -/
def Hw.gateSide (h : Hw) : PowerState × BarState := (h.power, h.bar)

theorem Hw.gated_congr {g h : Hw} (e : g.gateSide = h.gateSide) (n : Nat) : g.gated n = h.gated n := by
  obtain ⟨power, bar⟩ := Prod.mk.injEq .. ▸ e
  unfold Hw.gated
  rw [power, Hw.stamp_congr bar]

theorem Hw.gateSide_setReg (h : Hw) (id : RegId) (i j : Nat) (v : Word) : (h.setReg id i j v).gateSide = h.gateSide := rfl

theorem Hw.gateSide_modReg (h : Hw) (id : RegId) (i j : Nat) (f : Word → Word) : (h.modReg id i j f).gateSide = h.gateSide := rfl

theorem Hw.gateSide_modPort (h : Hw) (i : Nat) (f : TilePort → TilePort) : (h.modPort i f).gateSide = h.gateSide := rfl

theorem Hw.gateSide_act (h : Hw) (n e : Nat) : (h.act n e).gateSide = h.gateSide := by
  unfold Hw.act
  exact Hw.foldl_same Hw.gateSide _ _ (fun g w => Hw.gateSide_setReg g _ _ _ _) h

theorem Hw.gateSide_raiseF1 (h : Hw) (t gen cause node detail : Nat) : (h.raiseF1 t gen cause node detail).gateSide = h.gateSide := rfl

theorem Hw.gateSide_tileF1 (h : Hw) (i cause detail : Nat) : (h.tileF1 i cause detail).gateSide = h.gateSide := by
  unfold Hw.tileF1
  split
  · exact Hw.gateSide_raiseF1 h _ _ _ _ _
  · rfl

theorem Hw.gateSide_violation (h : Hw) (i code tag op : Nat) : (h.violation i code tag op).gateSide = h.gateSide := by
  unfold Hw.violation
  refine Hw.keeps_ite ((Hw.gateSide_tileF1 _ _ _ _).trans ?_) ?_
  all_goals
    refine (Hw.gateSide_setReg _ _ _ _ _).trans (Hw.keeps_ite ?_ (Hw.gateSide_setReg h _ _ _ _))
    exact (Hw.gateSide_setReg _ _ _ _ _).trans ((Hw.gateSide_setReg _ _ _ _ _).trans (Hw.gateSide_setReg h _ _ _ _))

theorem Hw.gateSide_slabUe (h : Hw) (p : Nat) : (h.slabUe p).gateSide = h.gateSide := by
  unfold Hw.slabUe
  exact Hw.keeps_ite ((Hw.gateSide_raiseF1 _ _ _ _ _ _).trans (Hw.gateSide_modReg h _ _ _ _)) (Hw.gateSide_modReg h _ _ _ _)

/-- A port that is not gated gets its credits back at once. -/
theorem Hw.withhold_of_ungated {g h : Hw} {i : Nat} (e : g.gateSide = h.gateSide) (opened : h.gated (tileNode i) = false)
    (f : Nat × Nat × Nat → Nat × Nat × Nat) : g.withhold i f = g :=
  if_neg (ne_true_of_eq_false ((Hw.gated_congr e _).trans opened))

theorem Hw.withhold_act {h : Hw} {i : Nat} (opened : h.gated (tileNode i) = false) (n e : Nat) (f : Nat × Nat × Nat → Nat × Nat × Nat) :
    (h.act n e).withhold i f = h.act n e := Hw.withhold_of_ungated (Hw.gateSide_act h n e) opened f

section
variable {h : Hw} {i : Nat} (up : h.portUp i = true)
include up

/-- The port takes what comes on its lanes. -/
theorem Hw.portTakes : ¬ ((!h.portUp i) = true) := by simp [up]

/-! Slab reads (R469 to R472, R519). -/

theorem Hw.slabLaneRead_of_excess {line : Nat} (excess : 16 ≤ (h.port i).reads.length + (h.port i).held.2.1) (err : PadErr) (ce : Bool) :
    h.slabLaneRead i line err ce = h.violation i 0x22 0 0 := (if_neg (Hw.portTakes up)).trans (if_pos excess)

/-- The answer to a read joins the ones that wait to return. -/
def Hw.readPushed (h : Hw) (i line : Nat) (d : List Byte) (status : Nat) : Hw :=
  h.modPort i (fun p => { p with reads := p.reads ++ [⟨line, d, status⟩] })

/-- A corrected error of the slab page that a lane accesses is counted. -/
def Hw.laneCorrected (h : Hw) (i page : Nat) (ce : Bool) : Hw := if ce then h.slabCe (i * 64 + page) else h

omit up in
theorem Hw.mem_laneCorrected (h : Hw) (i page : Nat) (ce : Bool) : (h.laneCorrected i page ce).mem = h.mem := by
  cases ce
  · rfl
  · rfl

theorem Hw.slabLaneRead_of_held {line : Nat} {ce : Bool} (room : (h.port i).reads.length + (h.port i).held.2.1 < 16)
    (mine : h.lanePage i (line / 256) = true) : h.slabLaneRead i line .ok ce = ((h.act (tileNode i) 7).laneCorrected i (line / 256) ce).readPushed
      i line (memRead 0#8 h.mem.slab (i * 0x400000 + line * 256) 256) 0 := by
  have slab : ((h.act (tileNode i) 7).laneCorrected i (line / 256) ce).mem.slab = h.mem.slab := by
    rw [Hw.mem_laneCorrected, Hw.mem_act]
  unfold Hw.slabLaneRead
  rw [if_neg (Hw.portTakes up), if_neg (Nat.not_le.2 room)]
  dsimp only [Hw.padCheck]
  rw [if_neg (by decide), if_pos ((Hw.lanePage_act h _ _ _ _).trans mine), ← slab]
  rfl

theorem Hw.slabLaneRead_of_notHeld {line : Nat} {ce : Bool} (room : (h.port i).reads.length + (h.port i).held.2.1 < 16)
    (other : h.lanePage i (line / 256) = false) : h.slabLaneRead i line .ok ce =
      ((h.act (tileNode i) 7).violation i 0x21 0 0).readPushed i line (List.replicate 256 0#8) 2 := by
  unfold Hw.slabLaneRead
  rw [if_neg (Hw.portTakes up), if_neg (Nat.not_le.2 room)]
  dsimp only [Hw.padCheck]
  rw [if_neg (by decide), if_neg (ne_true_of_eq_false ((Hw.lanePage_act h _ _ _ _).trans other))]
  rfl

/-! Slab writes (R469, R470). -/

theorem Hw.slabLaneWrite_of_excess {unit : Nat} (excess : 16 ≤ (h.port i).held.2.2) (en : BitVec 128) (data : BitVec 1024) (err : PadErr)
    (ce : Bool) : h.slabLaneWrite i unit en data err ce = h.violation i 0x22 0 0 := (if_neg (Hw.portTakes up)).trans (if_pos excess)

/-- The bytes of a unit, with the enabled ones taken from a write's data. -/
def unitMerged (en : BitVec 128) (data : BitVec 1024) (old : List Byte) : List Byte :=
  ((payloadBytes data).zip (old.zip (List.range 128))).map (fun x => if en.getLsbD x.2.2 then x.1 else x.2.1)

omit up in
theorem length_natLe (k v : Nat) : (natLe k v).length = k := by
  induction k generalizing v with
  | zero => rfl
  | succ k ih => rw [natLe, List.length_cons, ih]

omit up in
theorem length_unitMerged {old : List Byte} (whole : old.length = 128) (en : BitVec 128) (data : BitVec 1024) :
    (unitMerged en data old).length = 128 := by
  simp [unitMerged, payloadBytes, length_natLe, whole]

omit up in
theorem byteAt_unitMerged {old : List Byte} {k : Nat} (whole : old.length = 128) (inside : k < 128) (en : BitVec 128) (data : BitVec 1024) :
    byteAt (unitMerged en data old) k = if en.getLsbD k = true then (payloadBytes data).getD k 0#8 else byteAt old k := by
  have lenData : k < (payloadBytes data).length := by
    rw [payloadBytes, length_natLe]
    exact inside
  have lenOld : k < old.length := by omega
  have zipped : ((payloadBytes data).zip (old.zip (List.range 128)))[k]? = some ((payloadBytes data)[k], old[k], k) := by
    refine List.getElem?_zip_eq_some.2 ⟨List.getElem?_eq_getElem lenData, List.getElem?_zip_eq_some.2 ⟨List.getElem?_eq_getElem lenOld, ?_⟩⟩
    simp [inside]
  simp only [byteAt, unitMerged, List.getD_eq_getElem?_getD, List.getElem?_map, zipped, List.getElem?_eq_getElem lenData,
    List.getElem?_eq_getElem lenOld]
  rfl

section
variable {unit : Nat} {en : BitVec 128} {data : BitVec 1024} {ce : Bool} (room : (h.port i).held.2.2 < 16)
  (opened : h.gated (tileNode i) = false)
include room opened

theorem Hw.slabLaneWrite_open : h.slabLaneWrite i unit en data .ok ce =
    if h.lanePage i (unit / 512) then
      ((h.act (tileNode i) 7).laneCorrected i (unit / 512) ce).slabWrite (i * 0x400000 + unit * 128)
        (unitMerged en data (((h.act (tileNode i) 7).laneCorrected i (unit / 512) ce).slabRead (i * 0x400000 + unit * 128) 128))
    else (h.act (tileNode i) 7).violation i 0x21 0 0 := by
  unfold Hw.slabLaneWrite
  rw [if_neg (Hw.portTakes up), if_neg (Nat.not_le.2 room)]
  dsimp only [Hw.padCheck]
  rw [if_neg (by decide)]
  simp only [Hw.withhold_act opened, Hw.lanePage_act]
  rfl

theorem Hw.memByte_slabLaneWrite (mine : h.lanePage i (unit / 512) = true) (b : Nat) :
    memByte 0#8 (h.slabLaneWrite i unit en data .ok ce).mem.slab b =
      if i * 0x400000 + unit * 128 ≤ b ∧ b < i * 0x400000 + unit * 128 + 128 ∧ en.getLsbD (b - (i * 0x400000 + unit * 128)) = true then
        (payloadBytes data).getD (b - (i * 0x400000 + unit * 128)) 0#8
      else memByte 0#8 h.mem.slab b := by
  obtain ⟨a, start⟩ : ∃ a, i * 0x400000 + unit * 128 = a := ⟨_, rfl⟩
  have slab : ((h.act (tileNode i) 7).laneCorrected i (unit / 512) ce).mem.slab = h.mem.slab := by
    rw [Hw.mem_laneCorrected, Hw.mem_act]
  have whole : (memRead 0#8 h.mem.slab a 128).length = 128 := by simp [memRead]
  rw [Hw.slabLaneWrite_open up room opened, if_pos mine]
  rw [start]
  unfold Hw.slabWrite Hw.slabRead
  dsimp only
  rw [slab, memByte_memWrite, length_unitMerged whole]
  by_cases inside : a ≤ b ∧ b < a + 128
  · obtain ⟨low, high⟩ := inside
    have offset : b - a < 128 := by omega
    rw [if_pos ⟨low, high⟩, byteAt_unitMerged whole offset, byteAt_memRead offset, Nat.add_sub_cancel' low]
    exact ite_congr (by simp [low, high]) (fun _ => rfl) (fun _ => rfl)
  · rw [if_neg inside, if_neg (fun e => inside ⟨e.1, e.2.1⟩)]

theorem Hw.slabLaneWrite_of_notHeld (other : h.lanePage i (unit / 512) = false) :
    h.slabLaneWrite i unit en data .ok ce = (h.act (tileNode i) 7).violation i 0x21 0 0 := by
  rw [Hw.slabLaneWrite_open up room opened, if_neg (ne_true_of_eq_false other)]

end

/-! Flits on FI (R476 to R478, R502). -/

/-- The credits of FI that the tile has used. -/
def Hw.fiUsed (h : Hw) (i : Nat) : Nat := (h.port i).fiq.length + b2n (h.opWaits (fiOp i)) + (h.port i).held.1

section
variable {flow : Nat} {last poison : Bool} {data : BitVec 1024}

theorem Hw.fabricIn_of_excess (excess : 16 ≤ h.fiUsed i) (err : PadErr) :
    h.fabricIn i flow last poison data err = h.violation i 0x22 0 0 := (if_neg (Hw.portTakes up)).trans (if_pos excess)

variable (room : h.fiUsed i < 16) (opened : h.gated (tileNode i) = false)
include room opened

theorem Hw.fabricIn_of_drained (drained : h.portState i = psDrained) :
    h.fabricIn i flow last poison data .ok = h.violation i scDrained 0 0 := by
  unfold Hw.fiUsed at room
  unfold Hw.fabricIn
  rw [if_neg (Hw.portTakes up), if_neg (Nat.not_le.2 room)]
  dsimp only [Hw.padCheck]
  rw [if_neg (by decide), if_pos drained]
  exact Hw.withhold_of_ungated (Hw.gateSide_violation h _ _ _ _) opened _

variable (runs : h.portState i ≠ psDrained)
include runs

/-- A flit that is dropped at the port counts its cause and a violation. -/
def Hw.fiDropped (h : Hw) (i cause flow : Nat) : Hw :=
  ((h.act (tileNode i) 7).bDrop (tileNode i) cause flow).violation i scBadFlow 0 0

omit up room runs in
theorem Hw.withhold_fiDropped (cause : Nat) (f : Nat × Nat × Nat → Nat × Nat × Nat) :
    (h.fiDropped i cause flow).withhold i f = h.fiDropped i cause flow :=
  Hw.withhold_of_ungated ((Hw.gateSide_violation _ _ _ _ _).trans ((Hw.gateSide_modReg _ _ _ _ _).trans (Hw.gateSide_act h _ _))) opened f

theorem Hw.fabricIn_of_unnamed (unnamed : h.flowOf i flow = none) :
    h.fabricIn i flow last poison data .ok = h.fiDropped i 1 flow := by
  unfold Hw.fiUsed at room
  unfold Hw.fabricIn
  rw [if_neg (Hw.portTakes up), if_neg (Nat.not_le.2 room)]
  dsimp only [Hw.padCheck]
  rw [if_neg (by decide), if_neg runs, Hw.flowOf_act, unnamed]
  exact Hw.withhold_fiDropped opened 1 _

variable {f : Nat} (named : h.flowOf i flow = some f)
include named

theorem Hw.fabricIn_of_refused (refused : h.fiCause i f ≠ 0) :
    h.fabricIn i flow last poison data .ok = h.fiDropped i (h.fiCause i f) f := by
  unfold Hw.fiUsed at room
  unfold Hw.fabricIn
  rw [if_neg (Hw.portTakes up), if_neg (Nat.not_le.2 room)]
  dsimp only [Hw.padCheck]
  rw [if_neg (by decide), if_neg runs, Hw.flowOf_act, named]
  dsimp only
  rw [Hw.fiCause_act, if_pos refused]
  exact Hw.withhold_fiDropped opened (h.fiCause i f) _

omit opened in
theorem Hw.fabricIn_of_passed (passed : h.fiCause i f = 0) : h.fabricIn i flow last poison data .ok =
    ((h.act (tileNode i) 7).modPort i (fun p => { p with fiq := p.fiq ++ [mkFlit f last 0 data false poison] })).pumpFi i := by
  unfold Hw.fiUsed at room
  unfold Hw.fabricIn
  rw [if_neg (Hw.portTakes up), if_neg (Nat.not_le.2 room)]
  dsimp only [Hw.padCheck]
  rw [if_neg (by decide), if_neg runs, Hw.flowOf_act, named]
  dsimp only
  rw [Hw.fiCause_act, if_neg (not_not_intro passed)]

end

/-! Read data that returns, and credits (R464, R465, R471). -/

section
variable {ue : Bool} {r : SlabRet} {rest : List SlabRet} (first : (h.port i).reads = r :: rest) (opened : h.gated (tileNode i) = false)
include first opened

omit up in
theorem Hw.slabReturn_of_sound (sound : (ue && r.status == 0) = false) :
    h.slabReturn i ue = h.modPort i (fun p => { p with reads := rest, lastRd := some r }) := by
  unfold Hw.slabReturn
  rw [first]
  dsimp only
  rw [sound, if_neg Bool.false_ne_true, if_neg Bool.false_ne_true]
  exact Hw.withhold_of_ungated (Hw.gateSide_modPort h _ _) opened _

omit up in
theorem Hw.slabReturn_of_hurt (hurt : (ue && r.status == 0) = true) :
    h.slabReturn i ue = (h.slabUe (i * 64 + r.line / 256)).modPort i (fun p => { p with
      reads := rest, lastRd := some { r with data := List.replicate 256 0#8, status := 1 } }) := by
  unfold Hw.slabReturn
  rw [first]
  dsimp only
  rw [hurt, if_pos rfl, if_pos rfl]
  exact Hw.withhold_of_ungated ((Hw.gateSide_modPort _ _ _).trans (Hw.gateSide_slabUe h _)) opened _

end

omit up in
theorem Hw.modPort_at {f f' : TilePort → TilePort} (same : f (h.port i) = f' (h.port i)) : h.modPort i f = h.modPort i f' :=
  congrArg (h.setPort i) same

theorem Hw.tileCredit_of_within {co : Bool} {k : Nat} (within : (if co then (h.port i).co else (h.port i).fo) + k ≤ 64) :
    h.tileCredit i co k = h.modPort i (fun p => if co then { p with co := p.co + k } else { p with fo := p.fo + k }) := by
  unfold Hw.tileCredit
  rw [if_neg (Hw.portTakes up)]
  dsimp only
  rw [Nat.sub_eq_zero_of_le within, show Nat.min 64 _ = _ from Nat.min_eq_right within]
  refine Hw.modPort_at ?_
  cases co
  · rfl
  · rfl

/-! Words that no credit covers, and words that make no command (R463, R467). -/

/-- A command that loses a word counts its violation and is answered with BAD_ARG (R467). -/
def Hw.commandLost (h : Hw) (i code op tag : Nat) : Hw := (h.violation i code tag op).answerCounted i op tag scBadArg code

theorem Hw.laneOverrun_of_command (op tag : Nat) : h.laneOverrun i (some (op, tag)) = h.commandLost i 0x22 op tag := if_neg (Hw.portTakes up)

theorem Hw.laneOverrun_of_item : h.laneOverrun i none = h.violation i 0x22 0 0 := if_neg (Hw.portTakes up)

theorem Hw.malformedCmd_of_up (op tag : Nat) : h.malformedCmd i op tag = h.commandLost i 0x20 op tag := if_pos up

theorem Hw.malformedRun_of_up : h.malformedRun i = h.violation i 0x20 0 0 := if_pos up

end

end Sys2Proof.Machine

open Sys2Proof Sys2Proof.Machine

/-- Settles O41: accesses, flits and credits on the lanes of a port that is up. An item without a credit counts OVERRUN (0x22), an access of a page
that the tenant does not hold SLAB_NOT_LEASED (0x21), as R463 and Table 11.8 number them. -/
theorem tileLanes : Obligations.TileLanes := by
  unfold Obligations.TileLanes
  intro s i ce on up h n p a mine corrected credit
  refine ⟨?read, ?write, ?flit, ?back, ?credits, ?lost, ?items, ?run⟩
  case read =>
    intro line pg push
    have reads {err : PadErr} {g : Hw} (e : h.slabLaneRead i line.toNat err ce = g) : Completes (.slabRead i line err ce) s (fun g' => g' = g) :=
      (completes_slabRead i line err ce s _).2 ((Hw.clocked_on on).trans e)
    refine ⟨fun excess err => reads (Hw.slabLaneRead_of_excess up excess err ce), fun room => ⟨fun held => ?_, fun other => ?_⟩⟩
    · exact reads (Hw.slabLaneRead_of_held up room held)
    · exact reads (Hw.slabLaneRead_of_notHeld up room other)
  case write =>
    intro unit en data pg at'
    have writes {err : PadErr} {P : Hw → Prop} (e : P (h.slabLaneWrite i unit.toNat en data err ce)) :
        Completes (.slabWrite i unit en data err ce) s P := by
      rw [completes_slabWrite, Hw.clocked_on on]
      exact e
    refine ⟨fun excess err => writes (Hw.slabLaneWrite_of_excess up excess en data err ce), fun room opened => ⟨fun held => ?_, fun other => ?_⟩⟩
    · exact writes (fun b => Hw.memByte_slabLaneWrite up room opened held b)
    · exact writes (Hw.slabLaneWrite_of_notHeld up room opened other)
  case flit =>
    intro flow last poison data used
    have comes {err : PadErr} {g : Hw} (e : h.fabricIn i flow.toNat last poison data err = g) :
        Completes (.fabricInFlit i flow last poison data err) s (fun g' => g' = g) :=
      (completes_fabricInFlit i flow last poison data err s _).2 ((Hw.clocked_on on).trans e)
    refine ⟨fun excess err => comes (Hw.fabricIn_of_excess up excess err), fun room opened => ⟨fun drained => ?_, fun runs => ⟨fun unnamed => ?_,
      fun f named => ⟨fun refused => ?_, fun passed => ?_⟩⟩⟩⟩
    · exact comes (Hw.fabricIn_of_drained up room opened drained)
    · exact comes (Hw.fabricIn_of_unnamed up room opened runs unnamed)
    · exact comes (Hw.fabricIn_of_refused up room opened runs named refused)
    · exact comes (Hw.fabricIn_of_passed up room runs named passed)
  case back =>
    intro ue r rest first opened
    have returns {g : Hw} (e : h.slabReturn i ue = g) : Completes (.slabReadReturn i ue) s (fun g' => g' = g) :=
      (completes_slabReadReturn i ue s _).2 ((Hw.clocked_on on).trans e)
    refine ⟨fun sound => returns (Hw.slabReturn_of_sound first opened ?_), fun bad ok => returns (Hw.slabReturn_of_hurt first opened ?_)⟩
    · rcases sound with e | e <;> simp [e]
    · simp [bad, ok]
  case credits =>
    intro co k within
    exact (completes_tileCredit i co k s _).2 ((Hw.clocked_on on).trans (Hw.tileCredit_of_within up within))
  case lost =>
    intro op tag
    exact ⟨(completes_laneOverrun i .command _ s _).2 ((Hw.clocked_on on).trans (Hw.laneOverrun_of_command up op.toNat tag.toNat)),
      (completes_malformed i _ s _).2 ((Hw.clocked_on on).trans (Hw.malformedCmd_of_up up op.toNat tag.toNat))⟩
  case items =>
    intro l item
    refine (completes_laneOverrun i l none s _).2 ?_
    rw [if_neg item]
    exact (Hw.clocked_on on).trans (Hw.laneOverrun_of_item up)
  case run => exact (completes_malformed i none s _).2 ((Hw.clocked_on on).trans (Hw.malformedRun_of_up up))

end

section
/-! The patrol scrub, zeroing, mapped-out pairs and leases of slabs and HBM (R516, R521, R533, R546, R547, R549), and the obligation on them. -/

namespace Sys2Proof.Machine

/-! The patrol scrub (R521). -/

/-- The next line of the patrol; after the last one it starts again and counts a pass. -/
def patrolNext (line : Nat) (w : Word) : Word := if line = 16383 then bumpFld (setFld w 0 14 0) 16 16 1 else setFld w 0 14 (line + 1)

/-- The patrol has read its line of slab i. -/
def Hw.patrolRead (h : Hw) (i : Nat) : Hw :=
  h.modReg .slbScrub (tileNode i) 0 (patrolNext (fld (h.reg .slbScrub (tileNode i)) 0 14))

/-- The page in which the patrol reads. -/
def Hw.patrolPage (h : Hw) (i : Nat) : Nat := i * 64 + fld (h.reg .slbScrub (tileNode i)) 0 14 / 256

/-- The patrol of a slab reads in that slab. -/
theorem Hw.patrolPage_div (h : Hw) (i : Nat) : h.patrolPage i / 64 = i := by
  have line : fld (h.reg .slbScrub (tileNode i)) 0 14 < 2 ^ 14 := fld_lt _ _ _
  unfold Hw.patrolPage
  omega

theorem Hw.patrol_of_running {h : Hw} (run : h.dieState = stRun) (i ce : Nat) (ue : Bool) : h.patrol i ce ue =
    let g := (List.range ce).foldl (fun g _ => g.slabCe (h.patrolPage i)) (h.patrolRead i)
    if ue then g.patrolUe (tileNode i) (h.patrolPage i) else g := by
  have running : h.running = true := decide_eq_true run
  unfold Hw.patrol
  exact if_neg (by simp [running])

/-! Zeroing (R533, R546). -/

theorem Hw.pageZeroDone_of_zeroing {h : Hw} {p : Nat} (zeroing : h.mem.zeroing.contains p = true) : h.pageZeroDone p =
    { h with mem := { h.mem with zeroing := h.mem.zeroing.erase p, slab := memClear h.mem.slab (p * pageSize) pageSize } } := if_pos zeroing

theorem Hw.zeroNext_of_granule {h : Hw} {m u b : Nat} (next : h.nextGranule m = some (u, b)) (dirty : bit (h.reg .slbHzero u) b = true) :
    h.zeroNext m = { h with mem := { h.mem with hbm := memClear h.mem.hbm (u * unitSize + b * pageSize) pageSize } }.modReg .slbHzero u 0
      (setBit · b false) := by
  unfold Hw.zeroNext
  rw [next]
  exact if_pos dirty

/-! Leases and retired sites (R516, R547, R549). -/

section
variable {h : Hw} {p : Path} {addr u : Nat} {w : Word}

theorem Hw.leaseWrite_page (sound : h.pageRetired u = false) (valid : h.partValid (fld w 16 6) = true) :
    h.leaseWrite p addr ⟨.slbLease, u, 0⟩ w =
      if bit (h.reg .slbLease u) 15 && !bit w 15 then (h.setReg .slbLease u 0 w).freePage u else h.setReg .slbLease u 0 w :=
  (if_neg (by simp [sound, valid])).trans (if_pos rfl)

theorem Hw.leaseWrite_unit (sound : h.unitRetired u = false) (valid : h.partValid (fld w 16 6) = true) :
    h.leaseWrite p addr ⟨.slbHlease, u, 0⟩ w =
      if bit w 15 then (h.setReg .slbHlease u 0 w).setReg .slbHzero u 0 0xFFFFFFFF#32 else h.setReg .slbHlease u 0 w :=
  (if_neg (by simp [sound, valid])).trans (if_neg (by simp))

theorem Hw.tpRegWrite_tpCfg {n : Nat} (drains : fld w 8 5 ≠ 0) (windows : fld w 16 4 ≠ 0) :
    h.tpRegWrite p addr ⟨.tpCfg, n, 0⟩ w = h.setReg .tpCfg n 0 (setBit w 31 (bit w 31 || bit (h.reg .tpCfg n) 31)) :=
  if_neg (by simp [drains, windows])

end

theorem Hw.regWrite_slbLease (h : Hw) (p : Path) (addr u : Nat) (v : Word) (dev : NvmDevice) : h.regWrite p addr 0 ⟨.slbLease, u, 0⟩ v dev =
    h.leaseWrite p addr ⟨.slbLease, u, 0⟩ (merge (RegId.desc .slbLease).wmask (h.reg .slbLease u) v) := rfl

theorem Hw.regWrite_slbHlease (h : Hw) (p : Path) (addr u : Nat) (v : Word) (dev : NvmDevice) : h.regWrite p addr 0 ⟨.slbHlease, u, 0⟩ v dev =
    h.leaseWrite p addr ⟨.slbHlease, u, 0⟩ (merge (RegId.desc .slbHlease).wmask (h.reg .slbHlease u) v) := rfl

theorem Hw.regWrite_tpCfg (h : Hw) (p : Path) (addr n : Nat) (v : Word) (dev : NvmDevice) : h.regWrite p addr 0 ⟨.tpCfg, n, 0⟩ v dev =
    h.tpRegWrite p addr ⟨.tpCfg, n, 0⟩ (merge (RegId.desc .tpCfg).wmask (h.reg .tpCfg n) v) := rfl

/-- A write of TP_CFG writes the retire bit. -/
theorem retire_merge_tpCfg (old v : Word) : bit (merge (RegId.desc .tpCfg).wmask old (setBit v 31 true)) 31 = true := by
  have inMask : (RegId.desc .tpCfg).wmask.getLsbD 31 = true := by decide
  have set : (setBit v 31 true).getLsbD 31 = true := bit_setBit_same v 31 true (by decide)
  unfold merge bit
  simp only [BitVec.getLsbD_or, BitVec.getLsbD_and, BitVec.getLsbD_not, inMask, set]
  simp

end Sys2Proof.Machine

open Sys2Proof Sys2Proof.Machine

/-- Settles O43: the patrol, zeroing, a pair that fails, lease writes and retired sites. -/
theorem slabsAndHbm : Obligations.SlabsAndHbm := by
  unfold Obligations.SlabsAndHbm
  intro s
  refine ⟨fun run i => ?patrol, fun on => ⟨fun q zeroing => ?page, fun m u b next dirty => ?granule⟩, fun run q usable => ?pair,
    fun p u v => ?lease, fun p i v => ?site⟩
  case patrol =>
    intro n line next
    have patrols {ce : BitVec 5} {ue : Bool} {g : Hw} (e : s.hw.patrol i ce.toNat ue = g) :
        Completes (.patrolScrub i ce ue) s (fun g' => g' = g) :=
      (completes_patrolScrub i ce ue s _).2 ((Hw.clocked_on (by rw [run]; decide)).trans e)
    refine ⟨patrols (Hw.patrol_of_running run i _ _), patrols ?_, patrols (Hw.patrol_of_running run i _ _)⟩
    have counted (h : Hw) : h.slabCe (s.hw.patrolPage i) = (h.modReg .slbEccEvt n 0 (bumpFld · 0 16 1)).logF2 := by
      unfold Hw.slabCe
      rw [Hw.patrolPage_div]
    exact (Hw.patrol_of_running run i _ _).trans (counted _)
  case page =>
    refine (completes_pageZeroDone q s _).2 ?_
    rw [Hw.clocked_on on, Hw.pageZeroDone_of_zeroing zeroing]
    exact ⟨fun a => memByte_memClear _ _ _ _ a, rfl⟩
  case granule =>
    refine (completes_granuleZero m s _).2 ?_
    rw [Hw.clocked_on on, Hw.zeroNext_of_granule next dirty]
    refine ⟨fun a => memByte_memClear _ _ _ _ a, ?_⟩
    rw [Hw.reg_modReg, if_pos ⟨rfl, rfl, rfl⟩, Hw.reg_set_mem]
  case pair =>
    have running : s.hw.running = true := decide_eq_true run
    refine (completes_hbmPairFail q s _).2 ((Hw.clocked_on (by rw [run]; decide)).trans ?_)
    exact (if_pos running).trans (if_pos usable)
  case lease =>
    intro h
    refine ⟨?_, ?_⟩
    · intro id w opened sound valid
      have writes {g : Hw} (e : (if bit (h.reg .slbLease u.toNat) 15 && !bit w 15 then (h.setReg .slbLease u.toNat 0 w).freePage u.toNat
          else h.setReg .slbLease u.toNat 0 w) = g) : Completes (.leaseWrite p false u v) s (fun g' => g' = g) := by
        refine (completes_leaseWrite p false u v s _).2 ((Hw.writeAt_open opened v).trans ?_)
        exact (Hw.regWrite_slbLease h p _ _ _ _).trans ((Hw.leaseWrite_page sound valid).trans e)
      refine ⟨fun kept => writes (if_neg ?_), fun clears held => writes (if_pos ?_)⟩
      · rcases kept with e | e
        · simp [e]
        · rw [e]; simp
      · rw [held, clears]
        rfl
    · intro id w opened sound valid
      refine (completes_leaseWrite p true u v s _).2 ((Hw.writeAt_open opened v).trans ?_)
      exact (Hw.regWrite_slbHlease h p _ _ _ _).trans (Hw.leaseWrite_unit sound valid)
  case site =>
    intro h n w opened drains windows
    refine (completes_siteRetire p i v s _).2 ?_
    rw [Hw.writeAt_open opened, Hw.regWrite_tpCfg, Hw.tpRegWrite_tpCfg drains windows]
    refine ⟨rfl, ?_⟩
    rw [Hw.reg_setReg, if_pos ⟨rfl, rfl, rfl⟩, bit_setBit_same _ _ _ (by decide), retire_merge_tpCfg]
    rfl

end

section
/-! Power requests and grants, and droop gates (R498, R507 to R509, R752, R761, R762, R764 to R767, R864), and the obligation on them. -/

namespace Sys2Proof.Machine

/-! The movers of a tile leave the gates, the bar and every port's held credits as they are. -/

/-- The power arbiter, the bar, and the credits that each port holds back. -/
def Hw.heldSide (h : Hw) : PowerState × BarState × (Nat → Nat × Nat × Nat) := (h.power, h.bar, fun i => (h.port i).held)

theorem Hw.heldSide_setReg (h : Hw) (id : RegId) (i j : Nat) (v : Word) : (h.setReg id i j v).heldSide = h.heldSide := rfl

theorem Hw.heldSide_modReg (h : Hw) (id : RegId) (i j : Nat) (f : Word → Word) : (h.modReg id i j f).heldSide = h.heldSide := rfl

theorem Hw.heldSide_add64 (h : Hw) (lo hi : RegId) (i j d : Nat) : (h.add64 lo hi i j d).heldSide = h.heldSide := rfl

theorem Hw.heldSide_set_busy (h : Hw) (x : List (Nat × Nat)) : ({ h with busy := x } : Hw).heldSide = h.heldSide := rfl

theorem Hw.heldSide_set_bnet (h : Hw) (x : BnetState) : ({ h with bnet := x } : Hw).heldSide = h.heldSide := rfl

theorem Hw.heldSide_set_mem (h : Hw) (x : MemState) : ({ h with mem := x } : Hw).heldSide = h.heldSide := rfl

theorem Hw.heldSide_set_opId (h : Hw) (x : Nat) : ({ h with opId := x } : Hw).heldSide = h.heldSide := rfl

theorem Hw.heldSide_raiseF1 (h : Hw) (t gen cause node detail : Nat) : (h.raiseF1 t gen cause node detail).heldSide = h.heldSide := rfl

theorem Hw.heldSide_modPort {f : TilePort → TilePort} (same : ∀ p, (f p).held = p.held) (h : Hw) (i : Nat) :
    (h.modPort i f).heldSide = h.heldSide := by
  refine Prod.ext rfl (Prod.ext rfl (funext fun k => ?_))
  change ((h.modPort i f).port k).held = (h.port k).held
  rw [Hw.port_modPort]
  split
  · next own => rw [same, own]
  · rfl

theorem Hw.heldSide_act (h : Hw) (n e : Nat) : (h.act n e).heldSide = h.heldSide := by
  unfold Hw.act
  refine (Hw.heldSide_set_busy _ _).trans (Hw.foldl_same Hw.heldSide _ _ (fun g w => ?_) h)
  exact Hw.heldSide_setReg g _ _ _ _

theorem Hw.heldSide_inject (h : Hw) (n : Nat) (owner : Option Nat) (f : Flit) : (h.inject n owner f).heldSide = h.heldSide := by
  have dropped (cause : Nat) : (h.bDrop n cause f.flow).heldSide = h.heldSide := Hw.heldSide_modReg h _ _ _ _
  unfold Hw.inject
  split
  · exact dropped 1
  · exact Hw.keeps_ite (dropped 1) (Hw.keeps_ite (dropped 2) (Hw.heldSide_set_bnet h _))

theorem Hw.heldSide_binBytes (h : Hw) (i tag k : Nat) : (h.binBytes i tag k).heldSide = h.heldSide := by
  unfold Hw.binBytes
  split
  · refine Hw.keeps_ite ?_ rfl
    exact (Hw.heldSide_add64 _ _ _ _ _ _).trans ((Hw.heldSide_add64 _ _ _ _ _ _).trans
      ((Hw.heldSide_modReg _ _ _ _ _).trans (Hw.heldSide_setReg h _ _ _ _)))
  · rfl

theorem Hw.heldSide_memStart (h : Hw) (i op addr : Nat) (write : Bool) (bs : List Byte) (len : Nat) :
    (h.memStart i op addr write bs len).heldSide = h.heldSide := by
  unfold Hw.memStart
  dsimp only
  split
  · exact (Hw.heldSide_inject _ _ _ _).trans ((Hw.heldSide_set_mem _ _).trans (Hw.heldSide_set_opId h _))
  · exact (Hw.heldSide_set_mem _ _).trans (Hw.heldSide_set_opId h _)

theorem Hw.heldSide_slabUe (h : Hw) (p : Nat) : (h.slabUe p).heldSide = h.heldSide := by
  unfold Hw.slabUe
  exact Hw.keeps_ite ((Hw.heldSide_raiseF1 _ _ _ _ _ _).trans (Hw.heldSide_modReg h _ _ _ _)) (Hw.heldSide_modReg h _ _ _ _)

theorem Hw.heldSide_sendUnit (h : Hw) (i : Nat) (s : SendOp) (bs : Option (List Byte)) (poison : Bool) :
    (h.sendUnit i s bs poison).heldSide = h.heldSide := by
  unfold Hw.sendUnit
  dsimp only
  rw [Hw.heldSide_binBytes, Hw.heldSide_act]
  refine (Hw.heldSide_modPort (by intro p; rfl) _ i).trans ((Hw.heldSide_inject _ _ _ _).trans ?_)
  exact Hw.keeps_ite (Hw.heldSide_slabUe h _) rfl

theorem Hw.heldSide_pumpFlow (h : Hw) (i flow : Nat) : (h.pumpFlow i flow).heldSide = h.heldSide := by
  unfold Hw.pumpFlow
  split
  · rfl
  · refine Hw.keeps_ite rfl (Hw.keeps_ite (Hw.heldSide_sendUnit h _ _ _ _) (Hw.keeps_ite ?_ (Hw.heldSide_sendUnit h _ _ _ _)))
    exact (Hw.heldSide_memStart _ _ _ _ _ _ _).trans (Hw.heldSide_modPort (by intro p; rfl) h _)

theorem Hw.heldSide_pump (h : Hw) (i : Nat) : (h.pump i).heldSide = h.heldSide := by
  unfold Hw.pump
  refine Hw.foldl_same Hw.heldSide _ _ (fun g f => ?_) h
  exact Hw.heldSide_pumpFlow g i f

theorem Hw.heldSide_pumpFi (h : Hw) (i : Nat) : (h.pumpFi i).heldSide = h.heldSide := by
  unfold Hw.pumpFi
  refine Hw.keeps_ite rfl ?_
  split
  · rfl
  · exact (Hw.heldSide_inject _ _ _ _).trans (Hw.heldSide_modPort (by intro p; rfl) h _)

theorem Hw.heldSide_moverSlabWrite (h : Hw) (i a : Nat) (bs : List Byte) : (h.moverSlabWrite i a bs).1.heldSide = h.heldSide := by
  unfold Hw.moverSlabWrite
  dsimp only
  split
  · split
    · exact Hw.heldSide_set_mem h _
    · rfl
  · rfl

theorem Hw.heldSide_moveUnit (h : Hw) (i : Nat) (m : MoveOp) : (h.moveUnit i m).heldSide = h.heldSide := by
  have worked : ((h.act (tileNode i) 6).binBytes i m.tag 128).heldSide = h.heldSide :=
    (Hw.heldSide_binBytes _ _ _ _).trans (Hw.heldSide_act h _ _)
  unfold Hw.moveUnit
  dsimp only
  refine Hw.keeps_ite ?_ (Hw.keeps_ite ?_ ?_)
  · exact (Hw.heldSide_memStart _ _ _ _ _ _ _).trans ((Hw.heldSide_modPort (by intro p; rfl) _ _).trans worked)
  · exact (Hw.heldSide_memStart _ _ _ _ _ _ _).trans ((Hw.heldSide_modPort (by intro p; rfl) _ _).trans worked)
  · exact (Hw.heldSide_modPort (by intro p; rfl) _ _).trans ((Hw.heldSide_moverSlabWrite _ _ _ _).trans worked)

theorem Hw.heldSide_moveRun (i id k : Nat) (h : Hw) : (h.moveRun i id k).heldSide = h.heldSide := by
  induction k generalizing h with
  | zero => rfl
  | succ k ih =>
    unfold Hw.moveRun
    split
    · exact Hw.keeps_ite rfl ((ih _).trans (Hw.heldSide_moveUnit h i _))
    · rfl

theorem Hw.heldSide_pumpTail (h : Hw) (i id : Nat) : (h.pumpTail i id).heldSide = h.heldSide := by
  unfold Hw.pumpTail
  split
  · rfl
  · exact Hw.keeps_ite ((Hw.heldSide_memStart _ _ _ _ _ _ _).trans (Hw.heldSide_modPort (by intro p; rfl) h _)) rfl

theorem Hw.heldSide_resumeTile (h : Hw) (i : Nat) : (h.resumeTile i).heldSide = h.heldSide := by
  unfold Hw.resumeTile
  dsimp only
  refine (Hw.foldl_same Hw.heldSide _ _ (fun g c => ?tails) _).trans ((Hw.foldl_same Hw.heldSide _ _ (fun g m => ?moves) _).trans ?_)
  case tails => exact Hw.heldSide_pumpTail g i _
  case moves => exact Hw.heldSide_moveRun i _ _ g
  exact (Hw.heldSide_pumpFi _ i).trans (Hw.heldSide_pump h i)

/-! The end of a gate (R765 to R767). -/

/-- Tile i, if it is not gated, gets its credits back and goes on. -/
def Hw.ungateTile (h : Hw) (i : Nat) : Hw :=
  if h.gated (tileNode i) then h else (h.modPort i (fun p => { p with held := (0, 0, 0) })).resumeTile i

theorem Hw.gateSide_of_heldSide {g h : Hw} (e : g.heldSide = h.heldSide) : g.gateSide = h.gateSide :=
  Prod.ext (congrArg (·.1) e :) (congrArg (·.2.1) e :)

theorem Hw.held_of_heldSide {g h : Hw} (e : g.heldSide = h.heldSide) (k : Nat) : (g.port k).held = (h.port k).held :=
  congrFun (congrArg (·.2.2) e :) k

theorem Hw.gateSide_ungateTile (h : Hw) (i : Nat) : (h.ungateTile i).gateSide = h.gateSide := by
  unfold Hw.ungateTile
  exact Hw.keeps_ite rfl ((Hw.gateSide_of_heldSide (Hw.heldSide_resumeTile _ i)).trans (Hw.gateSide_modPort h i _))

theorem Hw.gateSide_ungateTiles (l : List Nat) (h : Hw) : (l.foldl Hw.ungateTile h).gateSide = h.gateSide :=
  Hw.foldl_same Hw.gateSide l Hw.ungateTile Hw.gateSide_ungateTile h

theorem Hw.held_ungateTile {h : Hw} {i : Nat} (opened : h.gated (tileNode i) = false) : ((h.ungateTile i).port i).held = (0, 0, 0) := by
  unfold Hw.ungateTile
  rw [if_neg (ne_true_of_eq_false opened), Hw.held_of_heldSide (Hw.heldSide_resumeTile _ i), Hw.port_modPort, if_pos rfl]

/-- Credits that have been given back stay so. -/
theorem Hw.held_ungateTile_of_none {h : Hw} {k : Nat} (none : (h.port k).held = (0, 0, 0)) (i : Nat) :
    ((h.ungateTile i).port k).held = (0, 0, 0) := by
  unfold Hw.ungateTile
  split
  · exact none
  · rw [Hw.held_of_heldSide (Hw.heldSide_resumeTile _ i), Hw.port_modPort]
    split
    · rfl
    · exact none

theorem Hw.held_ungateTiles_of_none {k : Nat} (l : List Nat) {h : Hw} (none : (h.port k).held = (0, 0, 0)) :
    ((l.foldl Hw.ungateTile h).port k).held = (0, 0, 0) := by
  induction l generalizing h with
  | nil => exact none
  | cons i l ih => exact ih (Hw.held_ungateTile_of_none none i)

theorem Hw.held_ungateTiles {k : Nat} {l : List Nat} (inside : k ∈ l) {h : Hw} (opened : h.gated (tileNode k) = false) :
    ((l.foldl Hw.ungateTile h).port k).held = (0, 0, 0) := by
  induction l generalizing h with
  | nil => exact absurd inside List.not_mem_nil
  | cons i l ih =>
    rcases List.mem_cons.1 inside with rfl | later
    · exact Hw.held_ungateTiles_of_none l (Hw.held_ungateTile opened)
    · exact ih later ((Hw.gated_congr (Hw.gateSide_ungateTile h i) _).trans opened)

/-- h without the gates whose bars are over. -/
def Hw.gatesLeft (h : Hw) : Hw := { h with power := { h.power with gates := h.power.gates.filter (fun g => decide (h.stamp.1 < g.2)) } }

theorem Hw.droopEnd_eq (h : Hw) : h.droopEnd = (List.range 64).foldl Hw.ungateTile h.gatesLeft := rfl

theorem Hw.gates_of_gateSide {g h : Hw} (e : g.gateSide = h.gateSide) : g.power.gates = h.power.gates := (congrArg (·.1.gates) e :)

theorem Hw.gates_droopEnd (h : Hw) : h.droopEnd.power.gates = h.power.gates.filter (fun g => decide (h.stamp.1 < g.2)) := by
  rw [Hw.droopEnd_eq, Hw.gates_of_gateSide (Hw.gateSide_ungateTiles _ _)]
  rfl

theorem nodeRow_tileNode {i : Nat} : nodeRow (tileNode i) = i / 8 := by
  unfold nodeRow tileNode nodeOf
  rw [if_pos rfl]
  omega

/-- A tile whose row no gate that is left reaches is not gated. -/
theorem Hw.gated_gatesLeft {h : Hw} {i : Nat} (free : ∀ e ∈ h.power.gates, h.stamp.1 < e.2 → 8 ≤ e.1 ∧ e.1 - 8 ≠ i / 8) :
    h.gatesLeft.gated (tileNode i) = false := by
  have none : h.gatesLeft.power.gates.any (fun g => decide (h.gatesLeft.stamp.1 < g.2) &&
      (decide (g.1 < 8) || g.1 - 8 == nodeRow (tileNode i))) = false := by
    rw [List.any_eq_false]
    intro g inside
    obtain ⟨known, lasts⟩ := List.mem_filter.1 inside
    obtain ⟨high, other⟩ := free g known (of_decide_eq_true lasts)
    rw [nodeRow_tileNode]
    simp [other, Nat.not_lt.2 high]
  unfold Hw.gated
  rw [none, Bool.and_false]

/-! Requests and grants (R498, R507 to R509, R752, R761, R762). -/

section
variable {h : Hw} {i : Nat}

theorem Hw.powerRequest_of_up (up : h.portUp i = true) (demand draw : Nat) (early : Bool) : h.powerRequest i demand draw early =
    let kept := h.modPort i (fun p => { p with demand := some demand, draw := draw })
    if early then kept.violation i 0x24 0 0 else kept := if_neg (Hw.portTakes up)

/-- A draw above the port's grant is counted, with its tile if it is the first (R508). -/
def Hw.drawCounted (h : Hw) (i : Nat) : Hw :=
  h.modReg .pwaGrantEvt 0 0 (fun w => bumpFld (if fld w 16 8 = 0 then setFld w 8 6 i else w) 16 8 1)

theorem Hw.powerReport_of_up (up : h.portUp i = true) (demand draw : Nat) (early : Bool) : h.powerReport i demand draw early =
    if (h.port i).grant < draw then (h.powerRequest i demand draw early).drawCounted i else h.powerRequest i demand draw early := by
  unfold Hw.powerReport
  rw [up]
  simp only [Bool.true_and, decide_eq_true_eq]
  rfl

theorem Hw.grantAck_of_none (up : h.portUp i = true) (none : (h.port i).grantOut = none) : h.grantAck i = h.violation i 0x24 0 0 := by
  unfold Hw.grantAck
  rw [if_neg (Hw.portTakes up), none]

/-- Grant v is in force, the one held back is sent, and waiting increases go that fit (R509, R761, R762). -/
def Hw.grantTaken (h : Hw) (i v : Nat) : Hw :=
  ((h.modPort i (fun p => { p with
    grant := v, grantOut := p.grantNext, grantNext := none, grantAt := h.now, grantLate := false })).showPending i).sendIncreases

/-- The acknowledgement comes too late, for the first time. -/
def Hw.ackOverdue (h : Hw) (i : Nat) : Bool := decide ((h.port i).grantAt + 4096 < h.now) && !(h.port i).grantLate

theorem Hw.grantAck_of_sent {v : Nat} (up : h.portUp i = true) (sent : (h.port i).grantOut = some v) :
    h.grantAck i = (if h.ackOverdue i then h.violation i 0x26 0 0 else h).grantTaken i v := by
  unfold Hw.grantAck
  rw [if_neg (Hw.portTakes up), sent]
  rfl

theorem Hw.grantLate_of_overdue (sent : (h.port i).grantOut ≠ none) (first : (h.port i).grantLate = false)
    (overdue : (h.port i).grantAt + 4096 < h.now) :
    h.grantLate i = (h.violation i 0x26 0 0).modPort i (fun p => { p with grantLate := true }) :=
  if_pos (by simp [Option.isSome_iff_ne_none, sent, first, overdue])

end

/-- A partition that starts has its floor shared among its tiles; a tile whose port is not up waits for it. -/
def Hw.floorShared (h : Hw) (t : Nat) : Hw :=
  let ts := h.grantedTiles t
  let v := grantRound (Nat.min (sget (h.floors h.pool) t 0 / ts.length) (h.tmax t))
  ts.foldl (fun h i => h.sendGrant i v) { h with power := { h.power with
    starts := h.power.starts.filter (· != t)
    want := h.power.want.filter (fun w => !ts.contains w.1) ++ (ts.filter (fun i => !h.portUp i)).map (fun i => (i, v)) } }

theorem Hw.startGrant_of_due {h : Hw} {t : Nat} (starts : h.power.starts.contains t = true) (phase : h.bar.phase = 0) (rest : h.bar.rest = 0) :
    h.startGrant t = h.floorShared t := if_pos (by rw [starts, phase, rest]; rfl)

end Sys2Proof.Machine

open Sys2Proof Sys2Proof.Machine

/-- Settles O46: requests, grants and droop gates. At a gate's end the movers of the tiles go on; the statement's clause on it speaks of the
gates and of the credits held back. -/
theorem grantsAndDroops : Obligations.GrantsAndDroops := by
  unfold Obligations.GrantsAndDroops
  refine ⟨fun s i on => ?_, fun s => ⟨fun k run enabled => ?_, fun on => ?_, fun level => ?_⟩⟩
  · intro h p
    have acks {g : Hw} (e : h.grantAck i = g) : Completes (.powerGrantAck i) s (fun g' => g' = g) :=
      (completes_powerGrantAck i s _).2 ((Hw.clocked_on on).trans e)
    refine ⟨fun up demand draw => ?_, fun up none => acks (Hw.grantAck_of_none up none), fun v up sent => ?_, fun sent first overdue => ?_,
      fun t starts phase rest => ?_⟩
    · intro a early b
      have reports {g : Hw} (e : (if p.grant < draw.toNat then b.drawCounted i else b) = g) :
          Completes (.powerRequest i demand draw early) s (fun g' => g' = g) := by
        refine (completes_powerRequest i demand draw early s _).2 ((Hw.clocked_on on).trans ?_)
        rw [Hw.powerReport_of_up up, Hw.powerRequest_of_up up]
        exact e
      exact ⟨fun within => reports (if_neg (Nat.not_lt.2 within)), fun above => reports (if_pos above)⟩
    · intro take
      have taken {b : Bool} (timed : h.ackOverdue i = b) : Completes (.powerGrantAck i) s (fun g =>
          g = (if b then h.violation i 0x26 0 0 else h).grantTaken i v) := acks ((Hw.grantAck_of_sent up sent).trans (by rw [timed]))
      refine ⟨fun inTime => taken (b := false) ?_, fun overdue first => ?_⟩
      · unfold Hw.ackOverdue
        rcases inTime with early | again
        · rw [decide_eq_false (Nat.not_lt.2 early), Bool.false_and]
        · rw [show (h.port i).grantLate = true from again, Bool.not_true, Bool.and_false]
      · refine acks ((Hw.grantAck_of_sent up sent).trans ?_)
        rw [if_pos (show h.ackOverdue i = true by
          unfold Hw.ackOverdue
          rw [decide_eq_true overdue, show (h.port i).grantLate = false from first]
          rfl)]
        rfl
    · exact (completes_grantAckLate i s _).2 ((Hw.clocked_on on).trans (Hw.grantLate_of_overdue sent first overdue))
    · exact (completes_startGrant t s _).2 ((Hw.clocked_on on).trans (Hw.startGrant_of_due starts phase rest))
  · have running : s.hw.running = true := decide_eq_true run
    refine (completes_droopTrip k s _).2 ((Hw.clocked_on (by rw [run]; decide)).trans ?_)
    exact if_pos (by rw [running, enabled]; rfl)
  · refine (completes_droopGateEnd s _).2 ?_
    rw [Hw.clocked_on on]
    refine ⟨Hw.gates_droopEnd s.hw, fun i free => ?_⟩
    rw [Hw.droopEnd_eq]
    exact Hw.held_ungateTiles (List.mem_range.2 i.isLt) (Hw.gated_gatesLeft free)
  · exact (completes_thermNChange level s _).2 rfl

end

section
/-! A torus port trains from CAL to ACTIVE (R579 to R584, R635), and the obligation on it. -/

namespace Sys2Proof.Machine

section
variable {h : Hw} {p : Nat} {u : BitVec 64}

theorem Hw.calDone_of_cal (cal : h.phyState p = phCal) : h.calDone p = h.phySbAcq p := if_pos cal

/-- A training unit with a good check is taken while the port exchanges them (R580). -/
theorem Hw.trainUnit_of_good (good : crc8 u = fld u 56 8) (exchanges : h.phyState p = phSbAcq ∨ h.phyState p = phDataEq ∨ h.phyState p = phSelect) :
    h.trainUnit p u =
      (h.setReg .phyPeerFuse (commonIx p) 0 (BitVec.ofNat 32 (fld u 24 18))).modPhy p (fun q => { q with peer := some u }) := by
  have taken : [phSbAcq, phDataEq, phSelect].contains (h.phyState p) = true := by simpa using exchanges
  have checked : crc8Ok u = true := beq_iff_eq.2 good
  exact if_pos (by rw [checked, taken]; rfl)

/-! The lanes are trained (R581, R582). -/

/-- The measurements of some lanes train them. -/
def Hw.lanesTrained (h : Hw) (p : Nat) (ms : List LaneMeas) : Hw := ms.foldl (fun h m => h.laneTrained p m) h

/-- The measurements of the sideband lanes. -/
def sidebandMeas (ms : List LaneMeas) : List LaneMeas := ms.filter (fun m => 16 ≤ m.lane.val)

/-- The measurements of the lanes that may carry data. -/
def dataMeas (ms : List LaneMeas) : List LaneMeas := ms.filter (fun m => m.lane.val ≠ 16)

/-- Both sides are seen on the sideband lanes: the port goes on to its data lanes, with the sideband lane that the peer asks for. -/
def Hw.sidebandAcquired (h : Hw) (p : Nat) (u : BitVec 64) (ms : List LaneMeas) : Hw :=
  let a := h.lanesTrained p (sidebandMeas ms)
  let ok := a.laneSetOk p [16, 17] (sidebandMeas ms)
  let b := a.modPhy p (fun q => { q with rxOk := ok, spareNrz := ok.testBit 17, txSb := if fld u 22 1 = 1 then 16 else 17 })
  ((b.setPhyState p phDataEq).lane17Mode p false).lanesTo p ((List.range 16) ++ [17]) laTrain true

theorem Hw.sbAcqDone_of_seen (peer : (h.phyOf p).peer = some u) (acquires : h.phyState p = phSbAcq) (seen : bit u 4 = true) (ms : List LaneMeas) :
    h.sbAcqDone p ms = h.sidebandAcquired p u ms := by
  unfold Hw.sbAcqDone
  rw [peer]
  exact if_neg (by simp [acquires, seen])

/-- The data lanes are trained, and the port goes on to SELECT. -/
def Hw.dataEqualised (h : Hw) (p : Nat) (ms : List LaneMeas) : Hw :=
  let a := h.lanesTrained p (dataMeas ms)
  let ok := a.laneSetOk p ((List.range 16) ++ [17]) (dataMeas ms)
  (a.modPhy p (fun q => { q with rxOk := ok + (if q.rxOk.testBit 16 then 2 ^ 16 else 0) })).setPhyState p phSelect

theorem Hw.dataEqDone_of_dataEq (equalises : h.phyState p = phDataEq) (ms : List LaneMeas) : h.dataEqDone p ms = h.dataEqualised p ms :=
  if_neg (not_not_intro equalises)

/-! Both ends choose the lanes (R583). -/

/-- The lanes that fuses put out at either end. -/
def Hw.fusesOf (h : Hw) (p : Nat) (u : BitVec 64) : Nat := Nat.lor (h.fusedLanes p) (fld u 24 18)

/-- The lane set of the transmit direction: what the peer receives well. -/
def Hw.txSet (h : Hw) (p : Nat) (u : BitVec 64) : Option (Nat × Nat × Nat) :=
  laneSet (fld u 6 18) (bit u 42) (Nat.lor (h.fusesOf p u) (h.txIsol p)) (h.minLanes p)

/-- The lane set of the receive direction: what this end receives well. -/
def Hw.rxSet (h : Hw) (p : Nat) (u : BitVec 64) : Option (Nat × Nat × Nat) :=
  laneSet (h.phyOf p).rxOk (h.phyOf p).spareNrz (Nat.lor (h.fusesOf p u) (h.rxIsol p)) (h.minLanes p)

section
variable (peer : (h.phyOf p).peer = some u) (here : h.phyState p = phSelect) (there : fld u 0 4 = phSelect)
include peer here there

theorem Hw.laneSelect_of_sets {t r : Nat × Nat × Nat} (tx : h.txSet p u = some t) (rx : h.rxSet p u = some r) : h.laneSelect p =
    ((h.setLanes p true t.1).setLanes p false r.1).modPhy p (fun q => { q with
      txSb := t.2.1, txSpare := t.2.2, rxSb := r.2.1, rxSpare := r.2.2 }) := by
  unfold Hw.txSet Hw.fusesOf at tx
  unfold Hw.rxSet Hw.fusesOf at rx
  unfold Hw.laneSelect
  rw [peer]
  dsimp only
  rw [if_neg (by simp [here, there]), tx, rx]

theorem Hw.laneSelect_of_tooFew (tooFew : h.txSet p u = none ∨ h.rxSet p u = none) : h.laneSelect p =
    ((h.phyStop p phWait).phyEvt p 0).modPhy p (fun q => { q with began := h.now }) := by
  unfold Hw.txSet Hw.rxSet Hw.fusesOf at tooFew
  unfold Hw.laneSelect
  rw [peer]
  dsimp only
  rw [if_neg (by simp [here, there])]
  split
  · next t r tx rx =>
    rcases tooFew with none_ | none_
    · exact absurd (none_.symm.trans tx) (by simp)
    · exact absurd (none_.symm.trans rx) (by simp)
  · rfl

end

/-- Both ends ready, the port is ACTIVE and its link sends its identity; without a sideband lane it says so (R584, R635). -/
theorem Hw.portActive_of_ready (ready : h.phyReady p = true) : h.portActive p =
    if (((h.phyActivate p).linkIdent p).phyOf p).txSb = 31 then ((h.phyActivate p).linkIdent p).linkEvt p 5
    else (h.phyActivate p).linkIdent p := if_pos ready

theorem Hw.phyReady_of_both (here : h.phyState p = phSelect) (lanes : h.txLanes p ≠ 0) (peer : (h.phyOf p).peer = some u)
    (there : fld u 0 4 = phSelect) (seen : bit u 4 = true) : h.phyReady p = true := by
  unfold Hw.phyReady
  simp [here, lanes, peer, there, seen]

theorem Hw.waitExpiry_of_wait (waits : h.phyState p = phWait) : h.waitExpiry p = h.phyTrain p true := if_pos waits

end

end Sys2Proof.Machine

open Sys2Proof Sys2Proof.Machine

/-- Settles O47: a port's training, state by state. -/
theorem portsTrain : Obligations.PortsTrain := by
  unfold Obligations.PortsTrain
  intro s p on h q
  refine ⟨fun cal => ?_, fun u good exchanges => ?_, fun u ms peer acquires seen => ?_, fun ms equalises => ?_, fun u peer here there => ?_,
    fun u here lanes peer there seen => ?_, fun waits => ?_⟩
  · exact (completes_trainCalDone p s _).2 ((Hw.clocked_on on).trans (Hw.calDone_of_cal cal))
  · exact (completes_trainingUnitRx p u s _).2 ((Hw.clocked_on on).trans (Hw.trainUnit_of_good good exchanges))
  · exact (completes_sbAcqDone p ms s _).2 ((Hw.clocked_on on).trans (Hw.sbAcqDone_of_seen peer acquires seen ms))
  · exact (completes_dataEqDone p ms s _).2 ((Hw.clocked_on on).trans (Hw.dataEqDone_of_dataEq equalises ms))
  · intro fuses tx rx
    have selects {g : Hw} (e : h.laneSelect p = g) : Completes (.laneSelect p) s (fun g' => g' = g) :=
      (completes_laneSelect p s _).2 ((Hw.clocked_on on).trans e)
    exact ⟨fun t r sent received => selects (Hw.laneSelect_of_sets peer here there sent received),
      fun tooFew => selects (Hw.laneSelect_of_tooFew peer here there tooFew)⟩
  · intro a
    exact (completes_portActive p s _).2
      ((Hw.clocked_on on).trans (Hw.portActive_of_ready (Hw.phyReady_of_both here lanes peer there seen)))
  · refine (completes_trainWaitExpiry p s _).2 ?_
    rw [Hw.clocked_on on, Hw.waitExpiry_of_wait waits]
    exact ⟨rfl, Hw.phyState_phyTrain h p true⟩

end

section
/-! Bursts, isolation, lane commands and sleep of a torus port's lanes (R563 to R566, R587 to R599, R627), and the obligation on them. -/

namespace Sys2Proof.Machine

section
variable {h : Hw} {p k : Nat}

/-! Bursts (R563 to R566, R587, R588). -/

section
variable {signs win : List Bool} (waits : h.laneWaits p k = true)
  (heard : fld (h.reg .phyPreambleCfg (commonIx p)) 0 8 + 2 * hamming signs preamble ≤ 128)
include waits heard

/-- A waiting lane that hears a preamble looks for its sync word. -/
theorem Hw.preambleRx_of_heard : h.preambleRx p k signs win = if h.syncFound p k win then
      (h.burstStart p k).modLink p (fun l => { l with desync := l.desync - (if l.desync.testBit k then 2 ^ k else 0) })
    else (h.laneEvt p k 0).laneError p k := by
  have seen : h.preambleSeen p signs = true := decide_eq_true heard
  exact if_neg (by simp [waits, seen])

theorem Hw.preambleRx_of_found (found : h.syncFound p k win = true) : h.preambleRx p k signs win =
    (h.burstStart p k).modLink p (fun l => { l with desync := l.desync - (if l.desync.testBit k then 2 ^ k else 0) }) :=
  (Hw.preambleRx_of_heard waits heard).trans (if_pos found)

theorem Hw.preambleRx_of_lost (lost : h.syncFound p k win = false) : h.preambleRx p k signs win = (h.laneEvt p k 0).laneError p k :=
  (Hw.preambleRx_of_heard waits heard).trans (if_neg (ne_true_of_eq_false lost))

end

theorem Hw.burstEnd_of_markers {w1 w2 : BitVec 64} (live : h.laneLive p k = true) (ends : h.markers p w1 w2 = true) :
    h.burstEnd p k w1 w2 = h.burstOver p k := if_pos (by rw [live, ends]; rfl)

theorem Hw.laneLos_of_live (live : h.laneLive p k = true) : h.laneLos p k = ((h.burstOver p k).laneEvt p k 1).laneError p k := if_pos live

theorem Hw.sbLost_of_lost (active : h.phyState p = phActive) (sideband : (h.phyOf p).rxSb = k) (lane : k < 18) (waits : h.laneWaits p k = true)
    (lost : bit (h.reg .phyLaneEvt (laneIx p k)) 1 = true) :
    h.sbLost p = (((h.setLinkState p lsTraining).linkEvt p 0).phyEvt p 4).phyTrain p false := by
  subst sideband
  exact if_pos ⟨active, lane, waits, lost⟩

/-! Lanes put out, and commands of the peer (R589 to R597). -/

theorem Hw.laneIsolate_of_full (full : h.laneEc p k = 255) (sound : (h.fusedLanes p).testBit k = false) (open_ : (h.rxIsol p).testBit k = false)
    (active : h.phyState p = phActive) :
    h.laneIsolate p k = (((h.isolateRx p k).modReg .lnkLaneEc p k (setBit · 10 true)).lctl p (1 + 256 * k)).phyDownDue p := by
  have counts : h.laneCounts p k = true := by
    unfold Hw.laneCounts
    rw [sound, open_]
    rfl
  unfold Hw.laneIsolate
  rw [if_neg (by simp [full, counts, active])]

/-- The commands of the peer that follow w, where w is the first. -/
def Hw.cmdsAfter (h : Hw) (p : Nat) (w : Word) : Option (List Word) :=
  match (h.linkOf p).cmds with
  | c :: cs => if c = w then some cs else none
  | [] => none

/-- The first command is taken. -/
def Hw.withCmds (h : Hw) (p : Nat) (cs : List Word) : Hw := h.modLink p (fun l => { l with cmds := cs })

theorem Hw.cmds_of_cmdsAfter {w : Word} {cs : List Word} (after : h.cmdsAfter p w = some cs) : (h.linkOf p).cmds = w :: cs := by
  unfold Hw.cmdsAfter at after
  split at after
  · next c cs' cmds =>
    rw [cmds]
    split at after
    · next same => rw [same, Option.some.inj after]
    · exact absurd after (by simp)
  · exact absurd after (by simp)

theorem Hw.takeCmd_of_first {w : Word} {cs : List Word} {c : Word → Bool} (after : h.cmdsAfter p w = some cs) (kind : c w = true) :
    h.takeCmd p c = some (fld w 8 5, h.withCmds p cs) := by
  unfold Hw.takeCmd
  rw [Hw.cmds_of_cmdsAfter after]
  exact if_pos kind

section
variable {w : Word} {cs : List Word} (after : h.cmdsAfter p w = some cs)
include after

theorem Hw.badCmd_of_bad (bad : laneCmdOk w = false) : h.badCmd p = ((h.withCmds p cs).phyEvt p 2).peerViol p 8 := by
  have taken : h.takeCmd p (fun w => !laneCmdOk w) = some (fld w 8 5, h.withCmds p cs) := Hw.takeCmd_of_first after (by simp [bad])
  unfold Hw.badCmd
  rw [taken]

variable (good : laneCmdOk w = true) (lane : fld w 8 5 = k)
include good lane

/-- Lane k of the transmitter is out at the peer's command: what it had sent is due again. -/
def Hw.laneObeyed (h : Hw) (p k sb : Nat) : Hw :=
  let a := h.isolateTx p k
  let b := if sb ≠ 31 ∧ (a.phyOf p).txSb = 31 then a.linkEvt p 5 else a
  (b.replayDue p (fun t => t.lane == k)).phyDownDue p

theorem Hw.isolateCmd_of_isolate (isolate : fld w 0 4 = 1) : h.isolateCmd p = (h.withCmds p cs).laneObeyed p k (h.phyOf p).txSb := by
  have taken : h.takeCmd p (fun w => laneCmdOk w && fld w 0 4 == 1) = some (fld w 8 5, h.withCmds p cs) :=
    Hw.takeCmd_of_first after (by simp [good, isolate])
  unfold Hw.isolateCmd Hw.laneObeyed
  rw [taken, lane]
  simp only [bne_iff_ne, Bool.and_eq_true, beq_iff_eq]
  rfl

theorem Hw.rewakeCmd_of_rewake (rewake : fld w 0 4 = 2) : h.rewakeCmd p =
    if (h.txIsol p).testBit k || (h.fusedLanes p).testBit k then h.withCmds p cs
    else if (h.phyOf p).asleep && (h.txData p).testBit k then ((h.withCmds p cs).modPhy p (fun q => { q with wakeReq := true })).phyWake p
    else (h.withCmds p cs).laneTx p k true := by
  have taken : h.takeCmd p (fun w => laneCmdOk w && fld w 0 4 == 2) = some (fld w 8 5, h.withCmds p cs) :=
    Hw.takeCmd_of_first after (by simp [good, rewake])
  unfold Hw.rewakeCmd
  rw [taken, lane]
  rfl

end

/-! A direction sleeps and wakes (R598, R599). -/

/-- The transmitter's data lanes, with the spare where it stands by for them. -/
def Hw.sleepLanes (h : Hw) (p : Nat) : List Nat := burstLanes (h.txData p) (if (h.phyOf p).txSpare = 1 then 1 else 0)

theorem Hw.phySleep_of_quiet (rest : h.bar.rest = 0) (phase : h.bar.phase = 0) (quiet : h.noTokens p = true) (idle : h.txIdle p = true)
    (enabled : bit (h.reg .phyRampCfg (commonIx p)) 8 = true) (ramp : fld (h.reg .phyRampCfg (commonIx p)) 0 4 ≤ 4)
    (active : h.phyState p = phActive) (awake : (h.phyOf p).asleep = false) (noWish : (h.phyOf p).wakeReq = false) :
    h.phySleep p (h.txIdle p) =
      ((h.sleepLanes p).foldl (fun h k => h.laneTx p k false) h).modPhy p (fun q => { q with asleep := true }) := by
  have allowed : sleepAllowed (h.reg .phyRampCfg (commonIx p)) = true := decide_eq_true ramp
  exact if_pos (by rw [rest, phase, quiet, idle, enabled, allowed, active, awake, noWish]; rfl)

theorem Hw.phyWake_of_due (asleep : (h.phyOf p).asleep = true)
    (due : (h.phyOf p).wakeReq = true ∨ (h.bar.rest = 0 ∧ h.bar.phase = 0 ∧ h.noTokens p = false)) :
    h.phyWake p = ((h.sleepLanes p).foldl (fun h k => h.laneTx p k true) h).modPhy p (fun q => { q with asleep := false, wakeReq := false }) := by
  refine if_pos ?_
  rcases due with wish | ⟨rest, phase, tokens⟩
  · rw [asleep, wish]
    rfl
  · rw [asleep, rest, phase, tokens]
    simp

end

end Sys2Proof.Machine

open Sys2Proof Sys2Proof.Machine

/-- Settles O48: bursts, isolation, lane commands and sleep. -/
theorem lanesOfAPort : Obligations.LanesOfAPort := by
  unfold Obligations.LanesOfAPort
  intro s p k on h q lane rest taken
  have first {w : Word} {cs : List Word} (e : rest w = some cs) : h.cmdsAfter p w = some cs := e
  refine ⟨?preamble, ?ends, ?sideband, ?isolates, ?isolate, ?rewake, ?bad, ?sleep⟩
  case preamble =>
    intro signs win waits heard
    have hears {g : Hw} (e : h.preambleRx p k signs win = g) : Completes (.preambleDetect p k signs win) s (fun g' => g' = g) :=
      (completes_preambleDetect p k signs win s _).2 ((Hw.clocked_on on).trans e)
    exact ⟨fun found => hears (Hw.preambleRx_of_found waits heard found), fun lost => hears (Hw.preambleRx_of_lost waits heard lost)⟩
  case ends =>
    intro live
    refine ⟨fun w1 w2 ends => ?_, ?_⟩
    · exact (completes_burstEnd p k w1 w2 s _).2 ((Hw.clocked_on on).trans (Hw.burstEnd_of_markers live ends))
    · exact (completes_laneLos p k s _).2 ((Hw.clocked_on on).trans (Hw.laneLos_of_live live))
  case sideband =>
    intro active sideband waits lost
    refine (completes_sidebandLost p s _).2 ?_
    rw [Hw.clocked_on on, Hw.sbLost_of_lost active sideband k.isLt waits lost]
    exact ⟨rfl, Hw.phyState_phyTrain _ p false⟩
  case isolates =>
    intro full sound open_ active
    exact (completes_laneIsolate p k s _).2 ((Hw.clocked_on on).trans (Hw.laneIsolate_of_full full sound open_ active))
  case isolate =>
    intro w cs after good isolate own
    exact (completes_isolate p s _).2 ((Hw.clocked_on on).trans (Hw.isolateCmd_of_isolate (first after) good own isolate))
  case rewake =>
    intro w cs after good rewake own
    have wakes {g : Hw} (e : (if (h.txIsol p).testBit k || (h.fusedLanes p).testBit k then taken cs
        else if q.asleep && (h.txData p).testBit k then ((taken cs).modPhy p (fun q => { q with wakeReq := true })).phyWake p
        else (taken cs).laneTx p k true) = g) : Completes (.rewake p) s (fun g' => g' = g) :=
      (completes_rewake p s _).2 ((Hw.clocked_on on).trans ((Hw.rewakeCmd_of_rewake (first after) good own rewake).trans e))
    refine ⟨fun out => wakes (if_pos (by simpa using out)), fun inLane sound => ⟨fun asleep data => ?_, fun awake => ?_⟩⟩
    · exact wakes ((if_neg (by simp [inLane, sound])).trans (if_pos (by rw [asleep, data]; rfl)))
    · refine wakes ((if_neg (by simp [inLane, sound])).trans (if_neg ?_))
      rcases awake with e | e
      · simp [e]
      · simp [e]
  case bad =>
    intro w cs after bad
    exact (completes_badLaneCommand p s _).2 ((Hw.clocked_on on).trans (Hw.badCmd_of_bad (first after) bad))
  case sleep =>
    intro cfg lanes
    refine ⟨fun rest_ phase quiet idle enabled ramp active awake noWish => ?_, fun asleep due => ?_⟩
    · exact (completes_directionSleep p s _).2
        ((Hw.clocked_on on).trans (Hw.phySleep_of_quiet rest_ phase quiet idle enabled ramp active awake noWish))
    · exact (completes_directionWake p s _).2 ((Hw.clocked_on on).trans (Hw.phyWake_of_due asleep due))

end

section
/-! Frames and control words of the link layer (R605 to R617, R620, R624, R626, R645, R646), and the obligation on them. -/

namespace Sys2Proof.Machine

section
variable {h : Hw} {p k : Nat}

/-! What a free lane sends (R605 to R611, R620). -/

/-- The port's lanes may send: it is ACTIVE, and its link is up or asks for the peer's identity. -/
def Hw.LanesSend (h : Hw) (p : Nat) : Prop :=
  h.phyState p = phActive ∧ (h.linkState p = lsIdent ∨ h.linkState p = lsUp) ∧ (h.linkOf p).downDue = 0

theorem Hw.LanesSend.sends (o : h.LanesSend p) :
    ¬ (h.phyState p ≠ phActive ∨ (h.linkState p ≠ lsIdent ∧ h.linkState p ≠ lsUp) ∨ (h.linkOf p).downDue ≠ 0) := by
  obtain ⟨active, state, up⟩ := o
  rintro (e | ⟨notIdent, notUp⟩ | e)
  · exact e active
  · exact state.elim notIdent notUp
  · exact e up

/-- The sideband lane sends the next sideband unit. -/
theorem Hw.frameTransmit_of_sideband (o : h.LanesSend p) (sideband : (h.phyOf p).txSb = k) : h.frameTransmit p k =
    (h.sbNextUnit p).2.modLink p (fun l => { l with sentUnit := some (h.sbNextUnit p).1 }) :=
  (if_neg o.sends).trans (if_pos sideband)

/-- Sending a frame takes no time in the model. -/
theorem Hw.now_unitTail (h : Hw) (p k : Nat) : (h.unitTail p k).2.now = h.now := by
  unfold Hw.unitTail
  dsimp only
  refine Hw.keeps_ite (P := Hw.now) ?_ ?_
  · split
    · rfl
    · rfl
  · split
    · rfl
    · rfl

theorem Hw.now_act (h : Hw) (n e : Nat) : (h.act n e).now = h.now := by
  unfold Hw.act
  exact Hw.foldl_same Hw.now _ _ (fun g w => by simp only [Hw.setReg_keeps]) h

theorem Hw.now_frameOut (h : Hw) (p k : Nat) (f : Frame) : (h.frameOut p k f).now = h.now :=
  (Hw.now_act _ _ _).trans (Hw.now_unitTail h p k)

/-- A lane that is awake carries data, and is no sideband lane, sends no sideband frame while the port has a sideband lane. -/
theorem noSidebandFrame {n k : Nat} (near : n < 18) (m : Option Nat) (due : Bool) : ¬ ((decide (n = 31) && m == some k && due) = true) := by
  have other : decide (n = 31) = false := decide_eq_false (by omega)
  rw [other]
  simp

section
variable (o : h.LanesSend p) (near : (h.phyOf p).txSb < 18) (other : (h.phyOf p).txSb ≠ k) (data : (h.txData p).testBit k = true)
  (awake : (h.phyOf p).asleep = false)
include o near other data awake

theorem Hw.frameTransmit_of_replay {t : TxFrame} (due : h.replayFor p k = some t) : h.frameTransmit p k =
    ((h.frameOut p k t.frame).modReg .lnkRxEvt p 0 (bumpFld · 8 8 1)).modLink p (fun l => { l with replay := l.replay.map (fun x =>
      if x.frame.seq == t.frame.seq then { x with lane := k, replays := x.replays + 1, at' := h.now, due := false } else x) }) := by
  unfold Hw.frameTransmit
  dsimp only
  rw [if_neg o.sends, if_neg other, if_neg (by simp [data, awake]), if_neg (noSidebandFrame near _ _), due]
  exact congrArg (fun now => ((h.frameOut p k t.frame).modReg .lnkRxEvt p 0 (bumpFld · 8 8 1)).modLink p (fun l => { l with
    replay := l.replay.map (fun x => if x.frame.seq == t.frame.seq then
      { x with lane := k, replays := x.replays + 1, at' := now, due := false } else x) })) (Hw.now_frameOut h p k t.frame)

/-- Frame f is the newest of the replay buffer and counts against its credits. -/
def Hw.frameKept (h : Hw) (p k : Nat) (f : Frame) (ok : Bool) : Hw :=
  h.modLink p (fun l => { l with
    next := (l.next + 1) % 65536, replay := l.replay ++ [⟨f, k, 0, h.now, false, ok⟩]
    sent := if f.rvc = 0 then ((l.sent.1 + 1) % 256, l.sent.2) else (l.sent.1, (l.sent.2 + 1) % 256) })

theorem Hw.frameTransmit_of_new {f : Frame} {ok : Bool} {a : Hw} (noReplay : h.replayFor p k = none) (new : h.newFrame p = some (f, ok, a)) :
    h.frameTransmit p k = (a.frameKept p k f ok).frameOut p k f := by
  unfold Hw.frameTransmit
  dsimp only
  rw [if_neg o.sends, if_neg other, if_neg (by simp [data, awake]), if_neg (noSidebandFrame near _ _), noReplay]
  dsimp only
  rw [new]
  rfl

theorem Hw.frameTransmit_of_idle (noReplay : h.replayFor p k = none) (noFrame : h.newFrame p = none) : h.frameTransmit p k =
    (h.unitTail p k).2.modLink p (fun l => { l with sentFrame := some (k, controlBytes (h.unitTail p k).1) }) := by
  unfold Hw.frameTransmit
  dsimp only
  rw [if_neg o.sends, if_neg other, if_neg (by simp [data, awake]), if_neg (noSidebandFrame near _ _), noReplay]
  dsimp only
  rw [noFrame]

end

/-! What neither a lane's good unit nor the work of a node changes: the sequence numbers of the link. -/

theorem Hw.link_act (h : Hw) (n e : Nat) : (h.act n e).link = h.link := by
  unfold Hw.act
  exact Hw.foldl_same Hw.link _ _ (fun g w => by simp only [Hw.setReg_keeps]) h

theorem Hw.linkOf_congr {g h : Hw} (e : g.link = h.link) (p : Nat) : g.linkOf p = h.linkOf p := by
  unfold Hw.linkOf
  rw [e]

theorem Hw.link_laneGood (h : Hw) (p k : Nat) : (h.laneGood p k).link = h.link := by
  unfold Hw.laneGood
  exact Hw.keeps_ite rfl rfl

/-- A number is ahead of the link's window whatever the lanes' good control words are. -/
theorem ahead_goodCtl (l : LinkPort) (x : List (Nat × Nat)) (seq : Nat) (strict : Bool) :
    ({ l with goodCtl := x } : LinkPort).ahead seq strict = l.ahead seq strict := rfl

/-! A frame that comes (R612 to R617). -/

variable {b : List Byte}

/-- The port has heard a frame on lane k: the run of its good control words ends. -/
def Hw.frameHeard (h : Hw) (p k : Nat) : Hw := (h.modLink p (fun l => { l with goodCtl := serase l.goodCtl k })).act (portNode p) 9

theorem Hw.ahead_frameHeard (h : Hw) (p k seq : Nat) (strict : Bool) :
    (((h.frameHeard p k).laneGood p k).linkOf p).ahead seq strict = (h.linkOf p).ahead seq strict := by
  unfold Hw.frameHeard
  rw [Hw.linkOf_congr ((Hw.link_laneGood _ p k).trans (Hw.link_act _ _ _)), Hw.linkOf_modLink, if_pos rfl]
  exact ahead_goodCtl _ _ _ _

section
variable (takes : h.laneTakes p k = true) (data : (h.phyOf p).rxSb ≠ k)
include takes data

theorem Hw.laneHears : ¬ ((!h.laneTakes p k || (h.phyOf p).rxSb == k) = true) := by simp [takes, data]

theorem Hw.frameRx_of_badHeader (bad : b.length < 32 ∨ crc32c (b.take 28) ≠ leAt b 28 4) :
    h.frameRx p k b = (h.frameHeard p k).headerFail p k :=
  (if_neg (Hw.laneHears takes data)).trans (if_pos (by omega))

section
variable (long : 32 ≤ b.length) (header : crc32c (b.take 28) = leAt b 28 4)
include long header

omit takes data in
theorem headerChecked : ¬ (crc32c (b.take 28) ≠ leAt b 28 4 ∨ b.length < 32) := by omega

theorem Hw.frameRx_of_badType (unknown : leAt b 0 1 % 16 ≠ 1 ∧ leAt b 0 1 % 16 ≠ 2 ∧ leAt b 0 1 % 16 ≠ 3) :
    h.frameRx p k b = (h.frameHeard p k).peerViol p 1 :=
  (if_neg (Hw.laneHears takes data)).trans ((if_neg (headerChecked long header)).trans (if_pos (by simp [unknown])))

section
variable (type : leAt b 0 1 % 16 = 1 ∨ leAt b 0 1 % 16 = 3)
include type

omit takes data long header in
theorem typeKnown : ¬ ((!([1, 2, 3].contains (leAt b 0 1 % 16))) = true) := by
  rcases type with e | e
  · rw [e]; decide
  · rw [e]; decide

theorem Hw.frameRx_of_badCount (bad : countOk (leAt b 0 1 % 16) (leAt b 1 1) = false) :
    h.frameRx p k b = (h.frameHeard p k).peerViol p 2 :=
  (if_neg (Hw.laneHears takes data)).trans ((if_neg (headerChecked long header)).trans ((if_neg (typeKnown type)).trans (if_pos (by simp [bad]))))

/-- The bytes of a frame before its last check. -/
def frameLength (b : List Byte) : Nat := 32 + payloadLen (leAt b 0 1 % 16) (leAt b 1 1)

variable (count : countOk (leAt b 0 1 % 16) (leAt b 1 1) = true)
include count

theorem Hw.frameRx_of_badPayload (bad : b.length < frameLength b + 4 ∨ crc32c (b.take (frameLength b)) ≠ leAt b (frameLength b) 4) :
    h.frameRx p k b = ((h.frameHeard p k).modReg .lnkRxEvt p 0 (bumpFld · 0 8 1)).laneError p k := by
  refine (if_neg (Hw.laneHears takes data)).trans ((if_neg (headerChecked long header)).trans ((if_neg (typeKnown type)).trans ?_))
  exact (if_neg (by simp [count])).trans (if_pos bad.symm)

theorem Hw.frameRx_of_good (whole : frameLength b + 4 ≤ b.length) (payload : crc32c (b.take (frameLength b)) = leAt b (frameLength b) 4)
    (reserved : reservedSet b = false) (noNak : leAt b 24 1 = 0) (behind : (h.linkOf p).ahead (leAt b 4 2) false = false) :
    h.frameRx p k b = (((((h.frameHeard p k).laneGood p k).ackIn p (leAt b 4 2) (some (leAt b 8 1, leAt b 9 1)) none).lanePrev p
      (leAt b 6 2)).frameStore p (parseFrame b)) := by
  have checked : ¬ (crc32c (b.take (frameLength b)) ≠ leAt b (frameLength b) 4 ∨ b.length < frameLength b + 4) := by omega
  have known : (((h.frameHeard p k).laneGood p k).linkOf p).ahead (leAt b 4 2) false = false := (Hw.ahead_frameHeard h p k _ _).trans behind
  refine (if_neg (Hw.laneHears takes data)).trans ((if_neg (headerChecked long header)).trans ((if_neg (typeKnown type)).trans ?_))
  refine (if_neg (by simp [count])).trans ((if_neg checked).trans ?_)
  dsimp only
  rw [reserved, if_neg Bool.false_ne_true, noNak]
  refine (if_neg ?_).trans (if_neg (by omega))
  rw [show (((((h.modLink p (fun l => { l with goodCtl := serase l.goodCtl k })).act (portNode p) 9).laneGood p k).linkOf p).ahead
    (leAt b 4 2) false) = false from known]
  simp

end

end

/-! A control word that comes (R612, R616, R626). -/

theorem Hw.controlRx_of_bad (bad : b.length < 14 ∨ crc32c (b.take 10) ≠ leAt b 10 4) :
    h.controlRx p k b = (h.modLink p (fun l => { l with goodCtl := serase l.goodCtl k })).laneError p k :=
  (if_neg (Hw.laneHears takes data)).trans (if_pos bad.symm)

/-- The run of lane k's good control words is one longer; the sixteenth makes the lane's count fall. -/
def Hw.controlHeard (h : Hw) (p k : Nat) : Hw :=
  let run := nget (h.linkOf p).goodCtl k 0 + 1
  let a := h.modLink p (fun l => { l with goodCtl := nset l.goodCtl k (run % 16) 0 })
  if run = 16 then a.laneGood p k else a

omit takes data in
theorem Hw.ahead_controlHeard (h : Hw) (p k seq : Nat) (strict : Bool) :
    ((h.controlHeard p k).linkOf p).ahead seq strict = (h.linkOf p).ahead seq strict := by
  have link : (h.controlHeard p k).link = (h.modLink p (fun l => { l with
      goodCtl := nset l.goodCtl k ((nget (h.linkOf p).goodCtl k 0 + 1) % 16) 0 })).link := by
    unfold Hw.controlHeard
    exact Hw.keeps_ite (Hw.link_laneGood _ p k) rfl
  rw [Hw.linkOf_congr link, Hw.linkOf_modLink, if_pos rfl]
  exact ahead_goodCtl _ _ _ _

theorem Hw.controlRx_of_good (long : 14 ≤ b.length) (check : crc32c (b.take 10) = leAt b 10 4) (type : leAt b 0 1 = 8) (noNak : leAt b 1 1 = 0)
    (behind : (h.linkOf p).ahead (leAt b 2 2) false = false) : h.controlRx p k b =
      ((h.controlHeard p k).ackIn p (leAt b 2 2) (some (leAt b 6 1, leAt b 7 1)) none).lanePrev p (leAt b 4 2) := by
  have known : ((h.controlHeard p k).linkOf p).ahead (leAt b 2 2) false = false := (Hw.ahead_controlHeard h p k _ _).trans behind
  unfold Hw.controlHeard at known ⊢
  unfold Hw.controlRx
  dsimp only at known ⊢
  rw [if_neg (Hw.laneHears takes data), if_neg (by omega), type, noNak, if_neg (by decide), if_neg (by decide)]
  refine if_neg ?_
  rw [known]
  simp

end

/-! Frames in order, and the bridge of a detour (R617, R645, R646). -/

section
variable {f : Frame} {fs : List Frame} (next : takeFirst (fun f : Frame => f.seq == (h.linkOf p).deliver) (h.linkOf p).stored = some (f, fs))
include next

theorem Hw.frameDeliver_of_detour (detour : f.dtr = true) : h.frameDeliver p =
    h.setLink p { h.linkOf p with stored := fs, deliver := ((h.linkOf p).deliver + 1) % 65536, bridge := (h.linkOf p).bridge ++ [f] } := by
  unfold Hw.frameDeliver
  dsimp only
  rw [next]
  exact if_pos detour

/-- The frame's credit is held until its flits have left. -/
def Hw.frameTaken (h : Hw) (p : Nat) (f : Frame) (fs : List Frame) : Hw :=
  ({ h with opId := h.opId + 1 } : Hw).setLink p { h.linkOf p with
    stored := fs, deliver := ((h.linkOf p).deliver + 1) % 65536, held := (h.linkOf p).held ++ [(h.opId, f.rvc)] }

theorem Hw.frameDeliver_of_here (here : f.dtr = false) : h.frameDeliver p =
    (f.flits.zip (List.range f.flits.length)).foldl (fun h' x => h'.flitIn p (f.flit x.2 h.opId x.1)) (h.frameTaken p f fs) := by
  unfold Hw.frameDeliver
  dsimp only
  rw [next]
  exact if_neg (ne_true_of_eq_false here)

end

/-- Some flit of operation id still waits at port p's node. -/
def Hw.flitsWait (h : Hw) (p id : Nat) : Bool :=
  h.bnet.inj.any (fun e => e.1 / 512 == portNode p && e.2.any (fun f => f.op == id)) ||
    h.fold.ring.any (fun e => e.1 / 8192 == portNode p && e.2.any (fun f => f.op == id))

theorem Hw.frameRelease_of_left {e : Nat × Nat} {es : List (Nat × Nat)}
    (left : takeFirst (fun e : Nat × Nat => !h.flitsWait p e.1) (h.linkOf p).held = some (e, es)) :
    h.frameRelease p = (h.setLink p { h.linkOf p with held := es }).release p e.2 := by
  unfold Hw.flitsWait at left
  unfold Hw.frameRelease
  dsimp only
  rw [left]

section
variable {f : Frame} {fs : List Frame} (first : (h.linkOf p).bridge = f :: fs)
include first

/-- The oldest frame of the bridge leaves it, and its credit goes back. -/
def Hw.bridgeTaken (h : Hw) (p : Nat) (f : Frame) (fs : List Frame) : Hw := (h.setLink p { h.linkOf p with bridge := fs }).release p f.rvc

theorem Hw.dtrRx_of_relay (relays : 0 < f.relay) : h.dtrRx p =
    (h.bridgeTaken p f fs).modLink (otherPort p) (fun l => { l with relay := l.relay ++ [{ f with relay := f.relay - 1 }] }) := by
  unfold Hw.dtrRx
  dsimp only
  rw [first]
  exact if_pos relays

theorem Hw.dtrRx_of_arrived (last : f.relay = 0) (near : seqSub f.orig ((h.bridgeTaken p f fs).linkOf (otherPort p)).expected < 32768)
    (new : ∀ x ∈ ((h.bridgeTaken p f fs).linkOf (otherPort p)).stored, x.seq ≠ f.orig) : h.dtrRx p =
      let m := (h.bridgeTaken p f fs).linkOf (otherPort p)
      let xs := m.stored ++ [{ f with dtr := false, seq := f.orig }]
      (h.bridgeTaken p f fs).setLink (otherPort p) { m with stored := xs, expected := advanceA 256 xs m.expected } := by
  have fresh : ((h.bridgeTaken p f fs).linkOf (otherPort p)).stored.any (fun g => g.seq == f.orig) = false := by
    rw [List.any_eq_false]
    exact fun x inside => by simp [new x inside]
  unfold Hw.dtrRx
  dsimp only
  rw [first]
  exact (if_neg (by omega)).trans (if_pos (by rw [Bool.and_eq_true, decide_eq_true_eq]; exact ⟨near, by rw [Bool.not_eq_true']; exact fresh⟩))

end

/-! A frame goes out again (R611, R620, R624). -/

theorem Hw.nakIn_of_ahead {seq : Nat} (ahead : (h.linkOf p).ahead seq true = true) : h.nakIn p seq = h.peerViol p 5 := if_pos ahead

theorem Hw.nakIn_of_known {seq : Nat} (known : (h.linkOf p).ahead seq true = false) :
    h.nakIn p seq = h.replayDue p (fun t => t.frame.seq == seq) := if_neg (ne_true_of_eq_false known)

theorem Hw.replayTimeout_of_oldest {t : TxFrame} (oldest : (h.linkOf p).replay.find? (fun t => t.frame.seq == (h.linkOf p).old) = some t)
    (notDue : t.due = false) (up : h.linkState p = lsUp) : h.replayTimeout p =
      ({ h with now := max h.now (t.at' + h.replayRtt p) } : Hw).replayDue p (fun x => x.frame.seq == t.frame.seq) := by
  unfold Hw.replayTimeout
  dsimp only
  rw [oldest]
  exact if_neg (by simp [notDue, up])

end

end Sys2Proof.Machine

open Sys2Proof Sys2Proof.Machine

/-- Settles O49: what a lane sends, frames and control words that come, and replays. The lane_prev of a lane that has sent no frame is a free value
(entry 9 of the log); that a timeout moves the time to its due time is the model's (entry 1). -/
theorem linkFrames : Obligations.LinkFrames := by
  unfold Obligations.LinkFrames
  intro s p on h l q
  refine ⟨?sends, ?frame, ?control, ?deliver, ?release, ?bridge, ?nak, ?timeout⟩
  case sends =>
    intro k active state up
    have o : h.LanesSend p := ⟨active, state, up⟩
    have sends {g : Hw} (e : h.frameTransmit p k = g) : Completes (.frameTransmit p k) s (fun g' => g' = g) :=
      (completes_frameTransmit p k s _).2 ((Hw.clocked_on on).trans e)
    refine ⟨fun sideband => sends (Hw.frameTransmit_of_sideband o sideband), fun near other data awake => ⟨fun t due => ?_, fun f ok a none new => ?_,
      fun none noFrame => ?_⟩⟩
    · exact sends (Hw.frameTransmit_of_replay o near other data awake due)
    · exact sends (Hw.frameTransmit_of_new o near other data awake none new)
    · exact sends (Hw.frameTransmit_of_idle o near other data awake none noFrame)
  case frame =>
    intro k b takes data a n type
    have hears {g : Hw} (e : h.frameRx p k b = g) : Completes (.frameReceive p k b) s (fun g' => g' = g) :=
      (completes_frameReceive p k b s _).2 ((Hw.clocked_on on).trans e)
    refine ⟨fun bad => hears (Hw.frameRx_of_badHeader takes data bad), fun long header => ⟨fun unknown => ?_, fun known bad => ?_,
      fun known count => ⟨fun bad => ?_, fun whole payload reserved noNak behind => ?_⟩⟩⟩
    · exact hears (Hw.frameRx_of_badType takes data long header unknown)
    · exact hears (Hw.frameRx_of_badCount takes data long header known bad)
    · exact hears (Hw.frameRx_of_badPayload takes data long header known count bad)
    · exact hears (Hw.frameRx_of_good takes data long header known count whole payload reserved noNak behind)
  case control =>
    intro k b takes data
    have hears {g : Hw} (e : h.controlRx p k b = g) : Completes (.controlWordRx p k b) s (fun g' => g' = g) :=
      (completes_controlWordRx p k b s _).2 ((Hw.clocked_on on).trans e)
    exact ⟨fun bad => hears (Hw.controlRx_of_bad takes data bad),
      fun long check type noNak behind => hears (Hw.controlRx_of_good takes data long check type noNak behind)⟩
  case deliver =>
    intro f fs next
    have delivers {g : Hw} (e : h.frameDeliver p = g) : Completes (.frameDeliver p) s (fun g' => g' = g) :=
      (completes_frameDeliver p s _).2 ((Hw.clocked_on on).trans e)
    exact ⟨fun detour => delivers (Hw.frameDeliver_of_detour next detour), fun here => delivers (Hw.frameDeliver_of_here next here)⟩
  case release =>
    intro waits e es left
    exact (completes_frameRelease p s _).2 ((Hw.clocked_on on).trans (Hw.frameRelease_of_left left))
  case bridge =>
    intro f fs first a o m
    have crosses {g : Hw} (e : h.dtrRx p = g) : Completes (.dtrReceive p) s (fun g' => g' = g) :=
      (completes_dtrReceive p s _).2 ((Hw.clocked_on on).trans e)
    exact ⟨fun relays => crosses (Hw.dtrRx_of_relay first relays), fun last near new => crosses (Hw.dtrRx_of_arrived first last near new)⟩
  case nak =>
    intro seq
    have comes {g : Hw} (e : h.nakIn p seq.toNat = g) : Completes (.nakReceive p seq) s (fun g' => g' = g) :=
      (completes_nakReceive p seq s _).2 ((Hw.clocked_on on).trans e)
    exact ⟨fun ahead => comes (Hw.nakIn_of_ahead ahead), fun known => comes (Hw.nakIn_of_known known)⟩
  case timeout =>
    intro t oldest notDue up
    exact (completes_replayTimeout p s _).2 ((Hw.clocked_on on).trans (Hw.replayTimeout_of_oldest oldest notDue up))

end

section
/-! Sideband, identity and the link's way up and down (R628, R629, R633, R635 to R638, R644, R654), and the obligation on it. -/

namespace Sys2Proof.Machine

section
variable {h : Hw} {p : Nat}

/-! Sideband units (R628, R629). -/

section
variable {k part : Nat} {u : BitVec 64} (takes : h.laneTakes p k = true) (sideband : (h.phyOf p).rxSb = k)
include takes sideband

/-- The sideband lane hears units. -/
theorem Hw.sidebandHears : ¬ ((!(h.laneTakes p k && (h.phyOf p).rxSb == k)) = true) := by simp [takes, sideband]

theorem Hw.sbUnitRx_of_bad (bad : crc8Ok u = false) : h.sbUnitRx p k part u = (h.modLink p (fun l => { l with goodSb := 0 })).laneError p k :=
  (if_neg (Hw.sidebandHears takes sideband)).trans (if_pos (by simp [bad]))

/-- A good unit lengthens the run of good ones; the sixteenth makes the lane's error count fall. -/
def Hw.sidebandGood (h : Hw) (p k : Nat) : Hw :=
  let a := h.modLink p (fun l => { l with goodSb := (l.goodSb + 1) % 16 })
  if (h.linkOf p).goodSb + 1 = 16 then a.laneGood p k else a

theorem Hw.sbUnitRx_of_good (good : crc8Ok u = true) :
    h.sbUnitRx p k part u = ((h.sidebandGood p k).sbAccept p part u).act (portNode p) 9 :=
  (if_neg (Hw.sidebandHears takes sideband)).trans (if_neg (by simp [good]))

end

theorem Hw.sbTimedOut_of_unacked {u : SbUnit} {us : List SbUnit} (oldest : (h.linkOf p).unacked = u :: us) : h.sbTimedOut p =
    ({ h with now := max h.now ((h.linkOf p).sbAdv + h.sbTimeout p) } : Hw).setLink p { h.linkOf p with
      resend := some u.useq, sbAdv := max h.now ((h.linkOf p).sbAdv + h.sbTimeout p) } := by
  unfold Hw.sbTimedOut
  dsimp only
  rw [oldest]

/-! The echo and its reply (R633). -/

theorem Hw.echoStep_of_echo {ts t : Nat} (asked : (h.linkOf p).echo = some (ts, t)) : h.echoStep p =
    (({ h with now := max h.now (t + 64) } : Hw).setLink p { h.linkOf p with echo := none }).lctl p (9 + 4096 * ts) := by
  unfold Hw.echoStep
  dsimp only
  rw [asked]

theorem Hw.echoStep_of_reply {ts t : Nat} (quiet : (h.linkOf p).echo = none) (reply : (h.linkOf p).reply = some (ts, t)) : h.echoStep p =
    (h.setLink p { h.linkOf p with reply := none }).modReg .lnkRtt p 0 (setFld · 16 16 (((t + 2 ^ 25 - ts - 512) % 2 ^ 24) / 2)) := by
  unfold Hw.echoStep
  dsimp only
  rw [quiet, reply]

/-! The peer's identity (R635 to R638). -/

/-- The identity that came is that of the port's neighbour in the cluster. -/
def Hw.identOk (h : Hw) (p : Nat) (c w : Word) : Bool :=
  let n := h.neighbourAt p
  c.toNat == h.topo.clusterId % 2 ^ 32 && fld w 0 4 == n.1 && fld w 4 4 == n.2.1 && fld w 8 4 == n.2.2 && fld w 12 3 == otherPort p

/-- The peer's place is shown, and whether it is right. -/
def Hw.identShown (h : Hw) (p : Nat) (c w : Word) : Hw :=
  h.setReg .lnkPeer p 0 (mkWord [(0, 12, fld w 0 12), (12, 3, fld w 12 3), (15, 1, b2n (h.identOk p c w))])

/-- The link is up: its credits start anew, and the round trip is shown. -/
def Hw.linkUp (h : Hw) (p rtt : Nat) : Hw :=
  (((h.setLinkState p lsUp).modLink p (fun l => { l with
    sent := (0, 0), seen := (0, 0), released := (0, 0), back := none })).modReg .lnkRtt p 0 (setFld · 0 16 rtt)).lctl p 8

/-- Bringing a link up changes no retry time. -/
theorem Hw.replayRtt_linkUp (h : Hw) (p rtt : Nat) : (h.linkUp p rtt).replayRtt p = h.replayRtt p := by
  unfold Hw.replayRtt Hw.linkUp Hw.lctl Hw.setLinkState
  rw [Hw.reg_modLink, Hw.reg_modReg_other (by decide), Hw.reg_modLink, Hw.reg_modReg_other (by decide)]

section
variable {c w : Word} {rtt : Nat} (cluster : (h.linkOf p).peer0 = some c) (place : (h.linkOf p).peer1 = some w)
  (asks : h.linkState p = lsIdent)
include cluster place asks

theorem Hw.identRx_of_asked : h.identRx p rtt =
    if !h.identOk p c w then ((h.identShown p c w).linkEvt p 2).declareDown p 3
    else
      let b := (h.identShown p c w).linkUp p (Nat.min 65535 rtt)
      if b.replayRtt p < rtt then (b.linkEvt p 3).logF2 else b := by
  unfold Hw.identRx
  dsimp only
  rw [cluster, place]
  exact if_neg (not_not_intro asks)

theorem Hw.identRx_of_wrong (wrong : h.identOk p c w = false) : h.identRx p rtt = ((h.identShown p c w).linkEvt p 2).declareDown p 3 :=
  (Hw.identRx_of_asked cluster place asks).trans (if_pos (by simp [wrong]))

theorem Hw.identRx_of_right (right : h.identOk p c w = true) (short : rtt < 2 ^ 16) : h.identRx p rtt =
    let b := (h.identShown p c w).linkUp p rtt
    if h.replayRtt p < rtt then (b.linkEvt p 3).logF2 else b := by
  have shown : (h.identShown p c w).replayRtt p = h.replayRtt p := by
    unfold Hw.replayRtt Hw.identShown
    rw [Hw.reg_setReg_other (by decide)]
  rw [Hw.identRx_of_asked cluster place asks, if_neg (by simp [right])]
  dsimp only
  rw [show Nat.min 65535 rtt = rtt from Nat.min_eq_right (by omega), Hw.replayRtt_linkUp, shown]

end

/-! The link goes down (R644, R654). -/

theorem Hw.downNow_of_phy (known : h.linkState p ≠ lsDown) (on : h.linkState p ≠ lsOff) (phy : h.phyState p = phDown) :
    h.downNow p = h.declareDown p 1 := by
  unfold Hw.downNow
  simp [known, on, phy]

theorem Hw.downNow_of_cause (known : h.linkState p ≠ lsDown) (on : h.linkState p ≠ lsOff) (phy : h.phyState p ≠ phDown)
    (due : (h.linkOf p).downDue ≠ 0) : h.downNow p = h.declareDown p (h.linkOf p).downDue := by
  unfold Hw.downNow
  simp [known, on, phy, due]

theorem Hw.returnTimeout_of_waiting {t : Nat} {cold : Bool} (waits : (h.linkOf p).back = some (t, cold)) : h.returnTimeout p =
    ({ h with now := max h.now (t + (if cold then 9600000 else 2400000)) } : Hw).declareDown p 4 := by
  unfold Hw.returnTimeout
  rw [waits]

theorem Hw.peerLeak_of_due (leaks : fld (h.reg .lnkPortCfg p) 8 8 ≠ 0) (due : fld (h.reg .lnkPortCfg p) 8 8 ≤ (h.linkOf p).leak) :
    h.peerLeak p = (h.modReg .lnkViolCnt p 0 (fun w => setFld w 0 16 (fld w 0 16 - 1))).modLink p (fun l => { l with
      leak := l.leak - fld (h.reg .lnkPortCfg p) 8 8 }) := if_pos ⟨leaks, due⟩

end

end Sys2Proof.Machine

open Sys2Proof Sys2Proof.Machine

/-- Settles O50: the sideband, the identity, and links that come up and go down. That a timeout moves the time to its due time is the model's (entry 1
of the log). -/
theorem linksUpAndDown : Obligations.LinksUpAndDown := by
  unfold Obligations.LinksUpAndDown
  intro s p on h l
  refine ⟨?unit, ?resend, ?asked, ?reply, ?ident, ?down, ?back, ?leak⟩
  case unit =>
    intro k part u takes sideband
    have hears {g : Hw} (e : h.sbUnitRx p k part u = g) : Completes (.sidebandUnitRx p k part u) s (fun g' => g' = g) :=
      (completes_sidebandUnitRx p k part u s _).2 ((Hw.clocked_on on).trans e)
    exact ⟨fun bad => hears (Hw.sbUnitRx_of_bad takes sideband bad), fun good => hears (Hw.sbUnitRx_of_good takes sideband good)⟩
  case resend =>
    intro u us oldest t
    exact (completes_sidebandTimeout p s _).2 ((Hw.clocked_on on).trans (Hw.sbTimedOut_of_unacked oldest))
  case asked =>
    intro ts t asked
    exact (completes_echo p s _).2 ((Hw.clocked_on on).trans (Hw.echoStep_of_echo asked))
  case reply =>
    intro ts t quiet reply
    exact (completes_echo p s _).2 ((Hw.clocked_on on).trans (Hw.echoStep_of_reply quiet reply))
  case ident =>
    intro c w rtt cluster place asks n ok a
    have comes {g : Hw} (e : h.identRx p rtt.toNat = g) : Completes (.identReceive p rtt) s (fun g' => g' = g) :=
      (completes_identReceive p rtt s _).2 ((Hw.clocked_on on).trans e)
    exact ⟨fun wrong => comes (Hw.identRx_of_wrong cluster place asks wrong),
      fun right => comes (Hw.identRx_of_right cluster place asks right rtt.isLt)⟩
  case down =>
    intro known up
    have falls {g : Hw} (e : h.downNow p = g) : Completes (.portDeclaredDown p) s (fun g' => g' = g) :=
      (completes_portDeclaredDown p s _).2 ((Hw.clocked_on on).trans e)
    exact ⟨fun phy => falls (Hw.downNow_of_phy known up phy), fun phy due => falls (Hw.downNow_of_cause known up phy due)⟩
  case back =>
    intro t cold waits
    exact (completes_portReturnTimeout p s _).2 ((Hw.clocked_on on).trans (Hw.returnTimeout_of_waiting waits))
  case leak =>
    intro k leaks due
    exact (completes_peerViolLeak p s _).2 ((Hw.clocked_on on).trans (Hw.peerLeak_of_due leaks due))

end

section
/-! PCIe link, MSI-X, error reports and function-level resets of VFs (R657, R658, R662, R673, R675, R691, R692, Table 15.5), and the obligation
on them. -/

namespace Sys2Proof.Machine

section
variable {h : Hw} {fn v : Nat}

theorem Hw.pcieLinkUp_of_training (training : h.host.training = true) (down : fld (h.reg .hstLinkStatus) 0 4 = 0) (speed width : Nat) (ari : Bool) :
    h.pcieLinkUp speed width ari = ({ h with msix := [], host := { h.host with d3 := false, busMasterOff := [] } } : Hw).setReg .hstLinkStatus 0 0
      (mkWord [(11, 1, b2n ari), (10, 1, b2n (decide (speed < 3) || decide (width < 8))), (4, 6, width), (0, 4, speed)]) :=
  if_neg (by unfold Hw.pcieUp; simp [training, down])

/-! Vectors (R673, R675). -/

/-- The vector is requested no longer. -/
def Hw.requestTaken (h : Hw) (fn v : Nat) : Hw := { h with host := { h.host with requested := h.host.requested.erase (fn * 32 + v) } }

theorem Hw.msixSend_of_live (requested : h.host.requested.contains (fn * 32 + v) = true) (up : fld (h.reg .hstLinkStatus) 0 4 ≠ 0)
    (awake : h.host.d3 = false) : h.msixSend fn v =
      if h.msixMasked fn v then (h.requestTaken fn v).msixPut fn 0x1000 (setBit (h.msixWord fn 0x1000) v true)
      else (h.requestTaken fn v).msixMessage fn v := by
  have ready : h.hostReady = true := by
    unfold Hw.hostReady Hw.pcieUp
    simp [up, awake]
  exact if_pos (by rw [requested, ready]; rfl)

/-- A word of a function's MSI-X space, after a write of another or of the same one. -/
theorem Hw.msixWord_msixPut_same (h : Hw) (fn off : Nat) (w : Word) : (h.msixPut fn off w).msixWord fn off = w := by
  unfold Hw.msixWord Hw.msixPut
  rw [nget_nset, if_pos rfl]

theorem Hw.msixWord_msixPut_other {off off' : Nat} (other : off ≠ off') (h : Hw) (fn : Nat) (w : Word) :
    (h.msixPut fn off w).msixWord fn off' = h.msixWord fn off' := by
  unfold Hw.msixWord Hw.msixPut
  rw [nget_nset_any, if_neg (by omega)]

/-- The message of vector v of a function, with the address and data of the vector's entry. -/
def Hw.msixMessageOf (h g : Hw) (fn v : Nat) : Hw := { g with host := { g.host with out := g.host.out ++
  [⟨fn, (h.msixWord fn (16 * v)).toNat + 2 ^ 32 * (h.msixWord fn (16 * v + 4)).toNat, natLe 4 (h.msixWord fn (16 * v + 8)).toNat⟩] } }

theorem Hw.msixMessageOf_of_entry {g : Hw} (addrLo : g.msixWord fn (16 * v) = h.msixWord fn (16 * v))
    (addrHi : g.msixWord fn (16 * v + 4) = h.msixWord fn (16 * v + 4)) (data : g.msixWord fn (16 * v + 8) = h.msixWord fn (16 * v + 8)) :
    g.msixMessage fn v = h.msixMessageOf g fn v := by
  unfold Hw.msixMessage Hw.msixMessageOf
  rw [addrLo, addrHi, data]

/-- A vector's mask bit is cleared. -/
def Hw.vectorOpened (h : Hw) (fn v : Nat) : Hw := h.msixPut fn (16 * v + 12) 0#32

theorem Hw.msixUnmask_of_vector (vector : v < 32) : h.msixUnmask fn v = (h.vectorOpened fn v).msixUnmasked fn v := by
  have entry : 16 * v + 12 < 0x200 := by omega
  have place : (16 * v + 12) / 4 * 4 = 16 * v + 12 := by omega
  have mask : (16 * v + 12) / 4 % 4 = 3 := by omega
  have own : (16 * v + 12) / 16 = v := by omega
  unfold Hw.msixUnmask Hw.msixWrite
  rw [if_pos entry, place, if_pos mask, own]
  rfl

theorem Hw.msixUnmasked_vectorOpened (vector : v < 32) : (h.vectorOpened fn v).msixUnmasked fn v =
    if bit (h.msixWord fn 0x1000) v then
      h.msixMessageOf ((h.vectorOpened fn v).msixPut fn 0x1000 (setBit (h.msixWord fn 0x1000) v false)) fn v
    else h.vectorOpened fn v := by
  have pending : (h.vectorOpened fn v).msixWord fn 0x1000 = h.msixWord fn 0x1000 := Hw.msixWord_msixPut_other (by omega) h fn _
  have opened : (h.vectorOpened fn v).msixMasked fn v = false := by
    unfold Hw.msixMasked
    rw [show (h.vectorOpened fn v).msixWord fn (16 * v + 12) = 0#32 from Hw.msixWord_msixPut_same h fn _ _]
    rfl
  have kept (w : Word) {off : Nat} (low : off < 0x1000) (other : 16 * v + 12 ≠ off) :
      ((h.vectorOpened fn v).msixPut fn 0x1000 w).msixWord fn off = h.msixWord fn off :=
    (Hw.msixWord_msixPut_other (by omega) _ fn w).trans (Hw.msixWord_msixPut_other other h fn _)
  unfold Hw.msixUnmasked Hw.msixPending
  rw [pending, opened, Bool.not_false, Bool.and_true]
  rw [Hw.msixMessageOf_of_entry (h := h) (kept _ (by omega) (by omega)) (kept _ (by omega) (by omega)) (kept _ (by omega) (by omega))]

end

/-! The reset of a VF (R657, R658, R691, R692). -/

/-- The registers that VF t loses. -/
def vfRegs : List RegId := [.hstLaunchDesc, .hstLaunchStatus, .hstLaunchCookie, .hstVfEvt, .hstViewSel]

/-- The VF's configuration, vectors and waiting launches are lost. -/
def Hw.vfUnconfigured (h : Hw) (t : Nat) : Hw :=
  { h.dropRegs (fun r => decide (r.i = t) && vfRegs.contains r.id) with
    msix := h.msix.filter (fun e => e.1 / 0x2000 != t + 1)
    host := { h.host with requested := h.host.requested.filter (fun k => k / 32 != t + 1)
                          busMasterOff := if h.host.busMasterOff.contains t then h.host.busMasterOff else h.host.busMasterOff ++ [t] }
    stw := { h.stw with launches := h.stw.launches.filter (fun x => x % 64 != t) } }

/-- The partition's launch is over. -/
def Hw.vfLaunchOver (h : Hw) (t : Nat) : Hw :=
  (h.vfUnconfigured t).modJob t (fun j => { j with stage := .none, held := false, relaunching := false, stopHeld := false })

/-- A partition that was being admitted is idle. -/
def Hw.vfIdle (h : Hw) (t : Nat) : Hw :=
  if (h.vfLaunchOver t).tntState t = tsAdmitting then (h.vfLaunchOver t).modReg .tntState t 0 (setFld · 0 4 tsIdle) else h.vfLaunchOver t

theorem Hw.vfReset_eq (h : Hw) (t : Nat) : h.vfReset t =
    if (h.vfIdle t).partValid t then (h.vfIdle t).raiseF1 t ((h.vfIdle t).gen t) 0x11 anchorNode 0 else h.vfIdle t := rfl

/-- The tenants' registers are not among the ones that are lost. -/
theorem Hw.reg_vfLaunchOver {id : RegId} (kept : id ∉ vfRegs) (h : Hw)
    (t i j : Nat) : (h.vfLaunchOver t).reg id i j = h.reg id i j := by
  unfold Hw.vfLaunchOver
  rw [Hw.reg_modJob]
  change (h.dropRegs (fun r => decide (r.i = t) && vfRegs.contains r.id)).reg id i j = h.reg id i j
  exact Hw.reg_dropRegs_other (by simp [kept])

theorem Hw.reg_vfIdle {id : RegId} (kept : id ∉ vfRegs)
    (other : .tntState ≠ id) (h : Hw) (t i j : Nat) : (h.vfIdle t).reg id i j = h.reg id i j := by
  unfold Hw.vfIdle
  exact Hw.keeps_ite (P := fun h => h.reg id i j) ((Hw.reg_modReg_other other _ _ _ _ _ _).trans (Hw.reg_vfLaunchOver kept h t i j))
    (Hw.reg_vfLaunchOver kept h t i j)

/-- What of the block the F1 of a reset leaves unchanged: all but the faults. -/
theorem Hw.vfReset_of_kept {β : Type} {P : Hw → β} (kept : ∀ (h : Hw) (f : FaultState), P { h with fault := f } = P h) (h : Hw) (t : Nat) :
    P (h.vfReset t) = P (h.vfIdle t) := by
  rw [Hw.vfReset_eq]
  exact Hw.keeps_ite (P := P) (kept _ _) rfl

/-- What of the block a change of the partition's state leaves unchanged: all but the registers. -/
theorem Hw.vfIdle_of_kept {β : Type} {P : Hw → β} (kept : ∀ (h : Hw) (r : List (Reg × Word)), P { h with regs := r } = P h) (h : Hw) (t : Nat) :
    P (h.vfIdle t) = P (h.vfLaunchOver t) := by
  unfold Hw.vfIdle
  exact Hw.keeps_ite (P := P) (kept _ _) rfl

section
variable (h : Hw) (t : Nat)

theorem Hw.busMaster_vfReset : t ∈ (h.vfReset t).host.busMasterOff := by
  rw [Hw.vfReset_of_kept (P := fun h => h.host.busMasterOff) (fun _ _ => rfl), Hw.vfIdle_of_kept (P := fun h => h.host.busMasterOff) (fun _ _ => rfl)]
  change t ∈ (if h.host.busMasterOff.contains t then h.host.busMasterOff else h.host.busMasterOff ++ [t])
  split
  · next off => exact List.contains_iff_mem.1 off
  · exact List.mem_append_right _ List.mem_cons_self

theorem Hw.launches_vfReset : (h.vfReset t).stw.launches = h.stw.launches.filter (fun x => x % 64 != t) := by
  rw [Hw.vfReset_of_kept (P := fun h => h.stw.launches) (fun _ _ => rfl), Hw.vfIdle_of_kept (P := fun h => h.stw.launches) (fun _ _ => rfl)]
  rfl

theorem Hw.msix_vfReset : (h.vfReset t).msix = h.msix.filter (fun e => e.1 / 0x2000 != t + 1) := by
  rw [Hw.vfReset_of_kept (P := Hw.msix) (fun _ _ => rfl), Hw.vfIdle_of_kept (P := Hw.msix) (fun _ _ => rfl)]
  rfl

theorem Hw.stage_vfReset : ((h.vfReset t).job t).stage = .none := by
  rw [Hw.vfReset_of_kept (P := fun h => (h.job t).stage) (fun _ _ => rfl), Hw.vfIdle_of_kept (P := fun h => (h.job t).stage) (fun _ _ => rfl)]
  unfold Hw.vfLaunchOver
  rw [Hw.job_modJob, if_pos rfl]

theorem Hw.tntState_vfReset (admitting : h.tntState t = tsAdmitting) : (h.vfReset t).tntState t = tsIdle := by
  have still : (h.vfLaunchOver t).tntState t = tsAdmitting := by
    unfold Hw.tntState at admitting ⊢
    rw [Hw.reg_vfLaunchOver (by decide), admitting]
  rw [Hw.vfReset_of_kept (P := fun h => h.tntState t) (fun _ _ => rfl)]
  unfold Hw.vfIdle
  rw [if_pos still, Hw.tntState_setTntState]
  rfl

theorem Hw.notices_vfReset (valid : h.partValid t = true) :
    ∃ x ∈ (h.vfReset t).fault.notices, x.f0 = false ∧ x.tenant = t ∧ x.cause = 0x11 ∧ x.gen = h.gen t := by
  have still : (h.vfIdle t).partValid t = true := by
    unfold Hw.partValid at valid ⊢
    rw [Hw.reg_vfIdle (by decide) (by decide), valid]
  have same : (h.vfIdle t).gen t = h.gen t := by
    unfold Hw.gen
    rw [Hw.reg_vfIdle (by decide) (by decide)]
  rw [Hw.vfReset_eq, if_pos still, same]
  unfold Hw.raiseF1 Hw.notify
  exact ⟨_, List.mem_append_right _ List.mem_cons_self, rfl, rfl, rfl, rfl⟩

end

end Sys2Proof.Machine

open Sys2Proof Sys2Proof.Machine

/-- Settles O51: the link, vectors, error reports and resets of VFs. That a link comes up with every vector masked is PRESUMED (entry 27 of the log);
that a VF's reset ends its launch without a result is DEDUCED (entry 38). -/
theorem pcieEvents : Obligations.PcieEvents := by
  unfold Obligations.PcieEvents
  intro s h word message live
  refine ⟨fun speed width ari training down => ?_,
    (completes_pcieLinkDown s _).2 rfl, (completes_pfD3hot s _).2 rfl, (completes_pfD0Return s _).2 rfl,
    fun fn v requested => ?_, fun fn v => ?_, fun e fn => (completes_aerError e fn s _).2 rfl, fun on t => ⟨?_, fun vfs => ?_⟩⟩
  · exact (completes_pcieLinkUp speed width ari s _).2 (Hw.pcieLinkUp_of_training training down _ _ ari)
  · rintro ⟨up, awake⟩
    intro a
    have sends {g : Hw} (e : (if h.msixMasked fn v then (h.requestTaken fn v).msixPut fn 0x1000 (setBit (h.msixWord fn 0x1000) v true)
        else (h.requestTaken fn v).msixMessage fn v) = g) : Completes (.msixSend fn v) s (fun g' => g' = g) :=
      (completes_msixSend fn v s _).2 ((Hw.msixSend_of_live requested up awake).trans e)
    exact ⟨fun masked => sends (if_pos masked), fun opened => sends (if_neg (ne_true_of_eq_false opened))⟩
  · intro a
    have unmasks {g : Hw} (e : (if bit (h.msixWord fn 0x1000) v then
          h.msixMessageOf ((h.vectorOpened fn v).msixPut fn 0x1000 (setBit (h.msixWord fn 0x1000) v false)) fn v
        else h.vectorOpened fn v) = g) : Completes (.msixVectorUnmask fn v) s (fun g' => g' = g) :=
      (completes_msixVectorUnmask fn v s _).2
        ((Hw.msixUnmask_of_vector v.isLt).trans ((Hw.msixUnmasked_vectorOpened v.isLt).trans e))
    exact ⟨fun quiet => unmasks (if_neg (ne_true_of_eq_false quiet)), fun pending => unmasks (if_pos pending)⟩
  · rw [completes_vfFlr, Hw.clocked_on on]
    refine ⟨rfl, Hw.busMaster_vfReset h t, Hw.launches_vfReset h t, fun e inside => ?_, Hw.stage_vfReset h t, Hw.tntState_vfReset h t,
      Hw.notices_vfReset h t⟩
    rw [Hw.msix_vfReset] at inside
    simpa using (List.mem_filter.1 inside).2
  · exact (completes_vfDisable (t :: vfs) s _).2 (Hw.clocked_on on)

end

section
/-! The restart of a partition, from its drain to ready (R543, R682, R702, R703, R721, R722, R726, Table 16.5), and the obligation on it. -/

namespace Sys2Proof.Machine

section
variable {h : Hw} {t : Nat}

/-! The drain and the sweep (R721, R722). -/

theorem Hw.drained_of_ports (ends : ∀ i ∈ h.partTiles t, h.portState i ≠ psActive ∧ h.portState i ≠ psDraining) : h.drained t = true := by
  unfold Hw.drained
  rw [List.all_eq_true]
  intro i inside
  obtain ⟨notActive, notDraining⟩ := ends i inside
  simp [notActive, notDraining]

/-- The drained partition's state is swept and its fence falls. -/
theorem Hw.drainDone_of_drained (drains : (h.job t).step = .drain)
    (ends : ∀ i ∈ h.partTiles t, h.portState i ≠ psActive ∧ h.portState i ≠ psDraining) : h.drainDone t =
      ((h.sweep t).modReg .tntState t 0 (setBit · 8 false)).modJob t (fun j => { j with step := .sweep, routes := [], phases := [] }) :=
  if_pos (by rw [drains, Hw.drained_of_ports ends]; rfl)

/-- The time of the restart so far, in µs. -/
def Hw.quiesced (h : Hw) (t : Nat) : Hw :=
  (h.setReg .tntRestartTime t 0 (mkWord [(0, 16, h.restartUs t)])).modReg .tntState t 0 (setFld · 0 4 tsScrub)

theorem Hw.partTiles_quiesced : (h.quiesced t).partTiles t = h.partTiles t := by
  unfold Hw.partTiles Hw.partValid Hw.partRect Hw.quiesced
  simp only [Hw.reg_modReg_other (show RegId.tntState ≠ RegId.tntPartCfgLo by decide),
    Hw.reg_setReg_other (show RegId.tntRestartTime ≠ RegId.tntPartCfgLo by decide)]

/-- The sweep over, the partition's leases are released and its counters cleared. -/
theorem Hw.sweepDone_of_sweep (sweeps : (h.job t).step = .sweep) : h.sweepDone t =
    ((((h.quiesced t).releaseAll t).clearCounters (h.partTiles t)).modJob t (fun j => { j with step := .scrub })) := by
  rw [← Hw.partTiles_quiesced (h := h) (t := t)]
  exact if_pos (by rw [sweeps]; rfl)

/-! The scrub (R543, R726). -/

/-- What decides what a scrubbed partition goes on to: the jobs and the time. -/
def Hw.jobSide (h : Hw) : List (Nat × JobState) × Nat := (h.jobs, h.now)

theorem Hw.jobSide_pageZeroDone (h : Hw) (p : Nat) : (h.pageZeroDone p).jobSide = h.jobSide := by
  unfold Hw.pageZeroDone
  exact Hw.keeps_ite (P := Hw.jobSide) rfl rfl

theorem Hw.jobSide_vfEvent (h : Hw) (t k : Nat) : (h.vfEvent t k).jobSide = h.jobSide := by
  unfold Hw.vfEvent Hw.vector
  exact Hw.keeps_ite (P := Hw.jobSide) rfl rfl

theorem Hw.job_of_jobSide {g h : Hw} (e : g.jobSide = h.jobSide) (t : Nat) : g.job t = h.job t := Hw.job_congr (congrArg (·.1) e :) t

theorem Hw.restartUs_of_jobSide {g h : Hw} (e : g.jobSide = h.jobSide) (t : Nat) : g.restartUs t = h.restartUs t := by
  unfold Hw.restartUs
  rw [Hw.job_of_jobSide e, show g.now = h.now from (congrArg (·.2) e :)]

/-- The partition's pages are zero. -/
def Hw.pagesZeroed (h : Hw) (t : Nat) : Hw :=
  (h.mem.zeroing.filter (fun p => (h.partTiles t).contains (p / 64))).foldl (fun h p => h.pageZeroDone p) h

theorem Hw.jobSide_pagesZeroed : (h.pagesZeroed t).jobSide = h.jobSide :=
  Hw.foldl_same Hw.jobSide _ (fun h p => h.pageZeroDone p) Hw.jobSide_pageZeroDone h

/-- The time of the whole restart is shown, and the VF hears of it. -/
def Hw.scrubShown (h : Hw) (t us : Nat) : Hw := (h.modReg .tntRestartTime t 0 (setFld · 16 16 us)).vfEvent t 3

theorem Hw.jobSide_scrubShown (us : Nat) : ((h.pagesZeroed t).scrubShown t us).jobSide = h.jobSide :=
  (Hw.jobSide_vfEvent _ _ _).trans Hw.jobSide_pagesZeroed

/-- The scrub is over: the job is none, and an F0 restart may be settled. -/
def Hw.scrubbed (h : Hw) (t : Nat) : Hw :=
  (((h.pagesZeroed t).scrubShown t (h.restartUs t)).modJob t (fun j => { j with
    step := .none, f0 := false, doc := none, tileMask := 0, doneSet := 0 })).f0Settled

/-- The partition is relaunched (R702, R703). -/
def Hw.relaunched (h : Hw) (t : Nat) : Hw :=
  let b := h.modJob t (fun j => { j with relaunches := j.relaunches + 1, relaunching := true })
  { b.modReg .tntState t 0 (setFld · 0 4 tsAdmitting) with stw := { b.stw with launches := b.stw.launches ++ [64 + t] } }

section
variable (scrubs : (h.job t).step = .scrub)
include scrubs

theorem Hw.restartReady_of_scrub : h.restartReady t =
    if ((h.job t).endCause = 3 ∨ (h.job t).endCause = 4) ∧ (h.job t).relaunches < (h.job t).relaunchMax then (h.scrubbed t).relaunched t
    else ((h.scrubbed t).modReg .tntState t 0 (setFld · 0 4 tsIdle)).vfEvent t 1 := by
  have us : (h.pagesZeroed t).restartUs t = h.restartUs t := Hw.restartUs_of_jobSide Hw.jobSide_pagesZeroed t
  have job : ((h.pagesZeroed t).scrubShown t (h.restartUs t)).job t = h.job t := Hw.job_of_jobSide (Hw.jobSide_scrubShown _) t
  rw [← us] at job
  conv => rhs; rw [← job]
  unfold Hw.scrubbed
  rw [← us]
  exact if_pos (by rw [scrubs]; rfl)

theorem Hw.restartReady_of_relaunch (fault : (h.job t).endCause = 3 ∨ (h.job t).endCause = 4) (left : (h.job t).relaunches < (h.job t).relaunchMax) :
    h.restartReady t = (h.scrubbed t).relaunched t := (Hw.restartReady_of_scrub scrubs).trans (if_pos ⟨fault, left⟩)

theorem Hw.restartReady_of_idle
    (ended : ((h.job t).endCause ≠ 3 ∧ (h.job t).endCause ≠ 4) ∨ (h.job t).relaunchMax ≤ (h.job t).relaunches) :
    h.restartReady t = ((h.scrubbed t).modReg .tntState t 0 (setFld · 0 4 tsIdle)).vfEvent t 1 :=
  (Hw.restartReady_of_scrub scrubs).trans (if_neg (by omega))

end

/-! An end that the firmware writes, and the die's own resources after an F0 (R682). -/

theorem Hw.jobComplete_of_running (runs : h.tntState t = tsRunning)
    (sound : ∀ x ∈ h.fault.atAnchor, x.f0 = false ∧ (x.tenant ≠ t ∨ x.gen ≠ h.gen t)) : h.jobComplete t =
      (h.recordEnd t 0 (h.gen t) anchorNode h.module h.stamp.1 h.stamp.2 0 0 false false).beginEnd t 1 h.now := by
  have none : h.fault.atAnchor.any (fun x => x.f0 || (x.tenant == t && x.gen == h.gen t)) = false := by
    rw [List.any_eq_false]
    intro x inside
    obtain ⟨notF0, other⟩ := sound x inside
    rcases other with e | e
    · simp [notF0, e]
    · simp [notF0, e]
  exact if_pos ⟨runs, by rw [none]; rfl⟩

/-- A write of complete alone ends the job. -/
theorem Hw.regWrite_tntCtl_complete (h : Hw) (p : Path) (addr t : Nat) (dev : NvmDevice) :
    h.regWrite p addr 0 ⟨.tntCtl, t, 0⟩ 2#32 dev = h.jobComplete t := by
  change h.tntCtl p addr t 2#32 = h.jobComplete t
  unfold Hw.tntCtl
  rfl

theorem Hw.reapply_f0Settled (h : Hw) : h.f0Settled.fault.reapply = h.fault.reapply := by
  unfold Hw.f0Settled
  exact Hw.keeps_ite (P := fun h => h.fault.reapply) rfl rfl

theorem Hw.jobs_f0Settled (h : Hw) : h.f0Settled.jobs = h.jobs := by
  unfold Hw.f0Settled
  exact Hw.keeps_ite (P := Hw.jobs) rfl rfl

/-- With no partition under an F0 restart, and the die's resources back, the condition is over. -/
theorem Hw.f0Restart_f0Settled (back : h.fault.reapply = false) (ended : ∀ e ∈ h.jobs, e.2.f0 = false) :
    bit (h.f0Settled.reg .ancFaultCond) 7 = false := by
  have noJob : h.jobs.any (fun e => e.2.f0) = false := by
    rw [List.any_eq_false]
    exact fun e inside => ne_true_of_eq_false (ended e inside)
  unfold Hw.f0Settled
  rw [back, noJob]
  split
  · change bit ((h.modReg .ancFaultCond 0 0 (setBit · 7 false)).reg .ancFaultCond) 7 = false
    rw [Hw.reg_modReg, if_pos ⟨rfl, rfl, rfl⟩]
    exact bit_setBit_same _ _ _ (by decide)
  · next going =>
    unfold Hw.f0Restart at going
    simpa using going

/-- The die's own resources come back, once no partition is before its scrub. -/
theorem Hw.f0Reapply_of_due (due : h.fault.reapply = true) (scrubs : ∀ e ∈ h.jobs, e.2.f0 = true → e.2.step ≠ .drain ∧ e.2.step ≠ .sweep) :
    ∃ g : Hw, g.fault.reapply = false ∧ h.f0Reapply = g.f0Settled := by
  have none : h.jobs.any (fun e => e.2.f0 && (e.2.step == RestartStep.drain || e.2.step == RestartStep.sweep)) = false := by
    rw [List.any_eq_false]
    intro e inside
    cases under : e.2.f0
    · simp
    · obtain ⟨notDrain, notSweep⟩ := scrubs e inside under
      simp [notDrain, notSweep]
  unfold Hw.f0Reapply
  rw [due, none]
  exact ⟨_, rfl, rfl⟩

end

end Sys2Proof.Machine

open Sys2Proof Sys2Proof.Machine

/-- Settles O55: the restart of a partition. Of the die's own resources after an F0 the statement says that none is due any longer, that what lasts is
unchanged, and when the condition is over. -/
theorem restarts : Obligations.Restarts := by
  unfold Obligations.Restarts
  intro s t h j
  refine ⟨fun on drains ends => ?_, fun on sweeps => ?_, fun on scrubs => ?_, fun p opened runs sound => ?_, fun on due scrubs => ?_⟩
  · exact (completes_restartDrainDone t s _).2 ((Hw.clocked_on on).trans (Hw.drainDone_of_drained drains ends))
  · exact (completes_restartSweepDone t s _).2 ((Hw.clocked_on on).trans (Hw.sweepDone_of_sweep sweeps))
  · intro z us a
    have readies {g : Hw} (e : h.restartReady t = g) : Completes (.restartReady t) s (fun g' => g' = g) :=
      (completes_restartReady t s _).2 ((Hw.clocked_on on).trans e)
    exact ⟨fun fault left => readies (Hw.restartReady_of_relaunch scrubs fault left), fun ended => readies (Hw.restartReady_of_idle scrubs ended)⟩
  · intro a
    refine (completes_jobEndComplete p t s _).2 ?_
    rw [Hw.writeAt_open opened, Hw.regWrite_tntCtl_complete]
    exact Hw.jobComplete_of_running (h := s.hw.readied p) runs sound
  · refine (completes_f0Reapply s _).2 ?_
    rw [Hw.clocked_on on]
    obtain ⟨g, back, e⟩ := Hw.f0Reapply_of_due due scrubs
    refine ⟨?_, Hw.vault_f0Reapply h, fun ended => ?_⟩
    · rw [e, Hw.reapply_f0Settled, back]
    · rw [e] at ended ⊢
      rw [Hw.jobs_f0Settled] at ended
      exact Hw.f0Restart_f0Settled back ended

end

section
/-! Steward cores: heartbeats, failure, halts, timer and mailbox (R774 to R806), and the obligation on them. -/

namespace Sys2Proof.Machine

/-! Heartbeats (R774, R775). -/

theorem merge_and_mask (mask old new : Word) : merge mask old new &&& mask = new &&& mask := by
  unfold merge
  ext i
  simp only [BitVec.getElem_and, BitVec.getElem_or, BitVec.getElem_not]
  cases mask[i]
  · simp
  · simp

/-- A heartbeat's age restarts, and the core counts as heard of. -/
theorem Hw.regWrite_stwHeartbeat (h : Hw) (p : Path) (addr k : Nat) (v : Word) (dev : NvmDevice) :
    h.regWrite p addr 0 ⟨.stwHeartbeat, k, 0⟩ v dev =
      { h.setReg .stwHeartbeat k 0 (v &&& 0xFFFFFF00#32) with stw := { h.stw with fresh := h.stw.fresh ||| 2 ^ k } } := by
  change h.heartbeat k (merge 0xFFFFFF00#32 (h.reg .stwHeartbeat k) v) = _
  unfold Hw.heartbeat
  rw [merge_and_mask]

section
variable {h : Hw} {k : Nat}

/-- An active core with duties whose age has reached 4 fails. -/
theorem Hw.heartbeatFail_of_old (active : h.stw.active.testBit k = true) (duties : h.dutiesOf k ≠ [])
    (runs : h.stw.halted.testBit k = false) (old : 4 ≤ fld (h.reg .stwHeartbeat k) 0 8) : h.heartbeatFail k = h.coreFail k := by
  have checked : h.checkedCore k = true := by
    unfold Hw.checkedCore
    simp [active, duties, runs]
  exact if_pos (by rw [checked, decide_eq_true old]; rfl)

/-! A failed core's duties pass on to core 4 (R778 to R780). -/

theorem testBit_clearBit_same (m k : Nat) : (clearBit m k).testBit k = false := by
  unfold clearBit
  split
  case isTrue set =>
    have odd : m / 2 ^ k % 2 = 1 := by rwa [Nat.testBit_eq_decide_div_mod_eq, decide_eq_true_eq] at set
    have less : (m - 2 ^ k) / 2 ^ k = m / 2 ^ k - 1 := by
      have cut := Nat.sub_mul_div m (2 ^ k) 1
      rwa [Nat.mul_one] at cut
    rw [Nat.testBit_eq_decide_div_mod_eq, less, decide_eq_false_iff_not]
    omega
  case isFalse clear => exact Bool.eq_false_iff.2 clear

theorem clearBit_of_testBit {m k : Nat} (set : m.testBit k = true) : clearBit m k = m - 2 ^ k := if_pos set

/-- What says who holds which duty: the cores' state and the duties' register. -/
def Hw.dutySide (h : Hw) : StewardState × Word := (h.stw, h.reg .stwDuty)

theorem Hw.dutySide_modReg {id : RegId} (n : id ≠ .stwDuty) (h : Hw) (i j : Nat) (f : Word → Word) :
    (h.modReg id i j f).dutySide = h.dutySide := by
  unfold Hw.dutySide
  rw [Hw.reg_modReg_other n]
  rfl

theorem Hw.dutySide_drainRequest (h : Hw) (i : Nat) : (h.drainRequest i).dutySide = h.dutySide := by
  unfold Hw.drainRequest
  have drains := Hw.dutySide_modReg (show RegId.tpCond ≠ .stwDuty by decide) h (tileNode i) 0 (setFld · 0 4 psDraining)
  refine Hw.keeps_ite (P := Hw.dutySide) (Eq.trans ?_ drains) rfl
  exact Hw.dutySide_modReg (show RegId.tpCond ≠ .stwDuty by decide) (h.setPortState i psDraining) (tileNode i) 0 (setBit · 9 true)

theorem Hw.dutySide_drainRelease (h : Hw) (i : Nat) : (h.drainRelease i).dutySide = h.dutySide := by
  unfold Hw.drainRelease
  refine Hw.keeps_ite (P := Hw.dutySide) ?_ rfl
  have released := Hw.dutySide_modReg (show RegId.tpCond ≠ .stwDuty by decide) h (tileNode i) 0 (setBit · 9 false)
  exact Hw.keeps_ite (P := Hw.dutySide) released ((Hw.dutySide_modReg (by decide) _ _ _ _).trans released)

theorem Hw.dutySide_haltRefresh (h : Hw) : h.haltRefresh.dutySide = h.dutySide := by
  unfold Hw.haltRefresh
  refine Hw.foldl_same Hw.dutySide _ _ (fun h t => ?_) h
  refine Hw.keeps_ite (P := Hw.dutySide) ?_ (Hw.keeps_ite (P := Hw.dutySide) ?_ rfl)
  · unfold Hw.haltPart
    exact (Hw.foldl_same Hw.dutySide _ _ Hw.dutySide_drainRequest _).trans (Hw.dutySide_modReg (by decide) _ _ _ _)
  · unfold Hw.resumePart
    exact (Hw.foldl_same Hw.dutySide _ _ Hw.dutySide_drainRelease _).trans (Hw.dutySide_modReg (by decide) _ _ _ _)

theorem Hw.dutyHolder_congr {g h : Hw} (e : g.reg .stwDuty = h.reg .stwDuty) (d : Nat) : g.dutyHolder d = h.dutyHolder d := by
  unfold Hw.dutyHolder
  rw [e]

/-- The core has failed: it is neither active nor halted. -/
def Hw.coreLost (h : Hw) (k : Nat) : Hw :=
  { h with stw := { h.stw with failed := h.stw.failed ||| 2 ^ k, active := clearBit h.stw.active k
                               halted := clearBit h.stw.halted k } }

/-- Core 4 takes the duties `ds`. -/
def Hw.standIn (h : Hw) (ds : List Nat) : Hw := ds.foldl (fun h d => h.giveDuty d (some 4)) h

theorem Hw.coreFail_standIn (works : h.stw.failed.testBit k = false) (other : k ≠ 4) (spare : h.stw.failed.testBit 4 = false)
    (idle : h.dutiesOf 4 = []) (duties : h.dutiesOf k ≠ []) :
    h.coreFail k = (((h.coreLost k).standIn (h.dutiesOf k)).logF2).haltRefresh := by
  have free : (k != 4 && !h.stw.failed.testBit 4 && (h.dutiesOf 4).isEmpty) = true := by simp [other, spare, idle]
  have some : ¬ (h.dutiesOf k).isEmpty = true := by simpa using duties
  unfold Hw.coreFail
  rw [if_neg (ne_true_of_eq_false works)]
  dsimp only
  rw [if_neg some, if_pos free]
  rfl

theorem Hw.dutyHolder_giveDuty_same {d : Nat} (small : d < 4) (h : Hw) : (h.giveDuty d (some 4)).dutyHolder d = some 4 := by
  have given : fld ((h.giveDuty d (some 4)).reg .stwDuty) (8 * d) 8 = 4 := by
    change fld ((h.modReg .stwDuty 0 0 (setFld · (8 * d) 8 4)).reg .stwDuty) (8 * d) 8 = 4
    rw [Hw.reg_modReg, if_pos ⟨rfl, rfl, rfl⟩]
    exact fld_setFld_same _ _ _ _ (by omega)
  unfold Hw.dutyHolder
  rw [given]
  rfl

theorem Hw.dutyHolder_giveDuty_other {d e : Nat} (n : e ≠ d) (h : Hw) : (h.giveDuty d (some 4)).dutyHolder e = h.dutyHolder e := by
  have kept : fld ((h.giveDuty d (some 4)).reg .stwDuty) (8 * e) 8 = fld (h.reg .stwDuty) (8 * e) 8 := by
    change fld ((h.modReg .stwDuty 0 0 (setFld · (8 * d) 8 4)).reg .stwDuty) (8 * e) 8 = _
    rw [Hw.reg_modReg, if_pos ⟨rfl, rfl, rfl⟩, fld_setFld_other _ _ _ _ _ _ (by omega)]
  unfold Hw.dutyHolder
  rw [kept]

theorem Hw.failed_standIn (ds : List Nat) (h : Hw) : (h.standIn ds).stw.failed = h.stw.failed :=
  Hw.foldl_same (fun h => h.stw.failed) ds (fun h d => h.giveDuty d (some 4)) (by intro h d; rfl) h

/-- Only core 4 becomes active by it. -/
theorem Hw.active_standIn (other : k ≠ 4) (ds : List Nat) (h : Hw) : (h.standIn ds).stw.active.testBit k = h.stw.active.testBit k := by
  refine Hw.foldl_same (fun h => h.stw.active.testBit k) ds (fun h d => h.giveDuty d (some 4)) (fun h d => ?_) h
  change (h.stw.active ||| 2 ^ 4).testBit k = h.stw.active.testBit k
  rw [Nat.testBit_or, Nat.testBit_two_pow_of_ne (Ne.symm other), Bool.or_false]

theorem Hw.dutyHolder_standIn_other {e : Nat} (ds : List Nat) (n : e ∉ ds) (h : Hw) : (h.standIn ds).dutyHolder e = h.dutyHolder e := by
  induction ds generalizing h with
  | nil => rfl
  | cons d ds ih =>
    rw [List.mem_cons, not_or] at n
    exact (ih n.2 _).trans (Hw.dutyHolder_giveDuty_other n.1 h)

theorem Hw.dutyHolder_standIn_of_mem {e : Nat} (small : e < 4) (ds : List Nat) (n : e ∈ ds) (h : Hw) :
    (h.standIn ds).dutyHolder e = some 4 := by
  induction ds generalizing h with
  | nil => cases n
  | cons d ds ih =>
    by_cases later : e ∈ ds
    · exact ih later _
    · have here : e = d := (List.mem_cons.mp n).resolve_right later
      subst here
      exact (Hw.dutyHolder_standIn_other ds later _).trans (Hw.dutyHolder_giveDuty_same small h)

theorem Hw.lt_of_mem_dutiesOf {d : Nat} (inside : d ∈ h.dutiesOf k) : d < 4 := List.mem_range.mp (List.mem_filter.mp inside).1

/-- What a failed core leaves where core 4 is free: its duties, and no other, are core 4's. -/
theorem Hw.coreFail_passes (works : h.stw.failed.testBit k = false) (other : k ≠ 4) (spare : h.stw.failed.testBit 4 = false)
    (idle : h.dutiesOf 4 = []) (duties : h.dutiesOf k ≠ []) :
    (h.coreFail k).stw.failed.testBit k = true ∧ (h.coreFail k).stw.active.testBit k = false ∧
      (∀ d ∈ h.dutiesOf k, (h.coreFail k).dutyHolder d = some 4) ∧
      (∀ d, d < 4 → d ∉ h.dutiesOf k → (h.coreFail k).dutyHolder d = h.dutyHolder d) := by
  have side : (h.coreFail k).dutySide = ((h.coreLost k).standIn (h.dutiesOf k)).dutySide := by
    rw [Hw.coreFail_standIn works other spare idle duties]
    exact (Hw.dutySide_haltRefresh _).trans (Hw.dutySide_modReg (by decide) _ _ _ _)
  have stw : (h.coreFail k).stw = ((h.coreLost k).standIn (h.dutiesOf k)).stw := (congrArg (·.1) side :)
  have holder (d : Nat) : (h.coreFail k).dutyHolder d = ((h.coreLost k).standIn (h.dutiesOf k)).dutyHolder d :=
    Hw.dutyHolder_congr (congrArg (·.2) side :) d
  refine ⟨?_, ?_, fun d inside => ?_, fun d _ outside => ?_⟩
  · rw [stw, Hw.failed_standIn]
    change (h.stw.failed ||| 2 ^ k).testBit k = true
    rw [Nat.testBit_or, Nat.testBit_two_pow_self, Bool.or_true]
  · rw [stw, Hw.active_standIn other]
    exact testBit_clearBit_same h.stw.active k
  · rw [holder]
    exact Hw.dutyHolder_standIn_of_mem (Hw.lt_of_mem_dutiesOf inside) _ inside _
  · rw [holder]
    exact Hw.dutyHolder_standIn_other _ outside _

/-! Halts, the timer, and the breakpoints' scope (R781 to R783, R804 to R806). -/

theorem Hw.coreHalt_of_permitted (running : h.running = true) (permits : bit h.fusDebugEff 2 = true)
    (works : h.stw.failed.testBit k = false) :
    h.coreHalt k = ({ h with stw := { h.stw with halted := h.stw.halted ||| 2 ^ k } } : Hw).haltRefresh :=
  if_pos (by rw [running, permits, works]; rfl)

theorem Hw.coreResume_of_halted (halts : h.stw.halted.testBit k = true) : h.coreResume k =
    (({ h with stw := { h.stw with halted := h.stw.halted - 2 ^ k } } : Hw).modReg .stwHeartbeat k 0 (setFld · 0 8 0)).haltRefresh := by
  rw [← clearBit_of_testBit halts]
  exact if_pos halts

theorem Hw.timerDue_of_due (due : h.mtimecmp k ≤ (h.now - h.stw.mtime0) / 12 % 2 ^ 64) :
    h.timerDue k = { h with stw := { h.stw with mtip := h.stw.mtip ||| 2 ^ k } } := by
  have refreshed : h.timerRefresh k = { h with stw := { h.stw with mtip := h.stw.mtip ||| 2 ^ k } } := by
    unfold Hw.timerRefresh
    rw [if_pos (show h.mtimecmp k ≤ h.mtime from due)]
  exact (if_pos due).trans refreshed

theorem merge_ones (old new : Word) : merge 0xFFFFFFFF#32 old new = new := by
  have ones : merge (BitVec.allOnes 32) old new = new := by
    unfold merge
    rw [BitVec.not_allOnes, BitVec.and_zero, BitVec.zero_or, BitVec.and_allOnes]
  exact ones

/-- What the lock rule makes of a write of the breakpoints' scope (R208): bit 5 of ANC_LOCK forbids the change. -/
theorem Hw.lockFilter_stwBreakCtl_locked (lock : bit (h.reg .ancLock) 5 = true) (p : Path) (addr : Nat) (old w : Word) :
    h.lockFilter p addr .stwBreakCtl old w = (if w = old then h else h.misuse p true 5 addr, old) := by
  have mask : lockedMask .stwBreakCtl (h.reg .ancLock) = 0xFFFFFFFF#32 := if_pos lock
  have all : (old ^^^ w) &&& 0xFFFFFFFF#32 = old ^^^ w := BitVec.and_allOnes
  unfold Hw.lockFilter
  dsimp only
  rw [mask, all]
  by_cases same : w = old
  · rw [if_pos same, if_pos (by rw [same, BitVec.xor_self]), same]
  · have differs : ¬ (old ^^^ w) = 0#32 := fun zero => same (BitVec.xor_eq_zero_iff.mp zero).symm
    rw [if_neg same, if_neg differs, merge_ones]

theorem Hw.plainWrite_stwBreakCtl (h : Hw) (p : Path) (addr : Nat) (v : Word) : h.plainWrite p addr 0 ⟨.stwBreakCtl, 0, 0⟩ v =
    (h.lockFilter p addr .stwBreakCtl (h.reg .stwBreakCtl) (merge (RegId.desc .stwBreakCtl).wmask (h.reg .stwBreakCtl) v)).1.setReg
      .stwBreakCtl 0 0
      (h.lockFilter p addr .stwBreakCtl (h.reg .stwBreakCtl) (merge (RegId.desc .stwBreakCtl).wmask (h.reg .stwBreakCtl) v)).2 := by
  unfold Hw.plainWrite
  dsimp only
  rw [if_neg (by decide), if_neg (by decide)]
  rfl

theorem Hw.regWrite_stwBreakCtl (h : Hw) (p : Path) (addr : Nat) (v : Word) (dev : NvmDevice) :
    h.regWrite p addr 0 ⟨.stwBreakCtl, 0, 0⟩ v dev = h.breakWrite p addr 0 ⟨.stwBreakCtl, 0, 0⟩ v := rfl

section
variable {p : Path} {addr : Nat} {v w : Word} (value : merge (RegId.desc .stwBreakCtl).wmask (h.reg .stwBreakCtl) v = w)
include value

theorem Hw.breakWrite_bad (bad : fld w 0 2 = 3) : h.breakWrite p addr 0 ⟨.stwBreakCtl, 0, 0⟩ v = h.misuse p true 9 addr := by
  subst value
  exact if_pos bad

theorem Hw.breakWrite_free (good : fld w 0 2 ≠ 3) (free : bit (h.reg .ancLock) 5 = false) :
    h.breakWrite p addr 0 ⟨.stwBreakCtl, 0, 0⟩ v = (h.setReg .stwBreakCtl 0 0 w).haltRefresh := by
  subst value
  have mask : lockedMask .stwBreakCtl (h.reg .ancLock) = 0#32 := if_neg (ne_true_of_eq_false free)
  have written : h.plainWrite p addr 0 ⟨.stwBreakCtl, 0, 0⟩ v =
      h.setReg .stwBreakCtl 0 0 (merge (RegId.desc .stwBreakCtl).wmask (h.reg .stwBreakCtl) v) := by
    rw [Hw.plainWrite_stwBreakCtl, Hw.lockFilter_of_free (by rw [mask, BitVec.and_zero])]
  exact (if_neg good).trans (congrArg Hw.haltRefresh written)

theorem Hw.breakWrite_locked (good : fld w 0 2 ≠ 3) (lock : bit (h.reg .ancLock) 5 = true) :
    h.breakWrite p addr 0 ⟨.stwBreakCtl, 0, 0⟩ v =
      ((if w = h.reg .stwBreakCtl then h else h.misuse p true 5 addr).setReg .stwBreakCtl 0 0 (h.reg .stwBreakCtl)).haltRefresh := by
  subst value
  have written := Hw.plainWrite_stwBreakCtl h p addr v
  rw [Hw.lockFilter_stwBreakCtl_locked lock] at written
  exact (if_neg good).trans (congrArg Hw.haltRefresh written)

end

/-! The mailbox, and the VFs' vectors (R789, R790, R797). -/

/-- A request in the mailbox that stands already only marks the second. -/
theorem Hw.mboxDoorbell_of_busy (busy : bit (h.reg .stwMboxStatus) 0 = true) (p : Path) :
    h.mboxDoorbell p 1#32 = h.modReg .stwMboxStatus 0 0 (setBit · 2 true) :=
  (if_neg (by decide)).trans (if_pos busy)

theorem Hw.mboxDoorbell_of_free (free : bit (h.reg .stwMboxStatus) 0 = false) (p : Path) : h.mboxDoorbell p 1#32 =
    h.modReg .stwMboxStatus 0 0 (fun w => setBit (setBit (setBit w 0 true) 1 false) 4 (p == .debug)) :=
  (if_neg (by decide)).trans (if_neg (ne_true_of_eq_false free))

theorem Hw.regWrite_stwMboxDb (h : Hw) (p : Path) (addr : Nat) (v : Word) (dev : NvmDevice) :
    h.regWrite p addr 0 ⟨.stwMboxDb, 0, 0⟩ v dev = h.mboxDoorbell p v := rfl

theorem Hw.regWrite_stwMboxDone (h : Hw) (p : Path) (addr : Nat) (dev : NvmDevice) :
    h.regWrite p addr 0 ⟨.stwMboxDone, 0, 0⟩ 1#32 dev =
      (h.modReg .stwMboxStatus 0 0 (fun w => setBit (setBit w 0 false) 1 true)).ringBell hostNode 0x20000 := by
  change h.mboxDone 1#32 = _
  unfold Hw.mboxDone
  exact if_pos (by decide)

theorem Hw.regWrite_stwVfIrq (h : Hw) (p : Path) (addr : Nat) (v : Word) (dev : NvmDevice) :
    h.regWrite p addr 0 ⟨.stwVfIrq, 0, 0⟩ v dev = h.vfIrq p addr v := rfl

end

end Sys2Proof.Machine

open Sys2Proof Sys2Proof.Machine

/-- Settles O57: a failed core's duties pass on by the fold over its duties; a halt, a resume and a write of the breakpoints'
scope end in the one refresh of the halted partitions. Which core a partner runs is the sender's (log entry 29). -/
theorem stewardCores : Obligations.StewardCores := by
  unfold Obligations.StewardCores
  intro s k h
  refine ⟨fun v opened => ?_, fun on active duties runs old => ?_, fun on duties works other spare idle old active runs => ?_,
    fun run n => ?_, fun on due => ?_, fun run permits works => ?_, fun on halts => ?_, ?_, ?_, fun p opened => ?_, fun p v opened => ?_⟩
  · refine (completes_heartbeatWrite k v s _).2 ?_
    rw [Hw.writeAt_open opened]
    exact Hw.regWrite_stwHeartbeat _ _ _ _ _ _
  · exact (completes_stewardHeartbeatFail k s _).2 ((Hw.clocked_on on).trans (Hw.heartbeatFail_of_old active duties runs old))
  · refine (completes_stewardHeartbeatFail k s _).2 ?_
    rw [Hw.clocked_on on, Hw.heartbeatFail_of_old active duties runs old]
    exact Hw.coreFail_passes works other spare idle duties
  · have on : h.dieState ≠ 7 := by rw [run]; decide
    have running : ¬ (!h.running) = true := by rw [show h.running = true from decide_eq_true run]; decide
    exact ⟨(completes_stewardCoreUe (some k) n s _).2 ((Hw.clocked_on on).trans (if_neg running)),
      (completes_stewardCoreUe none n s _).2 ((Hw.clocked_on on).trans (if_neg running))⟩
  · exact (completes_mtimeInterrupt k s _).2 ((Hw.clocked_on on).trans (Hw.timerDue_of_due due))
  · exact (completes_coreHalt k s _).2 ((Hw.clocked_on (by rw [run]; decide)).trans
      (Hw.coreHalt_of_permitted (decide_eq_true run) permits works))
  · exact (completes_coreResume k s _).2 ((Hw.clocked_on on).trans (Hw.coreResume_of_halted halts))
  · intro p v opened a at' old w
    have value : merge (RegId.desc .stwBreakCtl).wmask (a.reg .stwBreakCtl) v = w := by rw [Hw.reg_readied]
    have lock : a.reg .ancLock = h.reg .ancLock := Hw.reg_readied _ _ _ _ _
    have before : a.reg .stwBreakCtl = old := Hw.reg_readied _ _ _ _ _
    have cmd {g : Hw} (e : a.breakWrite p at' 0 ⟨.stwBreakCtl, 0, 0⟩ v = g) : Completes (.breakScopeWrite p v) s (fun g' => g' = g) := by
      refine (completes_breakScopeWrite p v s _).2 ?_
      rw [Hw.writeAt_open opened, Hw.regWrite_stwBreakCtl]
      exact e
    refine ⟨fun bad => ?_, fun good free => ?_, fun good locked => ?_⟩
    · exact cmd (Hw.breakWrite_bad value bad)
    · exact cmd (Hw.breakWrite_free value good (by rw [lock]; exact free))
    · rw [← before]
      exact cmd (Hw.breakWrite_locked value good (by rw [lock]; exact locked))
  · intro p opened a
    have status : a.reg .stwMboxStatus = h.reg .stwMboxStatus := Hw.reg_readied _ _ _ _ _
    have cmd {g : Hw} (e : a.mboxDoorbell p 1#32 = g) : Completes (.mboxDoorbell p) s (fun g' => g' = g) := by
      refine (completes_mboxDoorbell p s _).2 ?_
      rw [Hw.writeAt_open opened, Hw.regWrite_stwMboxDb]
      exact e
    exact ⟨fun busy => cmd (Hw.mboxDoorbell_of_busy (by rw [status]; exact busy) p),
      fun free => cmd (Hw.mboxDoorbell_of_free (by rw [status]; exact free) p)⟩
  · refine (completes_mboxDone p s _).2 ?_
    rw [Hw.writeAt_open opened]
    exact Hw.regWrite_stwMboxDone _ _ _ _
  · refine (completes_vfIrq p v s _).2 ?_
    rw [Hw.writeAt_open opened]
    exact Hw.regWrite_stwVfIrq _ _ _ _ _

end

section
/-! The services of the reference firmware (R791 to R795, R844, R845, Tables 18.5 and 18.6), and the obligation on them. -/

namespace Sys2Proof.Machine

section
variable {h g : Hw} {via : Option (Nat × Nat)} {b : List Byte} {code status : Nat} {results : List Byte}

/-! What a service comes to is its reply (R792, R793). -/

theorem Hw.serve_of_request {f : Hw → List Byte → Served} (asks : h.request via = some b) (named : u16 b 0 = code)
    (reserved : leAt b 4 4 = 0) (comes : f h b = (g, status, results)) : h.serve via code f = g.reply via (replyBytes b status results) := by
  unfold Hw.serve
  rw [asks]
  dsimp only
  rw [if_neg (not_not_intro named), if_neg (not_not_intro reserved), comes]

theorem Hw.serve_of_reserved {f : Hw → List Byte → Served} (asks : h.request via = some b) (named : u16 b 0 = code)
    (reserved : leAt b 4 4 ≠ 0) : h.serve via code f = h.reply via (replyBytes b ssBadArg []) := by
  unfold Hw.serve
  rw [asks]
  dsimp only
  rw [if_neg (not_not_intro named), if_pos reserved]

theorem Hw.serviceBad_of_unknown (asks : h.request via = some b) (unknown : serviceCodes.contains (u16 b 0) = false) :
    h.serviceBad via = h.reply via (replyBytes b ssBadService []) := by
  unfold Hw.serviceBad
  rw [asks]
  dsimp only
  rw [if_neg (ne_true_of_eq_false unknown)]

/-- The reply takes nothing of the NVM. -/
theorem Hw.cells_reply (h : Hw) (via : Option (Nat × Nat)) (b : List Byte) : (h.reply via b).nvm.cells = h.nvm.cells :=
  (congrArg (·.2.1) (Hw.vault_reply h via b) :)

/-! NVM_READ, NVM_WRITE and NVM_ERASE (R794, R795). -/

section
variable (asks : h.request via = some b) (reserved : leAt b 4 4 = 0)
include asks reserved

section
variable (named : u16 b 0 = 0x10) {ok timeout : Bool}
include named

theorem Hw.serviceNvmRead_bad (bad : u32 b 12 = 0 ∨ 0x100000 < u32 b 12 ∨ h.nvm.size < u32 b 8 + u32 b 12) :
    h.serviceNvmRead via ok timeout = h.reply via (replyBytes b ssBadArg []) :=
  Hw.serve_of_request asks named reserved (if_pos bad)

variable (nonzero : u32 b 12 ≠ 0) (most : u32 b 12 ≤ 0x100000) (inside : u32 b 8 + u32 b 12 ≤ h.nvm.size)
include nonzero most inside

omit asks reserved named in
theorem Hw.nvmRange_good : ¬ (u32 b 12 = 0 ∨ mib < u32 b 12 ∨ h.nvm.size < u32 b 8 + u32 b 12) := by
  unfold mib
  omega

theorem Hw.serviceNvmRead_timeout (cut : h.nvmBlocked = true ∨ timeout = true) :
    h.serviceNvmRead via ok timeout = h.reply via (replyBytes b ssNvm []) :=
  Hw.serve_of_request asks named reserved ((if_neg (Hw.nvmRange_good nonzero most inside)).trans (if_pos (by simpa using cut)))

theorem Hw.serviceNvmRead_host (reads : h.nvmBlocked = false) (intime : timeout = false) (fails : ok = false ∨ h.hostReady = false) :
    h.serviceNvmRead via ok timeout = h.reply via (replyBytes b ssHost []) :=
  Hw.serve_of_request asks named reserved ((if_neg (Hw.nvmRange_good nonzero most inside)).trans
    ((if_neg (by rw [reads, intime]; decide)).trans (if_pos (by simpa using fails))))

theorem Hw.serviceNvmRead_ok (reads : h.nvmBlocked = false) (intime : timeout = false) (taken : ok = true) (ready : h.hostReady = true) :
    h.serviceNvmRead via ok timeout = (h.toHost (leAt b 16 8) (h.nvmRead (u32 b 8) (u32 b 12))).reply via (replyBytes b ssOk []) :=
  Hw.serve_of_request asks named reserved ((if_neg (Hw.nvmRange_good nonzero most inside)).trans
    ((if_neg (by rw [reads, intime]; decide)).trans (if_neg (by rw [taken, ready]; decide))))

end

section
variable (named : u16 b 0 = 0x11) {data : List Byte}
include named

theorem Hw.serviceNvmWrite_bad (stop : Option (Nat × Bool))
    (bad : u32 b 12 = 0 ∨ 0x100000 < u32 b 12 ∨ u32 b 12 % 256 ≠ 0 ∨ u32 b 8 % 256 ≠ 0 ∨ h.nvm.size < u32 b 8 + u32 b 12) :
    h.serviceNvmWrite via data stop = h.reply via (replyBytes b ssBadArg []) :=
  Hw.serve_of_request asks named reserved (if_pos bad)

variable (good : ¬ (u32 b 12 = 0 ∨ mib < u32 b 12 ∨ u32 b 12 % 256 ≠ 0 ∨ u32 b 8 % 256 ≠ 0 ∨ h.nvm.size < u32 b 8 + u32 b 12))
include good

theorem Hw.serviceNvmWrite_protected (stop : Option (Nat × Bool)) (guarded : u8 b 24 = 0) (meets : h.overSlot (u32 b 8) (u32 b 12) = true) :
    h.serviceNvmWrite via data stop = h.reply via (replyBytes b ssProtected []) :=
  Hw.serve_of_request asks named reserved ((if_neg good).trans (if_pos ⟨guarded, meets⟩))

theorem Hw.serviceNvmWrite_ok (free : u8 b 24 ≠ 0 ∨ h.overSlot (u32 b 8) (u32 b 12) = false) (ready : h.hostReady = true)
    (takes : h.nvmBlocked = false) : h.serviceNvmWrite via data none =
      (h.nvmPages (u32 b 8) ((data ++ List.replicate (u32 b 12) 0xFF#8).take (u32 b 12))).reply via (replyBytes b ssOk []) := by
  have passes : ¬ (u8 b 24 = 0 ∧ h.overSlot (u32 b 8) (u32 b 12) = true) := by
    rintro ⟨guarded, meets⟩
    exact free.elim (· guarded) (fun e => by rw [e] at meets; cases meets)
  exact Hw.serve_of_request asks named reserved ((if_neg good).trans ((if_neg passes).trans
    ((if_neg (by rw [ready]; decide)).trans (if_neg (ne_true_of_eq_false takes)))))

end

end

/-- The cells after the erase commands. -/
def erasedCells (cmds : List (Nat × Nat)) (m : List Host.Cell) : List Host.Cell := cmds.foldl (fun m x => memClear m x.1 x.2) m

/-- The erase commands of an aligned range make its bytes FFH, and no other. -/
theorem memByte_erasedCells (c : Nat) : ∀ (k a n : Nat) (m : List Host.Cell), n % 4096 = 0 → n ≤ 4096 * k →
    memByte nvmByte (erasedCells (eraseCmds k a n) m) c = if a ≤ c ∧ c < a + n then nvmByte else memByte nvmByte m c := by
  intro k
  induction k with
  | zero =>
    intro a n m _ small
    rw [if_neg (by omega)]
    rfl
  | succ k ih =>
    intro a n m aligned small
    unfold eraseCmds
    have step (len : Nat) (part : len % 4096 = 0) (pos : 4096 ≤ len) (fits : len ≤ n) :
        memByte nvmByte (erasedCells ((a, len) :: eraseCmds k (a + len) (n - len)) m) c =
          if a ≤ c ∧ c < a + n then nvmByte else memByte nvmByte m c := by
      refine (ih (a + len) (n - len) (memClear m a len) (by omega) (by omega)).trans ?_
      rw [memByte_memClear]
      by_cases inside : a ≤ c ∧ c < a + n
      · rw [if_pos inside]
        by_cases first : c < a + len
        · rw [if_neg (by omega), if_pos ⟨inside.1, first⟩]
        · rw [if_pos (by omega)]
      · rw [if_neg inside, if_neg (by omega), if_neg (by omega)]
    by_cases none : n = 0
    · rw [if_pos none, if_neg (by omega)]
      rfl
    · rw [if_neg none]
      by_cases block : a % 0x10000 = 0 ∧ 0x10000 ≤ n
      · rw [if_pos block]
        exact step 0x10000 (by decide) (by decide) block.2
      · rw [if_neg block]
        exact step 0x1000 (by decide) (by decide) (by omega)

/-- The NVM with the erase commands done. -/
def Hw.erased (h : Hw) (cmds : List (Nat × Nat)) : Hw :=
  { h with nvm := { h.nvm with cells := erasedCells cmds h.nvm.cells } }

theorem Hw.foldl_memClear (cmds : List (Nat × Nat)) (h : Hw) :
    cmds.foldl (fun (h : Hw) x => { h with nvm := { h.nvm with cells := memClear h.nvm.cells x.1 x.2 } }) h = h.erased cmds := by
  induction cmds generalizing h with
  | nil => rfl
  | cons x cmds ih => exact ih _

section
variable (asks : h.request via = some b) (reserved : leAt b 4 4 = 0) (named : u16 b 0 = 0x12)
  (good : ¬ (u32 b 12 % 4096 ≠ 0 ∨ u32 b 8 % 4096 ≠ 0 ∨ h.nvm.size < u32 b 8 + u32 b 12))
include asks reserved named good

theorem Hw.serviceNvmErase_protected (stop : Option Nat) (guarded : u8 b 24 = 0) (meets : h.overSlot (u32 b 8) (u32 b 12) = true) :
    h.serviceNvmErase via stop = h.reply via (replyBytes b ssProtected []) :=
  Hw.serve_of_request asks named reserved ((if_neg good).trans (if_pos ⟨guarded, meets⟩))

theorem Hw.serviceNvmErase_ok (free : u8 b 24 ≠ 0 ∨ h.overSlot (u32 b 8) (u32 b 12) = false) (takes : h.nvmBlocked = false) :
    h.serviceNvmErase via none =
      (h.erased (eraseCmds (u32 b 12 / 4096) (u32 b 8) (u32 b 12))).reply via (replyBytes b ssOk []) := by
  have passes : ¬ (u8 b 24 = 0 ∧ h.overSlot (u32 b 8) (u32 b 12) = true) := by
    rintro ⟨guarded, meets⟩
    exact free.elim (· guarded) (fun e => by rw [e] at meets; cases meets)
  rw [← Hw.foldl_memClear]
  exact Hw.serve_of_request asks named reserved ((if_neg good).trans ((if_neg passes).trans (if_neg (by rw [takes, Bool.false_and]; decide))))

end

/-! RETIRE_SITE, COUNTER_DUMP and HANG_REPORT (R516, R844, R845). -/

section
variable (asks : h.request via = some b) (reserved : leAt b 4 4 = 0)
include asks reserved

theorem Hw.serviceRetire_of_range (named : u16 b 0 = 0x20) (none : 64 ≤ u8 b 8) :
    h.serviceRetire via = h.reply via (replyBytes b ssBadArg []) :=
  Hw.serve_of_request asks named reserved (if_pos none)

theorem Hw.serviceRetire_of_site (named : u16 b 0 = 0x20) (site : ¬ 64 ≤ u8 b 8) : h.serviceRetire via =
    (h.modReg .tpCfg (tileNode (u8 b 8)) 0 (setBit · 31 true)).reply via (replyBytes b ssOk []) :=
  Hw.serve_of_request asks named reserved (if_neg site)

section
variable (named : u16 b 0 = 0x40) (good : ¬ (2 ≤ u8 b 8 ∨ 2 ≤ u8 b 10 ∨ (u8 b 8 = 1 ∧ 64 ≤ u8 b 9))) {dump : List Byte} {ok : Bool}
  (dumped : h.counterDump (if u8 b 8 = 1 then some (u8 b 9) else none) (u8 b 10 == 1) = dump)
include named good dumped

theorem Hw.serviceDump_short (short : u32 b 24 < dump.length) :
    h.serviceDump via ok = h.reply via (replyBytes b ssBadArg (written 0 dump.length)) := by
  subst dumped
  exact Hw.serve_of_request asks named reserved ((if_neg good).trans (if_pos short))

theorem Hw.serviceDump_ok (room : ¬ u32 b 24 < dump.length) (taken : ok = true) (ready : h.hostReady = true) : h.serviceDump via ok =
    (h.toHost (leAt b 16 8) dump).reply via (replyBytes b ssOk (written dump.length dump.length)) := by
  subst dumped
  exact Hw.serve_of_request asks named reserved ((if_neg good).trans ((if_neg room).trans (if_neg (by rw [taken, ready]; decide))))

end

section
variable (named : u16 b 0 = 0x41) {ok : Bool}
include named

theorem Hw.serviceHang_none (none : (h.obs.reports.filter (fun r => u8 b 8 == 0xff || r.1 == u8 b 8)).getLast? = none) :
    h.serviceHang via ok = h.reply via (replyBytes b ssBadArg []) := by
  unfold Hw.serviceHang
  refine Hw.serve_of_request asks named reserved ?_
  dsimp only
  rw [none]

theorem Hw.serviceHang_ok {r : Nat × List Byte} (taken : ok = true) (ready : h.hostReady = true)
    (last : (h.obs.reports.filter (fun r => u8 b 8 == 0xff || r.1 == u8 b 8)).getLast? = some r) : h.serviceHang via ok =
      (if (cutReport r.2 (u32 b 24)).isEmpty then h else h.toHost (leAt b 16 8) (cutReport r.2 (u32 b 24))).reply via
        (replyBytes b ssOk (written (cutReport r.2 (u32 b 24)).length r.2.length)) := by
  unfold Hw.serviceHang
  refine Hw.serve_of_request asks named reserved ?_
  dsimp only
  rw [last]
  exact if_neg (by rw [taken, ready]; decide)

end

end

end

end Sys2Proof.Machine

open Sys2Proof Sys2Proof.Machine

/-- Settles O58: each service answers the request it names by its reply; an erased range is its erase commands, block by block. NVM_WRITE
programs bits from 1 to 0 only (log entry 23); the firmware is the reference firmware (log entry 29). -/
theorem firmwareServices : Obligations.FirmwareServices := by
  unfold Obligations.FirmwareServices
  intro s via b on h at' a n answer asks
  refine ⟨fun unknown => ?_, fun reserved named => ?_, fun reserved => ⟨fun named => ?_, fun named ok timeout => ⟨fun bad => ?_,
    fun nonzero most inside => ⟨fun cut => ?_, fun reads intime => ⟨fun fails => ?_, fun taken ready => ?_⟩⟩⟩,
    fun named data => ⟨fun bad stop => ?_, fun nonzero most pages aligned inside => ?_⟩, fun named pages aligned inside => ?_,
    fun named => ?_, fun named kind which tenant ok => ?_, fun named ok => ?_⟩⟩
  · exact (completes_badService via s _).2 ((Hw.clocked_on on).trans (Hw.serviceBad_of_unknown asks unknown))
  · exact (completes_info via s _).2 ((Hw.clocked_on on).trans (Hw.serve_of_reserved asks named reserved))
  · exact (completes_info via s _).2 ((Hw.clocked_on on).trans (Hw.serve_of_request asks named reserved rfl))
  · exact (completes_nvmRead via ok timeout s _).2 ((Hw.clocked_on on).trans (Hw.serviceNvmRead_bad asks reserved named bad))
  · exact (completes_nvmRead via ok timeout s _).2
      ((Hw.clocked_on on).trans (Hw.serviceNvmRead_timeout asks reserved named nonzero most inside cut))
  · exact (completes_nvmRead via ok timeout s _).2
      ((Hw.clocked_on on).trans (Hw.serviceNvmRead_host asks reserved named nonzero most inside reads intime fails))
  · exact (completes_nvmRead via ok timeout s _).2
      ((Hw.clocked_on on).trans (Hw.serviceNvmRead_ok asks reserved named nonzero most inside reads intime taken ready))
  · exact (completes_nvmWrite via data stop s _).2 ((Hw.clocked_on on).trans (Hw.serviceNvmWrite_bad asks reserved named stop bad))
  · have good : ¬ (u32 b 12 = 0 ∨ mib < u32 b 12 ∨ u32 b 12 % 256 ≠ 0 ∨ u32 b 8 % 256 ≠ 0 ∨ h.nvm.size < u32 b 8 + u32 b 12) := by
      unfold mib
      omega
    refine ⟨fun guarded meets stop => ?_, fun free ready takes => ?_⟩
    · exact (completes_nvmWrite via data stop s _).2
        ((Hw.clocked_on on).trans (Hw.serviceNvmWrite_protected asks reserved named good stop guarded meets))
    · exact (completes_nvmWrite via data none s _).2
        ((Hw.clocked_on on).trans (Hw.serviceNvmWrite_ok asks reserved named good free ready takes))
  · have good : ¬ (u32 b 12 % 4096 ≠ 0 ∨ u32 b 8 % 4096 ≠ 0 ∨ h.nvm.size < u32 b 8 + u32 b 12) := by omega
    refine ⟨fun guarded meets stop => ?_, fun free takes => ?_⟩
    · exact (completes_nvmErase via stop s _).2
        ((Hw.clocked_on on).trans (Hw.serviceNvmErase_protected asks reserved named good stop guarded meets))
    · refine (completes_nvmErase via none s _).2 ?_
      rw [Hw.clocked_on on, Hw.serviceNvmErase_ok asks reserved named good free takes]
      have cells := Hw.cells_reply (h.erased (eraseCmds (u32 b 12 / 4096) (u32 b 8) (u32 b 12))) at' (replyBytes b ssOk [])
      rw [cells]
      exact ⟨fun c => memByte_erasedCells c _ _ _ _ pages (by omega), rfl⟩
  · refine (completes_retireSite via s _).2 ((Hw.clocked_on on).trans ?_)
    by_cases none : 64 ≤ u8 b 8
    · rw [if_pos none]
      exact Hw.serviceRetire_of_range asks reserved named none
    · rw [if_neg none]
      exact Hw.serviceRetire_of_site asks reserved named none
  · intro dump
    have good : ¬ (2 ≤ u8 b 8 ∨ 2 ≤ u8 b 10 ∨ (u8 b 8 = 1 ∧ 64 ≤ u8 b 9)) := by omega
    refine ⟨fun short => ?_, fun room taken ready => ?_⟩
    · exact (completes_counterDump via ok s _).2 ((Hw.clocked_on on).trans (Hw.serviceDump_short asks reserved named good rfl short))
    · exact (completes_counterDump via ok s _).2
        ((Hw.clocked_on on).trans (Hw.serviceDump_ok asks reserved named good rfl (Nat.not_lt.mpr room) taken ready))
  · intro mine
    refine ⟨fun none => ?_, fun r last taken ready => ?_⟩
    · exact (completes_hangReport via ok s _).2 ((Hw.clocked_on on).trans
        (Hw.serviceHang_none asks reserved named (List.getLast?_eq_none_iff.mpr none)))
    · intro cut
      exact (completes_hangReport via ok s _).2 ((Hw.clocked_on on).trans (Hw.serviceHang_ok asks reserved named taken ready last))

end

section
/-! The word of FUS_DEBUG, which no access changes. -/

namespace Sys2Proof.Machine

/-- The word of FUS_DEBUG in a register file. -/
def fusDebugIn (regs : List (Reg × Word)) : Word := sget regs ⟨.fusDebug, 0, 0⟩ (RegId.desc .fusDebug).reset

@[simp] theorem fusDebugIn_setReg {id : RegId} (ne : id ≠ .fusDebug) (h : Hw) (i j : Nat) (v : Word) :
    fusDebugIn (h.setReg id i j v).regs = fusDebugIn h.regs := Hw.reg_setReg_other ne h i j 0 0 v

@[simp] theorem fusDebugIn_modReg {id : RegId} (ne : id ≠ .fusDebug) (h : Hw) (i j : Nat) (f : Word → Word) :
    fusDebugIn (h.modReg id i j f).regs = fusDebugIn h.regs := Hw.reg_modReg_other ne h i j 0 0 f

theorem fusDebugIn_foldl {α : Type} (l : List α) (g : Hw → α → Hw) (step : ∀ h x, fusDebugIn (g h x).regs = fusDebugIn h.regs) (h : Hw) :
    fusDebugIn (l.foldl g h).regs = fusDebugIn h.regs := Hw.foldl_same (fun h => fusDebugIn h.regs) l g step h

theorem RegId.other_ne_fusDebug {id : RegId} (ne : id ≠ .fusDebug) : id.other ≠ .fusDebug := by
  have pairs : ∀ q ∈ regPairs, q.1 ≠ .fusDebug ∧ q.2 ≠ .fusDebug := by decide
  unfold RegId.other
  split
  · next q found =>
    have pair := pairs q (List.mem_of_find?_eq_some found)
    split
    · exact pair.2
    · exact pair.1
  · exact ne

theorem syncStatusId_ne_fusDebug (s : Nat) : syncStatusId s ≠ .fusDebug := by
  unfold syncStatusId
  split
  · decide
  · decide

theorem syncCfgId_ne_fusDebug (s : Nat) : syncCfgId s ≠ .fusDebug := by
  obtain ⟨-, e⟩ | ⟨-, e⟩ := syncCfgId_cases s
  · rw [e]; decide
  · rw [e]; decide

/-- A far register is none of the fuses' shadows. -/
theorem findFar_ne_fusDebug {port lane off : Nat} {r : Reg} (found : findFar port lane off = some r) : r.id ≠ .fusDebug := by
  have far : ∀ id ∈ farRegs, id ≠ .fusDebug := by decide
  obtain ⟨id, inside, e⟩ := List.exists_of_findSome?_eq_some found
  rw [← Option.some.inj (Option.ite_none_right_eq_some.mp e).2]
  exact far id inside

@[simp] theorem Hw.fusDebug_setPath (h : Hw) (p : Path) (v : PathState) :
    fusDebugIn (h.setPath p v).regs = fusDebugIn h.regs := rfl

@[simp] theorem Hw.fusDebug_answer (h : Hw) (p : Path) (w : Word) :
    fusDebugIn (h.answer p w).regs = fusDebugIn h.regs := rfl

@[simp] theorem Hw.fusDebug_refuse (h : Hw) (p : Path) (fault : Bool) :
    fusDebugIn (h.refuse p fault).regs = fusDebugIn h.regs := rfl

@[simp] theorem Hw.fusDebug_vector (h : Hw) (fn v : Nat) :
    fusDebugIn (h.vector fn v).regs = fusDebugIn h.regs := by
  unfold Hw.vector
  split
  · rfl
  · simp

@[simp] theorem Hw.fusDebug_misuse (h : Hw) (p : Path) (write : Bool) (cause : Nat) (addr : Nat) :
    fusDebugIn (h.misuse p write cause addr).regs = fusDebugIn h.regs := by
  unfold Hw.misuse
  dsimp only
  split
  · simp
  · simp

@[simp] theorem Hw.fusDebug_notify (h : Hw) (n : Notice) :
    fusDebugIn (h.notify n).regs = fusDebugIn h.regs := rfl

@[simp] theorem Hw.fusDebug_raiseF0 (h : Hw) (cause node detail : Nat) :
    fusDebugIn (h.raiseF0 cause node detail).regs = fusDebugIn h.regs := rfl

@[simp] theorem Hw.fusDebug_lockFilter (h : Hw) (p : Path) (addr : Nat) (id : RegId) (w v : Word) :
    fusDebugIn (h.lockFilter p addr id w v).1.regs = fusDebugIn h.regs := by
  unfold Hw.lockFilter
  dsimp only
  split
  · rfl
  · simp

@[simp] theorem Hw.fusDebug_plainWrite (h : Hw) (p : Path) (addr view : Nat) (r : Reg) (v : Word) (ne : r.id ≠ .fusDebug) :
    fusDebugIn (h.plainWrite p addr view r v).regs = fusDebugIn h.regs := by
  have other : r.id.other ≠ .fusDebug := RegId.other_ne_fusDebug ne
  unfold Hw.plainWrite
  dsimp only
  repeat' split
  all_goals simp [ne, other]

@[simp] theorem Hw.fusDebug_setCplPend (h : Hw) (c : CplReg) (v : Option CplPend) :
    fusDebugIn (h.setCplPend c v).regs = fusDebugIn h.regs := by
  unfold Hw.setCplPend
  split <;> simp

@[simp] theorem Hw.fusDebug_cplValue (h : Hw) (p : Path) (c : CplReg) (v : Word) (addr : Nat) :
    fusDebugIn (h.cplValue p c v addr).regs = fusDebugIn h.regs := by
  unfold Hw.cplValue
  split
  · simp
  · simp

@[simp] theorem Hw.fusDebug_cplExpire (h : Hw) (c : CplReg) :
    fusDebugIn (h.cplExpire c).regs = fusDebugIn h.regs := by
  unfold Hw.cplExpire
  repeat' split
  all_goals simp

@[simp] theorem Hw.fusDebug_cplGuard (h : Hw) (p : Path) (c : CplReg) (g : Word) (addr : Nat) :
    fusDebugIn (h.cplGuard p c g addr).1.regs = fusDebugIn h.regs := by
  unfold Hw.cplGuard
  dsimp only
  repeat' split
  all_goals simp

@[simp] theorem Hw.fusDebug_acceptReset (h : Hw) (p : Path) (v : Word) (addr : Nat) :
    fusDebugIn (h.acceptReset p v addr).regs = fusDebugIn h.regs := by
  unfold Hw.acceptReset
  dsimp only
  repeat' split
  all_goals simp

@[simp] theorem Hw.fusDebug_acceptBurn (h : Hw) (p : Path) (v : Word) (addr : Nat) :
    fusDebugIn (h.acceptBurn p v addr).regs = fusDebugIn h.regs := by
  unfold Hw.acceptBurn
  dsimp only
  repeat' split
  all_goals simp

@[simp] theorem Hw.fusDebug_cplAccept (h : Hw) (p : Path) (c : CplReg) (v : Word) (addr : Nat) :
    fusDebugIn (h.cplAccept p c v addr).regs = fusDebugIn h.regs := by
  unfold Hw.cplAccept
  split <;> simp

@[simp] theorem Hw.fusDebug_guardWrite (h : Hw) (p : Path) (c : CplReg) (g : Word) (addr : Nat) :
    fusDebugIn (h.guardWrite p c g addr).regs = fusDebugIn h.regs := by
  have kept := Hw.fusDebug_cplGuard h p c g addr
  unfold Hw.guardWrite
  split
  · next g' w passed =>
    rw [passed] at kept
    simpa using kept
  · next g' stopped =>
    rw [stopped] at kept
    exact kept

@[simp] theorem Hw.fusDebug_nvmChoose (h : Hw) (sfdp : Option (Nat × Nat × Nat)) :
    fusDebugIn (h.nvmChoose sfdp).regs = fusDebugIn h.regs := by
  unfold Hw.nvmChoose
  simp

@[simp] theorem Hw.fusDebug_progStart (h : Hw) (p : Path) (cmd jedec : Nat) (sfdp : Option (Nat × Nat × Nat)) :
    fusDebugIn (h.progStart p cmd jedec sfdp).regs = fusDebugIn h.regs := by
  unfold Hw.progStart
  dsimp only
  repeat' split
  all_goals simp

@[simp] theorem Hw.fusDebug_setPhaseStage (h : Hw) (e v : Nat) :
    fusDebugIn (h.setPhaseStage e v).regs = fusDebugIn h.regs := rfl

@[simp] theorem Hw.fusDebug_phaseTarget (h : Hw) (e v : Nat) :
    fusDebugIn (h.phaseTarget e v).regs = fusDebugIn h.regs := by
  unfold Hw.phaseTarget
  dsimp only
  split
  · simp
  · simp

@[simp] theorem Hw.fusDebug_flowCfgSet (h : Hw) (n s : Nat) (w : Word) :
    fusDebugIn (h.flowCfgSet n s w).regs = fusDebugIn h.regs := by
  unfold Hw.flowCfgSet
  dsimp only
  split
  · simp
  · simp

@[simp] theorem Hw.fusDebug_flowRegWrite (h : Hw) (p : Path) (addr : Nat) (r : Reg) (w : Word) (ne : r.id ≠ .fusDebug) :
    fusDebugIn (h.flowRegWrite p addr r w).regs = fusDebugIn h.regs := by
  unfold Hw.flowRegWrite
  dsimp only
  repeat' split
  all_goals simp [ne]

@[simp] theorem Hw.fusDebug_phaseRegWrite (h : Hw) (p : Path) (addr : Nat) (r : Reg) (w : Word) :
    fusDebugIn (h.phaseRegWrite p addr r w).regs = fusDebugIn h.regs := by
  unfold Hw.phaseRegWrite
  split
  · simp
  · simp

@[simp] theorem Hw.fusDebug_setPort (h : Hw) (i : Nat) (p : TilePort) :
    fusDebugIn (h.setPort i p).regs = fusDebugIn h.regs := rfl

@[simp] theorem Hw.fusDebug_modPort (h : Hw) (i : Nat) (f : TilePort → TilePort) :
    fusDebugIn (h.modPort i f).regs = fusDebugIn h.regs := rfl

@[simp] theorem Hw.fusDebug_setPortState (h : Hw) (i s : Nat) :
    fusDebugIn (h.setPortState i s).regs = fusDebugIn h.regs := by
  unfold Hw.setPortState
  simp

@[simp] theorem Hw.fusDebug_ringBell (h : Hw) (n mask : Nat) :
    fusDebugIn (h.ringBell n mask).regs = fusDebugIn h.regs := by
  have rung := fusDebugIn_modReg (show RegId.nodeBell ≠ .fusDebug by decide) h n 0 (· ||| (BitVec.ofNat 32 mask &&& 0xFFFFFF#32))
  unfold Hw.ringBell
  dsimp only
  split
  · refine (fusDebugIn_foldl _ _ (fun g k => ?_) _).trans rung
    exact Hw.keeps_ite (P := fun g => fusDebugIn g.regs) rfl (Hw.fusDebug_vector g 0 (k + 2))
  · exact rung

@[simp] theorem Hw.fusDebug_clearBells (h : Hw) (n mask : Nat) :
    fusDebugIn (h.clearBells n mask).regs = fusDebugIn h.regs := by
  unfold Hw.clearBells
  simp

@[simp] theorem Hw.fusDebug_setChStatus (h : Hw) (c occ credits : Nat) (stalled : Bool) :
    fusDebugIn (h.setChStatus c occ credits stalled).regs = fusDebugIn h.regs := by
  unfold Hw.setChStatus
  simp

@[simp] theorem Hw.fusDebug_chEnable (h : Hw) (c : Nat) (w : Word) :
    fusDebugIn (h.chEnable c w).regs = fusDebugIn h.regs := by
  unfold Hw.chEnable
  simp

@[simp] theorem Hw.fusDebug_chDisable (h : Hw) (c : Nat) :
    fusDebugIn (h.chDisable c).regs = fusDebugIn h.regs := by
  unfold Hw.chDisable
  split
  · rfl
  · simp

@[simp] theorem Hw.fusDebug_chRegWrite (h : Hw) (p : Path) (addr : Nat) (r : Reg) (w : Word) :
    fusDebugIn (h.chRegWrite p addr r w).regs = fusDebugIn h.regs := by
  unfold Hw.chRegWrite
  dsimp only
  repeat' split
  all_goals simp

@[simp] theorem Hw.fusDebug_modSyncStatus (h : Hw) (s : Nat) (f : Word → Word) :
    fusDebugIn (h.modSyncStatus s f).regs = fusDebugIn h.regs := fusDebugIn_modReg (syncStatusId_ne_fusDebug s) _ _ _ _

@[simp] theorem Hw.fusDebug_sDrop (h : Hw) (n cause s : Nat) :
    fusDebugIn (h.sDrop n cause s).regs = fusDebugIn h.regs := by
  unfold Hw.sDrop
  simp

@[simp] theorem Hw.fusDebug_downSend (h : Hw) (p : SPkt) :
    fusDebugIn (h.downSend p).regs = fusDebugIn h.regs := by
  unfold Hw.downSend
  split
  · rfl
  · simp [fusDebugIn_foldl]

@[simp] theorem Hw.fusDebug_torusTx (h : Hw) (p kind : Nat) (ws : List Word) :
    fusDebugIn (h.torusTx p kind ws).regs = fusDebugIn h.regs := rfl

@[simp] theorem Hw.fusDebug_downRings (h : Hw) (p : SPkt) :
    fusDebugIn (h.downRings p).regs = fusDebugIn h.regs :=
  fusDebugIn_foldl _ (fun h q => h.torusTx q kDown p.toWords) (fun _ _ => rfl) h

@[simp] theorem Hw.fusDebug_torusDone (h : Hw) (p : SPkt) :
    fusDebugIn (h.torusDone p).regs = fusDebugIn h.regs := by
  unfold Hw.torusDone
  simp

@[simp] theorem Hw.fusDebug_torusStep (h : Hw) (s k : Nat) (p : SPkt) (axis : Nat) :
    fusDebugIn (h.torusStep s k p axis).regs = fusDebugIn h.regs := by
  induction k generalizing h p axis with
  | zero => rfl
  | succ k ih =>
    unfold Hw.torusStep
    dsimp only
    repeat' split
    all_goals simp [ih]

@[simp] theorem Hw.fusDebug_anchorDone (h : Hw) (p : SPkt) :
    fusDebugIn (h.anchorDone p).regs = fusDebugIn h.regs := by
  unfold Hw.anchorDone
  dsimp only
  split
  · simp
  · simp

@[simp] theorem Hw.fusDebug_syncDiscard (h : Hw) (s : Nat) :
    fusDebugIn (h.syncDiscard s).regs = fusDebugIn h.regs := rfl

@[simp] theorem Hw.fusDebug_syncDisable (h : Hw) (s : Nat) :
    fusDebugIn (h.syncDisable s).regs = fusDebugIn h.regs := by
  unfold Hw.syncDisable
  simp [syncStatusId_ne_fusDebug, syncCfgId_ne_fusDebug]

@[simp] theorem Hw.fusDebug_syncRegWrite (h : Hw) (p : Path) (addr : Nat) (r : Reg) (w : Word) (ne : r.id ≠ .fusDebug) :
    fusDebugIn (h.syncRegWrite p addr r w).regs = fusDebugIn h.regs := by
  unfold Hw.syncRegWrite
  dsimp only
  repeat' split
  all_goals simp [ne]

@[simp] theorem Hw.fusDebug_castFrom (h : Hw) (kind stage : Nat) (w0 w1 : Word) :
    fusDebugIn (h.castFrom kind stage w0 w1).regs = fusDebugIn h.regs := by
  unfold Hw.castFrom
  exact fusDebugIn_foldl _ _ (by intro g x; rfl) h

@[simp] theorem Hw.fusDebug_gongSee (h : Hw) (w1 : Word) :
    fusDebugIn (h.gongSee w1).regs = fusDebugIn h.regs := by
  unfold Hw.gongSee
  simp

@[simp] theorem Hw.fusDebug_gongSend (h : Hw) (op : Nat) (f0 torus : Bool) (tenant gen arg node : Nat) :
    fusDebugIn (h.gongSend op f0 torus tenant gen arg node).regs = fusDebugIn h.regs := by
  unfold Hw.gongSend
  repeat' split
  all_goals simp

@[simp] theorem Hw.fusDebug_gongTimed (h : Hw) (op lead : Nat) (torus snap : Bool) :
    fusDebugIn (h.gongTimed op lead torus snap).regs = fusDebugIn h.regs := by
  unfold Hw.gongTimed
  simp

@[simp] theorem Hw.fusDebug_gongFault (h : Hw) (f0 : Bool) (tenant : Nat) :
    fusDebugIn (h.gongFault f0 tenant).regs = fusDebugIn h.regs := by
  unfold Hw.gongFault
  split
  · rfl
  · simp

@[simp] theorem Hw.fusDebug_gongCtl (h : Hw) (p : Path) (addr : Nat) (w : Word) :
    fusDebugIn (h.gongCtl p addr w).regs = fusDebugIn h.regs := by
  unfold Hw.gongCtl
  repeat' split
  all_goals simp

@[simp] theorem Hw.fusDebug_snapshot (h : Hw) :
    fusDebugIn h.snapshot.regs = fusDebugIn h.regs := by
  unfold Hw.snapshot
  simp

@[simp] theorem Hw.fusDebug_openWindows (h : Hw) :
    fusDebugIn h.openWindows.regs = fusDebugIn h.regs := by
  unfold Hw.openWindows
  refine fusDebugIn_foldl _ _ (fun h i => ?_) h
  dsimp only
  repeat' split
  all_goals simp

@[simp] theorem Hw.fusDebug_takeSnapshot (h : Hw) :
    fusDebugIn h.takeSnapshot.regs = fusDebugIn h.regs := by
  unfold Hw.takeSnapshot
  simp

@[simp] theorem Hw.fusDebug_setCtx (h : Hw) (n k : Nat) (c : FoldCtx) :
    fusDebugIn (h.setCtx n k c).regs = fusDebugIn h.regs := rfl

@[simp] theorem Hw.fusDebug_foldEnable (h : Hw) (n k : Nat) (w : Word) :
    fusDebugIn (h.foldEnable n k w).regs = fusDebugIn h.regs := by
  unfold Hw.foldEnable
  simp

@[simp] theorem Hw.fusDebug_foldClear (h : Hw) (n k : Nat) :
    fusDebugIn (h.foldClear n k).regs = fusDebugIn h.regs := by
  unfold Hw.foldClear
  simp

@[simp] theorem Hw.fusDebug_foldRegWrite (h : Hw) (p : Path) (addr : Nat) (r : Reg) (w : Word) (ne : r.id ≠ .fusDebug) :
    fusDebugIn (h.foldRegWrite p addr r w).regs = fusDebugIn h.regs := by
  unfold Hw.foldRegWrite
  dsimp only
  repeat' split
  all_goals simp [ne]

@[simp] theorem Hw.fusDebug_freePage (h : Hw) (p : Nat) :
    fusDebugIn (h.freePage p).regs = fusDebugIn h.regs := by
  unfold Hw.freePage
  simp

@[simp] theorem Hw.fusDebug_leaseWrite (h : Hw) (p : Path) (addr : Nat) (r : Reg) (w : Word) (ne : r.id ≠ .fusDebug) :
    fusDebugIn (h.leaseWrite p addr r w).regs = fusDebugIn h.regs := by
  unfold Hw.leaseWrite
  dsimp only
  repeat' split
  all_goals simp [ne]

@[simp] theorem Hw.fusDebug_setJob (h : Hw) (t : Nat) (j : JobState) :
    fusDebugIn (h.setJob t j).regs = fusDebugIn h.regs := rfl

@[simp] theorem Hw.fusDebug_modJob (h : Hw) (t : Nat) (f : JobState → JobState) :
    fusDebugIn (h.modJob t f).regs = fusDebugIn h.regs := rfl

@[simp] theorem Hw.fusDebug_setSeq (h : Hw) (q j : Nat) (s : SeqState) :
    fusDebugIn (h.setSeq q j s).regs = fusDebugIn h.regs := rfl

@[simp] theorem Hw.fusDebug_slotDiscard (h : Hw) (i k : Nat) :
    fusDebugIn (h.slotDiscard i k).regs = fusDebugIn h.regs := by
  unfold Hw.slotDiscard
  simp [fusDebugIn_foldl]

@[simp] theorem Hw.fusDebug_cqRegWrite (h : Hw) (p : Path) (addr : Nat) (r : Reg) (w : Word) (ne : r.id ≠ .fusDebug) :
    fusDebugIn (h.cqRegWrite p addr r w).regs = fusDebugIn h.regs := by
  unfold Hw.cqRegWrite
  dsimp only
  repeat' split
  all_goals simp [ne]

@[simp] theorem Hw.fusDebug_drainRequest (h : Hw) (i : Nat) :
    fusDebugIn (h.drainRequest i).regs = fusDebugIn h.regs := by
  unfold Hw.drainRequest
  split
  · simp
  · rfl

@[simp] theorem Hw.fusDebug_drainRelease (h : Hw) (i : Nat) :
    fusDebugIn (h.drainRelease i).regs = fusDebugIn h.regs := by
  unfold Hw.drainRelease
  dsimp only
  repeat' split
  all_goals simp

@[simp] theorem Hw.fusDebug_tpRegWrite (h : Hw) (p : Path) (addr : Nat) (r : Reg) (w : Word) (ne : r.id ≠ .fusDebug) :
    fusDebugIn (h.tpRegWrite p addr r w).regs = fusDebugIn h.regs := by
  unfold Hw.tpRegWrite
  dsimp only
  repeat' split
  all_goals simp [ne]

@[simp] theorem Hw.fusDebug_powerRegWrite (h : Hw) (p : Path) (addr : Nat) (r : Reg) (w : Word) (ne : r.id ≠ .fusDebug) :
    fusDebugIn (h.powerRegWrite p addr r w).regs = fusDebugIn h.regs := by
  unfold Hw.powerRegWrite
  dsimp only
  repeat' split
  all_goals simp [ne]

@[simp] theorem Hw.fusDebug_msixPut (h : Hw) (fn off : Nat) (w : Word) :
    fusDebugIn (h.msixPut fn off w).regs = fusDebugIn h.regs := rfl

@[simp] theorem Hw.fusDebug_msixMessage (h : Hw) (fn v : Nat) :
    fusDebugIn (h.msixMessage fn v).regs = fusDebugIn h.regs := rfl

@[simp] theorem Hw.fusDebug_msixUnmasked (h : Hw) (fn v : Nat) :
    fusDebugIn (h.msixUnmasked fn v).regs = fusDebugIn h.regs := by
  unfold Hw.msixUnmasked
  split
  · rfl
  · simp

@[simp] theorem Hw.fusDebug_msixWrite (h : Hw) (fn off : Nat) (w : Word) :
    fusDebugIn (h.msixWrite fn off w).regs = fusDebugIn h.regs := by
  unfold Hw.msixWrite
  split
  · simp
  · rfl

@[simp] theorem Hw.fusDebug_winWrite (h : Hw) (p : Path) (addr view : Nat) (r : Reg) (v : Word) (ne : r.id ≠ .fusDebug) :
    fusDebugIn (h.winWrite p addr view r v).regs = fusDebugIn h.regs := by
  unfold Hw.winWrite
  dsimp only
  repeat' split
  all_goals simp [ne]

@[simp] theorem Hw.fusDebug_relayWrite (h : Hw) (p : Path) (addr : Nat) (rx : Bool) (v : Word) :
    fusDebugIn (h.relayWrite p addr rx v).regs = fusDebugIn h.regs := by
  unfold Hw.relayWrite
  repeat' split
  all_goals simp

@[simp] theorem Hw.fusDebug_launchDoorbell (h : Hw) (t : Nat) :
    fusDebugIn (h.launchDoorbell t).regs = fusDebugIn h.regs := by
  unfold Hw.launchDoorbell
  dsimp only
  repeat' split
  all_goals simp

@[simp] theorem Hw.fusDebug_jobStop (h : Hw) (t : Nat) :
    fusDebugIn (h.jobStop t).regs = fusDebugIn h.regs := by
  unfold Hw.jobStop
  repeat' split
  all_goals simp

@[simp] theorem Hw.fusDebug_modLane (h : Hw) (p k : Nat) (f : Word → Word) :
    fusDebugIn (h.modLane p k f).regs = fusDebugIn h.regs := by
  unfold Hw.modLane
  simp

@[simp] theorem Hw.fusDebug_phyRegWrite (h : Hw) (p : Path) (addr : Nat) (r : Reg) (v w : Word) (ne : r.id ≠ .fusDebug) :
    fusDebugIn (h.phyRegWrite p addr r v w).regs = fusDebugIn h.regs := by
  unfold Hw.phyRegWrite
  dsimp only
  repeat' split
  all_goals simp [ne]

@[simp] theorem Hw.fusDebug_linkRegWrite (h : Hw) (p : Path) (addr : Nat) (r : Reg) (w : Word) (ne : r.id ≠ .fusDebug) :
    fusDebugIn (h.linkRegWrite p addr r w).regs = fusDebugIn h.regs := by
  unfold Hw.linkRegWrite
  dsimp only
  repeat' split
  all_goals simp [ne]

@[simp] theorem Hw.fusDebug_hangRelease (h : Hw) :
    fusDebugIn h.hangRelease.regs = fusDebugIn h.regs := by
  unfold Hw.hangRelease
  simp

@[simp] theorem Hw.fusDebug_binFree (h : Hw) (n b : Nat) :
    fusDebugIn (h.binFree n b).regs = fusDebugIn h.regs := by
  unfold Hw.binFree
  simp

@[simp] theorem Hw.fusDebug_startJoin (h : Hw) (t : Nat) :
    fusDebugIn (h.startJoin t).regs = fusDebugIn h.regs := by
  unfold Hw.startJoin
  split
  · simp
  · rfl

@[simp] theorem Hw.fusDebug_haltPart (h : Hw) (t : Nat) :
    fusDebugIn (h.haltPart t).regs = fusDebugIn h.regs := by
  unfold Hw.haltPart
  simp [fusDebugIn_foldl]

@[simp] theorem Hw.fusDebug_resumePart (h : Hw) (t : Nat) :
    fusDebugIn (h.resumePart t).regs = fusDebugIn h.regs := by
  unfold Hw.resumePart
  simp [fusDebugIn_foldl]

@[simp] theorem Hw.fusDebug_haltRefresh (h : Hw) :
    fusDebugIn h.haltRefresh.regs = fusDebugIn h.regs := by
  unfold Hw.haltRefresh
  refine fusDebugIn_foldl _ _ (fun h t => ?_) h
  repeat' split
  all_goals simp

@[simp] theorem Hw.fusDebug_beginEnd (h : Hw) (t cause t0 : Nat) :
    fusDebugIn (h.beginEnd t cause t0).regs = fusDebugIn h.regs := by
  unfold Hw.beginEnd
  simp [fusDebugIn_foldl]

@[simp] theorem Hw.fusDebug_recordEnd (h : Hw) (t cause gen node origin bar phase detail source : Nat) (remote f0 : Bool) :
    fusDebugIn (h.recordEnd t cause gen node origin bar phase detail source remote f0).regs = fusDebugIn h.regs := by
  unfold Hw.recordEnd
  simp

@[simp] theorem Hw.fusDebug_jobComplete (h : Hw) (t : Nat) :
    fusDebugIn (h.jobComplete t).regs = fusDebugIn h.regs := by
  unfold Hw.jobComplete
  split
  · simp
  · rfl

@[simp] theorem Hw.fusDebug_heartbeat (h : Hw) (k : Nat) (v : Word) :
    fusDebugIn (h.heartbeat k v).regs = fusDebugIn h.regs := by
  unfold Hw.heartbeat
  simp

@[simp] theorem Hw.fusDebug_timerRefresh (h : Hw) (k : Nat) :
    fusDebugIn (h.timerRefresh k).regs = fusDebugIn h.regs := rfl

@[simp] theorem Hw.fusDebug_breakWrite (h : Hw) (p : Path) (addr view : Nat) (r : Reg) (v : Word) (ne : r.id ≠ .fusDebug) :
    fusDebugIn (h.breakWrite p addr view r v).regs = fusDebugIn h.regs := by
  unfold Hw.breakWrite
  split
  · simp
  · simp [ne]

@[simp] theorem Hw.fusDebug_mboxDoorbell (h : Hw) (p : Path) (v : Word) :
    fusDebugIn (h.mboxDoorbell p v).regs = fusDebugIn h.regs := by
  unfold Hw.mboxDoorbell
  repeat' split
  all_goals simp

@[simp] theorem Hw.fusDebug_mboxWrite (h : Hw) (p : Path) (addr view : Nat) (r : Reg) (v : Word) (ne : r.id ≠ .fusDebug) :
    fusDebugIn (h.mboxWrite p addr view r v).regs = fusDebugIn h.regs := by
  unfold Hw.mboxWrite
  split
  · simp
  · simp [ne]

@[simp] theorem Hw.fusDebug_mboxDone (h : Hw) (v : Word) :
    fusDebugIn (h.mboxDone v).regs = fusDebugIn h.regs := by
  unfold Hw.mboxDone
  split
  · simp
  · rfl

@[simp] theorem Hw.fusDebug_vfIrq (h : Hw) (p : Path) (addr : Nat) (v : Word) :
    fusDebugIn (h.vfIrq p addr v).regs = fusDebugIn h.regs := by
  unfold Hw.vfIrq
  split
  · simp
  · simp

@[simp] theorem Hw.fusDebug_readEffect (h : Hw) (p : Path) (r : Reg) :
    fusDebugIn (h.readEffect p r).regs = fusDebugIn h.regs := by
  unfold Hw.readEffect
  split
  · simp
  · simp
  · simp
  · split
    · next clears =>
      exact fusDebugIn_setReg (fun e => by rw [e] at clears; cases clears) h _ _ _
    · dsimp only
      split
      · simp
      · rfl

@[simp] theorem Hw.fusDebug_idxAdvance (h : Hw) (p : Path) :
    fusDebugIn (h.idxAdvance p).regs = fusDebugIn h.regs := by
  unfold Hw.idxAdvance
  dsimp only
  split
  · rfl
  · simp

@[simp] theorem Hw.fusDebug_idxRefuse (h : Hw) (p : Path) (write : Bool) (cause addr : Nat) :
    fusDebugIn (h.idxRefuse p write cause addr).regs = fusDebugIn h.regs := by
  unfold Hw.idxRefuse
  dsimp only
  split
  · simp
  · simp

@[simp] theorem Hw.fusDebug_idxRead (h : Hw) (p : Path) (addr : Nat) :
    fusDebugIn (h.idxRead p addr).regs = fusDebugIn h.regs := by
  unfold Hw.idxRead
  split
  · simp
  · simp

@[simp] theorem Hw.fusDebug_idxFarReadDone (h : Hw) (p : Path) :
    fusDebugIn (h.idxFarReadDone p).regs = fusDebugIn h.regs := by
  unfold Hw.idxFarReadDone
  repeat' split
  all_goals simp

@[simp] theorem Hw.fusDebug_farWrite (h : Hw) (p : Path) (r : Reg) (v : Word) (addr : Nat) (ne : r.id ≠ .fusDebug) :
    fusDebugIn (h.farWrite p r v addr).regs = fusDebugIn h.regs := by
  unfold Hw.farWrite
  split
  · simp
  · simp [ne]

@[simp] theorem Hw.fusDebug_idxPost (h : Hw) (p : Path) (addr : Nat) (v : Word) :
    fusDebugIn (h.idxPost p addr v).regs = fusDebugIn h.regs := by
  unfold Hw.idxPost
  split
  · simp
  · simp

@[simp] theorem Hw.fusDebug_idxFarWriteDone (h : Hw) (p : Path) :
    fusDebugIn (h.idxFarWriteDone p).regs = fusDebugIn h.regs := by
  unfold Hw.idxFarWriteDone
  split
  · rfl
  · dsimp only
    split
    · next r found => simp [findFar_ne_fusDebug found]
    · simp

@[simp] theorem Hw.fusDebug_idxWrite (h : Hw) (p : Path) (addr view : Nat) (r : Reg) (v : Word) :
    fusDebugIn (h.idxWrite p addr view r v).regs = fusDebugIn h.regs := by
  unfold Hw.idxWrite
  dsimp only
  split
  · simp
  · simp
  · simp

@[simp] theorem Hw.fusDebug_busRead (h : Hw) (p : Path) (addr : Nat) :
    fusDebugIn (h.busRead p addr).regs = fusDebugIn h.regs := by
  unfold Hw.busRead
  dsimp only
  repeat' split
  all_goals simp

@[simp] theorem Hw.fusDebug_freezeReq (h : Hw) (p : Path) (addr : Nat) (v : Word) :
    fusDebugIn (h.freezeReq p addr v).regs = fusDebugIn h.regs := by
  unfold Hw.freezeReq
  repeat' split
  all_goals simp

@[simp] theorem Hw.fusDebug_tntCtl (h : Hw) (p : Path) (addr t : Nat) (v : Word) :
    fusDebugIn (h.tntCtl p addr t v).regs = fusDebugIn h.regs := by
  unfold Hw.tntCtl
  repeat' split
  all_goals simp

@[simp] theorem Hw.fusDebug_guardedWrite (h : Hw) (p : Path) (addr view : Nat) (r : Reg) (v : Word) (ok : Word → Bool)
    (ne : r.id ≠ .fusDebug) :
    fusDebugIn (h.guardedWrite p addr view r v ok).regs = fusDebugIn h.regs := by
  unfold Hw.guardedWrite
  split
  · simp [ne]
  · simp

@[simp] theorem Hw.fusDebug_regWrite (h : Hw) (p : Path) (addr view : Nat) (r : Reg) (v : Word) (dev : NvmDevice) (ne : r.id ≠ .fusDebug) :
    fusDebugIn (h.regWrite p addr view r v dev).regs = fusDebugIn h.regs := by
  unfold Hw.regWrite
  dsimp only
  repeat' split
  all_goals simp [ne]

/-- A write that the checks stop changes no more than the log's registers. -/
theorem Hw.fusDebug_of_done {h g : Hw} {p : Path} {addr : Nat} (stopped : h.writeGate p addr = .done g) :
    fusDebugIn g.regs = fusDebugIn h.regs := by
  unfold Hw.writeGate at stopped
  dsimp only at stopped
  repeat' split at stopped
  all_goals cases stopped
  all_goals simp

/-- A write that the checks let pass is of a writable register. -/
theorem Hw.ne_fusDebug_of_go {h : Hw} {p : Path} {addr view : Nat} {r : Reg} (passed : h.writeGate p addr = .go view r) :
    r.id ≠ .fusDebug := by
  intro e
  have fixed : r.id.writable = false := by rw [e]; rfl
  unfold Hw.writeGate at passed
  dsimp only at passed
  repeat' split at passed
  all_goals cases passed
  all_goals simp_all

@[simp] theorem Hw.fusDebug_busWrite (h : Hw) (p : Path) (addr : Nat) (v : Word) (dev : NvmDevice) :
    fusDebugIn (h.busWrite p addr v dev).regs = fusDebugIn h.regs := by
  have ready : fusDebugIn ((h.idxFarReadDone p).setPath p { (h.idxFarReadDone p).path p with accessFault := false }).regs =
      fusDebugIn h.regs := Hw.fusDebug_idxFarReadDone h p
  unfold Hw.busWrite
  dsimp only
  split
  · exact ready
  · split
    · next g stopped => exact (Hw.fusDebug_of_done stopped).trans ready
    · next o _ => exact (Hw.fusDebug_msixWrite _ _ _ _).trans ready
    · next view r passed => exact (Hw.fusDebug_regWrite _ _ _ _ _ _ _ (Hw.ne_fusDebug_of_go passed)).trans ready

end Sys2Proof.Machine

end

section
/-! The JTAG port, the debug module and its system bus (R231, R232, R800 to R803, R808, Tables 18.7 and 18.8), and the obligation on them. -/

namespace Sys2Proof.Machine

section
variable {h : Hw}

/-! TAP instructions (R800, R801, R808). -/

/-- An enabled instruction other than bypass is selected with what its data register captures. -/
theorem Hw.tapSelect_enabled {code : Nat} (enabled : h.tapEnabled code = true) (other : code ≠ 0xff) (dr : BitVec 64) :
    h.tapSelect code dr = { h with dbg := { h.dbg with tap := code, captured := dr } } := by
  unfold Hw.tapSelect
  rw [if_pos enabled, if_neg other]

/-- A disabled instruction selects bypass, which captures 0. -/
theorem Hw.tapSelect_disabled {code : Nat} (disabled : h.tapEnabled code = false) (dr : BitVec 64) :
    h.tapSelect code dr = { h with dbg := { h.dbg with tap := 0xff, captured := 0#64 } } :=
  if_neg (ne_true_of_eq_false disabled)

section
variable (nvm : BitVec 12) (nvmOn : Bool) (dq : BitVec 9)

theorem Hw.samplePreload_scan (scan : bit h.fusDebugEff 1 = true) (load : BitVec 28) : h.samplePreload nvm nvmOn dq load =
    { h with dbg := { h.dbg with tap := 2, captured := BitVec.ofNat 64 (h.boundarySample nvm nvmOn dq), boundary := load } } := by
  unfold Hw.samplePreload
  rw [if_pos (show h.tapEnabled 2 = true from scan), Hw.tapSelect_enabled (show h.tapEnabled 2 = true from scan) (by decide)]

theorem Hw.extest_scan (scan : bit h.fusDebugEff 1 = true) (load : Option (BitVec 28)) : h.extest nvm nvmOn dq load =
    { h with dbg := { h.dbg with tap := 3, captured := BitVec.ofNat 64 (h.boundarySample nvm nvmOn dq),
                                 boundary := load.getD h.dbg.boundary } } := by
  unfold Hw.extest
  rw [if_pos (show h.tapEnabled 3 = true from scan), Hw.tapSelect_enabled (show h.tapEnabled 3 = true from scan) (by decide)]
  cases load
  · rfl
  · rfl

theorem Hw.samplePreload_off (off : bit h.fusDebugEff 1 = false) (load : BitVec 28) : h.samplePreload nvm nvmOn dq load =
    { h with dbg := { h.dbg with tap := 0xff, captured := 0#64 } } :=
  (if_neg (ne_true_of_eq_false (show h.tapEnabled 2 = false from off))).trans (Hw.tapSelect_disabled (show h.tapEnabled 2 = false from off) _)

theorem Hw.extest_off (off : bit h.fusDebugEff 1 = false) (load : Option (BitVec 28)) : h.extest nvm nvmOn dq load =
    { h with dbg := { h.dbg with tap := 0xff, captured := 0#64 } } :=
  (if_neg (ne_true_of_eq_false (show h.tapEnabled 3 = false from off))).trans (Hw.tapSelect_disabled (show h.tapEnabled 3 = false from off) _)

end

/-! The debug module's accesses leave FUS_DEBUG as it is. -/

@[simp] theorem Hw.fusDebug_setDm (h : Hw) (a : Nat) (v : Word) : fusDebugIn (h.setDm a v).regs = fusDebugIn h.regs := rfl

@[simp] theorem Hw.fusDebug_sbError (h : Hw) (e : Nat) : fusDebugIn (h.sbError e).regs = fusDebugIn h.regs := rfl

@[simp] theorem Hw.fusDebug_coreHalt (h : Hw) (k : Nat) : fusDebugIn (h.coreHalt k).regs = fusDebugIn h.regs := by
  unfold Hw.coreHalt
  split
  · simp
  · rfl

@[simp] theorem Hw.fusDebug_coreResume (h : Hw) (k : Nat) : fusDebugIn (h.coreResume k).regs = fusDebugIn h.regs := by
  unfold Hw.coreResume
  split
  · simp
  · rfl

@[simp] theorem Hw.fusDebug_sbAccess (h : Hw) (addr : Nat) (write : Option Word) :
    fusDebugIn (h.sbAccess addr write).regs = fusDebugIn h.regs := by
  unfold Hw.sbAccess
  dsimp only
  repeat' split
  all_goals simp

@[simp] theorem Hw.fusDebug_dmControl (h : Hw) (v : Word) : fusDebugIn (h.dmControl v).regs = fusDebugIn h.regs := by
  unfold Hw.dmControl
  dsimp only
  repeat' split
  all_goals simp [Hw.dmReset]

@[simp] theorem Hw.fusDebug_dmCommand (h : Hw) (v : Word) : fusDebugIn (h.dmCommand v).regs = fusDebugIn h.regs := by
  unfold Hw.dmCommand
  dsimp only
  repeat' split
  all_goals simp [Hw.fresh]

theorem Hw.fusDebug_dmiWrite (h : Hw) (a : Nat) (v : Word) : fusDebugIn (h.dmiWrite a v).regs = fusDebugIn h.regs := by
  unfold Hw.dmiWrite
  dsimp only
  repeat' split
  all_goals simp

theorem Hw.fusDebug_dmiRead (h : Hw) (a : Nat) : fusDebugIn (h.dmiRead a).1.regs = fusDebugIn h.regs := by
  unfold Hw.dmiRead
  repeat' split
  all_goals simp

/-- What leaves FUS_DEBUG leaves the TAP's instructions enabled. -/
theorem Hw.tapEnabled_of_fusDebug {g : Hw} (kept : fusDebugIn g.regs = fusDebugIn h.regs) (tap : bit h.fusDebugEff 0 = true) :
    g.tapEnabled 0x11 = true := by
  have same : g.fusDebugEff = h.fusDebugEff := by
    unfold Hw.fusDebugEff
    rw [show g.reg .fusDebug = h.reg .fusDebug from kept]
  have enabled : g.tapEnabled 0x11 = bit g.fusDebugEff 0 := rfl
  rw [enabled, same, tap]

/-! DMI accesses and the debug module's halts (R802, R803). -/

theorem Hw.dmi_disabled (off : bit h.fusDebugEff 0 = false) (a : BitVec 7) (w : Option Word) :
    h.dmi a w = { h with dbg := { h.dbg with tap := 0xff, captured := 0#64 } } := by
  have disabled : h.tapEnabled 0x11 = false := off
  exact (if_pos (by rw [disabled]; rfl)).trans (Hw.tapSelect_disabled disabled _)

section
variable (tap : bit h.fusDebugEff 0 = true)
include tap

theorem Hw.dmi_write (a : BitVec 7) (v : Word) : h.dmi a (some v) =
    { h.dmiWrite a.toNat v with dbg := { (h.dmiWrite a.toNat v).dbg with tap := 0x11, captured := 0#64 } } := by
  have enabled : h.tapEnabled 0x11 = true := tap
  exact (if_neg (by rw [enabled]; decide)).trans
    (Hw.tapSelect_enabled (Hw.tapEnabled_of_fusDebug (h.fusDebug_dmiWrite a.toNat v) tap) (by decide) _)

theorem Hw.dmi_read (a : BitVec 7) : h.dmi a none =
    { (h.dmiRead a.toNat).1 with dbg := { (h.dmiRead a.toNat).1.dbg with
      tap := 0x11, captured := (h.dmiRead a.toNat).2.setWidth 64 } } := by
  have enabled : h.tapEnabled 0x11 = true := tap
  exact (if_neg (by rw [enabled]; decide)).trans
    (Hw.tapSelect_enabled (Hw.tapEnabled_of_fusDebug (h.fusDebug_dmiRead a.toNat) tap) (by decide) _)

end

theorem Hw.halted_coreHalt {k : Nat} (running : h.running = true) (permits : bit h.fusDebugEff 2 = true)
    (works : h.stw.failed.testBit k = false) : (h.coreHalt k).stw.halted.testBit k = true := by
  rw [Hw.coreHalt_of_permitted running permits works]
  have kept := Hw.dutySide_haltRefresh { h with stw := { h.stw with halted := h.stw.halted ||| 2 ^ k } }
  rw [show (Hw.haltRefresh { h with stw := { h.stw with halted := h.stw.halted ||| 2 ^ k } }).stw = _ from (congrArg (·.1) kept :)]
  change (h.stw.halted ||| 2 ^ k).testBit k = true
  rw [Nat.testBit_or, Nat.testBit_two_pow_self, Bool.or_true]

/-- The selected hart as dmcontrol's select is written. -/
theorem Hw.dmHart_selected {k : Core} {v : Word} (select : fld v 16 3 = k.val) (permits : bit h.fusDebugEff 2 = true) :
    (h.setDm 0x10 (mkWord [(0, 1, 1), (16, 3, fld v 16 3)])).dmHart = some k.val := by
  have word : (h.setDm 0x10 (mkWord [(0, 1, 1), (16, 3, fld v 16 3)])).dm 0x10 = setFld (mkWord [(0, 1, 1)]) 16 3 (fld v 16 3) :=
    (nget_nset _ _ _ _ _).trans (if_pos rfl)
  have hart : fld ((h.setDm 0x10 (mkWord [(0, 1, 1), (16, 3, fld v 16 3)])).dm 0x10) 16 3 = k.val := by
    rw [word, fld_setFld_fld _ _ _ _ _ (by decide), select]
  have chosen : (decide (k.val < 5) && bit (h.setDm 0x10 (mkWord [(0, 1, 1), (16, 3, fld v 16 3)])).fusDebugEff 2) = true := by
    rw [decide_eq_true k.isLt, show bit (h.setDm 0x10 _).fusDebugEff 2 = true from permits]
    rfl
  unfold Hw.dmHart
  dsimp only
  rw [hart, if_pos chosen]

/-- A halt request of dmcontrol halts its hart. -/
theorem Hw.halted_dmControl {k : Core} {v : Word} (active : bit v 0 = true) (asks : bit v 31 = true) (select : fld v 16 3 = k.val)
    (permits : bit h.fusDebugEff 2 = true) (running : h.running = true) (works : h.stw.failed.testBit k = false) :
    (h.dmControl v).stw.halted.testBit k = true := by
  have hart := Hw.dmHart_selected select permits
  unfold Hw.dmControl
  rw [if_neg (by rw [active]; decide)]
  dsimp only
  rw [hart]
  dsimp only
  rw [if_pos asks]
  split
  · exact Hw.halted_coreHalt (h := _) running permits works
  · exact Hw.halted_coreHalt (h := _) running permits works

/-! The system bus (R232). -/

/-- A word of 32 bits is chosen for the access. -/
def Hw.sbSized (h : Hw) : Hw := h.setDm 0x38 (setFld (h.dm 0x38) 17 3 2)

theorem Hw.dm_sbSized (h : Hw) : h.sbSized.dm 0x38 = setFld (h.dm 0x38) 17 3 2 :=
  (nget_nset _ _ _ _ _).trans (if_pos rfl)

theorem Hw.size_sbSized (h : Hw) : fld (h.sbSized.dm 0x38) 17 3 = 2 := by
  rw [Hw.dm_sbSized]
  exact fld_setFld_same _ _ _ _ (by decide)

theorem Hw.error_sbSized (h : Hw) : fld (h.sbSized.dm 0x38) 12 3 = fld (h.dm 0x38) 12 3 := by
  rw [Hw.dm_sbSized, fld_setFld_other _ _ _ _ _ _ (by decide)]

theorem Hw.debugAccess_off (off : bit h.fusDebugEff 3 = false ∨ fld (h.dm 0x38) 12 3 ≠ 0) (addr : Nat) (w : Option Word) :
    h.debugAccess addr w = h.sbSized := by
  have stops : (!bit h.sbSized.fusDebugEff 3 || fld (h.sbSized.dm 0x38) 12 3 != 0) = true := by
    rcases off with e | e
    · rw [show bit h.sbSized.fusDebugEff 3 = false from e]
      rfl
    · rw [Hw.error_sbSized, bne_iff_ne.mpr e, Bool.or_true]
  exact if_pos stops

section
variable (on : bit h.fusDebugEff 3 = true) (clear : fld (h.dm 0x38) 12 3 = 0) {addr : Nat} {w : Option Word}
include on clear

theorem Hw.sbOpen : ¬ (!bit h.sbSized.fusDebugEff 3 || fld (h.sbSized.dm 0x38) 12 3 != 0) = true := by
  rw [show bit h.sbSized.fusDebugEff 3 = true from on, Hw.error_sbSized, clear]
  decide

theorem Hw.debugAccess_odd (odd : addr % 4 ≠ 0) : h.debugAccess addr w = h.sbSized.sbError 3 :=
  (if_neg (Hw.sbOpen on clear)).trans ((if_neg (not_not_intro h.size_sbSized)).trans (if_pos odd))

theorem Hw.debugAccess_beyond (aligned : addr % 4 = 0) (beyond : 0x10000000 ≤ addr) : h.debugAccess addr w = h.sbSized.sbError 2 :=
  (if_neg (Hw.sbOpen on clear)).trans ((if_neg (not_not_intro h.size_sbSized)).trans
    ((if_neg (not_not_intro aligned)).trans (if_pos beyond)))

end

/-- The debug path's access, after its last one's fault is forgotten. -/
def Hw.sbCarried (h : Hw) (addr : Nat) (w : Option Word) : Hw :=
  let b := h.sbSized.setPath .debug { h.sbSized.path .debug with accessFault := false }
  match w with
  | some v => b.busWrite .debug addr v noDevice
  | none => b.busRead .debug addr

section
variable (on : bit h.fusDebugEff 3 = true) (clear : fld (h.dm 0x38) 12 3 = 0) {addr : Nat} {w : Option Word}
  (aligned : addr % 4 = 0) (inside : addr < 0x10000000)
include on clear aligned inside

theorem Hw.debugAccess_denied (denied : ((h.sbCarried addr w).path .debug).accessFault = true) :
    h.debugAccess addr w = (h.sbCarried addr w).sbError 7 :=
  (if_neg (Hw.sbOpen on clear)).trans ((if_neg (not_not_intro h.size_sbSized)).trans
    ((if_neg (not_not_intro aligned)).trans ((if_neg (Nat.not_le.mpr inside)).trans (if_pos denied))))

theorem Hw.debugAccess_done (granted : ((h.sbCarried addr w).path .debug).accessFault = false) : h.debugAccess addr w =
    let d := if w.isNone then (h.sbCarried addr w).setDm 0x3c ((h.sbCarried addr w).path .debug).resp else h.sbCarried addr w
    if bit (d.dm 0x38) 16 then d.setDm 0x39 (d.dm 0x39 + 4#32) else d :=
  (if_neg (Hw.sbOpen on clear)).trans ((if_neg (not_not_intro h.size_sbSized)).trans
    ((if_neg (not_not_intro aligned)).trans ((if_neg (Nat.not_le.mpr inside)).trans (if_neg (ne_true_of_eq_false granted)))))

end

end

end Sys2Proof.Machine

open Sys2Proof Sys2Proof.Machine

/-- Settles O59: no access of the debug module changes FUS_DEBUG, so a DMI access leaves its instruction selected; the system bus carries
out one 32-bit access of the debug path. The words that Table 18.8 does not give are presumed (log entry 26), what an abstract command
reads is free (log entry 13). -/
theorem debugPort : Obligations.DebugPort := by
  unfold Obligations.DebugPort
  intro s h tap scan
  refine ⟨(completes_tapReset s _).2 rfl, (completes_idcode s _).2 rfl, (completes_bypass s _).2 rfl,
    fun on => ⟨?_, ?_, fun nvm nvmOn dq => ⟨?_, ?_⟩⟩,
    fun off => ?_, fun off a w => ?_, fun on => ⟨fun a v => ?_, fun a => ?_, fun v k active asks select permits run works => ?_⟩, ?_⟩
  · exact (completes_clamp s _).2 (Hw.tapSelect_enabled (h := h) (code := 4) on (by decide) _)
  · exact (completes_highz s _).2 (Hw.tapSelect_enabled (h := h) (code := 5) on (by decide) _)
  · exact fun load => (completes_samplePreload nvm nvmOn dq load s _).2 (Hw.samplePreload_scan nvm nvmOn dq on load)
  · exact fun load => (completes_extest nvm nvmOn dq load s _).2 (Hw.extest_scan nvm nvmOn dq on load)
  · have disabled : bit h.fusDebugEff 1 = false := Bool.eq_false_iff.2 off
    exact ⟨(completes_clamp s _).2 (Hw.tapSelect_disabled (h := h) (code := 4) disabled _),
      (completes_highz s _).2 (Hw.tapSelect_disabled (h := h) (code := 5) disabled _),
      fun nvm nvmOn dq => ⟨fun load => (completes_samplePreload nvm nvmOn dq load s _).2 (Hw.samplePreload_off nvm nvmOn dq disabled load),
        fun load => (completes_extest nvm nvmOn dq load s _).2 (Hw.extest_off nvm nvmOn dq disabled load)⟩⟩
  · exact (completes_dmi a w s _).2 (Hw.dmi_disabled off a w)
  · exact (completes_dmi a (some v) s _).2 (Hw.dmi_write on a v)
  · exact (completes_dmi a none s _).2 (Hw.dmi_read on a)
  · refine (completes_dmi 0x10#7 (some v) s _).2 ?_
    rw [Hw.dmi_write on]
    exact Hw.halted_dmControl active asks select permits (decide_eq_true run) works
  · intro addr w a
    have cmd {g : Hw} (e : h.debugAccess addr.toNat w = g) : Completes (.debugSysbusAccess addr w) s (fun g' => g' = g) :=
      (completes_debugSysbusAccess addr w s _).2 e
    refine ⟨fun off => cmd (Hw.debugAccess_off off _ _), fun on clear => ⟨fun odd => cmd (Hw.debugAccess_odd on clear odd),
      fun aligned beyond => cmd (Hw.debugAccess_beyond on clear aligned beyond), ?_⟩⟩
    intro aligned inside b c
    have carried : h.sbCarried addr.toNat w = c := by
      cases w
      · rfl
      · rfl
    rw [← carried]
    exact ⟨fun denied => cmd (Hw.debugAccess_denied on clear aligned inside denied),
      fun granted => cmd (Hw.debugAccess_done on clear aligned inside granted)⟩

end

section
/-! A read of CLK_BAR_LO latches the high word of the bar counter (R87), though the register is no half of a 64-bit one; the obligation on reads
forgets it. -/

namespace Sys2Proof.Machine

/-- The reset state with its bar counter at 2³². -/
def lateBar : Hw := { Hw.powerOn with bar := { Hw.powerOn.bar with bar := 0x100000000#48 } }

/-- The PF reads CLK_BAR_LO at 0x1010. -/
theorem readOpen_lateBar : lateBar.readOpen .pf 0x1010 ⟨.clkBarLo, 0, 0⟩ := by
  unfold Hw.readOpen
  decide

/-- The PF's path as a request of its begins. -/
def lateBarAsked : Hw := lateBar.setPath .pf { lateBar.path .pf with earlier := [] }

/-- The read latches the counter's high word, which is 1 here, for CLK_BAR_HI. -/
theorem barHi_read_lateBar : ((lateBar.readRequest .pf 0x1010 4 true).path .pf).barHi = 1#32 := by
  have asked : lateBar.readRequest .pf 0x1010 4 true = lateBarAsked.busRead .pf 0x1010 := rfl
  have opened : lateBarAsked.readOpen .pf 0x1010 ⟨.clkBarLo, 0, 0⟩ := readOpen_lateBar
  rw [asked, Hw.busRead_open opened]
  rfl

end Sys2Proof.Machine

open Sys2Proof Sys2Proof.Machine

/-- Refutes O21: CLK_BAR_LO is a register of 32 bits that a read does not clear, yet its read changes the path besides the answer: it latches
bits 47 to 32 of the counter for CLK_BAR_HI (R87). With the counter at 2³², the PF's read at 0x1010 leaves CLK_BAR_HI 1 and not 0. -/
theorem not_readsAndSnapshots : ¬ Obligations.ReadsAndSnapshots := by
  unfold Obligations.ReadsAndSnapshots
  rintro ⟨reads, -⟩
  obtain ⟨-, whole, -⟩ := reads ⟨lateBar, []⟩ .pf
  have claimed := (completes_evtRead .pf 0x1010#28 4#7 true ⟨lateBar, []⟩ _).1
    (whole 0x1010#28 ⟨.clkBarLo, 0, 0⟩ readOpen_lateBar (by decide) (by decide) (by decide))
  have latched : ((lateBar.readRequest .pf 0x1010 4 true).path .pf).barHi = 0#32 := (congrArg (fun g => (g.path .pf).barHi) claimed).trans rfl
  rw [barHi_read_lateBar] at latched
  exact absurd latched (by decide)

end
